-- ==== Sys2Proof/Word.lean ====
section
/-!
DEFINITION. The word types of the device: a byte, a 64-bit register and a 256-bit granule (spec/01_architecture.md,
R6: fields are little endian, bit 0 is the least significant bit of the lowest byte).
-/
namespace Sys2Proof

/-- A byte, the smallest addressable unit of HBM, of plate storage and of every frame. -/
abbrev Byte := BitVec 8

/-- A 64-bit register or a 64-bit field. -/
abbrev Word := BitVec 64

end Sys2Proof
end

