-- ==== Sys2Proof/Syntax.lean ====
section
/-!
DEFINITION. The commands of the device: one constructor per row of spec/opcode_table.json, in the table's order of
chapters. A constructor's operands are what the outside world chooses when the event happens: the value written to a
register and the path it comes by, the bytes that arrive on a lane, the outcome of something analogue. Everything
else about the event is decided by the state.
-/
namespace Sys2Proof

/-- A path into the register space (spec/21_register_pages.md R460). The first three are the management path (R69). -/
inductive Path where
  /-- A management chain CMD frame. -/
  | chain
  /-- Out-of-band SMBus or I3C. -/
  | oob
  /-- Ilnyx firmware in machine mode. -/
  | firmware
  /-- BAR0 of attach port `a`. -/
  | bar0 (a : Fin 16)
  /-- A fabric REGS request. -/
  | fabric
  deriving DecidableEq, Repr

/-- Why a pip lane goes down (spec/02_turns_and_pip_lanes.md R43). -/
inductive PipDownCause where
  | lossOfSignal
  /-- The code groups received since the lane's last report, code violations among them. -/
  | codeViolations (groups : List (BitVec 10))
  | retryFailure
  deriving DecidableEq, Repr

/-- What the receiver of a pip lane took in (spec/02_turns_and_pip_lanes.md R43): the bits received, first bit first, up to
64 idle ordered sets and more. -/
structure LaneBits where
  lane : Fin 16
  bits : List Bool
  deriving DecidableEq, Repr

/-- Symbol errors that struck a granule: symbol number 0 to 35 and the bits it was changed by. -/
abbrev SymbolErrors := List (Nat × Byte)

/-- What went wrong by the time a read of an HBM line returns (spec/13_hbm_and_hatch_code.md R295, R300): the symbol errors
that have struck its granules, by index in the line; and the granules of HBM whose next pass through the memory cipher fails
its round trip. -/
structure ReadErrors where
  struck : List (Nat × SymbolErrors)
  cipher : List Nat
  deriving DecidableEq, Repr

/-- What a read of a module's identity finds (spec/19_bringup_and_identity.md R436): no module in the cage, as its presence pin
shows; no answer; or lower page bytes 0 to 3 and upper page 00h bytes 129 to 181. -/
inductive ModuleRead where
  | absent
  | failed
  | bytes (lower upper : List Byte)
  deriving DecidableEq, Repr

/-- An access of the register space: its address and its bytes (spec/21_register_pages.md R462). -/
structure RegAccess where
  addr : BitVec 32
  bytes : Nat := 8
  deriving DecidableEq, Repr

/-- An access of an Ilnyx core to a physical address (spec/15_ilnyx_cores.md R339, R341). -/
inductive CoreAccess where
  | load (bytes : Nat)
  | store (data : List Byte)
  /-- AMOADD.D, AMOSWAP.D, AMOAND.D, AMOOR.D, AMOXOR.D, AMOMIN.D, AMOMAX.D, AMOMINU.D, AMOMAXU.D, in that order. -/
  | amo (f : Fin 9) (operand : Word)
  /-- A unit-stride vector access: the elements' size, and the bytes. -/
  | vectorLoad (size bytes : Nat)
  | vectorStore (size : Nat) (data : List Byte)
  /-- A strided or indexed vector access: the elements' offsets from the address. -/
  | elementLoad (size : Nat) (offsets : List (BitVec 64))
  | elementStore (elements : List (BitVec 64 × List Byte))
  /-- An atomic on 4 bytes, in the order of `amo`. -/
  | amoW (f : Fin 9) (operand : BitVec 32)
  /-- LR of 4 or 8 bytes, and SC. -/
  | lr (bytes : Nat)
  | sc (data : List Byte)
  deriving DecidableEq, Repr

/-- A request that an engine or an attached agent asks its end-point for (spec/04_ronpel_transactions.md Table 4-1). -/
structure Request where
  opcode : Byte
  addr : BitVec 64
  bytes : Nat
  data : List Byte
  xfmt : Fin 8
  deriving DecidableEq, Repr

/-- Why a link goes down (spec/12_vangeri_links.md R287). -/
inductive LinkCause where
  | replay | align | los | cmd
  deriving DecidableEq, Repr

/-- A granule of a codeword as received: its 32 data bytes, and whether its check bits are those of a poisoned granule. -/
structure LinkGranule where
  data : List Byte
  poison : Bool
  deriving DecidableEq, Repr

/-- A codeword's link-control field, of type NORMAL, CREDIT_INIT or STATE (Tables 12-2, 12-3), and its 17 granules. Of
a STATE field, `request` stands in bits [239:236], the top four bits of LSEQ. -/
structure LinkCodeword where
  type : Fin 16
  lseq : BitVec 12
  request : Fin 16
  ackSeq : BitVec 12
  nak : Bool
  credit : List Nat
  hdrMap : BitVec 17
  idleMap : BitVec 17
  granules : List LinkGranule
  deriving DecidableEq, Repr

/-- An IDENT link-control field (Table 12-7). -/
structure LinkIdent where
  domain : Byte
  member : BitVec 7
  port : BitVec 7
  keyFamily : BitVec 16
  keySlot : Fin 4
  encReq : Bool
  freeRun : Bool
  nonce : BitVec 128
  deriving DecidableEq, Repr

/-- What FEC and authentication make of a received codeword. -/
inductive LineIn where
  /-- FEC cannot correct it. -/
  | uncorrectable
  /-- Codeword `n`, a marker codeword, or one that came where a marker is due: the receive lanes whose marker is there and well
  formed. -/
  | marker (n : Nat) (good : BitVec 4)
  /-- A codeword, and whether its tag is the one its link key gives (true on a link that is not encrypted). -/
  | codeword (cw : LinkCodeword) (authentic : Bool)
  deriving DecidableEq, Repr

/-- A PCIe AtomicOp request of 64 bits that BAR2 takes, or any other request type it does not (R318). -/
inductive Bar2Op where
  | fetchAdd (operand : BitVec 64)
  | swap (operand : BitVec 64)
  | cas (compare swap : BitVec 64)
  | other
  deriving DecidableEq, Repr

/-- What a PCIe completion of a host read says (R327). -/
inductive HostReply where
  | data (bytes : List Byte) (poison : Bool)
  | unsupported
  | abort
  deriving DecidableEq, Repr

/-- An ATS translation: the page's size as a power of two of 4 KiB, its translated address and its permissions. -/
structure AtsResult where
  log2 : Fin 19
  addr : BitVec 64
  read : Bool
  write : Bool
  deriving DecidableEq, Repr

/-- A PCIe capability that the function may have (Table 14-1). -/
inductive CfgCap where
  | msix | pasid | ats | pri | doe | ide | sriov | ari | tph | ptm | ln | deferrableWrite
  deriving DecidableEq, Repr

/-- What a configuration read asks for, by the name of its field: the spec gives the fields' values (Table 14-1), and where PCIe
software finds each is PCIe's. `other` is a field or control bit that is not listed. -/
inductive CfgField where
  | classCode | flitMode | maxPayload | maxReadRequest | tag14Requester | tag14Completer | multiFunction
  | pasidWidth | pasidExecute | pasidPrivileged | atsEnabled | atsUnit | atsQueueDepth | atsPageAligned
  | priEnabled | priCapacity | priStopMarker | atomic32 | atomic64 | atomic128 | atomicRequester
  | ideLinkStreams | ideSelectiveStreams | tdisp | msixVectors | msixEnabled | msixMask
  | capability (c : CfgCap)
  | other
  deriving DecidableEq, Repr

/-- What a selective IDE stream is bound to a range of (R333). -/
inductive IdeSpace where
  | bar2 | bar4 | host
  deriving DecidableEq, Repr

/-- A configuration request, as far as it bears on the state (R313, R332): reads and writes of other capabilities are
answered as PCIe gives. -/
inductive ConfigReq where
  /-- A read of a field. -/
  | read (field : CfgField)
  /-- Selective stream `stream` + 1 bound to the addresses from `base` up to `limit` of a space (R333). -/
  | ideBind (stream : Fin 4) (space : IdeSpace) (base limit : Word)
  /-- A read of BAR2, and a write of it: a host finds the size by writing ones (R72). -/
  | bar2Read
  | bar2Write (value : Word)
  | atsEnable (on : Bool)
  /-- PRI enable and the page-request allocation. -/
  | priEnable (on : Bool) (alloc : Nat)
  | msixControl (enable mask : Bool)
  /-- The mask bit of a vector in the MSI-X table of BAR4 (Table 14-2), which the host sets up as it does the configuration
  space and which no row of its own covers (DESIGN CHOICE, notes/assumptions/53). -/
  | msixMask (vector : Fin 66) (masked : Bool)
  /-- A read of BAR0 or BAR4, and a write of it (R316, R317). -/
  | bar0Read
  | bar0Write (value : Word)
  | bar4Read
  | bar4Write (value : Word)
  /-- An aligned 8-byte access to BAR4's memory that is no doorbell write, with its PCIe tag (R317); no row of its own covers it
  (DESIGN CHOICE, notes/assumptions/53). -/
  | mem4Read (tag : BitVec 14) (word : BitVec 19)
  | mem4Write (word : BitVec 19) (data : Word)
  | other
  deriving DecidableEq, Repr

/-- A vendor-defined SPDM request: IDE_KM or TDISP (R333, R334). Stream 0 is the link stream, 1 to 4 are selective. -/
inductive VendorMsg where
  | ideQuery
  /-- A key of 256 bits and an initial IV of 64 for one direction and sub-stream of a key set. -/
  | ideKeyProg (stream : Fin 5) (keySet transmit : Bool) (sub : Fin 3) (key : BitVec 256) (iv : BitVec 64)
  | ideKeySetGo (stream : Fin 5)
  | ideKeySetStop (stream : Fin 5)
  | tdispGetVersion
  | tdispGetCapabilities
  /-- The nonce that the device answers with is drawn from its random source. -/
  | tdispLock (nonce : BitVec 256)
  | tdispReport
  | tdispState
  | tdispStart (nonce : BitVec 256)
  | tdispStop
  | other
  deriving DecidableEq, Repr

/-- The commands of the device. -/
inductive Instr where
  -- spec/02_turns_and_pip_lanes.md
  /-- TURN_BOUNDARY (R30). -/
  | turnBoundary
  /-- TRN_START (R57): `data` is written to TRN_CTL. -/
  | trnStart (path : Path) (data : Word)
  /-- TIME_ROOT_DESIGNATE (R41): `data` is written to TRN_CTL. -/
  | timeRootDesignate (path : Path) (data : Word)
  /-- TURN_MARK_SEND (R33). -/
  | turnMarkSend
  /-- TURN_MARK_RECEIVE (R37): the 11 bytes after K28.1; the mark arrived `frac`/1,024 turn after the turn boundary. -/
  | turnMarkReceive (lane : Fin 16) (bytes : List Byte) (frac : Fin 1024)
  /-- ECHO_REQ_SEND (R35). -/
  | echoReqSend
  /-- ECHO_REQ_RECEIVE (R35): the 3 bytes after K28.2; `hold` is the time until the response leaves, 1/1,024 turn. -/
  | echoReqReceive (lane : Fin 16) (bytes : List Byte) (hold : BitVec 32)
  /-- ECHO_RSP_RECEIVE (R35): the 7 bytes after K28.3, arriving `frac`/1,024 turn after the turn boundary. -/
  | echoRspReceive (lane : Fin 16) (bytes : List Byte) (frac : Fin 1024)
  /-- FREQUENCY_LOCK (R36). -/
  | frequencyLock
  /-- ALIGN_TIMEOUT (R36). -/
  | alignTimeout
  /-- UPSTREAM_SWITCH (R39). -/
  | upstreamSwitch
  /-- IDENT_RECEIVE (R43): the lane's oldest accepted frame is an IDENT. -/
  | identReceive (lane : Fin 16)
  /-- PIP_LANE_DOWN (R43). -/
  | pipLaneDown (lane : Fin 16) (cause : PipDownCause)
  /-- PIP_FRAME_RECEIVE (R46): the bytes between SOF and EOF. -/
  | pipFrameReceive (lane : Fin 16) (bytes : List Byte)
  /-- PIP_ACK_RECEIVE (R46). -/
  | pipAckReceive (lane : Fin 16) (seq : Byte)
  /-- PIP_NAK_RECEIVE (R46). -/
  | pipNakReceive (lane : Fin 16) (seq : Byte)
  /-- PIP_RETRANSMIT_TIMEOUT (R46). -/
  | pipRetransmitTimeout (lane : Fin 16)
  /-- HB_SEND (R53). -/
  | hbSend
  /-- HB_RECEIVE (R53): the 5 bytes after K28.4. -/
  | hbReceive (lane : Fin 16) (bytes : List Byte)
  /-- HB_MISSING (R53). -/
  | hbMissing (lane : Fin 16)
  /-- PRESENCE_RECEIVE (R54): the lane's oldest accepted frame is a PRESENCE. -/
  | presenceReceive (lane : Fin 16)
  /-- SUBTREE_RECEIVE (R48). -/
  | subtreeReceive (lane : Fin 16)
  /-- SC_UP_RECEIVE (R48). -/
  | scUpReceive (lane : Fin 16)
  /-- SC_DOWN_RECEIVE (R48). -/
  | scDownReceive (lane : Fin 16)
  /-- COMMIT_UP_RECEIVE (R48). -/
  | commitUpReceive (lane : Fin 16)
  /-- COMMIT_DOWN_RECEIVE (R220). -/
  | commitDownReceive (lane : Fin 16)
  /-- COUNTS_RECEIVE (R213). -/
  | countsReceive (lane : Fin 16)
  /-- P2P_RECEIVE (R50). -/
  | p2pReceive (lane : Fin 16)
  /-- RESIGN_RECEIVE (R52). -/
  | resignReceive (lane : Fin 16)
  /-- RESIGN_MEMORY_EXPIRY (R52). -/
  | resignMemoryExpiry
  /-- DOM_ROOT_WRITE (R476): `data` is written to TRN_CTL. -/
  | domRootWrite (path : Path) (data : Word)
  /-- ROOT_ABSENCE_SWEEP (R476). -/
  | rootAbsenceSweep
  /-- COMMA_ALIGNMENT (R43) on the lane that received the bits. -/
  | commaAlignment (rx : LaneBits)
  -- spec/03_fabric_addressing.md, spec/04_ronpel_transactions.md, spec/05_memory_model.md
  /-- REP_WIN_A_WRITE (R70): `data` is written to REP_WIN_A of end-point `n`, entry `e`. -/
  | repWinAWrite (path : Path) (n : Fin 21) (e : Fin 64) (data : Word)
  /-- REP_WIN_BC_WRITE (R70): `data` is written to REP_WIN_C (`c`) or REP_WIN_B of end-point `n`, entry `e`. -/
  | repWinBCWrite (path : Path) (n : Fin 21) (e : Fin 64) (c : Bool) (data : Word)
  /-- REQUEST_ISSUE (R79): an engine or agent asks for `req` on requester queue `queue`. -/
  | requestIssue (queue : Fin 512) (req : Request)
  /-- TRACKER_WAIT_RELEASE (R79): the oldest request of the queue that may go on. -/
  | trackerWaitRelease (queue : Fin 512)
  /-- REQUEST_TAKE (R85): the oldest request delivered to end-point `ep`. -/
  | requestTake (ep : Fin 21)
  /-- LINE_QUEUE_SERVICE (R91): the head of the queue of line `line` (offset / 128) of the memory or plate EP; of another
  end-point, the oldest request it has taken. -/
  | lineQueueService (ep : Fin 21) (line : Nat)
  /-- HBM_READ_COMPLETE (R300): the read that the head of HBM line `line` waits for returns. -/
  | hbmReadComplete (line : Nat) (errors : ReadErrors)
  /-- LINE_UNPIN (R92). -/
  | lineUnpin (line : Nat)
  /-- PINNED_WRITE_BACK (R93). -/
  | pinnedWriteBack (line : Nat)
  /-- RESPONSE_RECEIVE (R89): the oldest response delivered to end-point `ep`. -/
  | responseReceive (ep : Fin 21)
  /-- RESPONSE_TIMEOUT (R88) of the request with tracker tag `tag`. -/
  | responseTimeout (tag : BitVec 18)
  /-- RETRY_SEND (R88) of the request with tracker tag `tag`. -/
  | retrySend (tag : BitVec 18)
  /-- PROOF_GO_RECEIVE (R83): the oldest PROOF_GO delivered to end-point `ep`. -/
  | proofGoReceive (ep : Fin 21)
  /-- PARK_ENTRY_EXPIRE (R83): the park entry of this source, virtual channel and SEQ. -/
  | parkEntryExpire (ep : Fin 21) (src : BitVec 20) (vc : Fin 8) (seq : BitVec 32)
  /-- HOLE_SKIP (R112) on the channel from `src`. -/
  | holeSkip (ep : Fin 21) (src : BitVec 20) (vc : Fin 8)
  /-- CHANNEL_STATE_FREE (R85) of the channel from `src`. -/
  | channelStateFree (ep : Fin 21) (src : BitVec 20) (vc : Fin 8)
  /-- CHANNEL_SEQ_RESET (R80) of the channel from end-point `ep` to `dst`. -/
  | channelSeqReset (ep : Fin 21) (dst : BitVec 20) (vc : Fin 8)
  /-- RESULT_LOG_FREE (R86) of the entry of this source, virtual channel and SEQ. -/
  | resultLogFree (ep : Fin 21) (src : BitVec 20) (vc : Fin 8) (seq : BitVec 32)
  /-- FENCE_ENTER (R113): a fence of `kind` and `scope` (Tables 5-2, 5-3) enters the queue. -/
  | fenceEnter (queue : Fin 512) (kind scope : Fin 4)
  /-- MSG_SEND_FETCH (R120): the next send descriptor of requester queue `q`, one of the message end-point. -/
  | msgSendFetch (q : Fin 512)
  /-- MESSAGE_ABANDON (R97): the message being received from `src` with this MSG_ID. -/
  | messageAbandon (src : BitVec 20) (id : BitVec 16)
  /-- MSG_POOL_FREE (R98): `data` is written to MSG_POOL_FREE. -/
  | msgPoolFree (path : Path) (data : Word)
  /-- MSG_POOL_CFG_WRITE (R95): `data` is written to MSG_POOL_RING (`ring`) or MSG_POOL_CFG of pool `n`. -/
  | msgPoolCfgWrite (path : Path) (n : Fin 64) (ring : Bool) (data : Word)
  -- spec/06_plate_array.md, and READY_FLAG_POLL of spec/08_plate_operations.md
  /-- PLT_OQ_TAIL_WRITE (R132): `data` is written to PLT_OQ_IDX of op queue `q`. -/
  | pltOqTailWrite (path : Path) (q : Fin 512) (data : Word)
  /-- QUEUE_SELECT (R134). -/
  | queueSelect
  /-- PLAN_DONE (R138). -/
  | planDone
  /-- WRITE_OUT_START (R129). -/
  | writeOutStart
  /-- STROKE_END (R129). -/
  | strokeEnd
  /-- ROUND_EXPIRE (R135). -/
  | roundExpire
  /-- CARRY_SAVE_DONE (R136). -/
  | carrySaveDone
  /-- CARRY_RESTORE_DONE (R136). -/
  | carryRestoreDone
  /-- OPERATION_RETIRE (R142). -/
  | operationRetire
  /-- PLT_ABORT (R145): `data` is written to PLT_ABORT. -/
  | pltAbort (path : Path) (data : Word)
  /-- READY_FLAG_POLL (R200). -/
  | readyFlagPoll
  /-- READY_LIMIT_EXPIRE (R141). -/
  | readyLimitExpire
  -- spec/09_collectives.md
  /-- COLLECTIVE_START (R209): the descriptor at the head of collective queue `q`. -/
  | collectiveStart (q : Fin 512)
  /-- SMALL_COLLECTIVE_ISSUE (R217): the SMALL descriptor at the head of collective queue `q`. -/
  | smallCollectiveIssue (q : Fin 512)
  /-- COL_DATA_RECEIVE (R215): the oldest collective frame taken and not yet performed, where it is a COL_DATA. -/
  | colDataReceive
  /-- COL_END_RECEIVE (R215): the oldest collective frame taken and not yet performed, where it is a COL_END. -/
  | colEndReceive
  /-- COLLECTIVE_VOTE (R218): the active collective with low CSEQ bits `tag`. -/
  | collectiveVote (tag : BitVec 16)
  /-- COLLECTIVE_RECORD_WRITE (R222). -/
  | collectiveRecordWrite (tag : BitVec 16)
  /-- COL_RESIGN (R223): `data` is written to COL_RESIGN. -/
  | colResign (path : Path) (data : Word)
  /-- COLLECTIVE_TIMEOUT (R223). -/
  | collectiveTimeout (tag : BitVec 16)
  /-- READY_FLAG_WRITE (R225). -/
  | readyFlagWrite (tag : BitVec 16)
  /-- MOVE_LIST_LATE_CHECK (R228): the move-list collective at the head of collective queue `q`. -/
  | moveListLateCheck (q : Fin 512)
  /-- RESEQ (R206): `data` is written to COL_CTL. -/
  | reseq (path : Path) (data : Word)
  -- spec/10_switch_core.md
  /-- FRAME_RECEIVE (R230): the oldest whole frame received on port `p`; `struck` are symbol errors found by the check,
  by granule, the header being granule 0. -/
  | frameReceive (p : Fin 128) (struck : List (Nat × SymbolErrors))
  /-- EGRESS_ADMIT (R235): the oldest ready frame of class `cls` for egress `e`: Vangeri port 0 to 127, or 128 plus a
  local end-point's number. -/
  | egressAdmit (e : Fin 149) (cls : Fin 4)
  /-- EGRESS_SERVE (R233): egress `e` begins its next frame. -/
  | egressServe (e : Fin 149)
  /-- SPILL_RETURN (R237): the head of port `p`'s spill ring. -/
  | spillReturn (p : Fin 128)
  /-- RESEQUENCER_RELEASE (R239): of the frames crossing toward egress `e`, the `k`-th oldest arrives. -/
  | resequencerRelease (e : Fin 149) (k : Nat)
  /-- THROTTLE_RELEASE (R241): a held request of port `p`, background or bulk. -/
  | throttleRelease (p : Fin 128) (bg : Bool)
  /-- SWX_BUF_THR_WRITE (R234): `data` is written to SWX_BUF_THR. -/
  | swxBufThrWrite (path : Path) (data : Word)
  /-- SWX_SPILL_WRITE (R237): `data` is written to SWX_SPILL. -/
  | swxSpillWrite (path : Path) (data : Word)
  /-- MOVE_LIST_ARM (R243): `data` is written to SWX_ML_ARM. -/
  | moveListArm (path : Path) (data : Word)
  /-- MOVE_LIST_READ_AHEAD (R243): the next entry of active list `mlist` is read. -/
  | moveListReadAhead (mlist : BitVec 32)
  /-- MOVE_LIST_INJECT (R244): the next entry of active list `mlist`. -/
  | moveListInject (mlist : BitVec 32)
  -- spec/11_routing_and_slices.md
  /-- ROUTE_ENTRY_WRITE (R252): `data` is written to word A, B or C (`w`) of the far entry (`far`) or near entry of
  domain or member `i`, edition `e`. -/
  | routeEntryWrite (path : Path) (e : Fin 2) (far : Bool) (i : Fin 256) (w : Fin 3) (data : Word)
  /-- RTE_PORT_FAR_WRITE (R474): `data` is written to RTE_PORT_FAR word `k`. -/
  | rtePortFarWrite (path : Path) (k : Fin 2) (data : Word)
  /-- RTE_ED_WRITE (R257): `data` is written to RTE_ED. -/
  | rteEdWrite (path : Path) (data : Word)
  /-- FLIP_ARM (R257): `data` is written to RTE_FLIP_ARM. -/
  | flipArm (path : Path) (data : Word)
  /-- FLIP_CANCEL (R257): `data` is written to RTE_FLIP_ARM. -/
  | flipCancel (path : Path) (data : Word)
  /-- EDITION_FLIP (R256). -/
  | editionFlip
  /-- CUR_WRITE (R264): `data` is written to RTE_CTL. -/
  | curWrite (path : Path) (data : Word)
  /-- ADMIT_WRITE (R375): `data` is written to RTE_CTL. -/
  | admitWrite (path : Path) (data : Word)
  /-- SLICE_WRITE (R376): `data` is written to RTE_CTL. -/
  | sliceWrite (path : Path) (data : Word)
  /-- NBR_EXP_WRITE (R263): `data` is written to RTE_NBR_EXP of port `p`. -/
  | nbrExpWrite (path : Path) (p : Fin 128) (data : Word)
  -- spec/12_vangeri_links.md
  /-- LOSS_OF_SIGNAL (R287): signal is lost on `lanes` of port `p`. -/
  | lossOfSignal (p : Fin 128) (lanes : BitVec 4)
  /-- LINK_DOWN (R287) for `cause`. -/
  | linkDown (p : Fin 128) (cause : LinkCause)
  /-- DETECT_SIGNAL (R275): signal stands on `lanes`; `nonce` is drawn from the random source for the attempt (R277). -/
  | detectSignal (p : Fin 128) (lanes : BitVec 4) (nonce : BitVec 128)
  /-- TRAIN_DONE (R278): the lanes that trained here and at the peer, and what each receiver and transmitter adapted to:
  taps (VGL_TX bits [41:12]), CTLE and SNR. -/
  | trainDone (p : Fin 128) (own peer : BitVec 4) (lanes : List (BitVec 30 × Byte × Byte))
  /-- POLARITY_DONE (R276): the receive lanes whose SYNC has its odd bits inverted. -/
  | polarityDone (p : Fin 128) (inverted : BitVec 4)
  /-- LANE_ORDER_DONE (R276): marker bits [19:0] of each receive lane in use, in lane order. -/
  | laneOrderDone (p : Fin 128) (markers : List (BitVec 20))
  /-- DESKEW_DONE (R276): the measured skew in UI. -/
  | deskewDone (p : Fin 128) (skew : Nat)
  /-- FEC_LOCK_DONE (R275). -/
  | fecLockDone (p : Fin 128)
  /-- IDENT_CODEWORD_RECEIVE (R277). -/
  | identCodewordReceive (p : Fin 128) (ident : LinkIdent)
  /-- CREDIT_INIT_RECEIVE (R279): the peer's eight limits, and whether it has received this port's (bit 215). -/
  | creditInitReceive (p : Fin 128) (limits : List Nat) (echoed : Bool)
  /-- BRINGUP_TIMEOUT (R275). -/
  | bringupTimeout (p : Fin 128)
  /-- BRINGUP_RETRY (R275). -/
  | bringupRetry (p : Fin 128)
  /-- CODEWORD_TRANSMIT (R269). -/
  | codewordTransmit (p : Fin 128)
  /-- CODEWORD_RECEIVE (R280): what arrived, and the symbols corrected on each lane. -/
  | codewordReceive (p : Fin 128) (line : LineIn) (corrected : List Nat)
  /-- ACK_TIMEOUT (R280). -/
  | ackTimeout (p : Fin 128)
  /-- QUIET (R284): the oldest STATE request received is QUIET. -/
  | quiet (p : Fin 128)
  /-- QUIET_ENTER (R284). -/
  | quietEnter (p : Fin 128)
  /-- QUIET_EXIT (R284). -/
  | quietExit (p : Fin 128)
  /-- DEEP_IDLE (R285): the oldest STATE request received is DEEP_IDLE. -/
  | deepIdle (p : Fin 128)
  /-- STATE_REQ_WRITE (R285): `data` is written to VPT_CTL. -/
  | stateReqWrite (path : Path) (p : Fin 128) (data : Word)
  /-- LOOP_SELECT (R286): `data` is written to VPT_CTL. -/
  | loopSelect (path : Path) (p : Fin 128) (data : Word)
  /-- PORT_EN_CLEAR (R287): `data` is written to VPT_CTL. -/
  | portEnClear (path : Path) (p : Fin 128) (data : Word)
  /-- FE_LOOP_REQ (R286): the oldest STATE request received is FE_LOOP_REQ. -/
  | feLoopReq (p : Fin 128)
  /-- FE_LOOP_GRANT (R286). -/
  | feLoopGrant (p : Fin 128)
  /-- FE_LOOP_DENY (R286). -/
  | feLoopDeny (p : Fin 128)
  -- spec/13_hbm_and_hatch_code.md
  /-- SWEEP_START (R304): `data` is written to HBM_SWEEP. -/
  | sweepStart (path : Path) (data : Word)
  /-- SWEEP_SLOT (R304): the sweep slot of this turn. -/
  | sweepSlot
  /-- HBM_INIT (R305): `data` is written to HBM_CTL. -/
  | hbmInit (path : Path) (data : Word)
  /-- ENC_EN_WRITE (R299): `data` is written to HBM_CTL. -/
  | encEnWrite (path : Path) (data : Word)
  /-- HATCH_MODE_WRITE (R293): `data` is written to HBM_CTL. -/
  | hatchModeWrite (path : Path) (data : Word)
  /-- RETIRE (R303): `data` is written to HBM_SLOT_STAT of slot `n`. -/
  | retire (path : Path) (n : Fin 16) (data : Word)
  /-- REARM (R303): `data` is written to HBM_SLOT_STAT of slot `n`. -/
  | rearm (path : Path) (n : Fin 16) (data : Word)
  /-- REFRESH_SLOT (R307). -/
  | refreshSlot
  /-- SCRUB_SLOT (R308) of stack `t`: the symbol errors that have struck granules of the stack since they were last read,
  each named by its granule index in the stack. -/
  | scrubSlot (t : Fin 24) (struck : List (Nat × SymbolErrors))
  /-- WEAR_SLOT (R309) of stack `t`. -/
  | wearSlot (t : Fin 24)
  /-- REPAIR_SLOT (R310) of stack `t`: pseudo-channel `pc`, and whether a spare row remains. -/
  | repairSlot (t : Fin 24) (pc : Fin 32) (spareLeft : Bool)
  /-- HARD_REPAIR (R310): firmware repairs row `row` of pseudo-channel `pc` of stack `t`. -/
  | hardRepair (t : Fin 24) (pc : Fin 32) (row : Nat)
  /-- STACK_IDENTITY_READ (R311): what the stack reports. -/
  | stackIdentityRead (t : Fin 24) (mfr : Byte) (part date : BitVec 16) (height density : Byte) (hardLeft : BitVec 16)
  -- spec/14_host_attach.md, and the BAR2 and send-ring rows of spec/03_fabric_addressing.md and this chapter
  /-- BAR2_READ (R73): a read of `len` bytes at BAR2 offset `off`, with PCIe tag `tag`. -/
  | bar2Read (a : Fin 16) (tag : BitVec 14) (off : BitVec 42) (len : Nat)
  /-- BAR2_WRITE (R73): a posted write, perhaps of poisoned data. -/
  | bar2Write (a : Fin 16) (off : BitVec 42) (data : List Byte) (poison : Bool)
  /-- BAR2_ATOMIC (R318). -/
  | bar2Atomic (a : Fin 16) (tag : BitVec 14) (off : BitVec 42) (op : Bar2Op)
  /-- MSG_Q_TAIL_WRITE (R321): `data` is written to MSG_Q_IDX of queue `q`. -/
  | msgQTailWrite (path : Path) (q : Fin 512) (data : Word)
  /-- DB_TAIL (R320): an 8-byte write to the doorbell page of queue `q`, with the PASID it carries. -/
  | dbTail (a : Fin 16) (q : Fin 512) (pasid : Option (BitVec 20)) (data : Word)
  /-- DB_FENCE (R322). -/
  | dbFence (a : Fin 16) (q : Fin 512) (pasid : Option (BitVec 20)) (data : Word)
  /-- DB_DMA (R322). -/
  | dbDma (a : Fin 16) (q : Fin 512) (pasid : Option (BitVec 20)) (data : Word)
  /-- DMA_DESCRIPTOR_FETCH (R324) from the ring of entry `j`. -/
  | dmaDescriptorFetch (a : Fin 16) (j : Fin 32)
  /-- DMA_PAGE_MOVE (R325): the first translated page part of entry `j`'s tile that has not been moved. -/
  | dmaPageMove (a : Fin 16) (j : Fin 32)
  /-- DMA_TILE_FLAG (R325) of entry `j`. -/
  | dmaTileFlag (a : Fin 16) (j : Fin 32)
  /-- HOST_READ_COMPLETION (R327) of the host read with tag `tag`. -/
  | hostReadCompletion (a : Fin 16) (tag : BitVec 14) (reply : HostReply)
  /-- HOST_COMPLETION_TIMEOUT (R327) of the host read with tag `tag`. -/
  | hostCompletionTimeout (a : Fin 16) (tag : BitVec 14)
  /-- ATS_TRANSLATION_RESPONSE (R328) for a PASID and a 4 KiB page number; none is a failed translation. -/
  | atsTranslationResponse (a : Fin 16) (pasid : BitVec 20) (page : BitVec 52) (result : Option AtsResult)
  /-- ATS_INVALIDATE_REQUEST (R329): `itag` and a PASID; none is a global invalidation. -/
  | atsInvalidateRequest (a : Fin 16) (itag : Fin 32) (pasid : Option (BitVec 20))
  /-- INVALIDATE_COMPLETION (R329) of the oldest invalidation whose host requests are done. -/
  | invalidateCompletion (a : Fin 16)
  /-- ATC_INV (R329): `data` is written to ATT_ATC. -/
  | atcInv (path : Path) (a : Fin 16) (data : Word)
  /-- ATC_INV_ALL (R329): `data` is written to ATT_ATC. -/
  | atcInvAll (path : Path) (a : Fin 16) (data : Word)
  /-- PAGE_REQUEST_GROUP_RESPONSE (R330): a group and its response code, 0 Success, 1 Invalid Request, 15 Failure. -/
  | pageRequestGroupResponse (a : Fin 16) (group : BitVec 9) (code : Fin 16)
  /-- PEER_HOLD_TIMEOUT (R330). -/
  | peerHoldTimeout (a : Fin 16)
  /-- RESUME_PRI (R330): `data` is written to ATT_PRI. -/
  | resumePri (path : Path) (a : Fin 16) (data : Word)
  /-- FAULT_BATCH (R331). -/
  | faultBatch (a : Fin 16)
  /-- FAULT_RESUME (R331): `data` is written to ATT_FLT_RES. -/
  | faultResume (path : Path) (a : Fin 16) (data : Word)
  /-- FAULT_ABANDON (R331): `data` is written to ATT_FLT_RES. -/
  | faultAbandon (path : Path) (a : Fin 16) (data : Word)
  /-- ATTACH_LINK_DOWN (R327). -/
  | attachLinkDown (a : Fin 16)
  /-- PCIE_CONVENTIONAL_RESET (R72). -/
  | pcieConventionalReset (a : Fin 16)
  /-- IDE_INTEGRITY_FAIL (R333) on stream 0, the link stream, or selective stream 1 to 4. -/
  | ideIntegrityFail (a : Fin 16) (stream : Fin 5)
  /-- GET_VERSION (R336). -/
  | getVersion (a : Fin 16)
  /-- GET_CAPABILITIES (R336). -/
  | getCapabilities (a : Fin 16)
  /-- NEGOTIATE_ALGORITHMS (R336): whether the requester offers the device's algorithms. -/
  | negotiateAlgorithms (a : Fin 16) (offered : Bool)
  /-- GET_DIGESTS (R336). -/
  | getDigests (a : Fin 16)
  /-- GET_CERTIFICATE (R361): a portion of the chain in `slot`. -/
  | getCertificate (a : Fin 16) (slot : Fin 8) (off len : BitVec 16)
  /-- CHALLENGE (R336). -/
  | challenge (a : Fin 16) (slot : Fin 8) (nonce : BitVec 256)
  /-- GET_MEASUREMENTS (R361): block `index`, 255 for all. -/
  | getMeasurements (a : Fin 16) (index : Byte) (nonce : BitVec 256)
  /-- KEY_EXCHANGE (R336). -/
  | keyExchange (a : Fin 16) (share : List Byte)
  /-- FINISH (R336): whether its verify data is correct. -/
  | finish (a : Fin 16) (ok : Bool)
  /-- END_SESSION (R336). -/
  | endSession (a : Fin 16)
  /-- KEY_UPDATE (R336). -/
  | keyUpdate (a : Fin 16)
  /-- VENDOR_DEFINED_REQUEST (R333, R334). -/
  | vendorDefinedRequest (a : Fin 16) (msg : VendorMsg)
  /-- ATTACH_LINK_UP (R313): whether Flit mode is entered, the rate in GT/s and the width. -/
  | attachLinkUp (a : Fin 16) (flit : Bool) (speed : Byte) (width : Fin 17)
  /-- CONFIGURATION_REQUEST (R335). -/
  | configurationRequest (a : Fin 16) (req : ConfigReq)
  -- spec/15_ilnyx_cores.md
  /-- FABRIC_WINDOW_ACCESS (R341): core `n`, in its kernel or in firmware, accesses physical address `pa`. -/
  | fabricWindowAccess (n : Fin 32) (pa : BitVec 64) (access : CoreAccess)
  /-- ILX_C_FENCE_WRITE (R342): `data` is written to ILX_C_FENCE of core `n`. -/
  | ilxCFenceWrite (path : Path) (n : Fin 32) (data : Word)
  /-- WATCHDOG_EXPIRE (R345). -/
  | watchdogExpire
  /-- WATCHDOG_WRITE (R345): `data` is written to ILX_WDOG. -/
  | watchdogWrite (path : Path) (data : Word)
  /-- INFO (R346): firmware carries out the request in the mailbox of attach port `a`. -/
  | info (a : Fin 16)
  /-- KERNEL_LOAD (R347). -/
  | kernelLoad (a : Fin 16)
  /-- KERNEL_START (R347). -/
  | kernelStart (a : Fin 16)
  /-- KERNEL_STOP (R348). -/
  | kernelStop (a : Fin 16)
  /-- KERNEL_STATUS (R346). -/
  | kernelStatus (a : Fin 16)
  /-- TEL_CFG (R350). -/
  | telCfg (a : Fin 16)
  /-- MB_RESERVED_COMMAND (R346). -/
  | mbReservedCommand (a : Fin 16)
  /-- MB_RSP0_WRITE (R346): firmware answers the request of the mailbox of attach port `a`. -/
  | mbRsp0Write (a : Fin 16)
  /-- SUBMIT (R347): a kernel on core `n` calls with a queue and a new TAIL. -/
  | submit (n : Fin 32) (queue tail : Word)
  /-- FENCE (R347). -/
  | fence (n : Fin 32) (queue kind scope : Word)
  /-- LASTSTAT (R347). -/
  | laststat (n : Fin 32)
  /-- EXIT (R348). -/
  | exit (n : Fin 32) (code : Word)
  /-- KERNEL_EXCEPTION (R348): the RISC-V exception code. -/
  | kernelException (n : Fin 32) (cause : Word)
  /-- TELEMETRY_SAMPLE (R350): the values of `count` registers from `addr` on. -/
  | telemetrySample (addr : BitVec 32) (count : Fin 7)
  -- spec/16_security_and_isolation.md
  /-- SEC_LOCK (R357): `data` is written to SEC_LOCK. -/
  | secLock (path : Path) (data : Word)
  /-- BOUND_SET_LOAD (R365): `data` is written to SEC_BS_CMD. -/
  | boundSetLoad (path : Path) (data : Word)
  /-- BOUND_SET_LOAD_DONE (R365): the checks of entry `e` finish. -/
  | boundSetLoadDone (e : Fin 8)
  /-- UNLOAD (R369): `data` is written to SEC_BS_CMD. -/
  | unload (path : Path) (data : Word)
  /-- BURNISH_START (R370): `data` is written to SEC_BURN. -/
  | burnishStart (path : Path) (data : Word)
  /-- BURNISH_DISCARD_DONE (R370). -/
  | burnishDiscardDone
  /-- BURNISH_READBACK (R373): whether every granule of SRAM read back as zero. -/
  | burnishReadback (allZero : Bool)
  /-- BURNISH_END (R371). -/
  | burnishEnd
  -- spec/17_determinism_and_replay.md
  /-- ALIGNMENT_ATTEMPT (R389): what the 256 samples of each of the 204 crossings gave; none where they differed. -/
  | alignmentAttempt (depths : List (Option (Fin 16)))
  /-- CDC_SLIP (R391) of a crossing; `damaged` are the granules it damaged: of an HBM crossing, granule numbers; of a die
  crossing, frames by their place among those on the internal paths; of a Vangeri crossing, frames by their place in the
  port's transmit stream, each frame with the number of the granule. -/
  | cdcSlip (crossing : Fin 204) (damaged : List (Nat × Nat))
  /-- TWN_ENABLE (R393): `data` is written to TWN_CTL. -/
  | twnEnable (path : Path) (data : Word)
  /-- WINDOW_RECORD_SEND (R396). -/
  | windowRecordSend
  /-- RECORD_DEADLINE (R396). -/
  | recordDeadline
  /-- COUNTERPROOF_STOP (R396). -/
  | counterproofStop
  /-- LOCATE_ROUND (R397): the peer's running PSIG at the checkpoint of this round. -/
  | locateRound (peer : Word)
  /-- TWN_REL_WRITE (R395): `data` is written to TWN_REL. -/
  | twnRelWrite (path : Path) (data : Word)
  /-- GATED_TAIL_RELEASE (R395). -/
  | gatedTailRelease
  /-- TWN_DISABLE (R398): `data` is written to TWN_CTL. -/
  | twnDisable (path : Path) (data : Word)
  -- spec/18_faults_and_resilience.md
  /-- PARK_DRAIN (R407). -/
  | parkDrain
  /-- HEAD_H_WRITE (R405): `data` is written to FLT_Q_IDX. -/
  | headHWrite (path : Path) (data : Word)
  /-- HEAD_F_WRITE (R405): `data` is written to FLT_Q_HEADF. -/
  | headFWrite (path : Path) (data : Word)
  /-- VECTOR_COALESCE_EXPIRE (R405). -/
  | vectorCoalesceExpire
  /-- FLT_FENCE_WRITE (R413): `data` is written to FLT_FENCE word `k`. -/
  | fltFenceWrite (path : Path) (k : Fin 2) (data : Word)
  /-- FENCE_NOTICE_RECEIVE (R414): the oldest notice delivered to this member is a FENCE. -/
  | fenceNoticeReceive
  /-- STANDIN_NOTICE_RECEIVE (R416). -/
  | standinNoticeReceive
  /-- REJOIN_NOTICE_RECEIVE (R416). -/
  | rejoinNoticeReceive
  /-- STANDIN (R418): `data` is written to FLT_STANDIN. -/
  | standin (path : Path) (data : Word)
  /-- STANDIN_TAKE_NUMBER (R418). -/
  | standinTakeNumber
  /-- STANDIN_REFRESH (R418). -/
  | standinRefresh
  /-- REJOIN (R422): `data` is written to FLT_REJOIN. -/
  | rejoin (path : Path) (data : Word)
  /-- REJOIN_TIMEOUT (R422). -/
  | rejoinTimeout
  /-- BUDGET_REFILL (R420). -/
  | budgetRefill
  -- spec/19_bringup_and_identity.md
  /-- RESET_N_ASSERT (R424): RESET_N is driven low. -/
  | resetNAssert
  /-- RESET_N_RELEASE (R424): RESET_N is released after `lowTurns` turns low. -/
  | resetNRelease (lowTurns : Nat)
  /-- PLL_LOCK (R425). -/
  | pllLock
  /-- CIM_READ_DONE (R428): the 512 bytes read, or none where the memory is absent. -/
  | cimReadDone (bytes : Option (List Byte))
  /-- FIRMWARE_VERIFY (R426): the images in flash slots A and B, header first. -/
  | firmwareVerify (slotA slotB : List Byte)
  /-- CLAIM (R432): the frame's bytes from TYPE to the CRC. -/
  | claim (bytes : List Byte)
  /-- ASSIGN (R432): the frame's bytes from TYPE to the CRC, and the bitmaps HELD and FIXED with which the domain's CLAIM
  frame ended. -/
  | assign (bytes : List Byte) (held fixed : BitVec 128)
  /-- CMD (R431): the frame's bytes from TYPE to the CRC. -/
  | cmd (bytes : List Byte)
  /-- RSP (R431): the frame's bytes from TYPE to the CRC. -/
  | rsp (bytes : List Byte)
  /-- CIM_WRITE_BACK (R433). -/
  | cimWriteBack
  /-- OOB_WRITE (R435): the transfer's bytes, and whether its PEC byte is correct (always so under I3C). -/
  | oobWrite (bytes : List Byte) (pecOk : Bool)
  /-- OOB_READ (R435): the four address bytes. -/
  | oobRead (bytes : List Byte) (pecOk : Bool)
  /-- MODULE_INSERT (R436): bytes 0 to 3 of the lower page, and bytes 129 to 181 of upper page 00h. -/
  | moduleInsert (cage : Fin 64) (lower upper : List Byte)
  /-- MODULE_IDENTITY_READ (R436): what the read gave; none where it failed. -/
  | moduleIdentityRead (cage : Fin 64) (read : ModuleRead)
  /-- CAGE_ACCESS (R436): `data` is written to MGT_CAGE_ACC; the module answers a read with `byte`. -/
  | cageAccess (path : Path) (data : Word) (byte : Byte)
  /-- CIM_ACCESS_READ (R437): `data` is written to MGT_CIM_ACC; the memory answers with `byte`. -/
  | cimAccessRead (path : Path) (data : Word) (byte : Byte)
  /-- CIM_ACCESS_WRITE (R437): `data` is written to MGT_CIM_ACC. -/
  | cimAccessWrite (path : Path) (data : Word)
  /-- KF_OVERRIDE (R430): `data` is written to MGT_CTL. -/
  | kfOverride (path : Path) (data : Word)
  /-- DETACH (R439): `data` is written to MGT_CTL. -/
  | detach (path : Path) (data : Word)
  /-- DETACHED (R439). -/
  | detached
  -- spec/20_power_package_pins.md
  /-- PMBUS_POLL (R443): what each rail's controller answers, rail 0 first: READ_VOUT in mV, READ_IOUT in 0.1 A,
  READ_TEMPERATURE_1 in °C, STATUS_WORD; none where it does not answer. -/
  | pmbusPoll (answers : List (Option (BitVec 16 × BitVec 16 × Byte × BitVec 16)))
  /-- PMB_ALERT (R443): STATUS_WORD of each rail, rail 0 first; none where it does not answer. -/
  | pmbAlert (status : List (Option (BitVec 16)))
  /-- PMB_ACCESS (R443): `data` is written to PWR_PMB_ACC; the controller answers with a word, or not at all. -/
  | pmbAccess (path : Path) (data : Word) (answer : Option (BitVec 16))
  /-- ARRAY_RAMP_END (R445). -/
  | arrayRampEnd
  /-- DROOP_TRIP (R448). -/
  | droopTrip
  /-- STRETCH_END (R448): in this turn every tripped rail has stayed above its threshold for PWR_DROOP.HOLD turns. -/
  | stretchEnd
  /-- FREEZE_END (R449, R452). -/
  | freezeEnd
  /-- THERMAL_SAMPLE (R450): the 64 junction sensors and the 24 stacks' temperatures, °C. -/
  | thermalSample (sensors temps : List Byte)
  /-- THERMTRIP (R453): a junction sensor that reads this. -/
  | thermtrip (sensor : Byte)
  /-- DUTY_WINDOW_START (R452). -/
  | dutyWindowStart
  /-- DUTY_ON_WRITE (R451): `data` is written to PWR_THERM. -/
  | dutyOnWrite (path : Path) (data : Word)
  /-- PWR_WARN (R454): PWR_WARN_N has been low for 250 turns. -/
  | pwrWarn
  /-- WARN_STROKE_LIMIT (R454). -/
  | warnStrokeLimit
  /-- WARN_DETACH (R454). -/
  | warnDetach
  /-- WARN_RELEASE (R455): PWR_WARN_N has been high for 250 turns. -/
  | warnRelease
  -- spec/21_register_pages.md
  /-- REGISTER_WRITE (R468): a write of `data` at a register address. -/
  | registerWrite (path : Path) (acc : RegAccess) (data : Word)
  /-- REGISTER_READ_CLEAR (R463): a read at a register address. -/
  | registerReadClear (path : Path) (acc : RegAccess)
  /-- SRST (R465): `data` is written to PG_CTL of the page of block type `t`, instance `i`. -/
  | srst (path : Path) (t i : Byte) (data : Word)
  /-- PG_LOCK_WRITE (R466): `data` is written to PG_CTL of the page of block type `t`, instance `i`. -/
  | pgLockWrite (path : Path) (t i : Byte) (data : Word)
  /-- PG_INJ_ARM (R469): `data` is written to PG_INJ of the page of block type `t`, instance `i`. -/
  | pgInjArm (path : Path) (t i : Byte) (data : Word)
  /-- PG_CNT_SEL_WRITE (R469): `data` is written to PG_CNT_SEL of the page of block type `t`, instance `i`. -/
  | pgCntSelWrite (path : Path) (t i : Byte) (data : Word)
  deriving DecidableEq, Repr

end Sys2Proof
end

