-- ==== Sys2Proof/Machine/Bits.lean ====
section
/-!
DEFINITION. Bit-field, byte-order and sign helpers (R6: little endian, bit 0 least significant).
-/
namespace Sys2Proof.Machine

/-- Bits `[hi:lo]` of `v`. -/
def bitsOf (v hi lo : Nat) : Nat := v / 2 ^ lo % 2 ^ (hi + 1 - lo)

/-- Bit `i` of `v`. -/
def bitAt (v i : Nat) : Bool := v / 2 ^ i % 2 == 1

/-- `v` with bits `[hi:lo]` replaced by the low bits of `x`. -/
def setBitsOf (v hi lo x : Nat) : Nat :=
  v - bitsOf v hi lo * 2 ^ lo + (x % 2 ^ (hi + 1 - lo)) * 2 ^ lo

/-- `v` with bit `i` set or cleared. -/
def setBitAt (v i : Nat) (b : Bool) : Nat := setBitsOf v i i (if b then 1 else 0)

/-- Field `[hi:lo]` of a register value. -/
def fieldGet (v : Word) (hi lo : Nat) : Nat := bitsOf v.toNat hi lo

/-- A register value with field `[hi:lo]` replaced. -/
def fieldPut (v : Word) (hi lo x : Nat) : Word := BitVec.ofNat 64 (setBitsOf v.toNat hi lo x)

/-- `n` low bits set. -/
def onesN (n : Nat) : Nat := 2 ^ n - 1

/-- The numbers of the set bits of `v` below `w`, ascending. -/
def setBitsList (v w : Nat) : List Nat := (List.range w).filter (bitAt v)

/-- How many of the low `w` bits of `v` are set. -/
def popCount (v w : Nat) : Nat := (setBitsList v w).length

/-- The low `w` bits of `v` read as a two's-complement number. -/
def signedOf (w v : Nat) : Int :=
  let x := v % 2 ^ w
  if w = 0 then 0 else if x < 2 ^ (w - 1) then (x : Int) else (x : Int) - (2 ^ w : Nat)

/-- The two's-complement code of `x` in `w` bits. -/
def twosOf (w : Nat) (x : Int) : Nat := (x % ((2 ^ w : Nat) : Int)).toNat

/-- `v` as `n` bytes, lowest first. -/
def toBytesLE : Nat → Nat → List Byte
  | 0, _ => []
  | n + 1, v => BitVec.ofNat 8 (v % 256) :: toBytesLE n (v / 256)

/-- The number that bytes spell, lowest first. -/
def ofBytesLE : List Byte → Nat
  | [] => 0
  | b :: bs => b.toNat + 256 * ofBytesLE bs

/-- `n` elements of `l` from index `i`, filled with `d` past its end. -/
def sliceD {α : Type} (d : α) (l : List α) (i n : Nat) : List α :=
  let t := (l.drop i).take n
  t ++ List.replicate (n - t.length) d

/-- The little-endian number in bytes `[i, i + n)` of `l`. -/
def bytesAt (l : List Byte) (i n : Nat) : Nat := ofBytesLE (sliceD 0 l i n)

/-- `l` cut into pieces of `n` elements; `fuel` bounds the number of pieces. -/
def chunksAux {α : Type} (n : Nat) : Nat → List α → List (List α)
  | 0, _ => []
  | fuel + 1, l => match l with
    | [] => []
    | _ :: _ => l.take n :: chunksAux n fuel (l.drop n)

/-- `l` cut into pieces of `n` elements, the last perhaps shorter. -/
def chunks {α : Type} (n : Nat) (l : List α) : List (List α) :=
  if n = 0 then [] else chunksAux n l.length l

/-- `x` rounded up to a multiple of `n`. -/
def roundUp (x n : Nat) : Nat := if n = 0 then x else (x + n - 1) / n * n

/-- The quotient rounded up. -/
def ceilDiv (x n : Nat) : Nat := if n = 0 then 0 else (x + n - 1) / n

/-- `l` with element `i` replaced (unchanged where there is none). -/
def listSet {α : Type} : List α → Nat → α → List α
  | [], _, _ => []
  | _ :: xs, 0, v => v :: xs
  | x :: xs, i + 1, v => x :: listSet xs i v

/-- `n` as a Bool bit. -/
def b2n (b : Bool) : Nat := if b then 1 else 0

end Sys2Proof.Machine
end

