-- ==== Sys2Proof/Machine/Hatch.lean ====
section
/-!
DEFINITION. The Hatch code (spec/13_hbm_and_hatch_code.md R292-R297): RS(36,32) over GF(2^8), the poisoned form, and
the decoder of every checking point.
-/
namespace Sys2Proof.Machine

/-- Multiplication by α = 0x02 in GF(2^8) with field polynomial 0x11D (R292). -/
def gfX2 (a : Nat) : Nat := if a < 128 then a * 2 else (a * 2 % 256) ^^^ 0x1D

/-- The sum over the bits of `b` of `a` α^bit; `n` bits are taken. -/
def gfMulAux : Nat → Nat → Nat → Nat
  | 0, _, _ => 0
  | n + 1, a, b => (if b % 2 = 1 then a else 0) ^^^ gfMulAux n (gfX2 a) (b / 2)

/-- Multiplication in GF(2^8). -/
def gfMul (a b : Nat) : Nat := gfMulAux 8 a b

/-- `a` to the power `n`. -/
def gfPow (a : Nat) : Nat → Nat
  | 0 => 1
  | n + 1 => gfMul a (gfPow a n)

/-- The inverse of a non-zero element: its 254th power, the product of its 2nd, 4th, … 128th powers. -/
def gfInv (a : Nat) : Nat :=
  let a2 := gfMul a a
  let a4 := gfMul a2 a2
  let a8 := gfMul a4 a4
  let a16 := gfMul a8 a8
  let a32 := gfMul a16 a16
  let a64 := gfMul a32 a32
  let a128 := gfMul a64 a64
  gfMul a2 (gfMul a4 (gfMul a8 (gfMul a16 (gfMul a32 (gfMul a64 a128)))))

/-- α^n. -/
def gfAlpha (n : Nat) : Nat := gfPow 2 n

/-- The locator of symbol `j` of a granule: the power of x it is the coefficient of is 35 - j (R292). -/
def hatchLoc (j : Nat) : Nat := gfAlpha (35 - j)

/-- Syndrome i of a 36-symbol word, by Horner's rule at α^i. -/
def hatchSyndrome (w : List Nat) (i : Nat) : Nat :=
  w.foldl (fun acc b => gfMul acc (gfAlpha i) ^^^ b) 0

/-- The four syndromes S_0 to S_3. -/
def hatchSyndromes (w : List Nat) : List Nat := (List.range 4).map (hatchSyndrome w)

/-- One step of the division by g(x) = x^4 + 0x0F x^3 + 0x36 x^2 + 0x78 x + 0x40: the remainder, highest power first,
after one more coefficient. -/
def hatchDivStep (r : List Nat) (b : Nat) : List Nat :=
  match r with
  | [r0, r1, r2, r3] =>
    let f := r0 ^^^ b
    [r1 ^^^ gfMul f 0x0F, r2 ^^^ gfMul f 0x36, r3 ^^^ gfMul f 0x78, gfMul f 0x40]
  | _ => [0, 0, 0, 0]

/-- The check bytes p_0 to p_3 of 32 data bytes (R292). -/
def hatchCheck (data : List Byte) : List Nat :=
  data.foldl (fun r b => hatchDivStep r b.toNat) [0, 0, 0, 0]

/-- The poison mask, XORed into the check bytes (R295). -/
def poisonMask : List Nat := [0xA5, 0xC3, 0x3C, 0x5A]

/-- The error word that listed symbol errors spell, poison mask included where the granule is poisoned. -/
def errorWord (poisoned : Bool) (e : SymbolErrors) : List Nat :=
  let base := List.replicate 32 0 ++ (if poisoned then poisonMask else [0, 0, 0, 0])
  e.foldl (fun w p => listSet w p.1 (w.getD p.1 0 ^^^ p.2.toNat)) base

/-- The symbols of a word that are not zero. -/
def wordErrors (w : List Nat) : SymbolErrors :=
  ((List.range 36).filter (fun j => w.getD j 0 != 0)).map (fun j => (j, BitVec.ofNat 8 (w.getD j 0)))

/-- The single symbol error that the syndromes spell, if one does. -/
def hatchFix1 (sy : List Nat) : Option (List (Nat × Nat)) :=
  let s0 := sy.getD 0 0
  if s0 = 0 then none
  else ((List.range 36).find? (fun j =>
      let x := hatchLoc j
      gfMul s0 x == sy.getD 1 0 && gfMul (sy.getD 1 0) x == sy.getD 2 0 && gfMul (sy.getD 2 0) x == sy.getD 3 0)).map
    (fun j => [(j, s0)])

/-- The values of two symbol errors at `j` and `k` that the syndromes spell, if they do. -/
def hatchFixPair (sy : List Nat) (j k : Nat) : Option (List (Nat × Nat)) :=
  let x := hatchLoc j
  let y := hatchLoc k
  let s0 := sy.getD 0 0
  let s1 := sy.getD 1 0
  let v := gfMul (s1 ^^^ gfMul s0 y) (gfInv (x ^^^ y))
  let w := s0 ^^^ v
  let x2 := gfMul x x
  let y2 := gfMul y y
  if v ≠ 0 ∧ w ≠ 0 ∧ gfMul v x2 ^^^ gfMul w y2 = sy.getD 2 0
      ∧ gfMul v (gfMul x2 x) ^^^ gfMul w (gfMul y2 y) = sy.getD 3 0
  then some [(j, v), (k, w)] else none

/-- The two symbol errors that the syndromes spell, if two do. -/
def hatchFix2 (sy : List Nat) : Option (List (Nat × Nat)) :=
  (List.range 36).findSome? (fun j => (List.range 36).findSome? (fun k => if j < k then hatchFixPair sy j k else none))

/-- What a checking point makes of a granule (R295): the residual is what the delivered symbols differ by from those
written, empty unless the pattern was miscorrected or is itself a codeword. -/
inductive HatchOut where
  | good (residual : List Nat)
  | corrected (residual : List Nat)
  | poisoned
  | uncorrectable (syndromes : List Nat)
  deriving DecidableEq, Repr

/-- The decoder of R293 and R295. `mode` is HBM_CTL.HATCH_MODE; the word is the difference between the 36 bytes
received and the codeword written, and decoding depends on that difference alone since the code is linear. -/
def hatchDecode (mode : Nat) (w : List Nat) : HatchOut :=
  let sy := hatchSyndromes w
  if sy = [0, 0, 0, 0] then .good w
  else if sy = hatchSyndromes (errorWord true []) then .poisoned
  else
    let fix := match hatchFix1 sy with
      | some f => some f
      | none => if mode = 0 then hatchFix2 sy else none
    match fix with
    | some f => .corrected (f.foldl (fun w p => listSet w p.1 (w.getD p.1 0 ^^^ p.2)) w)
    | none => .uncorrectable sy

/-- Data bytes with a residual applied. -/
def applyResidual (data : List Byte) (w : List Nat) : List Byte :=
  (List.range data.length).map (fun j => (data.getD j 0) ^^^ BitVec.ofNat 8 (w.getD j 0))

/-- Whether a residual changes any of data bytes `[lo, lo + 16)`. -/
def residualInHalf (w : List Nat) (lo : Nat) : Bool := ((w.drop lo).take 16).any (· != 0)

end Sys2Proof.Machine
end

