-- ==== Sys2Proof/Config.lean ====
section
/-!
DEFINITION. What one made device fixes, and the values the spec leaves open. Each is opaque: nothing in Lean can
evaluate it, so a claim that mentions one holds for every value of it.
-/
namespace Sys2Proof.Config

/-- The `n`-th value that the device takes where the spec states none (a random salt, the contents of a granule read
under a changed key, an undefined result): applied to the counter `State.freeIx`, which every use advances. -/
opaque freeValue (n : Nat) (w : Nat) : BitVec w

/-- SEC_ID.KEY_FAMILY as fused (spec/16_security_and_isolation.md R360); 0 to 9,999 by the spec, taken modulo 10,000. -/
opaque fusedKeyFamily : BitVec 14

/-- MGT_DEV_ID.STEPPING as fused (spec/19_bringup_and_identity.md R440). -/
opaque fusedStepping : BitVec 4

/-- MGT_DEV_SN.SERIAL as fused (R440). -/
opaque fusedSerial : BitVec 64

/-- The fused hash of the firmware signing key (spec/16_security_and_isolation.md Table 16-1). -/
opaque firmwareKeyHash : BitVec 384

/-- The device's fused identity private key (Table 16-1), a number from 1 below the order of P-384 when reduced as
`Sys2Proof.Machine.identityScalar` reduces it. -/
opaque identityKey : BitVec 384

/-- The number that an ECDSA signature of a message is made with: the standard leaves its choice open. -/
opaque signNonce (msg : List Byte) : BitVec 384

/-- Whether two rows of one pseudo-channel lie in one bank: the spec numbers no banks (R309). -/
opaque sameBank (row other : Nat) : Bool

/-- A link key slot's AES-256 key, fused (spec/16_security_and_isolation.md Table 16-1; R282). Byte k of a key is its bits
[8k + 7 : 8k]. -/
opaque linkKey (slot : Nat) : BitVec 256

/-- A memory key slot's XTS key pair, fused (R302, Table 16-1): bytes 0 to 31 the first key, 32 to 63 the second. -/
opaque memKey (slot : Nat) : BitVec 512

/-- The refresh slot of the rotation in which pseudo-channel `pc` is calibrated (spec/15_ilnyx_cores.md R349; notes/assumptions/65). -/
opaque calibrationSlot (pc : Nat) : Nat

/-- Whether BAR2 of an attach port reads as prefetchable: the spec does not say (spec/03_fabric_addressing.md R72). -/
opaque bar2Prefetchable (port : Nat) : Bool

/-- SHA-384 of the boot ROM (Table 16-2). -/
opaque bootRomHash : BitVec 384

/-- The certificates above the device's in the chain of slot 0, with what frames the chain, and what stands between the fields that
R361 names in the device's own certificate, its signature included (notes/assumptions/85). -/
opaque certAbove : List Byte
opaque certPart (k : Nat) : List Byte

/-- The member that holds a rank of a slice: of the slice, a domain index and a rank, domain × 128 + member. COL_TOPO names
only the device's own rank unless CONSEC is 1 (spec/09_collectives.md R205). -/
opaque rankMember (slice dom rank : Nat) : Nat

end Sys2Proof.Config
end

