-- ==== Sys2Proof/Machine/RegMap.lean ====
section
/-!
DEFINITION. The register map (spec/21_register_pages.md R460-R471, and the field maps of the chapters that Table
21-11 names): every register's address, every field's place, access code and reset value.

`Reg.<REGISTER>` is a register's address, `F.<REGISTER>_<FIELD>` the place of one field of it, and `D.<REGISTER>`
the register's layout within a page. Reserved bits have no field: they read 0 and discard writes (R6).
Resets that the spec gives as fused, stack, CIM or random are 0 here: they read 0 until bring-up loads them (R470).
-/
namespace Sys2Proof.Machine

/-- The access codes of Table 21-3 (R463). -/
inductive Access where
  | ro | rw | w1c | w1s | wo | rc | rwl
  deriving DecidableEq, Repr

/-- One field of a register: bits `[hi:lo]`, its access code and its reset value. -/
structure FieldDesc where
  hi : Nat
  lo : Nat
  acc : Access
  reset : Nat
  deriving DecidableEq, Repr

/-- The registers of one layout in a page: `count` of them from offset `base`, `stride` bytes apart. -/
structure RegDesc where
  base : Nat
  stride : Nat
  count : Nat
  fields : List FieldDesc
  deriving DecidableEq, Repr

/-- One field of one register of the device: the register's address and the field's bits. -/
structure RField where
  addr : Nat
  hi : Nat
  lo : Nat
  deriving DecidableEq, Repr

/-! ### Addresses (Table 21-2 and Table 21-11) -/

/-- TRN_CTL, spec/02_turns_and_pip_lanes.md R57, Table 2-9. -/
def Reg.TRN_CTL : Nat := 0x10c0100
/-- TRN_NOW, spec/02_turns_and_pip_lanes.md R57, Table 2-10. -/
def Reg.TRN_NOW : Nat := 0x10c0108
/-- TRN_SET, spec/02_turns_and_pip_lanes.md R57, Table 2-11. -/
def Reg.TRN_SET : Nat := 0x10c0110
/-- TRN_STAT, spec/02_turns_and_pip_lanes.md R57, Table 2-12. -/
def Reg.TRN_STAT : Nat := 0x10c0118
/-- TRN_DELAY, spec/02_turns_and_pip_lanes.md R57, Table 2-13. -/
def Reg.TRN_DELAY : Nat := 0x10c0120
/-- TRN_HB, spec/02_turns_and_pip_lanes.md R57, Table 2-14. -/
def Reg.TRN_HB : Nat := 0x10c0128
/-- TRN_PRES0, spec/02_turns_and_pip_lanes.md R57, Table 2-15. -/
def Reg.TRN_PRES0 : Nat := 0x10c0130
/-- TRN_PRES1, spec/02_turns_and_pip_lanes.md R57, Table 2-16. -/
def Reg.TRN_PRES1 : Nat := 0x10c0138
/-- TRN_CDC_STAT, spec/17_determinism_and_replay.md R401, Table 17-8. -/
def Reg.TRN_CDC_STAT : Nat := 0x10c0140
/-- TRN_CDC_DEPTH, spec/17_determinism_and_replay.md R401, Table 17-9. -/
def Reg.TRN_CDC_DEPTH (k : Nat) : Nat := 0x10c0148 + 0x8 * k
/-- PIP_CTL, spec/02_turns_and_pip_lanes.md R57, Table 2-17. -/
def Reg.PIP_CTL (n : Nat) : Nat := 0x1030000 + 0x1000 * n + 0x100
/-- PIP_STAT, spec/02_turns_and_pip_lanes.md R57, Table 2-18. -/
def Reg.PIP_STAT (n : Nat) : Nat := 0x1030000 + 0x1000 * n + 0x108
/-- PIP_ERRCNT, spec/02_turns_and_pip_lanes.md R57, Table 2-19. -/
def Reg.PIP_ERRCNT (n : Nat) : Nat := 0x1030000 + 0x1000 * n + 0x110
/-- VGL_TX, spec/12_vangeri_links.md R288, Table 12-21. -/
def Reg.VGL_TX (p l : Nat) : Nat := 0x1010000 + 0x1000 * (p / 32) + 0x100 + 0x18 * (4 * (p % 32) + l)
/-- VGL_RX, spec/12_vangeri_links.md R288, Table 12-22. -/
def Reg.VGL_RX (p l : Nat) : Nat := 0x1010000 + 0x1000 * (p / 32) + 0x108 + 0x18 * (4 * (p % 32) + l)
/-- VGL_STAT, spec/12_vangeri_links.md R288, Table 12-23. -/
def Reg.VGL_STAT (p l : Nat) : Nat := 0x1010000 + 0x1000 * (p / 32) + 0x110 + 0x18 * (4 * (p % 32) + l)
/-- VPT_CTL, spec/12_vangeri_links.md R288, Table 12-13. -/
def Reg.VPT_CTL (p : Nat) : Nat := 0x1020000 + 0x1000 * (p / 32) + 0x100 + 0x40 * (p % 32)
/-- VPT_STAT, spec/12_vangeri_links.md R288, Table 12-14. -/
def Reg.VPT_STAT (p : Nat) : Nat := 0x1020000 + 0x1000 * (p / 32) + 0x108 + 0x40 * (p % 32)
/-- VPT_CRED0, spec/12_vangeri_links.md R288, Table 12-15. -/
def Reg.VPT_CRED0 (p : Nat) : Nat := 0x1020000 + 0x1000 * (p / 32) + 0x110 + 0x40 * (p % 32)
/-- VPT_CRED1, spec/12_vangeri_links.md R288, Table 12-16. -/
def Reg.VPT_CRED1 (p : Nat) : Nat := 0x1020000 + 0x1000 * (p / 32) + 0x118 + 0x40 * (p % 32)
/-- VPT_RETRY, spec/12_vangeri_links.md R288, Table 12-17. -/
def Reg.VPT_RETRY (p : Nat) : Nat := 0x1020000 + 0x1000 * (p / 32) + 0x120 + 0x40 * (p % 32)
/-- VPT_FEC, spec/12_vangeri_links.md R288, Table 12-18. -/
def Reg.VPT_FEC (p : Nat) : Nat := 0x1020000 + 0x1000 * (p / 32) + 0x128 + 0x40 * (p % 32)
/-- VPT_ERR, spec/12_vangeri_links.md R288, Table 12-19. -/
def Reg.VPT_ERR (p : Nat) : Nat := 0x1020000 + 0x1000 * (p / 32) + 0x130 + 0x40 * (p % 32)
/-- VPT_FEC_WARN, spec/12_vangeri_links.md R288, Table 12-20. -/
def Reg.VPT_FEC_WARN (p : Nat) : Nat := 0x1020000 + 0x1000 * (p / 32) + 0x138 + 0x40 * (p % 32)
/-- SWX_CLASS_CTL, spec/10_switch_core.md R246, Table 10-8. -/
def Reg.SWX_CLASS_CTL : Nat := 0x1040100
/-- SWX_BUF_THR, spec/10_switch_core.md R246, Table 10-9. -/
def Reg.SWX_BUF_THR : Nat := 0x1040108
/-- SWX_AGE, spec/10_switch_core.md R246, Table 10-10. -/
def Reg.SWX_AGE : Nat := 0x1040110
/-- SWX_SPILL, spec/10_switch_core.md R246, Table 10-11. -/
def Reg.SWX_SPILL : Nat := 0x1040118
/-- SWX_THROTTLE, spec/10_switch_core.md R246, Table 10-12. -/
def Reg.SWX_THROTTLE : Nat := 0x1040120
/-- SWX_THR_MAX, spec/10_switch_core.md R246, Table 10-13. -/
def Reg.SWX_THR_MAX : Nat := 0x1040128
/-- SWX_SCHED, spec/10_switch_core.md R246, Table 10-14. -/
def Reg.SWX_SCHED : Nat := 0x1040130
/-- SWX_ML_DIR, spec/10_switch_core.md R246, Table 10-15. -/
def Reg.SWX_ML_DIR : Nat := 0x1040138
/-- SWX_ML_TURN, spec/10_switch_core.md R246, Table 10-16. -/
def Reg.SWX_ML_TURN : Nat := 0x1040140
/-- SWX_ML_ARM, spec/10_switch_core.md R246, Table 10-16. -/
def Reg.SWX_ML_ARM : Nat := 0x1040148
/-- SWX_ML_STAT, spec/10_switch_core.md R246, Table 10-17. -/
def Reg.SWX_ML_STAT : Nat := 0x1040150
/-- SWX_ML_CNT, spec/10_switch_core.md R246, Table 10-18. -/
def Reg.SWX_ML_CNT : Nat := 0x1040158
/-- SWX_ECC, spec/10_switch_core.md R246, Table 10-23. -/
def Reg.SWX_ECC : Nat := 0x1040160
/-- SWX_P_OCC, spec/10_switch_core.md R246, Table 10-19. -/
def Reg.SWX_P_OCC (p : Nat) : Nat := 0x1041000 + 0x1000 * (p / 32) + 0x100 + 0x20 * (p % 32)
/-- SWX_P_SPILL, spec/10_switch_core.md R246, Table 10-20. -/
def Reg.SWX_P_SPILL (p : Nat) : Nat := 0x1041000 + 0x1000 * (p / 32) + 0x108 + 0x20 * (p % 32)
/-- SWX_P_DROP, spec/10_switch_core.md R246, Table 10-21. -/
def Reg.SWX_P_DROP (p : Nat) : Nat := 0x1041000 + 0x1000 * (p / 32) + 0x110 + 0x20 * (p % 32)
/-- SWX_P_THR, spec/10_switch_core.md R246, Table 10-22. -/
def Reg.SWX_P_THR (p : Nat) : Nat := 0x1041000 + 0x1000 * (p / 32) + 0x118 + 0x20 * (p % 32)
/-- RTE_CTL, spec/11_routing_and_slices.md R265, Table 11-2. -/
def Reg.RTE_CTL : Nat := 0x1050100
/-- RTE_FLIP_TURN, spec/11_routing_and_slices.md R265, Table 11-3. -/
def Reg.RTE_FLIP_TURN : Nat := 0x1050108
/-- RTE_FLIP_ARM, spec/11_routing_and_slices.md R265, Table 11-4. -/
def Reg.RTE_FLIP_ARM : Nat := 0x1050110
/-- RTE_ED, spec/11_routing_and_slices.md R265, Table 11-5. -/
def Reg.RTE_ED : Nat := 0x1050118
/-- RTE_STAT, spec/11_routing_and_slices.md R265, Table 11-6. -/
def Reg.RTE_STAT : Nat := 0x1050120
/-- RTE_LAST_FLIP, spec/11_routing_and_slices.md R265, Table 11-7. -/
def Reg.RTE_LAST_FLIP : Nat := 0x1050128
/-- RTE_CNT, spec/11_routing_and_slices.md R265, Table 11-7. -/
def Reg.RTE_CNT : Nat := 0x1050130
/-- RTE_PORT_FAR, spec/11_routing_and_slices.md R265, Table 11-11. -/
def Reg.RTE_PORT_FAR (k : Nat) : Nat := 0x1050138 + 0x8 * k
/-- RTE_NEAR_A, spec/11_routing_and_slices.md R265, Table 11-8. -/
def Reg.RTE_NEAR_A (e m : Nat) : Nat := 0x1051000 + 0x1000 * e + 0x100 + 0x18 * m
/-- RTE_FAR_A, spec/11_routing_and_slices.md R265, Table 11-8. -/
def Reg.RTE_FAR_A (e d : Nat) : Nat := 0x1053000 + 0x1000 * (2 * e + d / 128) + 0x100 + 0x18 * (d % 128)
/-- RTE_NEAR_B, spec/11_routing_and_slices.md R265, Table 11-9. -/
def Reg.RTE_NEAR_B (e m : Nat) : Nat := 0x1051000 + 0x1000 * e + 0x108 + 0x18 * m
/-- RTE_FAR_B, spec/11_routing_and_slices.md R265, Table 11-9. -/
def Reg.RTE_FAR_B (e d : Nat) : Nat := 0x1053000 + 0x1000 * (2 * e + d / 128) + 0x108 + 0x18 * (d % 128)
/-- RTE_NEAR_C, spec/11_routing_and_slices.md R265, Table 11-9. -/
def Reg.RTE_NEAR_C (e m : Nat) : Nat := 0x1051000 + 0x1000 * e + 0x110 + 0x18 * m
/-- RTE_FAR_C, spec/11_routing_and_slices.md R265, Table 11-9. -/
def Reg.RTE_FAR_C (e d : Nat) : Nat := 0x1053000 + 0x1000 * (2 * e + d / 128) + 0x110 + 0x18 * (d % 128)
/-- RTE_NBR_EXP, spec/11_routing_and_slices.md R265, Table 11-10. -/
def Reg.RTE_NBR_EXP (p : Nat) : Nat := 0x1057100 + 0x8 * p
/-- RTE_NBR_SEEN, spec/11_routing_and_slices.md R265, Table 11-10. -/
def Reg.RTE_NBR_SEEN (p : Nat) : Nat := 0x1057500 + 0x8 * p
/-- REP_RETRY, spec/04_ronpel_transactions.md R103, Table 4-12. -/
def Reg.REP_RETRY (n : Nat) : Nat := 0x1060000 + 0x1000 * n + 0x100
/-- REP_QSB, spec/04_ronpel_transactions.md R103, Table 4-13. -/
def Reg.REP_QSB (n : Nat) : Nat := 0x1060000 + 0x1000 * n + 0x108
/-- REP_HOT, spec/04_ronpel_transactions.md R103, Table 4-16. -/
def Reg.REP_HOT (n : Nat) : Nat := 0x1060000 + 0x1000 * n + 0x190
/-- REP_STAT, spec/04_ronpel_transactions.md R103, Table 4-17. -/
def Reg.REP_STAT (n : Nat) : Nat := 0x1060000 + 0x1000 * n + 0x198
/-- REP_CNT, spec/04_ronpel_transactions.md R103, Table 4-18. -/
def Reg.REP_CNT (n : Nat) : Nat := 0x1060000 + 0x1000 * n + 0x1a0
/-- REP_ORD_CNT, spec/05_memory_model.md R123, Table 5-15. -/
def Reg.REP_ORD_CNT (n : Nat) : Nat := 0x1060000 + 0x1000 * n + 0x1a8
/-- REP_WIN_STAT, spec/03_fabric_addressing.md R74, Table 3-8. -/
def Reg.REP_WIN_STAT (n : Nat) : Nat := 0x1060000 + 0x1000 * n + 0x3f0
/-- REP_WIN_DENY, spec/03_fabric_addressing.md R74, Table 3-9. -/
def Reg.REP_WIN_DENY (n : Nat) : Nat := 0x1060000 + 0x1000 * n + 0x3f8
/-- REP_QOWN, spec/04_ronpel_transactions.md R103, Table 4-14. -/
def Reg.REP_QOWN (n k : Nat) : Nat := 0x1060000 + 0x1000 * n + 0x110 + 8 * k
/-- REP_QCLASS, spec/04_ronpel_transactions.md R103, Table 4-15. -/
def Reg.REP_QCLASS (n k : Nat) : Nat := 0x1060000 + 0x1000 * n + 0x150 + 8 * k
/-- REP_WIN_A, spec/03_fabric_addressing.md R74, Table 3-10. -/
def Reg.REP_WIN_A (n e : Nat) : Nat := 0x1060000 + 0x1000 * n + 0x400 + 0x18 * e
/-- REP_WIN_B, spec/03_fabric_addressing.md R74, Table 3-11. -/
def Reg.REP_WIN_B (n e : Nat) : Nat := 0x1060000 + 0x1000 * n + 0x408 + 0x18 * e
/-- REP_WIN_C, spec/03_fabric_addressing.md R74, Table 3-12. -/
def Reg.REP_WIN_C (n e : Nat) : Nat := 0x1060000 + 0x1000 * n + 0x410 + 0x18 * e
/-- ATT_CTL, spec/14_host_attach.md R337, Table 14-7. -/
def Reg.ATT_CTL (a : Nat) : Nat := 0x1170000 + 0x1000 * a + 0x100
/-- ATT_LINK, spec/14_host_attach.md R337, Table 14-7. -/
def Reg.ATT_LINK (a : Nat) : Nat := 0x1170000 + 0x1000 * a + 0x108
/-- ATT_PEER_BASE, spec/14_host_attach.md R337, Table 14-8. -/
def Reg.ATT_PEER_BASE (a : Nat) : Nat := 0x1170000 + 0x1000 * a + 0x110
/-- ATT_PEER_CFG, spec/14_host_attach.md R337, Table 14-8. -/
def Reg.ATT_PEER_CFG (a : Nat) : Nat := 0x1170000 + 0x1000 * a + 0x118
/-- ATT_ATC, spec/14_host_attach.md R337, Table 14-9. -/
def Reg.ATT_ATC (a : Nat) : Nat := 0x1170000 + 0x1000 * a + 0x120
/-- ATT_PRI, spec/14_host_attach.md R337, Table 14-9. -/
def Reg.ATT_PRI (a : Nat) : Nat := 0x1170000 + 0x1000 * a + 0x128
/-- ATT_FLT_RES, spec/14_host_attach.md R337, Table 14-10. -/
def Reg.ATT_FLT_RES (a : Nat) : Nat := 0x1170000 + 0x1000 * a + 0x130
/-- ATT_DB_STAT, spec/14_host_attach.md R337, Table 14-10. -/
def Reg.ATT_DB_STAT (a : Nat) : Nat := 0x1170000 + 0x1000 * a + 0x138
/-- ATT_SEC, spec/14_host_attach.md R337, Table 14-10. -/
def Reg.ATT_SEC (a : Nat) : Nat := 0x1170000 + 0x1000 * a + 0x140
/-- ATT_ECC, spec/14_host_attach.md R337, Table 14-13. -/
def Reg.ATT_ECC (a : Nat) : Nat := 0x1170000 + 0x1000 * a + 0x148
/-- ATT_B2_CTL, spec/03_fabric_addressing.md R74, Table 3-13. -/
def Reg.ATT_B2_CTL (a : Nat) : Nat := 0x1170000 + 0x1000 * a + 0x200
/-- ATT_FQ_A, spec/14_host_attach.md R337, Table 14-11. -/
def Reg.ATT_FQ_A (a j : Nat) : Nat := 0x1170000 + 0x1000 * a + 0x300 + 0x20 * j
/-- ATT_FQ_B, spec/14_host_attach.md R337, Table 14-11. -/
def Reg.ATT_FQ_B (a j : Nat) : Nat := 0x1170000 + 0x1000 * a + 0x308 + 0x20 * j
/-- ATT_FQ_C, spec/14_host_attach.md R337, Table 14-11. -/
def Reg.ATT_FQ_C (a j : Nat) : Nat := 0x1170000 + 0x1000 * a + 0x310 + 0x20 * j
/-- ATT_FQ_D, spec/14_host_attach.md R337, Table 14-11. -/
def Reg.ATT_FQ_D (a j : Nat) : Nat := 0x1170000 + 0x1000 * a + 0x318 + 0x20 * j
/-- ATT_B2_WIN, spec/03_fabric_addressing.md R74, Table 3-14. -/
def Reg.ATT_B2_WIN (a n : Nat) : Nat := 0x1170000 + 0x1000 * a + 0x800 + 8 * n
/-- HBM_S_ID, spec/13_hbm_and_hatch_code.md R312, Table 13-12. -/
def Reg.HBM_S_ID (t : Nat) : Nat := 0x1080000 + 0x1000 * (t / 6) + 0x100 + 0x40 * (t % 6)
/-- HBM_S_ECC, spec/13_hbm_and_hatch_code.md R312, Table 13-13. -/
def Reg.HBM_S_ECC (t : Nat) : Nat := 0x1080000 + 0x1000 * (t / 6) + 0x108 + 0x40 * (t % 6)
/-- HBM_S_SCRUB, spec/13_hbm_and_hatch_code.md R312, Table 13-14. -/
def Reg.HBM_S_SCRUB (t : Nat) : Nat := 0x1080000 + 0x1000 * (t / 6) + 0x110 + 0x40 * (t % 6)
/-- HBM_S_WEAR, spec/13_hbm_and_hatch_code.md R312, Table 13-15. -/
def Reg.HBM_S_WEAR (t : Nat) : Nat := 0x1080000 + 0x1000 * (t / 6) + 0x118 + 0x40 * (t % 6)
/-- HBM_S_REPAIR, spec/13_hbm_and_hatch_code.md R312, Table 13-16. -/
def Reg.HBM_S_REPAIR (t : Nat) : Nat := 0x1080000 + 0x1000 * (t / 6) + 0x120 + 0x40 * (t % 6)
/-- HBM_S_TEMP, spec/13_hbm_and_hatch_code.md R312, Table 13-16. -/
def Reg.HBM_S_TEMP (t : Nat) : Nat := 0x1080000 + 0x1000 * (t / 6) + 0x130 + 0x40 * (t % 6)
/-- HBM_CTL, spec/13_hbm_and_hatch_code.md R312, Table 13-7. -/
def Reg.HBM_CTL : Nat := 0x1084100
/-- HBM_STAT, spec/13_hbm_and_hatch_code.md R312, Table 13-8. -/
def Reg.HBM_STAT : Nat := 0x1084108
/-- HBM_SWEEP, spec/13_hbm_and_hatch_code.md R312, Table 13-9. -/
def Reg.HBM_SWEEP : Nat := 0x1084110
/-- HBM_SWEEP_PTR, spec/13_hbm_and_hatch_code.md R312, Table 13-9. -/
def Reg.HBM_SWEEP_PTR : Nat := 0x1084118
/-- HBM_KMAP, spec/13_hbm_and_hatch_code.md R312, Table 13-10. -/
def Reg.HBM_KMAP : Nat := 0x1084120
/-- HBM_WEAR, spec/13_hbm_and_hatch_code.md R312, Table 13-10. -/
def Reg.HBM_WEAR : Nat := 0x1084128
/-- HBM_SLOT_SALT, spec/13_hbm_and_hatch_code.md R312, Table 13-11. -/
def Reg.HBM_SLOT_SALT (n : Nat) : Nat := 0x1084200 + 0x10 * n
/-- HBM_SLOT_STAT, spec/13_hbm_and_hatch_code.md R312, Table 13-11. -/
def Reg.HBM_SLOT_STAT (n : Nat) : Nat := 0x1084208 + 0x10 * n
/-- PLT_CTL, spec/06_plate_array.md R147, Table 6-7. -/
def Reg.PLT_CTL : Nat := 0x1090100
/-- PLT_LIMIT, spec/06_plate_array.md R147, Table 6-8. -/
def Reg.PLT_LIMIT : Nat := 0x1090108
/-- PLT_STAT, spec/06_plate_array.md R147, Table 6-9. -/
def Reg.PLT_STAT : Nat := 0x1090110
/-- PLT_ABORT, spec/06_plate_array.md R147, Table 6-10. -/
def Reg.PLT_ABORT : Nat := 0x1090118
/-- PLT_ABORT_RES, spec/06_plate_array.md R147, Table 6-11. -/
def Reg.PLT_ABORT_RES : Nat := 0x1090120
/-- PLT_CNT, spec/06_plate_array.md R147, Table 6-12. -/
def Reg.PLT_CNT : Nat := 0x1090128
/-- PLT_ECC, spec/06_plate_array.md R147, Table 6-18. -/
def Reg.PLT_ECC : Nat := 0x1090130
/-- PLT_OQ_CFG, spec/06_plate_array.md R147, Table 6-13. -/
def Reg.PLT_OQ_CFG (q : Nat) : Nat := 0x1091000 + 0x1000 * (q / 64) + 0x100 + 0x28 * (q % 64)
/-- PLT_OQ_RING, spec/06_plate_array.md R147, Table 6-14. -/
def Reg.PLT_OQ_RING (q : Nat) : Nat := 0x1091000 + 0x1000 * (q / 64) + 0x108 + 0x28 * (q % 64)
/-- PLT_OQ_CPL, spec/06_plate_array.md R147, Table 6-15. -/
def Reg.PLT_OQ_CPL (q : Nat) : Nat := 0x1091000 + 0x1000 * (q / 64) + 0x110 + 0x28 * (q % 64)
/-- PLT_OQ_CARRY, spec/06_plate_array.md R147, Table 6-16. -/
def Reg.PLT_OQ_CARRY (q : Nat) : Nat := 0x1091000 + 0x1000 * (q / 64) + 0x118 + 0x28 * (q % 64)
/-- PLT_OQ_IDX, spec/06_plate_array.md R147, Table 6-17. -/
def Reg.PLT_OQ_IDX (q : Nat) : Nat := 0x1091000 + 0x1000 * (q / 64) + 0x120 + 0x28 * (q % 64)
/-- COL_CTL, spec/09_collectives.md R229, Table 9-15. -/
def Reg.COL_CTL : Nat := 0x10a0100
/-- COL_TOPO, spec/09_collectives.md R229, Table 9-16. -/
def Reg.COL_TOPO : Nat := 0x10a0108
/-- COL_TIMER, spec/09_collectives.md R229, Table 9-17. -/
def Reg.COL_TIMER : Nat := 0x10a0110
/-- COL_STAT, spec/09_collectives.md R229, Table 9-18. -/
def Reg.COL_STAT : Nat := 0x10a0118
/-- COL_RESIGN, spec/09_collectives.md R229, Table 9-19. -/
def Reg.COL_RESIGN : Nat := 0x10a0120
/-- COL_CNT, spec/09_collectives.md R229, Table 9-20. -/
def Reg.COL_CNT : Nat := 0x10a0128
/-- COL_Q_CFG, spec/09_collectives.md R229, Table 9-21. -/
def Reg.COL_Q_CFG (q : Nat) : Nat := 0x10a1000 + 0x1000 * (q / 64) + 0x100 + 0x20 * (q % 64)
/-- COL_Q_RING, spec/09_collectives.md R229, Table 9-22. -/
def Reg.COL_Q_RING (q : Nat) : Nat := 0x10a1000 + 0x1000 * (q / 64) + 0x108 + 0x20 * (q % 64)
/-- COL_Q_CPL, spec/09_collectives.md R229, Table 9-23. -/
def Reg.COL_Q_CPL (q : Nat) : Nat := 0x10a1000 + 0x1000 * (q / 64) + 0x110 + 0x20 * (q % 64)
/-- COL_Q_IDX, spec/09_collectives.md R229, Table 9-24. -/
def Reg.COL_Q_IDX (q : Nat) : Nat := 0x10a1000 + 0x1000 * (q / 64) + 0x118 + 0x20 * (q % 64)
/-- MSG_POOL_CFG, spec/04_ronpel_transactions.md R103, Table 4-19. -/
def Reg.MSG_POOL_CFG (n : Nat) : Nat := 0x10b0100 + 0x8 * n
/-- MSG_POOL_BASE, spec/04_ronpel_transactions.md R103, Table 4-20. -/
def Reg.MSG_POOL_BASE (n : Nat) : Nat := 0x10b0300 + 0x8 * n
/-- MSG_POOL_RING, spec/04_ronpel_transactions.md R103, Table 4-21. -/
def Reg.MSG_POOL_RING (n : Nat) : Nat := 0x10b0500 + 0x8 * n
/-- MSG_POOL_AVAIL, spec/04_ronpel_transactions.md R103, Table 4-24. -/
def Reg.MSG_POOL_AVAIL (n : Nat) : Nat := 0x10b0800 + 0x8 * n
/-- MSG_POOL_FREE, spec/04_ronpel_transactions.md R103, Table 4-22. -/
def Reg.MSG_POOL_FREE : Nat := 0x10b0700
/-- MSG_STAT, spec/04_ronpel_transactions.md R103, Table 4-23. -/
def Reg.MSG_STAT : Nat := 0x10b0708
/-- MSG_Q_CFG, spec/14_host_attach.md R337, Table 14-12. -/
def Reg.MSG_Q_CFG (q : Nat) : Nat := 0x10b1000 + 0x1000 * (q / 64) + 0x100 + 0x18 * (q % 64)
/-- MSG_Q_RING, spec/14_host_attach.md R337, Table 14-12. -/
def Reg.MSG_Q_RING (q : Nat) : Nat := 0x10b1000 + 0x1000 * (q / 64) + 0x108 + 0x18 * (q % 64)
/-- MSG_Q_IDX, spec/14_host_attach.md R337, Table 14-12. -/
def Reg.MSG_Q_IDX (q : Nat) : Nat := 0x10b1000 + 0x1000 * (q / 64) + 0x110 + 0x18 * (q % 64)
/-- SEC_ID, spec/16_security_and_isolation.md R380, Table 16-8. -/
def Reg.SEC_ID : Nat := 0x10d0100
/-- SEC_LOCK, spec/16_security_and_isolation.md R380, Table 16-8. -/
def Reg.SEC_LOCK : Nat := 0x10d0108
/-- SEC_STAT, spec/16_security_and_isolation.md R380, Table 16-9. -/
def Reg.SEC_STAT : Nat := 0x10d0110
/-- SEC_BURN, spec/16_security_and_isolation.md R380, Table 16-11. -/
def Reg.SEC_BURN : Nat := 0x10d0148
/-- SEC_BS_SRC, spec/16_security_and_isolation.md R380, Table 16-12. -/
def Reg.SEC_BS_SRC : Nat := 0x10d0150
/-- SEC_BS_CMD, spec/16_security_and_isolation.md R380, Table 16-12. -/
def Reg.SEC_BS_CMD : Nat := 0x10d0158
/-- SEC_FW_HASH, spec/16_security_and_isolation.md R380, Table 16-10. -/
def Reg.SEC_FW_HASH (k : Nat) : Nat := 0x10d0118 + 0x8 * k
/-- SEC_BS_ENT_A, spec/16_security_and_isolation.md R380, Table 16-13. -/
def Reg.SEC_BS_ENT_A (e : Nat) : Nat := 0x10d1100 + 0x40 * e
/-- SEC_BS_ENT_B, spec/16_security_and_isolation.md R380, Table 16-13. -/
def Reg.SEC_BS_ENT_B (e : Nat) : Nat := 0x10d1108 + 0x40 * e
/-- FLT_Q_CFG, spec/18_faults_and_resilience.md R423, Table 18-7. -/
def Reg.FLT_Q_CFG : Nat := 0x10e0100
/-- FLT_Q_BASE, spec/18_faults_and_resilience.md R423, Table 18-7. -/
def Reg.FLT_Q_BASE : Nat := 0x10e0108
/-- FLT_Q_IDX, spec/18_faults_and_resilience.md R423, Table 18-8. -/
def Reg.FLT_Q_IDX : Nat := 0x10e0110
/-- FLT_Q_HEADF, spec/18_faults_and_resilience.md R423, Table 18-8. -/
def Reg.FLT_Q_HEADF : Nat := 0x10e0118
/-- FLT_STAT, spec/18_faults_and_resilience.md R423, Table 18-9. -/
def Reg.FLT_STAT : Nat := 0x10e0120
/-- FLT_LOST, spec/18_faults_and_resilience.md R423, Table 18-9. -/
def Reg.FLT_LOST : Nat := 0x10e0128
/-- FLT_LAG, spec/18_faults_and_resilience.md R423, Table 18-10. -/
def Reg.FLT_LAG : Nat := 0x10e0130
/-- FLT_SPARE, spec/18_faults_and_resilience.md R423, Table 18-12. -/
def Reg.FLT_SPARE : Nat := 0x10e0158
/-- FLT_STANDIN, spec/18_faults_and_resilience.md R423, Table 18-13. -/
def Reg.FLT_STANDIN : Nat := 0x10e0170
/-- FLT_REJOIN, spec/18_faults_and_resilience.md R423, Table 18-13. -/
def Reg.FLT_REJOIN : Nat := 0x10e0180
/-- FLT_BUDGET, spec/18_faults_and_resilience.md R423, Table 18-14. -/
def Reg.FLT_BUDGET : Nat := 0x10e0178
/-- FLT_FENCE, spec/18_faults_and_resilience.md R423, Table 18-11. -/
def Reg.FLT_FENCE (k : Nat) : Nat := 0x10e0138 + 0x8 * k
/-- FLT_FENCED_BY, spec/18_faults_and_resilience.md R423, Table 18-11. -/
def Reg.FLT_FENCED_BY (k : Nat) : Nat := 0x10e0148 + 0x8 * k
/-- FLT_GROUP, spec/18_faults_and_resilience.md R423, Table 18-12. -/
def Reg.FLT_GROUP (k : Nat) : Nat := 0x10e0160 + 0x8 * k
/-- PWR_CTL, spec/20_power_package_pins.md R459, Table 20-10. -/
def Reg.PWR_CTL : Nat := 0x10f0100
/-- PWR_STAT, spec/20_power_package_pins.md R459, Table 20-10. -/
def Reg.PWR_STAT : Nat := 0x10f0108
/-- PWR_DROOP, spec/20_power_package_pins.md R459, Table 20-11. -/
def Reg.PWR_DROOP : Nat := 0x10f0110
/-- PWR_THERM, spec/20_power_package_pins.md R459, Table 20-12. -/
def Reg.PWR_THERM : Nat := 0x10f0118
/-- PWR_CNT, spec/20_power_package_pins.md R459, Table 20-13. -/
def Reg.PWR_CNT : Nat := 0x10f0120
/-- PWR_PMB_ACC, spec/20_power_package_pins.md R459, Table 20-15. -/
def Reg.PWR_PMB_ACC : Nat := 0x10f0300
/-- PWR_RAIL, spec/20_power_package_pins.md R459, Table 20-14. -/
def Reg.PWR_RAIL (r : Nat) : Nat := 0x10f0200 + 0x8 * r
/-- PWR_LIM, spec/20_power_package_pins.md R459, Table 20-14. -/
def Reg.PWR_LIM (r : Nat) : Nat := 0x10f0280 + 0x8 * r
/-- MGT_DEV_ID, spec/19_bringup_and_identity.md R440, Table 19-8. -/
def Reg.MGT_DEV_ID : Nat := 0x1100100
/-- MGT_DEV_SN, spec/19_bringup_and_identity.md R440, Table 19-8. -/
def Reg.MGT_DEV_SN : Nat := 0x1100108
/-- MGT_ID, spec/19_bringup_and_identity.md R440, Table 19-9. -/
def Reg.MGT_ID : Nat := 0x1100110
/-- MGT_CIM_INFO, spec/19_bringup_and_identity.md R440, Table 19-9. -/
def Reg.MGT_CIM_INFO : Nat := 0x1100118
/-- MGT_STAT, spec/19_bringup_and_identity.md R440, Table 19-10. -/
def Reg.MGT_STAT : Nat := 0x1100120
/-- MGT_CTL, spec/19_bringup_and_identity.md R440, Table 19-11. -/
def Reg.MGT_CTL : Nat := 0x1100128
/-- MGT_CIM_ACC, spec/19_bringup_and_identity.md R440, Table 19-11. -/
def Reg.MGT_CIM_ACC : Nat := 0x1100130
/-- MGT_CIM_ADDR, spec/19_bringup_and_identity.md R440, Table 19-12. -/
def Reg.MGT_CIM_ADDR : Nat := 0x1100138
/-- MGT_CAGE_ACC, spec/19_bringup_and_identity.md R440, Table 19-12. -/
def Reg.MGT_CAGE_ACC : Nat := 0x1100140
/-- MGT_CAGE, spec/19_bringup_and_identity.md R440, Table 19-12. -/
def Reg.MGT_CAGE (c : Nat) : Nat := 0x1100200 + 0x8 * c
/-- ILX_CTL, spec/15_ilnyx_cores.md R351, Table 15-7. -/
def Reg.ILX_CTL : Nat := 0x1110100
/-- ILX_MEM, spec/15_ilnyx_cores.md R351, Table 15-7. -/
def Reg.ILX_MEM : Nat := 0x1110108
/-- ILX_WDOG, spec/15_ilnyx_cores.md R351, Table 15-8. -/
def Reg.ILX_WDOG : Nat := 0x1110110
/-- ILX_TEL, spec/15_ilnyx_cores.md R351, Table 15-9. -/
def Reg.ILX_TEL : Nat := 0x1110118
/-- ILX_ECC, spec/15_ilnyx_cores.md R351, Table 15-13. -/
def Reg.ILX_ECC : Nat := 0x1110120
/-- ILX_MB_CTL, spec/15_ilnyx_cores.md R351, Table 15-10. -/
def Reg.ILX_MB_CTL (a : Nat) : Nat := 0x1111000 + 0x1000 * (a / 8) + 0x100 + 0x100 * (a % 8)
/-- ILX_FWIN_A, spec/15_ilnyx_cores.md R351, Table 15-11. -/
def Reg.ILX_FWIN_A (w : Nat) : Nat := 0x1113100 + 0x10 * w
/-- ILX_FWIN_B, spec/15_ilnyx_cores.md R351, Table 15-11. -/
def Reg.ILX_FWIN_B (w : Nat) : Nat := 0x1113108 + 0x10 * w
/-- ILX_C_STAT, spec/15_ilnyx_cores.md R351, Table 15-12. -/
def Reg.ILX_C_STAT (n : Nat) : Nat := 0x1114100 + 0x10 * n
/-- ILX_C_FENCE, spec/15_ilnyx_cores.md R351, Table 15-12. -/
def Reg.ILX_C_FENCE (n : Nat) : Nat := 0x1114108 + 0x10 * n
/-- SEC_BS_HASH, spec/16_security_and_isolation.md R380, Table 16-13. -/
def Reg.SEC_BS_HASH (e k : Nat) : Nat := 0x10d1110 + 0x40 * e + 8 * k
/-- ILX_MB_REQ, spec/15_ilnyx_cores.md R351, Table 15-10. -/
def Reg.ILX_MB_REQ (a k : Nat) : Nat := 0x1111000 + 0x1000 * (a / 8) + 0x110 + 0x100 * (a % 8) + 8 * k
/-- ILX_MB_RSP, spec/15_ilnyx_cores.md R351, Table 15-10. -/
def Reg.ILX_MB_RSP (a k : Nat) : Nat := 0x1111000 + 0x1000 * (a / 8) + 0x150 + 0x100 * (a % 8) + 8 * k
/-- TWN_CTL, spec/17_determinism_and_replay.md R401, Table 17-10. -/
def Reg.TWN_CTL : Nat := 0x1120100
/-- TWN_START, spec/17_determinism_and_replay.md R401, Table 17-10. -/
def Reg.TWN_START : Nat := 0x1120108
/-- TWN_REL, spec/17_determinism_and_replay.md R401, Table 17-11. -/
def Reg.TWN_REL : Nat := 0x1120150
/-- TWN_LOG, spec/17_determinism_and_replay.md R401, Table 17-12. -/
def Reg.TWN_LOG : Nat := 0x1120158
/-- TWN_STAT, spec/17_determinism_and_replay.md R401, Table 17-13. -/
def Reg.TWN_STAT : Nat := 0x1120160
/-- TWN_GRAN, spec/17_determinism_and_replay.md R401, Table 17-12. -/
def Reg.TWN_GRAN : Nat := 0x1120168
/-- TWN_TBRK0, spec/17_determinism_and_replay.md R401, Table 17-14. -/
def Reg.TWN_TBRK0 : Nat := 0x1120178
/-- TWN_TBRK1, spec/17_determinism_and_replay.md R401, Table 17-14. -/
def Reg.TWN_TBRK1 : Nat := 0x1120180
/-- TWN_GATE, spec/17_determinism_and_replay.md R401, Table 17-11. -/
def Reg.TWN_GATE (k : Nat) : Nat := 0x1120110 + 0x8 * k

/-! ### Fields -/

def F.TRN_CTL_ALT_UP : RField := ⟨Reg.TRN_CTL, 15, 11⟩
def F.TRN_CTL_PRI_UP : RField := ⟨Reg.TRN_CTL, 10, 6⟩
def F.TRN_CTL_START : RField := ⟨Reg.TRN_CTL, 3, 3⟩
def F.TRN_CTL_DOM_ROOT : RField := ⟨Reg.TRN_CTL, 2, 2⟩
def F.TRN_CTL_ROLE : RField := ⟨Reg.TRN_CTL, 1, 0⟩
def F.TRN_NOW_COUNT : RField := ⟨Reg.TRN_NOW, 63, 0⟩
def F.TRN_SET_START_VALUE : RField := ⟨Reg.TRN_SET, 63, 0⟩
def F.TRN_STAT_OFFSET : RField := ⟨Reg.TRN_STAT, 47, 32⟩
def F.TRN_STAT_HOPS : RField := ⟨Reg.TRN_STAT, 23, 16⟩
def F.TRN_STAT_HOLDOVER : RField := ⟨Reg.TRN_STAT, 4, 4⟩
def F.TRN_STAT_ALT_IN_USE : RField := ⟨Reg.TRN_STAT, 3, 3⟩
def F.TRN_STAT_SYNC_LOST : RField := ⟨Reg.TRN_STAT, 2, 2⟩
def F.TRN_STAT_LOCKED : RField := ⟨Reg.TRN_STAT, 1, 1⟩
def F.TRN_STAT_ALIGNED : RField := ⟨Reg.TRN_STAT, 0, 0⟩
def F.TRN_DELAY_DELAY : RField := ⟨Reg.TRN_DELAY, 31, 0⟩
def F.TRN_HB_HB_MISS : RField := ⟨Reg.TRN_HB, 23, 16⟩
def F.TRN_HB_HB_PERIOD : RField := ⟨Reg.TRN_HB, 15, 0⟩
def F.TRN_PRES0_PRESENT : RField := ⟨Reg.TRN_PRES0, 63, 0⟩
def F.TRN_PRES1_PRESENT : RField := ⟨Reg.TRN_PRES1, 63, 0⟩
def F.TRN_CDC_STAT_DIGEST : RField := ⟨Reg.TRN_CDC_STAT, 63, 32⟩
def F.TRN_CDC_STAT_FIRST_BAD : RField := ⟨Reg.TRN_CDC_STAT, 23, 16⟩
def F.TRN_CDC_STAT_ATTEMPTS : RField := ⟨Reg.TRN_CDC_STAT, 7, 4⟩
def F.TRN_CDC_STAT_SLIP : RField := ⟨Reg.TRN_CDC_STAT, 2, 2⟩
def F.TRN_CDC_STAT_FAILED : RField := ⟨Reg.TRN_CDC_STAT, 1, 1⟩
def F.TRN_CDC_STAT_DONE : RField := ⟨Reg.TRN_CDC_STAT, 0, 0⟩
def F.TRN_CDC_DEPTH_DEPTH (k : Nat) : RField := ⟨(Reg.TRN_CDC_DEPTH k), 63, 0⟩
def F.PIP_CTL_CTLE (n : Nat) : RField := ⟨(Reg.PIP_CTL n), 15, 12⟩
def F.PIP_CTL_SWING (n : Nat) : RField := ⟨(Reg.PIP_CTL n), 11, 8⟩
def F.PIP_CTL_LOOP (n : Nat) : RField := ⟨(Reg.PIP_CTL n), 5, 4⟩
def F.PIP_CTL_USE (n : Nat) : RField := ⟨(Reg.PIP_CTL n), 3, 2⟩
def F.PIP_CTL_EN (n : Nat) : RField := ⟨(Reg.PIP_CTL n), 0, 0⟩
def F.PIP_STAT_PEER_DOMAIN (n : Nat) : RField := ⟨(Reg.PIP_STAT n), 27, 20⟩
def F.PIP_STAT_PEER_MEMBER (n : Nat) : RField := ⟨(Reg.PIP_STAT n), 19, 13⟩
def F.PIP_STAT_PEER_LANE (n : Nat) : RField := ⟨(Reg.PIP_STAT n), 12, 8⟩
def F.PIP_STAT_FAILED (n : Nat) : RField := ⟨(Reg.PIP_STAT n), 2, 2⟩
def F.PIP_STAT_ALIGNED (n : Nat) : RField := ⟨(Reg.PIP_STAT n), 1, 1⟩
def F.PIP_STAT_UP (n : Nat) : RField := ⟨(Reg.PIP_STAT n), 0, 0⟩
def F.PIP_ERRCNT_CODE_VIOL (n : Nat) : RField := ⟨(Reg.PIP_ERRCNT n), 63, 48⟩
def F.PIP_ERRCNT_CRC_ERR (n : Nat) : RField := ⟨(Reg.PIP_ERRCNT n), 47, 32⟩
def F.PIP_ERRCNT_RETX (n : Nat) : RField := ⟨(Reg.PIP_ERRCNT n), 31, 16⟩
def F.PIP_ERRCNT_MISSED_HB (n : Nat) : RField := ⟨(Reg.PIP_ERRCNT n), 15, 0⟩
def F.VGL_TX_MANUAL (p l : Nat) : RField := ⟨(Reg.VGL_TX p l), 63, 63⟩
def F.VGL_TX_CP2 (p l : Nat) : RField := ⟨(Reg.VGL_TX p l), 41, 36⟩
def F.VGL_TX_CP1 (p l : Nat) : RField := ⟨(Reg.VGL_TX p l), 35, 30⟩
def F.VGL_TX_CM1 (p l : Nat) : RField := ⟨(Reg.VGL_TX p l), 29, 24⟩
def F.VGL_TX_CM2 (p l : Nat) : RField := ⟨(Reg.VGL_TX p l), 23, 18⟩
def F.VGL_TX_CM3 (p l : Nat) : RField := ⟨(Reg.VGL_TX p l), 17, 12⟩
def F.VGL_TX_SWING (p l : Nat) : RField := ⟨(Reg.VGL_TX p l), 4, 0⟩
def F.VGL_RX_SNR (p l : Nat) : RField := ⟨(Reg.VGL_RX p l), 31, 24⟩
def F.VGL_RX_CTLE (p l : Nat) : RField := ⟨(Reg.VGL_RX p l), 23, 16⟩
def F.VGL_STAT_SYM_ERR (p l : Nat) : RField := ⟨(Reg.VGL_STAT p l), 63, 32⟩
def F.VGL_STAT_SIGNAL (p l : Nat) : RField := ⟨(Reg.VGL_STAT p l), 2, 2⟩
def F.VGL_STAT_CDR_LOCK (p l : Nat) : RField := ⟨(Reg.VGL_STAT p l), 1, 1⟩
def F.VGL_STAT_TRAINED (p l : Nat) : RField := ⟨(Reg.VGL_STAT p l), 0, 0⟩
def F.VPT_CTL_QUIET_IDLE (p : Nat) : RField := ⟨(Reg.VPT_CTL p), 63, 48⟩
def F.VPT_CTL_PATTERN (p : Nat) : RField := ⟨(Reg.VPT_CTL p), 41, 38⟩
def F.VPT_CTL_LOOP (p : Nat) : RField := ⟨(Reg.VPT_CTL p), 37, 36⟩
def F.VPT_CTL_FE_ALLOW (p : Nat) : RField := ⟨(Reg.VPT_CTL p), 35, 35⟩
def F.VPT_CTL_FREE_RUN (p : Nat) : RField := ⟨(Reg.VPT_CTL p), 34, 34⟩
def F.VPT_CTL_KEY_SLOT (p : Nat) : RField := ⟨(Reg.VPT_CTL p), 33, 32⟩
def F.VPT_CTL_ENC_REQ (p : Nat) : RField := ⟨(Reg.VPT_CTL p), 31, 31⟩
def F.VPT_CTL_DEGRADE_EN (p : Nat) : RField := ⟨(Reg.VPT_CTL p), 30, 30⟩
def F.VPT_CTL_WIDTH (p : Nat) : RField := ⟨(Reg.VPT_CTL p), 29, 28⟩
def F.VPT_CTL_STATE_REQ (p : Nat) : RField := ⟨(Reg.VPT_CTL p), 27, 26⟩
def F.VPT_CTL_EN (p : Nat) : RField := ⟨(Reg.VPT_CTL p), 0, 0⟩
def F.VPT_STAT_LAST_CAUSE (p : Nat) : RField := ⟨(Reg.VPT_STAT p), 63, 56⟩
def F.VPT_STAT_ATTEMPTS (p : Nat) : RField := ⟨(Reg.VPT_STAT p), 55, 48⟩
def F.VPT_STAT_BSTATE (p : Nat) : RField := ⟨(Reg.VPT_STAT p), 47, 44⟩
def F.VPT_STAT_WIDTH (p : Nat) : RField := ⟨(Reg.VPT_STAT p), 43, 42⟩
def F.VPT_STAT_LSTATE (p : Nat) : RField := ⟨(Reg.VPT_STAT p), 41, 40⟩
def F.VPT_STAT_LANE_MAP (p : Nat) : RField := ⟨(Reg.VPT_STAT p), 39, 32⟩
def F.VPT_STAT_POL_INV (p : Nat) : RField := ⟨(Reg.VPT_STAT p), 31, 28⟩
def F.VPT_STAT_SKEW (p : Nat) : RField := ⟨(Reg.VPT_STAT p), 27, 18⟩
def F.VPT_STAT_LANES_OK (p : Nat) : RField := ⟨(Reg.VPT_STAT p), 17, 14⟩
def F.VPT_STAT_ENC (p : Nat) : RField := ⟨(Reg.VPT_STAT p), 1, 1⟩
def F.VPT_STAT_UP (p : Nat) : RField := ⟨(Reg.VPT_STAT p), 0, 0⟩
def F.VPT_CRED0_VC3 (p : Nat) : RField := ⟨(Reg.VPT_CRED0 p), 63, 48⟩
def F.VPT_CRED0_VC2 (p : Nat) : RField := ⟨(Reg.VPT_CRED0 p), 47, 32⟩
def F.VPT_CRED0_VC1 (p : Nat) : RField := ⟨(Reg.VPT_CRED0 p), 31, 16⟩
def F.VPT_CRED0_VC0 (p : Nat) : RField := ⟨(Reg.VPT_CRED0 p), 15, 0⟩
def F.VPT_CRED1_VC7 (p : Nat) : RField := ⟨(Reg.VPT_CRED1 p), 63, 48⟩
def F.VPT_CRED1_VC6 (p : Nat) : RField := ⟨(Reg.VPT_CRED1 p), 47, 32⟩
def F.VPT_CRED1_VC5 (p : Nat) : RField := ⟨(Reg.VPT_CRED1 p), 31, 16⟩
def F.VPT_CRED1_VC4 (p : Nat) : RField := ⟨(Reg.VPT_CRED1 p), 15, 0⟩
def F.VPT_RETRY_ACK_TIMEOUT (p : Nat) : RField := ⟨(Reg.VPT_RETRY p), 47, 32⟩
def F.VPT_RETRY_LIMIT (p : Nat) : RField := ⟨(Reg.VPT_RETRY p), 23, 16⟩
def F.VPT_FEC_CORR_SYM (p : Nat) : RField := ⟨(Reg.VPT_FEC p), 63, 32⟩
def F.VPT_FEC_UNCORR (p : Nat) : RField := ⟨(Reg.VPT_FEC p), 31, 16⟩
def F.VPT_FEC_REPLAYS (p : Nat) : RField := ⟨(Reg.VPT_FEC p), 15, 0⟩
def F.VPT_ERR_MARKER_MISS (p : Nat) : RField := ⟨(Reg.VPT_ERR p), 63, 48⟩
def F.VPT_ERR_AUTH_FAIL (p : Nat) : RField := ⟨(Reg.VPT_ERR p), 47, 32⟩
def F.VPT_ERR_DOWN (p : Nat) : RField := ⟨(Reg.VPT_ERR p), 31, 16⟩
def F.VPT_ERR_DEGRADED (p : Nat) : RField := ⟨(Reg.VPT_ERR p), 15, 0⟩
def F.VPT_FEC_WARN_THRESH (p : Nat) : RField := ⟨(Reg.VPT_FEC_WARN p), 31, 0⟩
def F.SWX_CLASS_CTL_BG_W : RField := ⟨Reg.SWX_CLASS_CTL, 23, 16⟩
def F.SWX_CLASS_CTL_BULK_W : RField := ⟨Reg.SWX_CLASS_CTL, 15, 8⟩
def F.SWX_CLASS_CTL_RESEQ_EN : RField := ⟨Reg.SWX_CLASS_CTL, 2, 2⟩
def F.SWX_CLASS_CTL_SPILL_EN : RField := ⟨Reg.SWX_CLASS_CTL, 1, 1⟩
def F.SWX_CLASS_CTL_PUSHOUT_EN : RField := ⟨Reg.SWX_CLASS_CTL, 0, 0⟩
def F.SWX_BUF_THR_RX_RES : RField := ⟨Reg.SWX_BUF_THR, 63, 48⟩
def F.SWX_BUF_THR_SCHED_RES : RField := ⟨Reg.SWX_BUF_THR, 47, 32⟩
def F.SWX_BUF_THR_CTRL_RES : RField := ⟨Reg.SWX_BUF_THR, 31, 16⟩
def F.SWX_BUF_THR_BG_MAX : RField := ⟨Reg.SWX_BUF_THR, 15, 0⟩
def F.SWX_AGE_LIMIT : RField := ⟨Reg.SWX_AGE, 31, 0⟩
def F.SWX_SPILL_SIZE_REJ : RField := ⟨Reg.SWX_SPILL, 63, 63⟩
def F.SWX_SPILL_SIZE : RField := ⟨Reg.SWX_SPILL, 6, 0⟩
def F.SWX_THROTTLE_BULK_ON : RField := ⟨Reg.SWX_THROTTLE, 63, 48⟩
def F.SWX_THROTTLE_BULK_OFF : RField := ⟨Reg.SWX_THROTTLE, 47, 32⟩
def F.SWX_THROTTLE_BG_ON : RField := ⟨Reg.SWX_THROTTLE, 31, 16⟩
def F.SWX_THROTTLE_BG_OFF : RField := ⟨Reg.SWX_THROTTLE, 15, 0⟩
def F.SWX_THR_MAX_MAX : RField := ⟨Reg.SWX_THR_MAX, 31, 0⟩
def F.SWX_SCHED_ML_EN : RField := ⟨Reg.SWX_SCHED, 7, 7⟩
def F.SWX_SCHED_BUDGET : RField := ⟨Reg.SWX_SCHED, 6, 0⟩
def F.SWX_ML_DIR_BASE : RField := ⟨Reg.SWX_ML_DIR, 52, 12⟩
def F.SWX_ML_DIR_LOG2N : RField := ⟨Reg.SWX_ML_DIR, 3, 0⟩
def F.SWX_ML_TURN_START_TURN : RField := ⟨Reg.SWX_ML_TURN, 63, 0⟩
def F.SWX_ML_ARM_MLIST : RField := ⟨Reg.SWX_ML_ARM, 31, 0⟩
def F.SWX_ML_STAT_ERR_LIST : RField := ⟨Reg.SWX_ML_STAT, 63, 32⟩
def F.SWX_ML_STAT_ERR : RField := ⟨Reg.SWX_ML_STAT, 31, 24⟩
def F.SWX_ML_STAT_ACTIVE : RField := ⟨Reg.SWX_ML_STAT, 20, 16⟩
def F.SWX_ML_CNT_INJECTED : RField := ⟨Reg.SWX_ML_CNT, 63, 32⟩
def F.SWX_ML_CNT_LATE : RField := ⟨Reg.SWX_ML_CNT, 31, 16⟩
def F.SWX_ML_CNT_OVER : RField := ⟨Reg.SWX_ML_CNT, 15, 0⟩
def F.SWX_ECC_CORR : RField := ⟨Reg.SWX_ECC, 63, 32⟩
def F.SWX_ECC_UNCORR : RField := ⟨Reg.SWX_ECC, 31, 16⟩
def F.SWX_P_OCC_SCHED (p : Nat) : RField := ⟨(Reg.SWX_P_OCC p), 63, 48⟩
def F.SWX_P_OCC_CTRL (p : Nat) : RField := ⟨(Reg.SWX_P_OCC p), 47, 32⟩
def F.SWX_P_OCC_BULK (p : Nat) : RField := ⟨(Reg.SWX_P_OCC p), 31, 16⟩
def F.SWX_P_OCC_BG (p : Nat) : RField := ⟨(Reg.SWX_P_OCC p), 15, 0⟩
def F.SWX_P_SPILL_PEAK (p : Nat) : RField := ⟨(Reg.SWX_P_SPILL p), 63, 32⟩
def F.SWX_P_SPILL_FILL (p : Nat) : RField := ⟨(Reg.SWX_P_SPILL p), 31, 0⟩
def F.SWX_P_DROP_PUSHED (p : Nat) : RField := ⟨(Reg.SWX_P_DROP p), 63, 48⟩
def F.SWX_P_DROP_RSP_DROP (p : Nat) : RField := ⟨(Reg.SWX_P_DROP p), 47, 32⟩
def F.SWX_P_DROP_AGED (p : Nat) : RField := ⟨(Reg.SWX_P_DROP p), 31, 16⟩
def F.SWX_P_DROP_DOWN (p : Nat) : RField := ⟨(Reg.SWX_P_DROP p), 15, 0⟩
def F.SWX_P_THR_HELD_TURNS (p : Nat) : RField := ⟨(Reg.SWX_P_THR p), 63, 32⟩
def F.SWX_P_THR_RESEQ_FULL (p : Nat) : RField := ⟨(Reg.SWX_P_THR p), 31, 16⟩
def F.SWX_P_THR_BAD_HDR (p : Nat) : RField := ⟨(Reg.SWX_P_THR p), 15, 0⟩
def F.RTE_CTL_ADMIT : RField := ⟨Reg.RTE_CTL, 16, 16⟩
def F.RTE_CTL_SLICE : RField := ⟨Reg.RTE_CTL, 15, 8⟩
def F.RTE_CTL_CUR : RField := ⟨Reg.RTE_CTL, 0, 0⟩
def F.RTE_FLIP_TURN_TURN : RField := ⟨Reg.RTE_FLIP_TURN, 63, 0⟩
def F.RTE_FLIP_ARM_CANCEL : RField := ⟨Reg.RTE_FLIP_ARM, 2, 2⟩
def F.RTE_FLIP_ARM_TO : RField := ⟨Reg.RTE_FLIP_ARM, 1, 1⟩
def F.RTE_FLIP_ARM_ARM : RField := ⟨Reg.RTE_FLIP_ARM, 0, 0⟩
def F.RTE_ED_READY1 : RField := ⟨Reg.RTE_ED, 1, 1⟩
def F.RTE_ED_READY0 : RField := ⟨Reg.RTE_ED, 0, 0⟩
def F.RTE_STAT_DRAIN1 : RField := ⟨Reg.RTE_STAT, 63, 40⟩
def F.RTE_STAT_DRAIN0 : RField := ⟨Reg.RTE_STAT, 39, 16⟩
def F.RTE_STAT_REJ : RField := ⟨Reg.RTE_STAT, 8, 8⟩
def F.RTE_STAT_WRITABLE1 : RField := ⟨Reg.RTE_STAT, 5, 5⟩
def F.RTE_STAT_WRITABLE0 : RField := ⟨Reg.RTE_STAT, 4, 4⟩
def F.RTE_STAT_ARMED : RField := ⟨Reg.RTE_STAT, 3, 3⟩
def F.RTE_STAT_ARM_TO : RField := ⟨Reg.RTE_STAT, 2, 2⟩
def F.RTE_STAT_CUR : RField := ⟨Reg.RTE_STAT, 0, 0⟩
def F.RTE_LAST_FLIP_TURN : RField := ⟨Reg.RTE_LAST_FLIP, 63, 0⟩
def F.RTE_CNT_ISOLATED : RField := ⟨Reg.RTE_CNT, 63, 48⟩
def F.RTE_CNT_FOREIGN : RField := ⟨Reg.RTE_CNT, 47, 32⟩
def F.RTE_CNT_NOPORT : RField := ⟨Reg.RTE_CNT, 31, 16⟩
def F.RTE_CNT_NBR_MISMATCH : RField := ⟨Reg.RTE_CNT, 15, 0⟩
def F.RTE_PORT_FAR_FAR (k : Nat) : RField := ⟨(Reg.RTE_PORT_FAR k), 63, 0⟩
def F.RTE_NEAR_A_VALID (e m : Nat) : RField := ⟨(Reg.RTE_NEAR_A e m), 63, 63⟩
def F.RTE_NEAR_A_SPRAY (e m : Nat) : RField := ⟨(Reg.RTE_NEAR_A e m), 62, 62⟩
def F.RTE_NEAR_A_SLICE (e m : Nat) : RField := ⟨(Reg.RTE_NEAR_A e m), 55, 48⟩
def F.RTE_FAR_A_VALID (e d : Nat) : RField := ⟨(Reg.RTE_FAR_A e d), 63, 63⟩
def F.RTE_FAR_A_SPRAY (e d : Nat) : RField := ⟨(Reg.RTE_FAR_A e d), 62, 62⟩
def F.RTE_FAR_A_NH (e d : Nat) : RField := ⟨(Reg.RTE_FAR_A e d), 61, 60⟩
def F.RTE_FAR_A_SLICE (e d : Nat) : RField := ⟨(Reg.RTE_FAR_A e d), 55, 48⟩
def F.RTE_FAR_A_GW_MEMBER (e d : Nat) : RField := ⟨(Reg.RTE_FAR_A e d), 6, 0⟩
def F.RTE_NEAR_B_PORTS (e m : Nat) : RField := ⟨(Reg.RTE_NEAR_B e m), 63, 0⟩
def F.RTE_FAR_B_PORTS (e d : Nat) : RField := ⟨(Reg.RTE_FAR_B e d), 63, 0⟩
def F.RTE_NEAR_C_PORTS (e m : Nat) : RField := ⟨(Reg.RTE_NEAR_C e m), 63, 0⟩
def F.RTE_FAR_C_PORTS (e d : Nat) : RField := ⟨(Reg.RTE_FAR_C e d), 63, 0⟩
def F.RTE_NBR_EXP_VALID (p : Nat) : RField := ⟨(Reg.RTE_NBR_EXP p), 63, 63⟩
def F.RTE_NBR_EXP_ANY (p : Nat) : RField := ⟨(Reg.RTE_NBR_EXP p), 62, 62⟩
def F.RTE_NBR_EXP_DOMAIN (p : Nat) : RField := ⟨(Reg.RTE_NBR_EXP p), 22, 15⟩
def F.RTE_NBR_EXP_MEMBER (p : Nat) : RField := ⟨(Reg.RTE_NBR_EXP p), 14, 8⟩
def F.RTE_NBR_EXP_PORT (p : Nat) : RField := ⟨(Reg.RTE_NBR_EXP p), 6, 0⟩
def F.RTE_NBR_SEEN_VALID (p : Nat) : RField := ⟨(Reg.RTE_NBR_SEEN p), 63, 63⟩
def F.RTE_NBR_SEEN_MISMATCH (p : Nat) : RField := ⟨(Reg.RTE_NBR_SEEN p), 62, 62⟩
def F.RTE_NBR_SEEN_DOMAIN (p : Nat) : RField := ⟨(Reg.RTE_NBR_SEEN p), 22, 15⟩
def F.RTE_NBR_SEEN_MEMBER (p : Nat) : RField := ⟨(Reg.RTE_NBR_SEEN p), 14, 8⟩
def F.RTE_NBR_SEEN_PORT (p : Nat) : RField := ⟨(Reg.RTE_NBR_SEEN p), 6, 0⟩
def F.REP_RETRY_BACKOFF (n : Nat) : RField := ⟨(Reg.REP_RETRY n), 47, 32⟩
def F.REP_RETRY_LIMIT (n : Nat) : RField := ⟨(Reg.REP_RETRY n), 27, 24⟩
def F.REP_RETRY_TIMEOUT (n : Nat) : RField := ⟨(Reg.REP_RETRY n), 23, 0⟩
def F.REP_QSB_BASE (n : Nat) : RField := ⟨(Reg.REP_QSB n), 52, 5⟩
def F.REP_QSB_EN (n : Nat) : RField := ⟨(Reg.REP_QSB n), 0, 0⟩
def F.REP_HOT_LINE_MAX (n : Nat) : RField := ⟨(Reg.REP_HOT n), 63, 48⟩
def F.REP_HOT_COLD (n : Nat) : RField := ⟨(Reg.REP_HOT n), 47, 32⟩
def F.REP_HOT_WINDOW (n : Nat) : RField := ⟨(Reg.REP_HOT n), 31, 16⟩
def F.REP_HOT_THRESH (n : Nat) : RField := ⟨(Reg.REP_HOT n), 15, 8⟩
def F.REP_HOT_PIN_EN (n : Nat) : RField := ⟨(Reg.REP_HOT n), 0, 0⟩
def F.REP_STAT_CHAN_USED (n : Nat) : RField := ⟨(Reg.REP_STAT n), 63, 48⟩
def F.REP_STAT_PINNED (n : Nat) : RField := ⟨(Reg.REP_STAT n), 47, 32⟩
def F.REP_STAT_HOLD_USED (n : Nat) : RField := ⟨(Reg.REP_STAT n), 31, 16⟩
def F.REP_STAT_QOWN_REJ (n : Nat) : RField := ⟨(Reg.REP_STAT n), 0, 0⟩
def F.REP_CNT_RETRIES (n : Nat) : RField := ⟨(Reg.REP_CNT n), 63, 32⟩
def F.REP_CNT_NACKS (n : Nat) : RField := ⟨(Reg.REP_CNT n), 31, 0⟩
def F.REP_ORD_CNT_GAP_SKIP (n : Nat) : RField := ⟨(Reg.REP_ORD_CNT n), 63, 48⟩
def F.REP_ORD_CNT_PW_TAINTED (n : Nat) : RField := ⟨(Reg.REP_ORD_CNT n), 47, 32⟩
def F.REP_ORD_CNT_FENCES (n : Nat) : RField := ⟨(Reg.REP_ORD_CNT n), 31, 0⟩
def F.REP_WIN_STAT_REJECTED (n : Nat) : RField := ⟨(Reg.REP_WIN_STAT n), 48, 48⟩
def F.REP_WIN_STAT_REJ_ENTRY (n : Nat) : RField := ⟨(Reg.REP_WIN_STAT n), 47, 42⟩
def F.REP_WIN_STAT_DRAINED (n : Nat) : RField := ⟨(Reg.REP_WIN_STAT n), 32, 32⟩
def F.REP_WIN_STAT_GEN (n : Nat) : RField := ⟨(Reg.REP_WIN_STAT n), 31, 0⟩
def F.REP_WIN_DENY_COUNT (n : Nat) : RField := ⟨(Reg.REP_WIN_DENY n), 63, 0⟩
def F.REP_QOWN_OWN (n k : Nat) : RField := ⟨(Reg.REP_QOWN n k), 63, 0⟩
def F.REP_QCLASS_BG (n k : Nat) : RField := ⟨(Reg.REP_QCLASS n k), 63, 0⟩
def F.REP_WIN_A_VALID (n e : Nat) : RField := ⟨(Reg.REP_WIN_A n e), 63, 63⟩
def F.REP_WIN_A_KIND (n e : Nat) : RField := ⟨(Reg.REP_WIN_A n e), 61, 58⟩
def F.REP_WIN_A_MEMBER_LAST (n e : Nat) : RField := ⟨(Reg.REP_WIN_A n e), 57, 51⟩
def F.REP_WIN_A_MEMBER_FIRST (n e : Nat) : RField := ⟨(Reg.REP_WIN_A n e), 50, 44⟩
def F.REP_WIN_A_QUEUE_LAST (n e : Nat) : RField := ⟨(Reg.REP_WIN_A n e), 43, 35⟩
def F.REP_WIN_A_QUEUE_FIRST (n e : Nat) : RField := ⟨(Reg.REP_WIN_A n e), 34, 26⟩
def F.REP_WIN_A_XA (n e : Nat) : RField := ⟨(Reg.REP_WIN_A n e), 4, 4⟩
def F.REP_WIN_A_ATOMIC (n e : Nat) : RField := ⟨(Reg.REP_WIN_A n e), 3, 3⟩
def F.REP_WIN_A_PROOF (n e : Nat) : RField := ⟨(Reg.REP_WIN_A n e), 2, 2⟩
def F.REP_WIN_A_WRITE (n e : Nat) : RField := ⟨(Reg.REP_WIN_A n e), 1, 1⟩
def F.REP_WIN_A_READ (n e : Nat) : RField := ⟨(Reg.REP_WIN_A n e), 0, 0⟩
def F.REP_WIN_B_BASE (n e : Nat) : RField := ⟨(Reg.REP_WIN_B n e), 52, 12⟩
def F.REP_WIN_C_LIMIT (n e : Nat) : RField := ⟨(Reg.REP_WIN_C n e), 52, 12⟩
def F.ATT_CTL_CPL_TO (a : Nat) : RField := ⟨(Reg.ATT_CTL a), 47, 32⟩
def F.ATT_CTL_BOND (a : Nat) : RField := ⟨(Reg.ATT_CTL a), 8, 8⟩
def F.ATT_CTL_EN (a : Nat) : RField := ⟨(Reg.ATT_CTL a), 0, 0⟩
def F.ATT_LINK_SPEED (a : Nat) : RField := ⟨(Reg.ATT_LINK a), 15, 8⟩
def F.ATT_LINK_WIDTH (a : Nat) : RField := ⟨(Reg.ATT_LINK a), 7, 3⟩
def F.ATT_LINK_FLIT (a : Nat) : RField := ⟨(Reg.ATT_LINK a), 2, 2⟩
def F.ATT_LINK_BONDED (a : Nat) : RField := ⟨(Reg.ATT_LINK a), 1, 1⟩
def F.ATT_LINK_UP (a : Nat) : RField := ⟨(Reg.ATT_LINK a), 0, 0⟩
def F.ATT_PEER_BASE_BASE (a : Nat) : RField := ⟨(Reg.ATT_PEER_BASE a), 63, 12⟩
def F.ATT_PEER_CFG_EN (a : Nat) : RField := ⟨(Reg.ATT_PEER_CFG a), 63, 63⟩
def F.ATT_PEER_CFG_LOG2SIZE (a : Nat) : RField := ⟨(Reg.ATT_PEER_CFG a), 53, 48⟩
def F.ATT_PEER_CFG_PASID (a : Nat) : RField := ⟨(Reg.ATT_PEER_CFG a), 19, 0⟩
def F.ATT_ATC_INV_PASID (a : Nat) : RField := ⟨(Reg.ATT_ATC a), 51, 32⟩
def F.ATT_ATC_INV_ALL (a : Nat) : RField := ⟨(Reg.ATT_ATC a), 31, 31⟩
def F.ATT_ATC_INV (a : Nat) : RField := ⟨(Reg.ATT_ATC a), 30, 30⟩
def F.ATT_ATC_USED (a : Nat) : RField := ⟨(Reg.ATT_ATC a), 13, 0⟩
def F.ATT_PRI_HOLD (a : Nat) : RField := ⟨(Reg.ATT_PRI a), 63, 32⟩
def F.ATT_PRI_BATCH_N (a : Nat) : RField := ⟨(Reg.ATT_PRI a), 31, 24⟩
def F.ATT_PRI_BATCH_T (a : Nat) : RField := ⟨(Reg.ATT_PRI a), 23, 12⟩
def F.ATT_PRI_FALLBACK (a : Nat) : RField := ⟨(Reg.ATT_PRI a), 1, 1⟩
def F.ATT_PRI_RESUME_PRI (a : Nat) : RField := ⟨(Reg.ATT_PRI a), 0, 0⟩
def F.ATT_FLT_RES_ACTION (a : Nat) : RField := ⟨(Reg.ATT_FLT_RES a), 20, 20⟩
def F.ATT_FLT_RES_PASID (a : Nat) : RField := ⟨(Reg.ATT_FLT_RES a), 19, 0⟩
def F.ATT_DB_STAT_REJ (a : Nat) : RField := ⟨(Reg.ATT_DB_STAT a), 63, 32⟩
def F.ATT_DB_STAT_FENCES (a : Nat) : RField := ⟨(Reg.ATT_DB_STAT a), 31, 16⟩
def F.ATT_DB_STAT_DMA_DONE (a : Nat) : RField := ⟨(Reg.ATT_DB_STAT a), 15, 0⟩
def F.ATT_SEC_TDI_STATE (a : Nat) : RField := ⟨(Reg.ATT_SEC a), 7, 6⟩
def F.ATT_SEC_SEL_STREAMS (a : Nat) : RField := ⟨(Reg.ATT_SEC a), 5, 3⟩
def F.ATT_SEC_LINK_IDE (a : Nat) : RField := ⟨(Reg.ATT_SEC a), 2, 2⟩
def F.ATT_SEC_SPDM (a : Nat) : RField := ⟨(Reg.ATT_SEC a), 1, 1⟩
def F.ATT_SEC_RRS (a : Nat) : RField := ⟨(Reg.ATT_SEC a), 0, 0⟩
def F.ATT_ECC_CORR (a : Nat) : RField := ⟨(Reg.ATT_ECC a), 63, 32⟩
def F.ATT_ECC_UNCORR (a : Nat) : RField := ⟨(Reg.ATT_ECC a), 31, 16⟩
def F.ATT_B2_CTL_MISS (a : Nat) : RField := ⟨(Reg.ATT_B2_CTL a), 37, 6⟩
def F.ATT_B2_CTL_SLOT_SHIFT (a : Nat) : RField := ⟨(Reg.ATT_B2_CTL a), 5, 0⟩
def F.ATT_FQ_A_REPORT (a j : Nat) : RField := ⟨(Reg.ATT_FQ_A a j), 63, 12⟩
def F.ATT_FQ_A_VALID (a j : Nat) : RField := ⟨(Reg.ATT_FQ_A a j), 11, 11⟩
def F.ATT_FQ_A_QUEUE (a j : Nat) : RField := ⟨(Reg.ATT_FQ_A a j), 8, 0⟩
def F.ATT_FQ_B_PASID (a j : Nat) : RField := ⟨(Reg.ATT_FQ_B a j), 19, 0⟩
def F.ATT_FQ_C_RING (a j : Nat) : RField := ⟨(Reg.ATT_FQ_C a j), 63, 12⟩
def F.ATT_FQ_C_LOG2N (a j : Nat) : RField := ⟨(Reg.ATT_FQ_C a j), 3, 0⟩
def F.ATT_FQ_D_TAIL (a j : Nat) : RField := ⟨(Reg.ATT_FQ_D a j), 48, 32⟩
def F.ATT_FQ_D_HEAD (a j : Nat) : RField := ⟨(Reg.ATT_FQ_D a j), 16, 0⟩
def F.ATT_B2_WIN_BASE (a n : Nat) : RField := ⟨(Reg.ATT_B2_WIN a n), 63, 21⟩
def F.ATT_B2_WIN_QUEUE (a n : Nat) : RField := ⟨(Reg.ATT_B2_WIN a n), 20, 12⟩
def F.ATT_B2_WIN_VALID (a n : Nat) : RField := ⟨(Reg.ATT_B2_WIN a n), 0, 0⟩
def F.HBM_S_ID_MFR (t : Nat) : RField := ⟨(Reg.HBM_S_ID t), 63, 56⟩
def F.HBM_S_ID_PART (t : Nat) : RField := ⟨(Reg.HBM_S_ID t), 55, 40⟩
def F.HBM_S_ID_DATE (t : Nat) : RField := ⟨(Reg.HBM_S_ID t), 39, 24⟩
def F.HBM_S_ID_HEIGHT (t : Nat) : RField := ⟨(Reg.HBM_S_ID t), 23, 16⟩
def F.HBM_S_ID_DENSITY (t : Nat) : RField := ⟨(Reg.HBM_S_ID t), 15, 8⟩
def F.HBM_S_ID_OK (t : Nat) : RField := ⟨(Reg.HBM_S_ID t), 0, 0⟩
def F.HBM_S_ECC_CORR (t : Nat) : RField := ⟨(Reg.HBM_S_ECC t), 63, 32⟩
def F.HBM_S_ECC_UNCORR (t : Nat) : RField := ⟨(Reg.HBM_S_ECC t), 31, 16⟩
def F.HBM_S_ECC_XTS_ERR (t : Nat) : RField := ⟨(Reg.HBM_S_ECC t), 15, 8⟩
def F.HBM_S_SCRUB_PASSES (t : Nat) : RField := ⟨(Reg.HBM_S_SCRUB t), 63, 32⟩
def F.HBM_S_SCRUB_POS (t : Nat) : RField := ⟨(Reg.HBM_S_SCRUB t), 30, 0⟩
def F.HBM_S_WEAR_MITIGATED (t : Nat) : RField := ⟨(Reg.HBM_S_WEAR t), 63, 32⟩
def F.HBM_S_WEAR_OVERFLOW (t : Nat) : RField := ⟨(Reg.HBM_S_WEAR t), 31, 16⟩
def F.HBM_S_WEAR_QUEUED (t : Nat) : RField := ⟨(Reg.HBM_S_WEAR t), 4, 0⟩
def F.HBM_S_REPAIR_SOFT_USED (t : Nat) : RField := ⟨(Reg.HBM_S_REPAIR t), 63, 48⟩
def F.HBM_S_REPAIR_HARD_LEFT (t : Nat) : RField := ⟨(Reg.HBM_S_REPAIR t), 47, 32⟩
def F.HBM_S_REPAIR_SOFT_FAIL (t : Nat) : RField := ⟨(Reg.HBM_S_REPAIR t), 31, 16⟩
def F.HBM_S_REPAIR_PPR_THRESH (t : Nat) : RField := ⟨(Reg.HBM_S_REPAIR t), 15, 8⟩
def F.HBM_S_TEMP_PEAK (t : Nat) : RField := ⟨(Reg.HBM_S_TEMP t), 15, 8⟩
def F.HBM_S_TEMP_TEMP (t : Nat) : RField := ⟨(Reg.HBM_S_TEMP t), 7, 0⟩
def F.HBM_CTL_SCRUB_RATE : RField := ⟨Reg.HBM_CTL, 24, 16⟩
def F.HBM_CTL_SCRUB_EN : RField := ⟨Reg.HBM_CTL, 3, 3⟩
def F.HBM_CTL_INIT : RField := ⟨Reg.HBM_CTL, 2, 2⟩
def F.HBM_CTL_ENC_EN : RField := ⟨Reg.HBM_CTL, 1, 1⟩
def F.HBM_CTL_HATCH_MODE : RField := ⟨Reg.HBM_CTL, 0, 0⟩
def F.HBM_STAT_SWEEP_REJ : RField := ⟨Reg.HBM_STAT, 5, 5⟩
def F.HBM_STAT_SLOT_REJ : RField := ⟨Reg.HBM_STAT, 4, 4⟩
def F.HBM_STAT_CFG_REJ : RField := ⟨Reg.HBM_STAT, 3, 3⟩
def F.HBM_STAT_SWEEP_ALL : RField := ⟨Reg.HBM_STAT, 2, 2⟩
def F.HBM_STAT_SWEEP_ACTIVE : RField := ⟨Reg.HBM_STAT, 1, 1⟩
def F.HBM_STAT_INIT_DONE : RField := ⟨Reg.HBM_STAT, 0, 0⟩
def F.HBM_SWEEP_LAST_REGION : RField := ⟨Reg.HBM_SWEEP, 63, 44⟩
def F.HBM_SWEEP_FIRST_REGION : RField := ⟨Reg.HBM_SWEEP, 43, 24⟩
def F.HBM_SWEEP_ALL_SLOTS : RField := ⟨Reg.HBM_SWEEP, 9, 9⟩
def F.HBM_SWEEP_MODE : RField := ⟨Reg.HBM_SWEEP, 8, 8⟩
def F.HBM_SWEEP_START : RField := ⟨Reg.HBM_SWEEP, 4, 4⟩
def F.HBM_SWEEP_NEW_SLOT : RField := ⟨Reg.HBM_SWEEP, 3, 0⟩
def F.HBM_SWEEP_PTR_PTR : RField := ⟨Reg.HBM_SWEEP_PTR, 40, 0⟩
def F.HBM_KMAP_REGION : RField := ⟨Reg.HBM_KMAP, 51, 32⟩
def F.HBM_KMAP_SLOT : RField := ⟨Reg.HBM_KMAP, 3, 0⟩
def F.HBM_WEAR_THRESH : RField := ⟨Reg.HBM_WEAR, 47, 32⟩
def F.HBM_WEAR_EN : RField := ⟨Reg.HBM_WEAR, 8, 8⟩
def F.HBM_WEAR_DIST : RField := ⟨Reg.HBM_WEAR, 1, 0⟩
def F.HBM_SLOT_SALT_SALT (n : Nat) : RField := ⟨(Reg.HBM_SLOT_SALT n), 63, 0⟩
def F.HBM_SLOT_STAT_RETIRED (n : Nat) : RField := ⟨(Reg.HBM_SLOT_STAT n), 63, 63⟩
def F.HBM_SLOT_STAT_RETIRE (n : Nat) : RField := ⟨(Reg.HBM_SLOT_STAT n), 62, 62⟩
def F.HBM_SLOT_STAT_REARM (n : Nat) : RField := ⟨(Reg.HBM_SLOT_STAT n), 61, 61⟩
def F.HBM_SLOT_STAT_REFS (n : Nat) : RField := ⟨(Reg.HBM_SLOT_STAT n), 19, 0⟩
def F.PLT_CTL_COLQ : RField := ⟨Reg.PLT_CTL, 40, 32⟩
def F.PLT_CTL_ROUND : RField := ⟨Reg.PLT_CTL, 31, 8⟩
def F.PLT_CTL_EN : RField := ⟨Reg.PLT_CTL, 0, 0⟩
def F.PLT_LIMIT_READY_LIMIT : RField := ⟨Reg.PLT_LIMIT, 31, 0⟩
def F.PLT_STAT_STROKE : RField := ⟨Reg.PLT_STAT, 63, 48⟩
def F.PLT_STAT_QUEUE : RField := ⟨Reg.PLT_STAT, 40, 32⟩
def F.PLT_STAT_INDEX : RField := ⟨Reg.PLT_STAT, 31, 16⟩
def F.PLT_STAT_SAVING : RField := ⟨Reg.PLT_STAT, 2, 2⟩
def F.PLT_STAT_WAITING : RField := ⟨Reg.PLT_STAT, 1, 1⟩
def F.PLT_STAT_BUSY : RField := ⟨Reg.PLT_STAT, 0, 0⟩
def F.PLT_ABORT_QUEUE : RField := ⟨Reg.PLT_ABORT, 40, 32⟩
def F.PLT_ABORT_INDEX : RField := ⟨Reg.PLT_ABORT, 16, 0⟩
def F.PLT_ABORT_RES_STROKES : RField := ⟨Reg.PLT_ABORT_RES, 63, 48⟩
def F.PLT_ABORT_RES_INDEX : RField := ⟨Reg.PLT_ABORT_RES, 47, 31⟩
def F.PLT_ABORT_RES_QUEUE : RField := ⟨Reg.PLT_ABORT_RES, 16, 8⟩
def F.PLT_ABORT_RES_RESULT : RField := ⟨Reg.PLT_ABORT_RES, 7, 0⟩
def F.PLT_CNT_OPS : RField := ⟨Reg.PLT_CNT, 63, 32⟩
def F.PLT_CNT_PREEMPT : RField := ⟨Reg.PLT_CNT, 31, 16⟩
def F.PLT_CNT_STRETCHED : RField := ⟨Reg.PLT_CNT, 15, 8⟩
def F.PLT_CNT_COLQ_REJ : RField := ⟨Reg.PLT_CNT, 7, 0⟩
def F.PLT_ECC_CORR : RField := ⟨Reg.PLT_ECC, 63, 32⟩
def F.PLT_ECC_UNCORR : RField := ⟨Reg.PLT_ECC, 31, 16⟩
def F.PLT_OQ_CFG_EN (q : Nat) : RField := ⟨(Reg.PLT_OQ_CFG q), 63, 63⟩
def F.PLT_OQ_CFG_COL (q : Nat) : RField := ⟨(Reg.PLT_OQ_CFG q), 62, 62⟩
def F.PLT_OQ_CFG_PORT (q : Nat) : RField := ⟨(Reg.PLT_OQ_CFG q), 55, 52⟩
def F.PLT_OQ_CFG_PASID (q : Nat) : RField := ⟨(Reg.PLT_OQ_CFG q), 51, 32⟩
def F.PLT_OQ_RING_BASE (q : Nat) : RField := ⟨(Reg.PLT_OQ_RING q), 52, 12⟩
def F.PLT_OQ_RING_LOG2N (q : Nat) : RField := ⟨(Reg.PLT_OQ_RING q), 4, 0⟩
def F.PLT_OQ_CPL_BASE (q : Nat) : RField := ⟨(Reg.PLT_OQ_CPL q), 52, 12⟩
def F.PLT_OQ_CARRY_BASE (q : Nat) : RField := ⟨(Reg.PLT_OQ_CARRY q), 52, 21⟩
def F.PLT_OQ_CARRY_SIZE (q : Nat) : RField := ⟨(Reg.PLT_OQ_CARRY q), 20, 12⟩
def F.PLT_OQ_IDX_TAIL (q : Nat) : RField := ⟨(Reg.PLT_OQ_IDX q), 48, 32⟩
def F.PLT_OQ_IDX_HEAD (q : Nat) : RField := ⟨(Reg.PLT_OQ_IDX q), 16, 0⟩
def F.COL_CTL_RESEQ : RField := ⟨Reg.COL_CTL, 8, 8⟩
def F.COL_CTL_MAX_ACTIVE : RField := ⟨Reg.COL_CTL, 5, 1⟩
def F.COL_CTL_EN : RField := ⟨Reg.COL_CTL, 0, 0⟩
def F.COL_TOPO_CONSEC : RField := ⟨Reg.COL_TOPO, 40, 40⟩
def F.COL_TOPO_M0 : RField := ⟨Reg.COL_TOPO, 39, 33⟩
def F.COL_TOPO_N : RField := ⟨Reg.COL_TOPO, 32, 26⟩
def F.COL_TOPO_RANK : RField := ⟨Reg.COL_TOPO, 25, 20⟩
def F.COL_TOPO_D : RField := ⟨Reg.COL_TOPO, 19, 13⟩
def F.COL_TOPO_DOM_INDEX : RField := ⟨Reg.COL_TOPO, 12, 7⟩
def F.COL_TOPO_VALID : RField := ⟨Reg.COL_TOPO, 0, 0⟩
def F.COL_TIMER_START_LIMIT : RField := ⟨Reg.COL_TIMER, 63, 32⟩
def F.COL_TIMER_RUN_LIMIT : RField := ⟨Reg.COL_TIMER, 31, 0⟩
def F.COL_STAT_LAST_CSEQ : RField := ⟨Reg.COL_STAT, 63, 32⟩
def F.COL_STAT_SERIES : RField := ⟨Reg.COL_STAT, 31, 31⟩
def F.COL_STAT_ACTIVE : RField := ⟨Reg.COL_STAT, 20, 16⟩
def F.COL_STAT_BIND_USED : RField := ⟨Reg.COL_STAT, 4, 0⟩
def F.COL_RESIGN_CSEQ : RField := ⟨Reg.COL_RESIGN, 63, 32⟩
def F.COL_CNT_COMPLETED : RField := ⟨Reg.COL_CNT, 63, 32⟩
def F.COL_CNT_RESIGNED : RField := ⟨Reg.COL_CNT, 31, 16⟩
def F.COL_CNT_DOOR_REJ : RField := ⟨Reg.COL_CNT, 15, 0⟩
def F.COL_Q_CFG_EN (q : Nat) : RField := ⟨(Reg.COL_Q_CFG q), 63, 63⟩
def F.COL_Q_CFG_PORT (q : Nat) : RField := ⟨(Reg.COL_Q_CFG q), 55, 52⟩
def F.COL_Q_CFG_PASID (q : Nat) : RField := ⟨(Reg.COL_Q_CFG q), 51, 32⟩
def F.COL_Q_RING_BASE (q : Nat) : RField := ⟨(Reg.COL_Q_RING q), 52, 12⟩
def F.COL_Q_RING_LOG2N (q : Nat) : RField := ⟨(Reg.COL_Q_RING q), 4, 0⟩
def F.COL_Q_CPL_BASE (q : Nat) : RField := ⟨(Reg.COL_Q_CPL q), 52, 12⟩
def F.COL_Q_IDX_TAIL (q : Nat) : RField := ⟨(Reg.COL_Q_IDX q), 48, 32⟩
def F.COL_Q_IDX_HEAD (q : Nat) : RField := ⟨(Reg.COL_Q_IDX q), 16, 0⟩
def F.MSG_POOL_CFG_EN (n : Nat) : RField := ⟨(Reg.MSG_POOL_CFG n), 63, 63⟩
def F.MSG_POOL_CFG_FALLBACK_EN (n : Nat) : RField := ⟨(Reg.MSG_POOL_CFG n), 62, 62⟩
def F.MSG_POOL_CFG_FALLBACK (n : Nat) : RField := ⟨(Reg.MSG_POOL_CFG n), 61, 56⟩
def F.MSG_POOL_CFG_SIZE (n : Nat) : RField := ⟨(Reg.MSG_POOL_CFG n), 55, 52⟩
def F.MSG_POOL_CFG_COUNT (n : Nat) : RField := ⟨(Reg.MSG_POOL_CFG n), 23, 0⟩
def F.MSG_POOL_BASE_BASE (n : Nat) : RField := ⟨(Reg.MSG_POOL_BASE n), 52, 8⟩
def F.MSG_POOL_RING_RING (n : Nat) : RField := ⟨(Reg.MSG_POOL_RING n), 52, 12⟩
def F.MSG_POOL_RING_RSIZE (n : Nat) : RField := ⟨(Reg.MSG_POOL_RING n), 4, 0⟩
def F.MSG_POOL_AVAIL_FREE (n : Nat) : RField := ⟨(Reg.MSG_POOL_AVAIL n), 23, 0⟩
def F.MSG_POOL_FREE_POOL : RField := ⟨Reg.MSG_POOL_FREE, 37, 32⟩
def F.MSG_POOL_FREE_INDEX : RField := ⟨Reg.MSG_POOL_FREE, 23, 0⟩
def F.MSG_STAT_CFG_REJ : RField := ⟨Reg.MSG_STAT, 63, 63⟩
def F.MSG_STAT_ABANDONED : RField := ⟨Reg.MSG_STAT, 47, 32⟩
def F.MSG_STAT_DOUBLE_FREE : RField := ⟨Reg.MSG_STAT, 31, 16⟩
def F.MSG_STAT_REFUSED_EMPTY : RField := ⟨Reg.MSG_STAT, 15, 0⟩
def F.MSG_Q_CFG_EN (q : Nat) : RField := ⟨(Reg.MSG_Q_CFG q), 63, 63⟩
def F.MSG_Q_CFG_PORT (q : Nat) : RField := ⟨(Reg.MSG_Q_CFG q), 55, 52⟩
def F.MSG_Q_CFG_PASID (q : Nat) : RField := ⟨(Reg.MSG_Q_CFG q), 51, 32⟩
def F.MSG_Q_RING_BASE (q : Nat) : RField := ⟨(Reg.MSG_Q_RING q), 52, 12⟩
def F.MSG_Q_RING_LOG2N (q : Nat) : RField := ⟨(Reg.MSG_Q_RING q), 4, 0⟩
def F.MSG_Q_IDX_TAIL (q : Nat) : RField := ⟨(Reg.MSG_Q_IDX q), 48, 32⟩
def F.MSG_Q_IDX_HEAD (q : Nat) : RField := ⟨(Reg.MSG_Q_IDX q), 16, 0⟩
def F.SEC_ID_KEY_FAMILY : RField := ⟨Reg.SEC_ID, 13, 0⟩
def F.SEC_LOCK_LOCK : RField := ⟨Reg.SEC_LOCK, 0, 0⟩
def F.SEC_STAT_CONDITIONS : RField := ⟨Reg.SEC_STAT, 5, 5⟩
def F.SEC_STAT_BURNISHED : RField := ⟨Reg.SEC_STAT, 4, 4⟩
def F.SEC_STAT_LINKS_ENC : RField := ⟨Reg.SEC_STAT, 3, 3⟩
def F.SEC_STAT_MEM_ENC : RField := ⟨Reg.SEC_STAT, 2, 2⟩
def F.SEC_STAT_FW_OK : RField := ⟨Reg.SEC_STAT, 1, 1⟩
def F.SEC_STAT_LOCKED : RField := ⟨Reg.SEC_STAT, 0, 0⟩
def F.SEC_BURN_COUNT : RField := ⟨Reg.SEC_BURN, 63, 48⟩
def F.SEC_BURN_LAST_TURNS : RField := ⟨Reg.SEC_BURN, 47, 16⟩
def F.SEC_BURN_RESULT : RField := ⟨Reg.SEC_BURN, 3, 2⟩
def F.SEC_BURN_ACTIVE : RField := ⟨Reg.SEC_BURN, 1, 1⟩
def F.SEC_BURN_START : RField := ⟨Reg.SEC_BURN, 0, 0⟩
def F.SEC_BS_SRC_BASE : RField := ⟨Reg.SEC_BS_SRC, 52, 12⟩
def F.SEC_BS_CMD_OP : RField := ⟨Reg.SEC_BS_CMD, 9, 8⟩
def F.SEC_BS_CMD_ENTRY : RField := ⟨Reg.SEC_BS_CMD, 2, 0⟩
def F.SEC_FW_HASH_HASH (k : Nat) : RField := ⟨(Reg.SEC_FW_HASH k), 63, 0⟩
def F.SEC_BS_ENT_A_STATE (e : Nat) : RField := ⟨(Reg.SEC_BS_ENT_A e), 63, 62⟩
def F.SEC_BS_ENT_A_RESULT (e : Nat) : RField := ⟨(Reg.SEC_BS_ENT_A e), 55, 48⟩
def F.SEC_BS_ENT_A_SLICE (e : Nat) : RField := ⟨(Reg.SEC_BS_ENT_A e), 47, 40⟩
def F.SEC_BS_ENT_A_USERS (e : Nat) : RField := ⟨(Reg.SEC_BS_ENT_A e), 39, 32⟩
def F.SEC_BS_ENT_A_OPS (e : Nat) : RField := ⟨(Reg.SEC_BS_ENT_A e), 31, 0⟩
def F.SEC_BS_ENT_B_CHUNKS (e : Nat) : RField := ⟨(Reg.SEC_BS_ENT_B e), 63, 39⟩
def F.SEC_BS_ENT_B_BASE (e : Nat) : RField := ⟨(Reg.SEC_BS_ENT_B e), 28, 0⟩
def F.FLT_Q_CFG_EN : RField := ⟨Reg.FLT_Q_CFG, 63, 63⟩
def F.FLT_Q_CFG_PORT : RField := ⟨Reg.FLT_Q_CFG, 55, 52⟩
def F.FLT_Q_CFG_COAL : RField := ⟨Reg.FLT_Q_CFG, 31, 16⟩
def F.FLT_Q_CFG_LOG2N : RField := ⟨Reg.FLT_Q_CFG, 4, 0⟩
def F.FLT_Q_BASE_BASE : RField := ⟨Reg.FLT_Q_BASE, 52, 12⟩
def F.FLT_Q_IDX_TAIL : RField := ⟨Reg.FLT_Q_IDX, 48, 32⟩
def F.FLT_Q_IDX_HEAD_H : RField := ⟨Reg.FLT_Q_IDX, 16, 0⟩
def F.FLT_Q_HEADF_HEAD_F : RField := ⟨Reg.FLT_Q_HEADF, 16, 0⟩
def F.FLT_STAT_PARK_USED : RField := ⟨Reg.FLT_STAT, 42, 32⟩
def F.FLT_STAT_BACKPRESS : RField := ⟨Reg.FLT_STAT, 2, 2⟩
def F.FLT_STAT_PARK_FULL : RField := ⟨Reg.FLT_STAT, 1, 1⟩
def F.FLT_STAT_OVERFLOW : RField := ⟨Reg.FLT_STAT, 0, 0⟩
def F.FLT_LOST_COUNT : RField := ⟨Reg.FLT_LOST, 63, 32⟩
def F.FLT_LOST_SEQ : RField := ⟨Reg.FLT_LOST, 31, 0⟩
def F.FLT_LAG_SCORE : RField := ⟨Reg.FLT_LAG, 63, 43⟩
def F.FLT_LAG_SUSPECT : RField := ⟨Reg.FLT_LAG, 40, 40⟩
def F.FLT_LAG_LAST_WIN : RField := ⟨Reg.FLT_LAG, 39, 32⟩
def F.FLT_LAG_THRESH : RField := ⟨Reg.FLT_LAG, 20, 0⟩
def F.FLT_SPARE_READY : RField := ⟨Reg.FLT_SPARE, 63, 63⟩
def F.FLT_SPARE_ARM : RField := ⟨Reg.FLT_SPARE, 62, 62⟩
def F.FLT_SPARE_GROUP : RField := ⟨Reg.FLT_SPARE, 55, 48⟩
def F.FLT_SPARE_ROLE : RField := ⟨Reg.FLT_SPARE, 0, 0⟩
def F.FLT_STANDIN_RESULT : RField := ⟨Reg.FLT_STANDIN, 63, 56⟩
def F.FLT_STANDIN_BUSY : RField := ⟨Reg.FLT_STANDIN, 55, 55⟩
def F.FLT_STANDIN_GO : RField := ⟨Reg.FLT_STANDIN, 7, 7⟩
def F.FLT_STANDIN_MEMBER : RField := ⟨Reg.FLT_STANDIN, 6, 0⟩
def F.FLT_REJOIN_RESULT : RField := ⟨Reg.FLT_REJOIN, 63, 56⟩
def F.FLT_REJOIN_GO : RField := ⟨Reg.FLT_REJOIN, 0, 0⟩
def F.FLT_BUDGET_TOKENS : RField := ⟨Reg.FLT_BUDGET, 63, 60⟩
def F.FLT_BUDGET_CAP : RField := ⟨Reg.FLT_BUDGET, 59, 56⟩
def F.FLT_BUDGET_REFILL : RField := ⟨Reg.FLT_BUDGET, 47, 0⟩
def F.FLT_FENCE_FENCE (k : Nat) : RField := ⟨(Reg.FLT_FENCE k), 63, 0⟩
def F.FLT_FENCED_BY_FENCED_BY (k : Nat) : RField := ⟨(Reg.FLT_FENCED_BY k), 63, 0⟩
def F.FLT_GROUP_MEMBERS (k : Nat) : RField := ⟨(Reg.FLT_GROUP k), 63, 0⟩
def F.PWR_CTL_STAGGER_EN : RField := ⟨Reg.PWR_CTL, 1, 1⟩
def F.PWR_CTL_WARN_EN : RField := ⟨Reg.PWR_CTL, 0, 0⟩
def F.PWR_STAT_TJ_EFF : RField := ⟨Reg.PWR_STAT, 63, 56⟩
def F.PWR_STAT_DUTY_F : RField := ⟨Reg.PWR_STAT, 55, 52⟩
def F.PWR_STAT_SLOT : RField := ⟨Reg.PWR_STAT, 51, 49⟩
def F.PWR_STAT_ARRAY : RField := ⟨Reg.PWR_STAT, 48, 47⟩
def F.PWR_STAT_WARN_STEP : RField := ⟨Reg.PWR_STAT, 7, 6⟩
def F.PWR_STAT_OVERCURRENT : RField := ⟨Reg.PWR_STAT, 5, 5⟩
def F.PWR_STAT_FROZEN : RField := ⟨Reg.PWR_STAT, 4, 4⟩
def F.PWR_STAT_STRETCH : RField := ⟨Reg.PWR_STAT, 3, 3⟩
def F.PWR_STAT_DUTY : RField := ⟨Reg.PWR_STAT, 2, 2⟩
def F.PWR_STAT_WARN : RField := ⟨Reg.PWR_STAT, 0, 0⟩
def F.PWR_DROOP_EVENTS : RField := ⟨Reg.PWR_DROOP, 63, 32⟩
def F.PWR_DROOP_HOLD : RField := ⟨Reg.PWR_DROOP, 31, 16⟩
def F.PWR_DROOP_THRESH_HBM : RField := ⟨Reg.PWR_DROOP, 15, 8⟩
def F.PWR_DROOP_THRESH_CORE : RField := ⟨Reg.PWR_DROOP, 7, 0⟩
def F.PWR_THERM_PEAK : RField := ⟨Reg.PWR_THERM, 63, 56⟩
def F.PWR_THERM_TRIP : RField := ⟨Reg.PWR_THERM, 55, 48⟩
def F.PWR_THERM_DUTY_ON : RField := ⟨Reg.PWR_THERM, 47, 40⟩
def F.PWR_THERM_DUTY_WINDOWS : RField := ⟨Reg.PWR_THERM, 31, 0⟩
def F.PWR_CNT_FROZEN_TURNS : RField := ⟨Reg.PWR_CNT, 63, 32⟩
def F.PWR_CNT_WARNS : RField := ⟨Reg.PWR_CNT, 31, 16⟩
def F.PWR_CNT_OVER_EVENTS : RField := ⟨Reg.PWR_CNT, 15, 0⟩
def F.PWR_PMB_ACC_DONE : RField := ⟨Reg.PWR_PMB_ACC, 63, 63⟩
def F.PWR_PMB_ACC_NAK : RField := ⟨Reg.PWR_PMB_ACC, 62, 62⟩
def F.PWR_PMB_ACC_OP : RField := ⟨Reg.PWR_PMB_ACC, 57, 56⟩
def F.PWR_PMB_ACC_ADDR : RField := ⟨Reg.PWR_PMB_ACC, 46, 40⟩
def F.PWR_PMB_ACC_CMD : RField := ⟨Reg.PWR_PMB_ACC, 39, 32⟩
def F.PWR_PMB_ACC_DATA : RField := ⟨Reg.PWR_PMB_ACC, 15, 0⟩
def F.PWR_RAIL_VOUT (r : Nat) : RField := ⟨(Reg.PWR_RAIL r), 63, 48⟩
def F.PWR_RAIL_IOUT (r : Nat) : RField := ⟨(Reg.PWR_RAIL r), 47, 32⟩
def F.PWR_RAIL_TEMP (r : Nat) : RField := ⟨(Reg.PWR_RAIL r), 31, 24⟩
def F.PWR_RAIL_STATUS (r : Nat) : RField := ⟨(Reg.PWR_RAIL r), 23, 16⟩
def F.PWR_RAIL_STALE (r : Nat) : RField := ⟨(Reg.PWR_RAIL r), 2, 2⟩
def F.PWR_RAIL_OVER (r : Nat) : RField := ⟨(Reg.PWR_RAIL r), 1, 1⟩
def F.PWR_RAIL_POLLED (r : Nat) : RField := ⟨(Reg.PWR_RAIL r), 0, 0⟩
def F.PWR_LIM_LIMIT (r : Nat) : RField := ⟨(Reg.PWR_LIM r), 15, 0⟩
def F.MGT_DEV_ID_PART : RField := ⟨Reg.MGT_DEV_ID, 47, 32⟩
def F.MGT_DEV_ID_STEPPING : RField := ⟨Reg.MGT_DEV_ID, 3, 0⟩
def F.MGT_DEV_SN_SERIAL : RField := ⟨Reg.MGT_DEV_SN, 63, 0⟩
def F.MGT_ID_VALID : RField := ⟨Reg.MGT_ID, 16, 16⟩
def F.MGT_ID_DOMAIN : RField := ⟨Reg.MGT_ID, 15, 8⟩
def F.MGT_ID_MEMBER : RField := ⟨Reg.MGT_ID, 6, 0⟩
def F.MGT_CIM_INFO_RACK : RField := ⟨Reg.MGT_CIM_INFO, 63, 48⟩
def F.MGT_CIM_INFO_ROW : RField := ⟨Reg.MGT_CIM_INFO, 47, 40⟩
def F.MGT_CIM_INFO_SLOT : RField := ⟨Reg.MGT_CIM_INFO, 39, 32⟩
def F.MGT_CIM_INFO_BOARD_REV : RField := ⟨Reg.MGT_CIM_INFO, 31, 16⟩
def F.MGT_CIM_INFO_COOLING : RField := ⟨Reg.MGT_CIM_INFO, 15, 8⟩
def F.MGT_STAT_CHAIN_ERR : RField := ⟨Reg.MGT_STAT, 63, 48⟩
def F.MGT_STAT_OOB_ERR : RField := ⟨Reg.MGT_STAT, 47, 32⟩
def F.MGT_STAT_DETACHED : RField := ⟨Reg.MGT_STAT, 12, 12⟩
def F.MGT_STAT_READY : RField := ⟨Reg.MGT_STAT, 11, 11⟩
def F.MGT_STAT_FW_SLOT : RField := ⟨Reg.MGT_STAT, 10, 10⟩
def F.MGT_STAT_BOOT : RField := ⟨Reg.MGT_STAT, 9, 8⟩
def F.MGT_STAT_CIM_BUSY : RField := ⟨Reg.MGT_STAT, 7, 7⟩
def F.MGT_STAT_ID_CONFLICT : RField := ⟨Reg.MGT_STAT, 6, 6⟩
def F.MGT_STAT_KF_MISMATCH : RField := ⟨Reg.MGT_STAT, 5, 5⟩
def F.MGT_STAT_CIM_BAD : RField := ⟨Reg.MGT_STAT, 4, 4⟩
def F.MGT_STAT_CIM_OK : RField := ⟨Reg.MGT_STAT, 3, 3⟩
def F.MGT_CTL_DETACH : RField := ⟨Reg.MGT_CTL, 1, 1⟩
def F.MGT_CTL_KF_OVERRIDE : RField := ⟨Reg.MGT_CTL, 0, 0⟩
def F.MGT_CIM_ACC_DONE : RField := ⟨Reg.MGT_CIM_ACC, 63, 63⟩
def F.MGT_CIM_ACC_OP : RField := ⟨Reg.MGT_CIM_ACC, 17, 16⟩
def F.MGT_CIM_ACC_DATA : RField := ⟨Reg.MGT_CIM_ACC, 15, 8⟩
def F.MGT_CIM_ADDR_ADDR : RField := ⟨Reg.MGT_CIM_ADDR, 8, 0⟩
def F.MGT_CAGE_ACC_DONE : RField := ⟨Reg.MGT_CAGE_ACC, 63, 63⟩
def F.MGT_CAGE_ACC_OP : RField := ⟨Reg.MGT_CAGE_ACC, 33, 32⟩
def F.MGT_CAGE_ACC_DATA : RField := ⟨Reg.MGT_CAGE_ACC, 31, 24⟩
def F.MGT_CAGE_ACC_PAGE : RField := ⟨Reg.MGT_CAGE_ACC, 23, 16⟩
def F.MGT_CAGE_ACC_BYTE : RField := ⟨Reg.MGT_CAGE_ACC, 15, 8⟩
def F.MGT_CAGE_ACC_CAGE : RField := ⟨Reg.MGT_CAGE_ACC, 5, 0⟩
def F.MGT_CAGE_IDENT (c : Nat) : RField := ⟨(Reg.MGT_CAGE c), 63, 56⟩
def F.MGT_CAGE_MSTATE (c : Nat) : RField := ⟨(Reg.MGT_CAGE c), 55, 53⟩
def F.MGT_CAGE_FLAT (c : Nat) : RField := ⟨(Reg.MGT_CAGE c), 52, 52⟩
def F.MGT_CAGE_PRESENT (c : Nat) : RField := ⟨(Reg.MGT_CAGE c), 51, 51⟩
def F.MGT_CAGE_READ_ERR (c : Nat) : RField := ⟨(Reg.MGT_CAGE c), 50, 50⟩
def F.MGT_CAGE_CHANGED (c : Nat) : RField := ⟨(Reg.MGT_CAGE c), 49, 49⟩
def F.MGT_CAGE_ID_CRC (c : Nat) : RField := ⟨(Reg.MGT_CAGE c), 31, 0⟩
def F.ILX_CTL_KCORES : RField := ⟨Reg.ILX_CTL, 63, 32⟩
def F.ILX_CTL_KERNEL_EN : RField := ⟨Reg.ILX_CTL, 0, 0⟩
def F.ILX_MEM_BASE : RField := ⟨Reg.ILX_MEM, 52, 30⟩
def F.ILX_MEM_SIZE : RField := ⟨Reg.ILX_MEM, 6, 0⟩
def F.ILX_WDOG_RESETS : RField := ⟨Reg.ILX_WDOG, 63, 48⟩
def F.ILX_WDOG_PERIOD : RField := ⟨Reg.ILX_WDOG, 31, 0⟩
def F.ILX_TEL_PERIOD : RField := ⟨Reg.ILX_TEL, 31, 0⟩
def F.ILX_ECC_CORR : RField := ⟨Reg.ILX_ECC, 63, 32⟩
def F.ILX_ECC_UNCORR : RField := ⟨Reg.ILX_ECC, 31, 16⟩
def F.ILX_MB_CTL_DISCARDS (a : Nat) : RField := ⟨(Reg.ILX_MB_CTL a), 63, 32⟩
def F.ILX_MB_CTL_BUSY (a : Nat) : RField := ⟨(Reg.ILX_MB_CTL a), 0, 0⟩
def F.ILX_FWIN_A_VALID (w : Nat) : RField := ⟨(Reg.ILX_FWIN_A w), 63, 63⟩
def F.ILX_FWIN_A_QUEUE (w : Nat) : RField := ⟨(Reg.ILX_FWIN_A w), 8, 0⟩
def F.ILX_FWIN_B_BASE (w : Nat) : RField := ⟨(Reg.ILX_FWIN_B w), 63, 44⟩
def F.ILX_C_STAT_STATUS (n : Nat) : RField := ⟨(Reg.ILX_C_STAT n), 63, 56⟩
def F.ILX_C_STAT_TAG (n : Nat) : RField := ⟨(Reg.ILX_C_STAT n), 17, 0⟩
def F.ILX_C_FENCE_DONE (n : Nat) : RField := ⟨(Reg.ILX_C_FENCE n), 63, 63⟩
def F.ILX_C_FENCE_RESULT (n : Nat) : RField := ⟨(Reg.ILX_C_FENCE n), 55, 48⟩
def F.ILX_C_FENCE_QUEUE (n : Nat) : RField := ⟨(Reg.ILX_C_FENCE n), 12, 4⟩
def F.ILX_C_FENCE_SCOPE (n : Nat) : RField := ⟨(Reg.ILX_C_FENCE n), 3, 2⟩
def F.ILX_C_FENCE_KIND (n : Nat) : RField := ⟨(Reg.ILX_C_FENCE n), 1, 0⟩
def F.SEC_BS_HASH_HASH (e k : Nat) : RField := ⟨(Reg.SEC_BS_HASH e k), 63, 0⟩
def F.ILX_MB_REQ_REQ (a k : Nat) : RField := ⟨(Reg.ILX_MB_REQ a k), 63, 0⟩
def F.ILX_MB_RSP_RSP (a k : Nat) : RField := ⟨(Reg.ILX_MB_RSP a k), 63, 0⟩
def F.TWN_CTL_PEER_DOMAIN : RField := ⟨Reg.TWN_CTL, 23, 16⟩
def F.TWN_CTL_PEER_MEMBER : RField := ⟨Reg.TWN_CTL, 14, 8⟩
def F.TWN_CTL_EN : RField := ⟨Reg.TWN_CTL, 0, 0⟩
def F.TWN_START_START_TURN : RField := ⟨Reg.TWN_START, 63, 0⟩
def F.TWN_REL_TURN : RField := ⟨Reg.TWN_REL, 63, 0⟩
def F.TWN_LOG_BASE : RField := ⟨Reg.TWN_LOG, 52, 12⟩
def F.TWN_STAT_WINDOW : RField := ⟨Reg.TWN_STAT, 63, 32⟩
def F.TWN_STAT_CAUSE : RField := ⟨Reg.TWN_STAT, 31, 24⟩
def F.TWN_STAT_SIG : RField := ⟨Reg.TWN_STAT, 23, 22⟩
def F.TWN_STAT_REJ : RField := ⟨Reg.TWN_STAT, 4, 4⟩
def F.TWN_STAT_LOCATED : RField := ⟨Reg.TWN_STAT, 3, 3⟩
def F.TWN_STAT_STOPPED : RField := ⟨Reg.TWN_STAT, 2, 2⟩
def F.TWN_STAT_MISMATCH : RField := ⟨Reg.TWN_STAT, 1, 1⟩
def F.TWN_STAT_RUNNING : RField := ⟨Reg.TWN_STAT, 0, 0⟩
def F.TWN_GRAN_GRANULE : RField := ⟨Reg.TWN_GRAN, 39, 0⟩
def F.TWN_TBRK0_STRETCH_TURNS : RField := ⟨Reg.TWN_TBRK0, 63, 32⟩
def F.TWN_TBRK0_DUTY_TURNS : RField := ⟨Reg.TWN_TBRK0, 31, 0⟩
def F.TWN_TBRK1_UNSCHED : RField := ⟨Reg.TWN_TBRK1, 63, 32⟩
def F.TWN_TBRK1_BRK_WINDOWS : RField := ⟨Reg.TWN_TBRK1, 31, 0⟩
def F.TWN_GATE_GATE (k : Nat) : RField := ⟨(Reg.TWN_GATE k), 63, 0⟩

/-! ### Layouts -/

def D.TRN_CTL : RegDesc := ⟨0x100, 0x0, 1,
  [⟨15, 11, .rw, 31⟩, ⟨10, 6, .rw, 31⟩, ⟨3, 3, .w1s, 0⟩, ⟨2, 2, .rw, 0⟩, ⟨1, 0, .rw, 0⟩]⟩
def D.TRN_NOW : RegDesc := ⟨0x108, 0x0, 1,
  [⟨63, 0, .ro, 0⟩]⟩
def D.TRN_SET : RegDesc := ⟨0x110, 0x0, 1,
  [⟨63, 0, .rw, 0⟩]⟩
def D.TRN_STAT : RegDesc := ⟨0x118, 0x0, 1,
  [⟨47, 32, .ro, 0⟩, ⟨23, 16, .ro, 0⟩, ⟨4, 4, .ro, 0⟩, ⟨3, 3, .ro, 0⟩, ⟨2, 2, .ro, 0⟩, ⟨1, 1, .ro, 0⟩, ⟨0, 0, .ro, 0⟩]⟩
def D.TRN_DELAY : RegDesc := ⟨0x120, 0x0, 1,
  [⟨31, 0, .ro, 0⟩]⟩
def D.TRN_HB : RegDesc := ⟨0x128, 0x0, 1,
  [⟨23, 16, .rw, 16⟩, ⟨15, 0, .rw, 256⟩]⟩
def D.TRN_PRES0 : RegDesc := ⟨0x130, 0x0, 1,
  [⟨63, 0, .ro, 0⟩]⟩
def D.TRN_PRES1 : RegDesc := ⟨0x138, 0x0, 1,
  [⟨63, 0, .ro, 0⟩]⟩
def D.TRN_CDC_STAT : RegDesc := ⟨0x140, 0x0, 1,
  [⟨63, 32, .ro, 0⟩, ⟨23, 16, .ro, 255⟩, ⟨7, 4, .ro, 0⟩, ⟨2, 2, .ro, 0⟩, ⟨1, 1, .ro, 0⟩, ⟨0, 0, .ro, 0⟩]⟩
def D.TRN_CDC_DEPTH : RegDesc := ⟨0x148, 0x8, 13,
  [⟨63, 0, .ro, 0⟩]⟩
def D.PIP_CTL : RegDesc := ⟨0x100, 0x0, 1,
  [⟨15, 12, .rw, 6⟩, ⟨11, 8, .rw, 8⟩, ⟨5, 4, .rw, 0⟩, ⟨3, 2, .rw, 0⟩, ⟨0, 0, .rw, 1⟩]⟩
def D.PIP_STAT : RegDesc := ⟨0x108, 0x0, 1,
  [⟨27, 20, .ro, 0⟩, ⟨19, 13, .ro, 0⟩, ⟨12, 8, .ro, 0⟩, ⟨2, 2, .ro, 0⟩, ⟨1, 1, .ro, 0⟩, ⟨0, 0, .ro, 0⟩]⟩
def D.PIP_ERRCNT : RegDesc := ⟨0x110, 0x0, 1,
  [⟨63, 48, .rc, 0⟩, ⟨47, 32, .rc, 0⟩, ⟨31, 16, .rc, 0⟩, ⟨15, 0, .rc, 0⟩]⟩
def D.VGL_TX : RegDesc := ⟨0x100, 0x18, 128,
  [⟨63, 63, .rw, 0⟩, ⟨41, 36, .rw, 0⟩, ⟨35, 30, .rw, 0⟩, ⟨29, 24, .rw, 0⟩, ⟨23, 18, .rw, 0⟩, ⟨17, 12, .rw, 0⟩, ⟨4, 0, .rw, 16⟩]⟩
def D.VGL_RX : RegDesc := ⟨0x108, 0x18, 128,
  [⟨31, 24, .ro, 0⟩, ⟨23, 16, .ro, 0⟩]⟩
def D.VGL_STAT : RegDesc := ⟨0x110, 0x18, 128,
  [⟨63, 32, .rc, 0⟩, ⟨2, 2, .ro, 0⟩, ⟨1, 1, .ro, 0⟩, ⟨0, 0, .ro, 0⟩]⟩
def D.VPT_CTL : RegDesc := ⟨0x100, 0x40, 32,
  [⟨63, 48, .rw, 0⟩, ⟨41, 38, .rw, 0⟩, ⟨37, 36, .rw, 0⟩, ⟨35, 35, .rw, 0⟩, ⟨34, 34, .rw, 0⟩, ⟨33, 32, .rwl, 0⟩, ⟨31, 31, .rwl, 0⟩, ⟨30, 30, .rw, 1⟩, ⟨29, 28, .rw, 2⟩, ⟨27, 26, .rw, 0⟩, ⟨0, 0, .rw, 1⟩]⟩
def D.VPT_STAT : RegDesc := ⟨0x108, 0x40, 32,
  [⟨63, 56, .ro, 0⟩, ⟨55, 48, .ro, 0⟩, ⟨47, 44, .ro, 0⟩, ⟨43, 42, .ro, 0⟩, ⟨41, 40, .ro, 0⟩, ⟨39, 32, .ro, 228⟩, ⟨31, 28, .ro, 0⟩, ⟨27, 18, .ro, 0⟩, ⟨17, 14, .ro, 0⟩, ⟨1, 1, .ro, 0⟩, ⟨0, 0, .ro, 0⟩]⟩
def D.VPT_CRED0 : RegDesc := ⟨0x110, 0x40, 32,
  [⟨63, 48, .rw, 640⟩, ⟨47, 32, .rw, 384⟩, ⟨31, 16, .rw, 128⟩, ⟨15, 0, .rw, 384⟩]⟩
def D.VPT_CRED1 : RegDesc := ⟨0x118, 0x40, 32,
  [⟨63, 48, .rw, 64⟩, ⟨47, 32, .rw, 64⟩, ⟨31, 16, .rw, 256⟩, ⟨15, 0, .rw, 128⟩]⟩
def D.VPT_RETRY : RegDesc := ⟨0x120, 0x40, 32,
  [⟨47, 32, .rw, 1024⟩, ⟨23, 16, .rw, 8⟩]⟩
def D.VPT_FEC : RegDesc := ⟨0x128, 0x40, 32,
  [⟨63, 32, .rc, 0⟩, ⟨31, 16, .rc, 0⟩, ⟨15, 0, .rc, 0⟩]⟩
def D.VPT_ERR : RegDesc := ⟨0x130, 0x40, 32,
  [⟨63, 48, .rc, 0⟩, ⟨47, 32, .rc, 0⟩, ⟨31, 16, .rc, 0⟩, ⟨15, 0, .rc, 0⟩]⟩
def D.VPT_FEC_WARN : RegDesc := ⟨0x138, 0x40, 32,
  [⟨31, 0, .rw, 262144⟩]⟩
def D.SWX_CLASS_CTL : RegDesc := ⟨0x100, 0x0, 1,
  [⟨23, 16, .rw, 1⟩, ⟨15, 8, .rw, 15⟩, ⟨2, 2, .rw, 1⟩, ⟨1, 1, .rw, 0⟩, ⟨0, 0, .rw, 1⟩]⟩
def D.SWX_BUF_THR : RegDesc := ⟨0x108, 0x0, 1,
  [⟨63, 48, .rw, 2048⟩, ⟨47, 32, .rw, 3072⟩, ⟨31, 16, .rw, 1024⟩, ⟨15, 0, .rw, 2048⟩]⟩
def D.SWX_AGE : RegDesc := ⟨0x110, 0x0, 1,
  [⟨31, 0, .rw, 250000⟩]⟩
def D.SWX_SPILL : RegDesc := ⟨0x118, 0x0, 1,
  [⟨63, 63, .w1c, 0⟩, ⟨6, 0, .rw, 0⟩]⟩
def D.SWX_THROTTLE : RegDesc := ⟨0x120, 0x0, 1,
  [⟨63, 48, .rw, 8192⟩, ⟨47, 32, .rw, 6144⟩, ⟨31, 16, .rw, 4096⟩, ⟨15, 0, .rw, 2048⟩]⟩
def D.SWX_THR_MAX : RegDesc := ⟨0x128, 0x0, 1,
  [⟨31, 0, .rw, 65536⟩]⟩
def D.SWX_SCHED : RegDesc := ⟨0x130, 0x0, 1,
  [⟨7, 7, .rw, 1⟩, ⟨6, 0, .rw, 75⟩]⟩
def D.SWX_ML_DIR : RegDesc := ⟨0x138, 0x0, 1,
  [⟨52, 12, .rw, 0⟩, ⟨3, 0, .rw, 0⟩]⟩
def D.SWX_ML_TURN : RegDesc := ⟨0x140, 0x0, 1,
  [⟨63, 0, .rw, 0⟩]⟩
def D.SWX_ML_ARM : RegDesc := ⟨0x148, 0x0, 1,
  [⟨31, 0, .wo, 0⟩]⟩
def D.SWX_ML_STAT : RegDesc := ⟨0x150, 0x0, 1,
  [⟨63, 32, .ro, 0⟩, ⟨31, 24, .rc, 0⟩, ⟨20, 16, .ro, 0⟩]⟩
def D.SWX_ML_CNT : RegDesc := ⟨0x158, 0x0, 1,
  [⟨63, 32, .rc, 0⟩, ⟨31, 16, .rc, 0⟩, ⟨15, 0, .rc, 0⟩]⟩
def D.SWX_ECC : RegDesc := ⟨0x160, 0x0, 1,
  [⟨63, 32, .rc, 0⟩, ⟨31, 16, .rc, 0⟩]⟩
def D.SWX_P_OCC : RegDesc := ⟨0x100, 0x20, 32,
  [⟨63, 48, .ro, 0⟩, ⟨47, 32, .ro, 0⟩, ⟨31, 16, .ro, 0⟩, ⟨15, 0, .ro, 0⟩]⟩
def D.SWX_P_SPILL : RegDesc := ⟨0x108, 0x20, 32,
  [⟨63, 32, .rc, 0⟩, ⟨31, 0, .ro, 0⟩]⟩
def D.SWX_P_DROP : RegDesc := ⟨0x110, 0x20, 32,
  [⟨63, 48, .rc, 0⟩, ⟨47, 32, .rc, 0⟩, ⟨31, 16, .rc, 0⟩, ⟨15, 0, .rc, 0⟩]⟩
def D.SWX_P_THR : RegDesc := ⟨0x118, 0x20, 32,
  [⟨63, 32, .rc, 0⟩, ⟨31, 16, .rc, 0⟩, ⟨15, 0, .rc, 0⟩]⟩
def D.RTE_CTL : RegDesc := ⟨0x100, 0x0, 1,
  [⟨16, 16, .rw, 0⟩, ⟨15, 8, .rw, 0⟩, ⟨0, 0, .rw, 0⟩]⟩
def D.RTE_FLIP_TURN : RegDesc := ⟨0x108, 0x0, 1,
  [⟨63, 0, .rw, 0⟩]⟩
def D.RTE_FLIP_ARM : RegDesc := ⟨0x110, 0x0, 1,
  [⟨2, 2, .wo, 0⟩, ⟨1, 1, .wo, 0⟩, ⟨0, 0, .wo, 0⟩]⟩
def D.RTE_ED : RegDesc := ⟨0x118, 0x0, 1,
  [⟨1, 1, .rw, 0⟩, ⟨0, 0, .rw, 0⟩]⟩
def D.RTE_STAT : RegDesc := ⟨0x120, 0x0, 1,
  [⟨63, 40, .ro, 0⟩, ⟨39, 16, .ro, 0⟩, ⟨8, 8, .w1c, 0⟩, ⟨5, 5, .ro, 1⟩, ⟨4, 4, .ro, 1⟩, ⟨3, 3, .ro, 0⟩, ⟨2, 2, .ro, 0⟩, ⟨0, 0, .ro, 0⟩]⟩
def D.RTE_LAST_FLIP : RegDesc := ⟨0x128, 0x0, 1,
  [⟨63, 0, .ro, 0⟩]⟩
def D.RTE_CNT : RegDesc := ⟨0x130, 0x0, 1,
  [⟨63, 48, .rc, 0⟩, ⟨47, 32, .rc, 0⟩, ⟨31, 16, .rc, 0⟩, ⟨15, 0, .rc, 0⟩]⟩
def D.RTE_PORT_FAR : RegDesc := ⟨0x138, 0x8, 2,
  [⟨63, 0, .rw, 0⟩]⟩
def D.RTE_NEAR_A : RegDesc := ⟨0x100, 0x18, 128,
  [⟨63, 63, .rw, 0⟩, ⟨62, 62, .rw, 0⟩, ⟨55, 48, .rw, 0⟩]⟩
def D.RTE_FAR_A : RegDesc := ⟨0x100, 0x18, 128,
  [⟨63, 63, .rw, 0⟩, ⟨62, 62, .rw, 0⟩, ⟨61, 60, .rw, 0⟩, ⟨55, 48, .rw, 0⟩, ⟨6, 0, .rw, 0⟩]⟩
def D.RTE_NEAR_B : RegDesc := ⟨0x108, 0x18, 128,
  [⟨63, 0, .rw, 0⟩]⟩
def D.RTE_FAR_B : RegDesc := ⟨0x108, 0x18, 128,
  [⟨63, 0, .rw, 0⟩]⟩
def D.RTE_NEAR_C : RegDesc := ⟨0x110, 0x18, 128,
  [⟨63, 0, .rw, 0⟩]⟩
def D.RTE_FAR_C : RegDesc := ⟨0x110, 0x18, 128,
  [⟨63, 0, .rw, 0⟩]⟩
def D.RTE_NBR_EXP : RegDesc := ⟨0x100, 0x8, 128,
  [⟨63, 63, .rw, 0⟩, ⟨62, 62, .rw, 0⟩, ⟨22, 15, .rw, 0⟩, ⟨14, 8, .rw, 0⟩, ⟨6, 0, .rw, 0⟩]⟩
def D.RTE_NBR_SEEN : RegDesc := ⟨0x500, 0x8, 128,
  [⟨63, 63, .ro, 0⟩, ⟨62, 62, .ro, 0⟩, ⟨22, 15, .ro, 0⟩, ⟨14, 8, .ro, 0⟩, ⟨6, 0, .ro, 0⟩]⟩
def D.REP_RETRY : RegDesc := ⟨0x100, 0x0, 1,
  [⟨47, 32, .rw, 64⟩, ⟨27, 24, .rw, 7⟩, ⟨23, 0, .rw, 5000⟩]⟩
def D.REP_QSB : RegDesc := ⟨0x108, 0x0, 1,
  [⟨52, 5, .rw, 0⟩, ⟨0, 0, .rw, 0⟩]⟩
def D.REP_HOT : RegDesc := ⟨0x190, 0x0, 1,
  [⟨63, 48, .rw, 1024⟩, ⟨47, 32, .rw, 16384⟩, ⟨31, 16, .rw, 1024⟩, ⟨15, 8, .rw, 64⟩, ⟨0, 0, .rw, 1⟩]⟩
def D.REP_STAT : RegDesc := ⟨0x198, 0x0, 1,
  [⟨63, 48, .ro, 0⟩, ⟨47, 32, .ro, 0⟩, ⟨31, 16, .ro, 0⟩, ⟨0, 0, .w1c, 0⟩]⟩
def D.REP_CNT : RegDesc := ⟨0x1a0, 0x0, 1,
  [⟨63, 32, .rc, 0⟩, ⟨31, 0, .rc, 0⟩]⟩
def D.REP_ORD_CNT : RegDesc := ⟨0x1a8, 0x0, 1,
  [⟨63, 48, .rc, 0⟩, ⟨47, 32, .rc, 0⟩, ⟨31, 0, .rc, 0⟩]⟩
def D.REP_WIN_STAT : RegDesc := ⟨0x3f0, 0x0, 1,
  [⟨48, 48, .w1c, 0⟩, ⟨47, 42, .ro, 0⟩, ⟨32, 32, .ro, 1⟩, ⟨31, 0, .ro, 0⟩]⟩
def D.REP_WIN_DENY : RegDesc := ⟨0x3f8, 0x0, 1,
  [⟨63, 0, .rc, 0⟩]⟩
def D.REP_QOWN : RegDesc := ⟨0x110, 0x8, 8,
  [⟨63, 0, .rwl, 0⟩]⟩
def D.REP_QCLASS : RegDesc := ⟨0x150, 0x8, 8,
  [⟨63, 0, .rw, 0⟩]⟩
def D.REP_WIN_A : RegDesc := ⟨0x400, 0x18, 64,
  [⟨63, 63, .rw, 0⟩, ⟨61, 58, .rw, 0⟩, ⟨57, 51, .rw, 0⟩, ⟨50, 44, .rw, 0⟩, ⟨43, 35, .rw, 0⟩, ⟨34, 26, .rw, 0⟩, ⟨4, 4, .rw, 0⟩, ⟨3, 3, .rw, 0⟩, ⟨2, 2, .rw, 0⟩, ⟨1, 1, .rw, 0⟩, ⟨0, 0, .rw, 0⟩]⟩
def D.REP_WIN_B : RegDesc := ⟨0x408, 0x18, 64,
  [⟨52, 12, .rw, 0⟩]⟩
def D.REP_WIN_C : RegDesc := ⟨0x410, 0x18, 64,
  [⟨52, 12, .rw, 0⟩]⟩
def D.ATT_CTL : RegDesc := ⟨0x100, 0x0, 1,
  [⟨47, 32, .rw, 2500⟩, ⟨8, 8, .rwl, 0⟩, ⟨0, 0, .rw, 1⟩]⟩
def D.ATT_LINK : RegDesc := ⟨0x108, 0x0, 1,
  [⟨15, 8, .ro, 0⟩, ⟨7, 3, .ro, 0⟩, ⟨2, 2, .ro, 0⟩, ⟨1, 1, .ro, 0⟩, ⟨0, 0, .ro, 0⟩]⟩
def D.ATT_PEER_BASE : RegDesc := ⟨0x110, 0x0, 1,
  [⟨63, 12, .rw, 0⟩]⟩
def D.ATT_PEER_CFG : RegDesc := ⟨0x118, 0x0, 1,
  [⟨63, 63, .rw, 0⟩, ⟨53, 48, .rw, 12⟩, ⟨19, 0, .rw, 0⟩]⟩
def D.ATT_ATC : RegDesc := ⟨0x120, 0x0, 1,
  [⟨51, 32, .rw, 0⟩, ⟨31, 31, .w1s, 0⟩, ⟨30, 30, .w1s, 0⟩, ⟨13, 0, .ro, 0⟩]⟩
def D.ATT_PRI : RegDesc := ⟨0x128, 0x0, 1,
  [⟨63, 32, .rw, 20000⟩, ⟨31, 24, .rw, 32⟩, ⟨23, 12, .rw, 256⟩, ⟨1, 1, .ro, 0⟩, ⟨0, 0, .w1s, 0⟩]⟩
def D.ATT_FLT_RES : RegDesc := ⟨0x130, 0x0, 1,
  [⟨20, 20, .wo, 0⟩, ⟨19, 0, .wo, 0⟩]⟩
def D.ATT_DB_STAT : RegDesc := ⟨0x138, 0x0, 1,
  [⟨63, 32, .rc, 0⟩, ⟨31, 16, .rc, 0⟩, ⟨15, 0, .rc, 0⟩]⟩
def D.ATT_SEC : RegDesc := ⟨0x140, 0x0, 1,
  [⟨7, 6, .ro, 0⟩, ⟨5, 3, .ro, 0⟩, ⟨2, 2, .ro, 0⟩, ⟨1, 1, .ro, 0⟩, ⟨0, 0, .ro, 0⟩]⟩
def D.ATT_ECC : RegDesc := ⟨0x148, 0x0, 1,
  [⟨63, 32, .rc, 0⟩, ⟨31, 16, .rc, 0⟩]⟩
def D.ATT_B2_CTL : RegDesc := ⟨0x200, 0x0, 1,
  [⟨37, 6, .rc, 0⟩, ⟨5, 0, .rw, 30⟩]⟩
def D.ATT_FQ_A : RegDesc := ⟨0x300, 0x20, 32,
  [⟨63, 12, .rwl, 0⟩, ⟨11, 11, .rwl, 0⟩, ⟨8, 0, .rwl, 0⟩]⟩
def D.ATT_FQ_B : RegDesc := ⟨0x308, 0x20, 32,
  [⟨19, 0, .rwl, 0⟩]⟩
def D.ATT_FQ_C : RegDesc := ⟨0x310, 0x20, 32,
  [⟨63, 12, .rwl, 0⟩, ⟨3, 0, .rwl, 4⟩]⟩
def D.ATT_FQ_D : RegDesc := ⟨0x318, 0x20, 32,
  [⟨48, 32, .rw, 0⟩, ⟨16, 0, .ro, 0⟩]⟩
def D.ATT_B2_WIN : RegDesc := ⟨0x800, 0x8, 256,
  [⟨63, 21, .rw, 0⟩, ⟨20, 12, .rw, 0⟩, ⟨0, 0, .rw, 0⟩]⟩
def D.HBM_S_ID : RegDesc := ⟨0x100, 0x40, 6,
  [⟨63, 56, .ro, 0⟩, ⟨55, 40, .ro, 0⟩, ⟨39, 24, .ro, 0⟩, ⟨23, 16, .ro, 0⟩, ⟨15, 8, .ro, 0⟩, ⟨0, 0, .ro, 0⟩]⟩
def D.HBM_S_ECC : RegDesc := ⟨0x108, 0x40, 6,
  [⟨63, 32, .rc, 0⟩, ⟨31, 16, .rc, 0⟩, ⟨15, 8, .rc, 0⟩]⟩
def D.HBM_S_SCRUB : RegDesc := ⟨0x110, 0x40, 6,
  [⟨63, 32, .rc, 0⟩, ⟨30, 0, .ro, 0⟩]⟩
def D.HBM_S_WEAR : RegDesc := ⟨0x118, 0x40, 6,
  [⟨63, 32, .rc, 0⟩, ⟨31, 16, .rc, 0⟩, ⟨4, 0, .ro, 0⟩]⟩
def D.HBM_S_REPAIR : RegDesc := ⟨0x120, 0x40, 6,
  [⟨63, 48, .ro, 0⟩, ⟨47, 32, .ro, 0⟩, ⟨31, 16, .rc, 0⟩, ⟨15, 8, .rw, 4⟩]⟩
def D.HBM_S_TEMP : RegDesc := ⟨0x130, 0x40, 6,
  [⟨15, 8, .rc, 0⟩, ⟨7, 0, .ro, 0⟩]⟩
def D.HBM_CTL : RegDesc := ⟨0x100, 0x0, 1,
  [⟨24, 16, .rw, 256⟩, ⟨3, 3, .rw, 1⟩, ⟨2, 2, .w1s, 0⟩, ⟨1, 1, .rwl, 1⟩, ⟨0, 0, .rwl, 0⟩]⟩
def D.HBM_STAT : RegDesc := ⟨0x108, 0x0, 1,
  [⟨5, 5, .w1c, 0⟩, ⟨4, 4, .w1c, 0⟩, ⟨3, 3, .w1c, 0⟩, ⟨2, 2, .ro, 0⟩, ⟨1, 1, .ro, 0⟩, ⟨0, 0, .ro, 0⟩]⟩
def D.HBM_SWEEP : RegDesc := ⟨0x110, 0x0, 1,
  [⟨63, 44, .rwl, 0⟩, ⟨43, 24, .rwl, 0⟩, ⟨9, 9, .rwl, 0⟩, ⟨8, 8, .rwl, 0⟩, ⟨4, 4, .rwl, 0⟩, ⟨3, 0, .rwl, 0⟩]⟩
def D.HBM_SWEEP_PTR : RegDesc := ⟨0x118, 0x0, 1,
  [⟨40, 0, .ro, 0⟩]⟩
def D.HBM_KMAP : RegDesc := ⟨0x120, 0x0, 1,
  [⟨51, 32, .rw, 0⟩, ⟨3, 0, .ro, 0⟩]⟩
def D.HBM_WEAR : RegDesc := ⟨0x128, 0x0, 1,
  [⟨47, 32, .rw, 4096⟩, ⟨8, 8, .rw, 1⟩, ⟨1, 0, .rw, 2⟩]⟩
def D.HBM_SLOT_SALT : RegDesc := ⟨0x200, 0x10, 16,
  [⟨63, 0, .ro, 0⟩]⟩
def D.HBM_SLOT_STAT : RegDesc := ⟨0x208, 0x10, 16,
  [⟨63, 63, .ro, 0⟩, ⟨62, 62, .rwl, 0⟩, ⟨61, 61, .rwl, 0⟩, ⟨19, 0, .ro, 0⟩]⟩
def D.PLT_CTL : RegDesc := ⟨0x100, 0x0, 1,
  [⟨40, 32, .rwl, 383⟩, ⟨31, 8, .rw, 4096⟩, ⟨0, 0, .rw, 1⟩]⟩
def D.PLT_LIMIT : RegDesc := ⟨0x108, 0x0, 1,
  [⟨31, 0, .rw, 250000⟩]⟩
def D.PLT_STAT : RegDesc := ⟨0x110, 0x0, 1,
  [⟨63, 48, .ro, 0⟩, ⟨40, 32, .ro, 0⟩, ⟨31, 16, .ro, 0⟩, ⟨2, 2, .ro, 0⟩, ⟨1, 1, .ro, 0⟩, ⟨0, 0, .ro, 0⟩]⟩
def D.PLT_ABORT : RegDesc := ⟨0x118, 0x0, 1,
  [⟨40, 32, .wo, 0⟩, ⟨16, 0, .wo, 0⟩]⟩
def D.PLT_ABORT_RES : RegDesc := ⟨0x120, 0x0, 1,
  [⟨63, 48, .ro, 0⟩, ⟨47, 31, .ro, 0⟩, ⟨16, 8, .ro, 0⟩, ⟨7, 0, .ro, 0⟩]⟩
def D.PLT_CNT : RegDesc := ⟨0x128, 0x0, 1,
  [⟨63, 32, .rc, 0⟩, ⟨31, 16, .rc, 0⟩, ⟨15, 8, .rc, 0⟩, ⟨7, 0, .rc, 0⟩]⟩
def D.PLT_ECC : RegDesc := ⟨0x130, 0x0, 1,
  [⟨63, 32, .rc, 0⟩, ⟨31, 16, .rc, 0⟩]⟩
def D.PLT_OQ_CFG : RegDesc := ⟨0x100, 0x28, 64,
  [⟨63, 63, .rw, 0⟩, ⟨62, 62, .ro, 0⟩, ⟨55, 52, .rw, 0⟩, ⟨51, 32, .rw, 0⟩]⟩
def D.PLT_OQ_RING : RegDesc := ⟨0x108, 0x28, 64,
  [⟨52, 12, .rw, 0⟩, ⟨4, 0, .rw, 4⟩]⟩
def D.PLT_OQ_CPL : RegDesc := ⟨0x110, 0x28, 64,
  [⟨52, 12, .rw, 0⟩]⟩
def D.PLT_OQ_CARRY : RegDesc := ⟨0x118, 0x28, 64,
  [⟨52, 21, .rw, 0⟩, ⟨20, 12, .rw, 0⟩]⟩
def D.PLT_OQ_IDX : RegDesc := ⟨0x120, 0x28, 64,
  [⟨48, 32, .rw, 0⟩, ⟨16, 0, .ro, 0⟩]⟩
def D.COL_CTL : RegDesc := ⟨0x100, 0x0, 1,
  [⟨8, 8, .w1s, 0⟩, ⟨5, 1, .rw, 8⟩, ⟨0, 0, .rw, 1⟩]⟩
def D.COL_TOPO : RegDesc := ⟨0x108, 0x0, 1,
  [⟨40, 40, .rwl, 0⟩, ⟨39, 33, .rwl, 0⟩, ⟨32, 26, .rwl, 0⟩, ⟨25, 20, .rwl, 0⟩, ⟨19, 13, .rwl, 0⟩, ⟨12, 7, .rwl, 0⟩, ⟨0, 0, .rwl, 0⟩]⟩
def D.COL_TIMER : RegDesc := ⟨0x110, 0x0, 1,
  [⟨63, 32, .rw, 250000000⟩, ⟨31, 0, .rw, 25000000⟩]⟩
def D.COL_STAT : RegDesc := ⟨0x118, 0x0, 1,
  [⟨63, 32, .ro, 0⟩, ⟨31, 31, .ro, 0⟩, ⟨20, 16, .ro, 0⟩, ⟨4, 0, .ro, 0⟩]⟩
def D.COL_RESIGN : RegDesc := ⟨0x120, 0x0, 1,
  [⟨63, 32, .wo, 0⟩]⟩
def D.COL_CNT : RegDesc := ⟨0x128, 0x0, 1,
  [⟨63, 32, .rc, 0⟩, ⟨31, 16, .rc, 0⟩, ⟨15, 0, .rc, 0⟩]⟩
def D.COL_Q_CFG : RegDesc := ⟨0x100, 0x20, 64,
  [⟨63, 63, .rw, 0⟩, ⟨55, 52, .rw, 0⟩, ⟨51, 32, .rw, 0⟩]⟩
def D.COL_Q_RING : RegDesc := ⟨0x108, 0x20, 64,
  [⟨52, 12, .rw, 0⟩, ⟨4, 0, .rw, 4⟩]⟩
def D.COL_Q_CPL : RegDesc := ⟨0x110, 0x20, 64,
  [⟨52, 12, .rw, 0⟩]⟩
def D.COL_Q_IDX : RegDesc := ⟨0x118, 0x20, 64,
  [⟨48, 32, .rw, 0⟩, ⟨16, 0, .ro, 0⟩]⟩
def D.MSG_POOL_CFG : RegDesc := ⟨0x100, 0x8, 64,
  [⟨63, 63, .rw, 0⟩, ⟨62, 62, .rw, 0⟩, ⟨61, 56, .rw, 0⟩, ⟨55, 52, .rw, 0⟩, ⟨23, 0, .rw, 0⟩]⟩
def D.MSG_POOL_BASE : RegDesc := ⟨0x300, 0x8, 64,
  [⟨52, 8, .rw, 0⟩]⟩
def D.MSG_POOL_RING : RegDesc := ⟨0x500, 0x8, 64,
  [⟨52, 12, .rw, 0⟩, ⟨4, 0, .rw, 6⟩]⟩
def D.MSG_POOL_AVAIL : RegDesc := ⟨0x800, 0x8, 64,
  [⟨23, 0, .ro, 0⟩]⟩
def D.MSG_POOL_FREE : RegDesc := ⟨0x700, 0x0, 1,
  [⟨37, 32, .wo, 0⟩, ⟨23, 0, .wo, 0⟩]⟩
def D.MSG_STAT : RegDesc := ⟨0x708, 0x0, 1,
  [⟨63, 63, .w1c, 0⟩, ⟨47, 32, .rc, 0⟩, ⟨31, 16, .rc, 0⟩, ⟨15, 0, .rc, 0⟩]⟩
def D.MSG_Q_CFG : RegDesc := ⟨0x100, 0x18, 64,
  [⟨63, 63, .rw, 0⟩, ⟨55, 52, .rw, 0⟩, ⟨51, 32, .rw, 0⟩]⟩
def D.MSG_Q_RING : RegDesc := ⟨0x108, 0x18, 64,
  [⟨52, 12, .rw, 0⟩, ⟨4, 0, .rw, 4⟩]⟩
def D.MSG_Q_IDX : RegDesc := ⟨0x110, 0x18, 64,
  [⟨48, 32, .rw, 0⟩, ⟨16, 0, .ro, 0⟩]⟩
def D.SEC_ID : RegDesc := ⟨0x100, 0x0, 1,
  [⟨13, 0, .ro, 0⟩]⟩
def D.SEC_LOCK : RegDesc := ⟨0x108, 0x0, 1,
  [⟨0, 0, .w1s, 0⟩]⟩
def D.SEC_STAT : RegDesc := ⟨0x110, 0x0, 1,
  [⟨5, 5, .ro, 0⟩, ⟨4, 4, .ro, 1⟩, ⟨3, 3, .ro, 0⟩, ⟨2, 2, .ro, 0⟩, ⟨1, 1, .ro, 0⟩, ⟨0, 0, .ro, 0⟩]⟩
def D.SEC_BURN : RegDesc := ⟨0x148, 0x0, 1,
  [⟨63, 48, .ro, 0⟩, ⟨47, 16, .ro, 0⟩, ⟨3, 2, .ro, 0⟩, ⟨1, 1, .ro, 0⟩, ⟨0, 0, .w1s, 0⟩]⟩
def D.SEC_BS_SRC : RegDesc := ⟨0x150, 0x0, 1,
  [⟨52, 12, .rw, 0⟩]⟩
def D.SEC_BS_CMD : RegDesc := ⟨0x158, 0x0, 1,
  [⟨9, 8, .wo, 0⟩, ⟨2, 0, .wo, 0⟩]⟩
def D.SEC_FW_HASH : RegDesc := ⟨0x118, 0x8, 6,
  [⟨63, 0, .ro, 0⟩]⟩
def D.SEC_BS_ENT_A : RegDesc := ⟨0x100, 0x40, 8,
  [⟨63, 62, .ro, 0⟩, ⟨55, 48, .ro, 0⟩, ⟨47, 40, .ro, 0⟩, ⟨39, 32, .ro, 0⟩, ⟨31, 0, .ro, 0⟩]⟩
def D.SEC_BS_ENT_B : RegDesc := ⟨0x108, 0x40, 8,
  [⟨63, 39, .ro, 0⟩, ⟨28, 0, .ro, 0⟩]⟩
def D.FLT_Q_CFG : RegDesc := ⟨0x100, 0x0, 1,
  [⟨63, 63, .rwl, 0⟩, ⟨55, 52, .rwl, 0⟩, ⟨31, 16, .rwl, 256⟩, ⟨4, 0, .rwl, 10⟩]⟩
def D.FLT_Q_BASE : RegDesc := ⟨0x108, 0x0, 1,
  [⟨52, 12, .rwl, 0⟩]⟩
def D.FLT_Q_IDX : RegDesc := ⟨0x110, 0x0, 1,
  [⟨48, 32, .ro, 0⟩, ⟨16, 0, .rw, 0⟩]⟩
def D.FLT_Q_HEADF : RegDesc := ⟨0x118, 0x0, 1,
  [⟨16, 0, .rw, 0⟩]⟩
def D.FLT_STAT : RegDesc := ⟨0x120, 0x0, 1,
  [⟨42, 32, .ro, 0⟩, ⟨2, 2, .ro, 0⟩, ⟨1, 1, .ro, 0⟩, ⟨0, 0, .w1c, 0⟩]⟩
def D.FLT_LOST : RegDesc := ⟨0x128, 0x0, 1,
  [⟨63, 32, .rc, 0⟩, ⟨31, 0, .ro, 0⟩]⟩
def D.FLT_LAG : RegDesc := ⟨0x130, 0x0, 1,
  [⟨63, 43, .ro, 0⟩, ⟨40, 40, .ro, 0⟩, ⟨39, 32, .rw, 160⟩, ⟨20, 0, .rw, 65536⟩]⟩
def D.FLT_SPARE : RegDesc := ⟨0x158, 0x0, 1,
  [⟨63, 63, .ro, 0⟩, ⟨62, 62, .rwl, 0⟩, ⟨55, 48, .rwl, 0⟩, ⟨0, 0, .rwl, 0⟩]⟩
def D.FLT_STANDIN : RegDesc := ⟨0x170, 0x0, 1,
  [⟨63, 56, .ro, 0⟩, ⟨55, 55, .ro, 0⟩, ⟨7, 7, .rwl, 0⟩, ⟨6, 0, .rwl, 0⟩]⟩
def D.FLT_REJOIN : RegDesc := ⟨0x180, 0x0, 1,
  [⟨63, 56, .ro, 0⟩, ⟨0, 0, .rwl, 0⟩]⟩
def D.FLT_BUDGET : RegDesc := ⟨0x178, 0x0, 1,
  [⟨63, 60, .ro, 2⟩, ⟨59, 56, .rwl, 2⟩, ⟨47, 0, .rwl, 15000000000⟩]⟩
def D.FLT_FENCE : RegDesc := ⟨0x138, 0x8, 2,
  [⟨63, 0, .w1s, 0⟩]⟩
def D.FLT_FENCED_BY : RegDesc := ⟨0x148, 0x8, 2,
  [⟨63, 0, .ro, 0⟩]⟩
def D.FLT_GROUP : RegDesc := ⟨0x160, 0x8, 2,
  [⟨63, 0, .rwl, 0⟩]⟩
def D.PWR_CTL : RegDesc := ⟨0x100, 0x0, 1,
  [⟨1, 1, .rwl, 1⟩, ⟨0, 0, .rwl, 1⟩]⟩
def D.PWR_STAT : RegDesc := ⟨0x108, 0x0, 1,
  [⟨63, 56, .ro, 0⟩, ⟨55, 52, .ro, 0⟩, ⟨51, 49, .ro, 0⟩, ⟨48, 47, .ro, 0⟩, ⟨7, 6, .ro, 0⟩, ⟨5, 5, .ro, 0⟩, ⟨4, 4, .ro, 0⟩, ⟨3, 3, .ro, 0⟩, ⟨2, 2, .ro, 0⟩, ⟨0, 0, .ro, 0⟩]⟩
def D.PWR_DROOP : RegDesc := ⟨0x110, 0x0, 1,
  [⟨63, 32, .rc, 0⟩, ⟨31, 16, .rw, 64⟩, ⟨15, 8, .rw, 50⟩, ⟨7, 0, .rw, 40⟩]⟩
def D.PWR_THERM : RegDesc := ⟨0x118, 0x0, 1,
  [⟨63, 56, .rc, 0⟩, ⟨55, 48, .ro, 110⟩, ⟨47, 40, .rwl, 97⟩, ⟨31, 0, .rc, 0⟩]⟩
def D.PWR_CNT : RegDesc := ⟨0x120, 0x0, 1,
  [⟨63, 32, .rc, 0⟩, ⟨31, 16, .rc, 0⟩, ⟨15, 0, .rc, 0⟩]⟩
def D.PWR_PMB_ACC : RegDesc := ⟨0x300, 0x0, 1,
  [⟨63, 63, .ro, 1⟩, ⟨62, 62, .ro, 0⟩, ⟨57, 56, .rwl, 0⟩, ⟨46, 40, .rwl, 0⟩, ⟨39, 32, .rwl, 0⟩, ⟨15, 0, .rwl, 0⟩]⟩
def D.PWR_RAIL : RegDesc := ⟨0x200, 0x8, 16,
  [⟨63, 48, .ro, 0⟩, ⟨47, 32, .ro, 0⟩, ⟨31, 24, .ro, 0⟩, ⟨23, 16, .ro, 0⟩, ⟨2, 2, .ro, 0⟩, ⟨1, 1, .w1c, 0⟩, ⟨0, 0, .ro, 0⟩]⟩
def D.PWR_LIM : RegDesc := ⟨0x280, 0x8, 16,
  [⟨15, 0, .rwl, 0⟩]⟩
def D.MGT_DEV_ID : RegDesc := ⟨0x100, 0x0, 1,
  [⟨47, 32, .ro, 9240⟩, ⟨3, 0, .ro, 0⟩]⟩
def D.MGT_DEV_SN : RegDesc := ⟨0x108, 0x0, 1,
  [⟨63, 0, .ro, 0⟩]⟩
def D.MGT_ID : RegDesc := ⟨0x110, 0x0, 1,
  [⟨16, 16, .ro, 0⟩, ⟨15, 8, .ro, 0⟩, ⟨6, 0, .ro, 0⟩]⟩
def D.MGT_CIM_INFO : RegDesc := ⟨0x118, 0x0, 1,
  [⟨63, 48, .ro, 0⟩, ⟨47, 40, .ro, 0⟩, ⟨39, 32, .ro, 0⟩, ⟨31, 16, .ro, 0⟩, ⟨15, 8, .ro, 0⟩]⟩
def D.MGT_STAT : RegDesc := ⟨0x120, 0x0, 1,
  [⟨63, 48, .rc, 0⟩, ⟨47, 32, .rc, 0⟩, ⟨12, 12, .ro, 0⟩, ⟨11, 11, .ro, 0⟩, ⟨10, 10, .ro, 0⟩, ⟨9, 8, .ro, 0⟩, ⟨7, 7, .ro, 0⟩, ⟨6, 6, .ro, 0⟩, ⟨5, 5, .ro, 0⟩, ⟨4, 4, .ro, 0⟩, ⟨3, 3, .ro, 0⟩]⟩
def D.MGT_CTL : RegDesc := ⟨0x128, 0x0, 1,
  [⟨1, 1, .w1s, 0⟩, ⟨0, 0, .w1s, 0⟩]⟩
def D.MGT_CIM_ACC : RegDesc := ⟨0x130, 0x0, 1,
  [⟨63, 63, .ro, 1⟩, ⟨17, 16, .rw, 0⟩, ⟨15, 8, .rw, 0⟩]⟩
def D.MGT_CIM_ADDR : RegDesc := ⟨0x138, 0x0, 1,
  [⟨8, 0, .rw, 0⟩]⟩
def D.MGT_CAGE_ACC : RegDesc := ⟨0x140, 0x0, 1,
  [⟨63, 63, .ro, 1⟩, ⟨33, 32, .rw, 0⟩, ⟨31, 24, .rw, 0⟩, ⟨23, 16, .rw, 0⟩, ⟨15, 8, .rw, 0⟩, ⟨5, 0, .rw, 0⟩]⟩
def D.MGT_CAGE : RegDesc := ⟨0x200, 0x8, 64,
  [⟨63, 56, .ro, 0⟩, ⟨55, 53, .ro, 0⟩, ⟨52, 52, .ro, 0⟩, ⟨51, 51, .ro, 0⟩, ⟨50, 50, .ro, 0⟩, ⟨49, 49, .w1c, 0⟩, ⟨31, 0, .ro, 0⟩]⟩
def D.ILX_CTL : RegDesc := ⟨0x100, 0x0, 1,
  [⟨63, 32, .ro, 0⟩, ⟨0, 0, .rwl, 1⟩]⟩
def D.ILX_MEM : RegDesc := ⟨0x108, 0x0, 1,
  [⟨52, 30, .rwl, 0⟩, ⟨6, 0, .rwl, 4⟩]⟩
def D.ILX_WDOG : RegDesc := ⟨0x110, 0x0, 1,
  [⟨63, 48, .rc, 0⟩, ⟨31, 0, .rwl, 250000⟩]⟩
def D.ILX_TEL : RegDesc := ⟨0x118, 0x0, 1,
  [⟨31, 0, .rw, 250000⟩]⟩
def D.ILX_ECC : RegDesc := ⟨0x120, 0x0, 1,
  [⟨63, 32, .rc, 0⟩, ⟨31, 16, .rc, 0⟩]⟩
def D.ILX_MB_CTL : RegDesc := ⟨0x100, 0x100, 8,
  [⟨63, 32, .rc, 0⟩, ⟨0, 0, .ro, 0⟩]⟩
def D.ILX_FWIN_A : RegDesc := ⟨0x100, 0x10, 64,
  [⟨63, 63, .rwl, 0⟩, ⟨8, 0, .rwl, 0⟩]⟩
def D.ILX_FWIN_B : RegDesc := ⟨0x108, 0x10, 64,
  [⟨63, 44, .rwl, 0⟩]⟩
def D.ILX_C_STAT : RegDesc := ⟨0x100, 0x10, 32,
  [⟨63, 56, .ro, 0⟩, ⟨17, 0, .ro, 0⟩]⟩
def D.ILX_C_FENCE : RegDesc := ⟨0x108, 0x10, 32,
  [⟨63, 63, .ro, 0⟩, ⟨55, 48, .ro, 0⟩, ⟨12, 4, .rw, 0⟩, ⟨3, 2, .rw, 0⟩, ⟨1, 0, .rw, 0⟩]⟩
def D.SEC_BS_HASH : List RegDesc := (List.range 6).map fun k =>
  ⟨0x110 + 8 * k, 0x40, 8, [⟨63, 0, .ro, 0⟩]⟩
def D.ILX_MB_REQ : List RegDesc := (List.range 8).map fun k =>
  ⟨0x110 + 8 * k, 0x100, 8, [⟨63, 0, .rw, 0⟩]⟩
def D.ILX_MB_RSP : List RegDesc := (List.range 8).map fun k =>
  ⟨0x150 + 8 * k, 0x100, 8, [⟨63, 0, .ro, 0⟩]⟩
def D.TWN_CTL : RegDesc := ⟨0x100, 0x0, 1,
  [⟨23, 16, .rw, 0⟩, ⟨14, 8, .rw, 0⟩, ⟨0, 0, .rw, 0⟩]⟩
def D.TWN_START : RegDesc := ⟨0x108, 0x0, 1,
  [⟨63, 0, .rw, 0⟩]⟩
def D.TWN_REL : RegDesc := ⟨0x150, 0x0, 1,
  [⟨63, 0, .rw, 0⟩]⟩
def D.TWN_LOG : RegDesc := ⟨0x158, 0x0, 1,
  [⟨52, 12, .rw, 0⟩]⟩
def D.TWN_STAT : RegDesc := ⟨0x160, 0x0, 1,
  [⟨63, 32, .ro, 0⟩, ⟨31, 24, .ro, 0⟩, ⟨23, 22, .ro, 0⟩, ⟨4, 4, .w1c, 0⟩, ⟨3, 3, .ro, 0⟩, ⟨2, 2, .ro, 0⟩, ⟨1, 1, .ro, 0⟩, ⟨0, 0, .ro, 0⟩]⟩
def D.TWN_GRAN : RegDesc := ⟨0x168, 0x0, 1,
  [⟨39, 0, .ro, 1099511627775⟩]⟩
def D.TWN_TBRK0 : RegDesc := ⟨0x178, 0x0, 1,
  [⟨63, 32, .rc, 0⟩, ⟨31, 0, .rc, 0⟩]⟩
def D.TWN_TBRK1 : RegDesc := ⟨0x180, 0x0, 1,
  [⟨63, 32, .rc, 0⟩, ⟨31, 0, .rc, 0⟩]⟩
def D.TWN_GATE : RegDesc := ⟨0x110, 0x8, 8,
  [⟨63, 0, .rw, 0⟩]⟩

/-! ### Pages (Table 21-2) -/

/-- The block registers of the VGL pages, instances 0-3. -/
def pageVGL : List RegDesc :=
  [D.VGL_TX, D.VGL_RX, D.VGL_STAT]
/-- The block registers of the VPT pages, instances 0-3. -/
def pageVPT : List RegDesc :=
  [D.VPT_CTL, D.VPT_STAT, D.VPT_CRED0, D.VPT_CRED1, D.VPT_RETRY, D.VPT_FEC, D.VPT_ERR, D.VPT_FEC_WARN]
/-- The block registers of the PIP pages, instances 0-15. -/
def pagePIP : List RegDesc :=
  [D.PIP_CTL, D.PIP_STAT, D.PIP_ERRCNT]
/-- The block registers of the SWX page, instance 0. -/
def pageSWX0 : List RegDesc :=
  [D.SWX_CLASS_CTL, D.SWX_BUF_THR, D.SWX_AGE, D.SWX_SPILL, D.SWX_THROTTLE, D.SWX_THR_MAX, D.SWX_SCHED, D.SWX_ML_DIR, D.SWX_ML_TURN, D.SWX_ML_ARM, D.SWX_ML_STAT, D.SWX_ML_CNT, D.SWX_ECC]
/-- The block registers of the SWX pages, instances 1-4. -/
def pageSWX1 : List RegDesc :=
  [D.SWX_P_OCC, D.SWX_P_SPILL, D.SWX_P_DROP, D.SWX_P_THR]
/-- The block registers of the RTE page, instance 0. -/
def pageRTE0 : List RegDesc :=
  [D.RTE_CTL, D.RTE_FLIP_TURN, D.RTE_FLIP_ARM, D.RTE_ED, D.RTE_STAT, D.RTE_LAST_FLIP, D.RTE_CNT, D.RTE_PORT_FAR]
/-- The block registers of the RTE pages, instances 1-2. -/
def pageRTE1 : List RegDesc :=
  [D.RTE_NEAR_A, D.RTE_NEAR_B, D.RTE_NEAR_C]
/-- The block registers of the RTE pages, instances 3-6. -/
def pageRTE3 : List RegDesc :=
  [D.RTE_FAR_A, D.RTE_FAR_B, D.RTE_FAR_C]
/-- The block registers of the RTE page, instance 7. -/
def pageRTE7 : List RegDesc :=
  [D.RTE_NBR_EXP, D.RTE_NBR_SEEN]
/-- The block registers of the REP pages, instances 0-20. -/
def pageREP : List RegDesc :=
  [D.REP_RETRY, D.REP_QSB, D.REP_HOT, D.REP_STAT, D.REP_CNT, D.REP_ORD_CNT, D.REP_WIN_STAT, D.REP_WIN_DENY, D.REP_QOWN, D.REP_QCLASS, D.REP_WIN_A, D.REP_WIN_B, D.REP_WIN_C]
/-- The block registers of the ATT pages, instances 0-15. -/
def pageATT : List RegDesc :=
  [D.ATT_CTL, D.ATT_LINK, D.ATT_PEER_BASE, D.ATT_PEER_CFG, D.ATT_ATC, D.ATT_PRI, D.ATT_FLT_RES, D.ATT_DB_STAT, D.ATT_SEC, D.ATT_ECC, D.ATT_B2_CTL, D.ATT_FQ_A, D.ATT_FQ_B, D.ATT_FQ_C, D.ATT_FQ_D, D.ATT_B2_WIN]
/-- The block registers of the HBM pages, instances 0-3. -/
def pageHBM0 : List RegDesc :=
  [D.HBM_S_ID, D.HBM_S_ECC, D.HBM_S_SCRUB, D.HBM_S_WEAR, D.HBM_S_REPAIR, D.HBM_S_TEMP]
/-- The block registers of the HBM page, instance 4. -/
def pageHBM4 : List RegDesc :=
  [D.HBM_CTL, D.HBM_STAT, D.HBM_SWEEP, D.HBM_SWEEP_PTR, D.HBM_KMAP, D.HBM_WEAR, D.HBM_SLOT_SALT, D.HBM_SLOT_STAT]
/-- The block registers of the PLT page, instance 0. -/
def pagePLT0 : List RegDesc :=
  [D.PLT_CTL, D.PLT_LIMIT, D.PLT_STAT, D.PLT_ABORT, D.PLT_ABORT_RES, D.PLT_CNT, D.PLT_ECC]
/-- The block registers of the PLT pages, instances 1-8. -/
def pagePLT1 : List RegDesc :=
  [D.PLT_OQ_CFG, D.PLT_OQ_RING, D.PLT_OQ_CPL, D.PLT_OQ_CARRY, D.PLT_OQ_IDX]
/-- The block registers of the COL page, instance 0. -/
def pageCOL0 : List RegDesc :=
  [D.COL_CTL, D.COL_TOPO, D.COL_TIMER, D.COL_STAT, D.COL_RESIGN, D.COL_CNT]
/-- The block registers of the COL pages, instances 1-8. -/
def pageCOL1 : List RegDesc :=
  [D.COL_Q_CFG, D.COL_Q_RING, D.COL_Q_CPL, D.COL_Q_IDX]
/-- The block registers of the MSG page, instance 0. -/
def pageMSG0 : List RegDesc :=
  [D.MSG_POOL_CFG, D.MSG_POOL_BASE, D.MSG_POOL_RING, D.MSG_POOL_AVAIL, D.MSG_POOL_FREE, D.MSG_STAT]
/-- The block registers of the MSG pages, instances 1-8. -/
def pageMSG1 : List RegDesc :=
  [D.MSG_Q_CFG, D.MSG_Q_RING, D.MSG_Q_IDX]
/-- The block registers of the TRN page, instance 0. -/
def pageTRN : List RegDesc :=
  [D.TRN_CTL, D.TRN_NOW, D.TRN_SET, D.TRN_STAT, D.TRN_DELAY, D.TRN_HB, D.TRN_PRES0, D.TRN_PRES1, D.TRN_CDC_STAT, D.TRN_CDC_DEPTH]
/-- The block registers of the SEC page, instance 0. -/
def pageSEC0 : List RegDesc :=
  [D.SEC_ID, D.SEC_LOCK, D.SEC_STAT, D.SEC_BURN, D.SEC_BS_SRC, D.SEC_BS_CMD, D.SEC_FW_HASH]
/-- The block registers of the SEC page, instance 1. -/
def pageSEC1 : List RegDesc :=
  [D.SEC_BS_ENT_A, D.SEC_BS_ENT_B] ++
  D.SEC_BS_HASH
/-- The block registers of the FLT page, instance 0. -/
def pageFLT : List RegDesc :=
  [D.FLT_Q_CFG, D.FLT_Q_BASE, D.FLT_Q_IDX, D.FLT_Q_HEADF, D.FLT_STAT, D.FLT_LOST, D.FLT_LAG, D.FLT_SPARE, D.FLT_STANDIN, D.FLT_REJOIN, D.FLT_BUDGET, D.FLT_FENCE, D.FLT_FENCED_BY, D.FLT_GROUP]
/-- The block registers of the PWR page, instance 0. -/
def pagePWR : List RegDesc :=
  [D.PWR_CTL, D.PWR_STAT, D.PWR_DROOP, D.PWR_THERM, D.PWR_CNT, D.PWR_PMB_ACC, D.PWR_RAIL, D.PWR_LIM]
/-- The block registers of the MGT page, instance 0. -/
def pageMGT : List RegDesc :=
  [D.MGT_DEV_ID, D.MGT_DEV_SN, D.MGT_ID, D.MGT_CIM_INFO, D.MGT_STAT, D.MGT_CTL, D.MGT_CIM_ACC, D.MGT_CIM_ADDR, D.MGT_CAGE_ACC, D.MGT_CAGE]
/-- The block registers of the ILX page, instance 0. -/
def pageILX0 : List RegDesc :=
  [D.ILX_CTL, D.ILX_MEM, D.ILX_WDOG, D.ILX_TEL, D.ILX_ECC]
/-- The block registers of the ILX pages, instances 1-2. -/
def pageILX1 : List RegDesc :=
  [D.ILX_MB_CTL] ++
  D.ILX_MB_REQ ++
  D.ILX_MB_RSP
/-- The block registers of the ILX page, instance 3. -/
def pageILX3 : List RegDesc :=
  [D.ILX_FWIN_A, D.ILX_FWIN_B]
/-- The block registers of the ILX page, instance 4. -/
def pageILX4 : List RegDesc :=
  [D.ILX_C_STAT, D.ILX_C_FENCE]
/-- The block registers of the TWN page, instance 0. -/
def pageTWN : List RegDesc :=
  [D.TWN_CTL, D.TWN_START, D.TWN_REL, D.TWN_LOG, D.TWN_STAT, D.TWN_GRAN, D.TWN_TBRK0, D.TWN_TBRK1, D.TWN_GATE]

/-- The page header (R464), the same on every page. -/
def pageHeader : List RegDesc :=
  [⟨0x000, 0, 1, [⟨31, 24, .ro, 1⟩, ⟨23, 16, .ro, 0⟩, ⟨11, 0, .ro, 0⟩]⟩,
   ⟨0x008, 0, 1, [⟨15, 8, .ro, 0⟩, ⟨1, 1, .ro, 0⟩, ⟨0, 0, .ro, 1⟩]⟩,
   ⟨0x010, 0, 1, [⟨2, 2, .rw, 0⟩, ⟨1, 1, .w1s, 0⟩, ⟨0, 0, .rw, 1⟩]⟩,
   ⟨0x018, 0, 1, [⟨2, 2, .ro, 0⟩, ⟨1, 1, .ro, 0⟩, ⟨0, 0, .ro, 0⟩]⟩,
   ⟨0x020, 0, 1, [⟨13, 8, .w1c, 0⟩, ⟨3, 3, .w1c, 0⟩, ⟨2, 2, .w1c, 0⟩, ⟨1, 1, .w1c, 0⟩, ⟨0, 0, .w1c, 0⟩]⟩,
   ⟨0x028, 0, 1, [⟨13, 8, .rw, 0x3F⟩, ⟨3, 3, .rw, 1⟩, ⟨2, 2, .rw, 1⟩, ⟨1, 1, .rw, 1⟩, ⟨0, 0, .rw, 1⟩]⟩,
   ⟨0x030, 0, 1, [⟨63, 48, .ro, 0⟩, ⟨47, 0, .ro, 0⟩]⟩,
   ⟨0x038, 0, 1, [⟨63, 48, .ro, 0⟩, ⟨47, 0, .ro, 0⟩]⟩,
   ⟨0x040, 0, 1, [⟨63, 63, .rwl, 0⟩, ⟨58, 56, .rwl, 0⟩, ⟨47, 32, .rwl, 0⟩]⟩,
   ⟨0x048, 0, 1, [⟨7, 0, .rw, 0⟩]⟩,
   ⟨0x050, 0, 1, [⟨63, 0, .ro, 0⟩]⟩]

/-- The block registers of the page of block type `t`, instance `i`; `none` where there is no such page. -/
def pageBlock (t i : Nat) : Option (List RegDesc) :=
  match t with
  | 1 => if i ≤ 3 then some pageVGL else none
  | 2 => if i ≤ 3 then some pageVPT else none
  | 3 => if i ≤ 15 then some pagePIP else none
  | 4 => if i ≤ 0 then some pageSWX0 else if i ≤ 4 then some pageSWX1 else none
  | 5 => if i ≤ 0 then some pageRTE0 else if i ≤ 2 then some pageRTE1 else if i ≤ 6 then some pageRTE3 else if i ≤ 7 then some pageRTE7 else none
  | 6 => if i ≤ 20 then some pageREP else none
  | 7 => if i ≤ 15 then some pageATT else none
  | 8 => if i ≤ 3 then some pageHBM0 else if i ≤ 4 then some pageHBM4 else none
  | 9 => if i ≤ 0 then some pagePLT0 else if i ≤ 8 then some pagePLT1 else none
  | 10 => if i ≤ 0 then some pageCOL0 else if i ≤ 8 then some pageCOL1 else none
  | 11 => if i ≤ 0 then some pageMSG0 else if i ≤ 8 then some pageMSG1 else none
  | 12 => if i ≤ 0 then some pageTRN else none
  | 13 => if i ≤ 0 then some pageSEC0 else if i ≤ 1 then some pageSEC1 else none
  | 14 => if i ≤ 0 then some pageFLT else none
  | 15 => if i ≤ 0 then some pagePWR else none
  | 16 => if i ≤ 0 then some pageMGT else none
  | 17 => if i ≤ 0 then some pageILX0 else if i ≤ 2 then some pageILX1 else if i ≤ 3 then some pageILX3 else if i ≤ 4 then some pageILX4 else none
  | 18 => if i ≤ 0 then some pageTWN else none
  | _ => none

/-- The page that holds register address `addr`: block type, instance and offset in the page (R461). The REP block
has 21 instances, which is why the ATT pages lie from 0x0117_0000. -/
def pageOf (addr : Nat) : Option (Nat × Nat × Nat) :=
  if addr < 0x1000000 then none
  else
    let off := addr % 0x1000
    let pg := (addr - 0x1000000) / 0x1000
    let t := pg / 16
    let i := pg % 16
    if t = 7 then (if i ≤ 4 then some (6, 16 + i, off) else none)
    else if t = 0x17 then some (7, i, off)
    else if t = 0 then none
    else match pageBlock t i with
      | some _ => some (t, i, off)
      | none => none

/-- The base address of the page of block type `t`, instance `i`. -/
def pageBase (t i : Nat) : Nat :=
  if t = 7 then 0x1170000 + 0x1000 * i else 0x1000000 + 0x10000 * t + 0x1000 * i

/-- The layout, among `ds`, of the register at offset `off` of a page. -/
def findDesc (off : Nat) : List RegDesc → Option RegDesc
  | [] => none
  | d :: ds =>
    if d.base ≤ off ∧ (if d.stride = 0 then off = d.base
        else (off - d.base) % d.stride = 0 ∧ (off - d.base) / d.stride < d.count)
    then some d else findDesc off ds

/-- The layouts of a whole page, header first. -/
def pageDescs (t i : Nat) : List RegDesc :=
  match pageBlock t i with
  | some ds => pageHeader ++ ds
  | none => []

/-- The fields of the register at `addr`; `none` where the address holds no register (R461, R471). -/
def regFields (addr : Nat) : Option (List FieldDesc) :=
  match pageOf addr with
  | none => none
  | some (t, i, off) =>
    if off < 0x100 then (findDesc off pageHeader).map (·.fields)
    else match pageBlock t i with
      | some ds => (findDesc off ds).map (·.fields)
      | none => none

/-- The reset value that a field list spells. -/
def fieldsReset (fs : List FieldDesc) : Nat := fs.foldl (fun v f => v + f.reset * 2 ^ f.lo) 0

/-- How many RC fields a page has: its counter fields (R469). -/
def counterCount (ds : List RegDesc) : Nat :=
  ds.foldl (fun n d => n + d.count * (d.fields.filter (fun f => f.acc == .rc)).length) 0

/-- The pages that support symbol injection (R469). -/
def injSymPage (t i : Nat) : Bool :=
  (t == 4 && i == 0) || (t == 8 && i == 4) || (t == 9 && i == 0) || t == 7 || (t == 17 && i == 0)

/-- REP_QOWN's reset (R14): the queues end-point `n` owns in word `k`. -/
def qownReset (n k : Nat) : Nat :=
  if n ≤ 15 then (if k = n / 4 then 0xFFFF * 2 ^ (16 * (n % 4)) else 0)
  else if n = 17 then (if k = 4 ∨ k = 5 then 0xFFFFFFFFFFFFFFFF else 0)
  else if n = 18 then (if k = 6 then 0xFFFFFFFFFFFFFFFF else if k = 7 then 0xFFFFFFFF else 0)
  else if n = 19 then (if k = 7 then 0xFFFFFFFF00000000 else 0)
  else 0

/-- The reset values that depend on the register's place: those of Table 21-11 that no field map states as a number.
PG_CAP.NCNT counts the counter fields that PG_CNT_SEL's eight bits can name, at most 240 (DEDUCED, notes/assumptions/7). -/
def specialReset (t i off : Nat) : Option Nat :=
  if off = 0x000 then some (0x01000000 + t * 0x10000 + i)
  else if off = 0x008 then
    some ((min 240 (counterCount (pageDescs t i))) * 0x100 + (if injSymPage t i then 2 else 0) + 1)
  else if t = 3 ∧ off = 0x100 ∧ 12 ≤ i then some 0x6809
  else if t = 3 ∧ off = 0x100 then some 0x6805
  else if t = 6 ∧ 0x110 ≤ off ∧ off < 0x150 ∧ off % 8 = 0 then some (qownReset i ((off - 0x110) / 8))
  else if t = 6 ∧ off = 0x190 ∧ i ≠ 16 ∧ i ≠ 17 then some 0
  else if t = 8 ∧ i = 4 ∧ off = 0x208 then some 0xC0000
  else if t = 9 ∧ i = 6 ∧ off = 0x100 + 0x28 * 63 then some 0x4000000000000000
  else none

/-- The value a register holds after fundamental reset (R470, Table 21-11); 0 where there is no register. -/
def regReset (addr : Nat) : BitVec 64 :=
  match pageOf addr with
  | none => 0
  | some (t, i, off) =>
    match specialReset t i off with
    | some v => BitVec.ofNat 64 v
    | none =>
      match regFields addr with
      | some fs => BitVec.ofNat 64 (fieldsReset fs)
      | none => 0

/-! ### Header registers of a page, given the page's base address -/

def Reg.PG_CTL (pg : Nat) : Nat := pg + 0x10
def Reg.PG_STAT (pg : Nat) : Nat := pg + 0x18
def Reg.PG_ERR (pg : Nat) : Nat := pg + 0x20
def Reg.PG_ERR_EN (pg : Nat) : Nat := pg + 0x28
def Reg.PG_ERR_FIRST (pg : Nat) : Nat := pg + 0x30
def Reg.PG_ERR_LAST (pg : Nat) : Nat := pg + 0x38
def Reg.PG_INJ (pg : Nat) : Nat := pg + 0x40
def Reg.PG_CNT_SEL (pg : Nat) : Nat := pg + 0x48
def Reg.PG_CNT_VAL (pg : Nat) : Nat := pg + 0x50
def F.PG_CTL_LOCK (pg : Nat) : RField := ⟨Reg.PG_CTL pg, 2, 2⟩
def F.PG_CTL_EN (pg : Nat) : RField := ⟨Reg.PG_CTL pg, 0, 0⟩
def F.PG_ERR_CLASS (pg : Nat) : RField := ⟨Reg.PG_ERR pg, 13, 8⟩
def F.PG_ERR_INJECTED (pg : Nat) : RField := ⟨Reg.PG_ERR pg, 3, 3⟩
def F.PG_ERR_WARN (pg : Nat) : RField := ⟨Reg.PG_ERR pg, 2, 2⟩
def F.PG_ERR_REJECT (pg : Nat) : RField := ⟨Reg.PG_ERR pg, 1, 1⟩
def F.PG_ERR_DISCARD (pg : Nat) : RField := ⟨Reg.PG_ERR pg, 0, 0⟩
def F.PG_INJ_ARM (pg : Nat) : RField := ⟨Reg.PG_INJ pg, 63, 63⟩
def F.PG_INJ_KIND (pg : Nat) : RField := ⟨Reg.PG_INJ pg, 58, 56⟩
def F.PG_INJ_CODE (pg : Nat) : RField := ⟨Reg.PG_INJ pg, 47, 32⟩
def F.PG_CNT_SEL_SEL (pg : Nat) : RField := ⟨Reg.PG_CNT_SEL pg, 7, 0⟩

end Sys2Proof.Machine
end

