-- ==== Sys2Proof/Machine/Sparse.lean ====
section
/-!
DEFINITION. Sparse data by number, in one canonical form: keys strictly rising, and no entry equal to what an
unlisted key reads as. Equal contents are then equal lists. The register file, HBM and plate storage are such lists.
-/
namespace Sys2Proof.Machine

variable {α : Type}

/-- What key `k` reads as; `d` gives the value of an unlisted key. -/
def Sparse.get (d : Nat → α) : List (Nat × α) → Nat → α
  | [], k => d k
  | (k', v) :: m, k => if k = k' then v else Sparse.get d m k

/-- The list without key `k`. -/
def Sparse.erase : List (Nat × α) → Nat → List (Nat × α)
  | [], _ => []
  | (k', v) :: m, k => if k = k' then Sparse.erase m k else (k', v) :: Sparse.erase m k

/-- The list with key `k`, which it does not hold, put in its place. -/
def Sparse.insert : List (Nat × α) → Nat → α → List (Nat × α)
  | [], k, v => [(k, v)]
  | (k', v') :: m, k, v => if k < k' then (k, v) :: (k', v') :: m else (k', v') :: Sparse.insert m k v

/-- A write: writing what an unlisted key reads as removes the entry. -/
def Sparse.set [DecidableEq α] (d : Nat → α) (m : List (Nat × α)) (k : Nat) (v : α) : List (Nat × α) :=
  if v = d k then Sparse.erase m k else Sparse.insert (Sparse.erase m k) k v

/-- Whether keys rise strictly, all above `lo`. -/
def Sparse.rising : Option Nat → List (Nat × α) → Bool
  | _, [] => true
  | lo, (k, _) :: m => (match lo with | none => true | some l => decide (l < k)) && Sparse.rising (some k) m

/-- The canonical form. -/
def Sparse.wf [DecidableEq α] (d : Nat → α) (m : List (Nat × α)) : Bool :=
  Sparse.rising none m && m.all (fun e => decide (e.2 ≠ d e.1))

/-- Bytes `[a, a + n)`. -/
def Sparse.getBytes (d : Nat → Byte) (m : List (Nat × Byte)) (a n : Nat) : List Byte :=
  (List.range n).map (fun i => Sparse.get d m (a + i))

/-- `bs` written from address `a` up. -/
def Sparse.setBytes (d : Nat → Byte) (m : List (Nat × Byte)) (a : Nat) : List Byte → List (Nat × Byte)
  | [] => m
  | b :: bs => Sparse.setBytes d (Sparse.set d m a b) (a + 1) bs

end Sys2Proof.Machine
end

