-- ==== Sys2Proof/Machine/State.lean ====
section
/-!
DEFINITION. The state of the device: every register (one canonical list, read through the register map), and all the
state that the spec gives its blocks beside registers; the faults and refusals; the state after fundamental reset.
-/
namespace Sys2Proof.Machine

/-- How a request of the device to its host travels: the IDE stream that carries it, if any (R333), and whether it is a trusted
one of the TDI in RUN (R334). -/
structure TlpMark where
  ide : Option Nat
  trusted : Bool
  deriving DecidableEq, Repr

/-- What the device puts on a pin, a lane or a link. -/
inductive Emission where
  /-- A pip frame, SOF or SOF_URGENT to EOF (R46). -/
  | pipFrame (lane : Nat) (urgent : Bool) (bytes : List Byte)
  | pipAck (lane seq : Nat)
  | pipNak (lane seq : Nat)
  /-- The code groups that leave a lane in one turn, idle sets among them (R42). -/
  | pipGroups (lane : Nat) (groups : List (BitVec 10))
  /-- An ordered set: the control symbol's name in Table 2-3 and the bytes after it. -/
  | turnMark (lane : Nat) (bytes : List Byte)
  | echoReq (lane : Nat) (bytes : List Byte)
  | echoRsp (lane : Nat) (bytes : List Byte)
  | heartbeat (lane : Nat) (bytes : List Byte)
  /-- An MSI-X vector of an attach port (R332). -/
  | msix (port vector addr data : Nat)
  /-- A management chain frame as its code groups, K28.0 to K29.7, and the idle set after it (R431). -/
  | chain (groups : List (BitVec 10))
  /-- An answer to an out-of-band read (R435). -/
  | oob (bytes : List Byte)
  /-- The answer to a register read or write on a path: status and data. -/
  | regAnswer (path : Path) (status : Nat) (data : Word)
  /-- A BAR0 read of attach port `a` in burnish ends with Completer Abort (R335). -/
  | regAbort (a : Nat)
  /-- The access fault that a core takes for an access of the register space that is not 8 bytes and aligned (R462). -/
  | regFault (path : Path)
  /-- A write of the carrier identity memory: address and byte (R433, R437). -/
  | cimWrite (addr : Nat) (byte : Byte)
  /-- A module access (R436). -/
  | cageWrite (cage page addr : Nat) (byte : Byte)
  /-- A PMBus word write through PWR_PMB_ACC, and a word read (R443): address, command, and the word written. -/
  | pmbWrite (addr cmd data : Nat)
  | pmbRead (addr cmd : Nat)
  /-- A soft row repair, a hard repair, a row refresh of a stack. -/
  | hbmRepair (hard : Bool) (stack pc row : Nat)
  | hbmRefresh (stack pc row : Nat)
  /-- Refresh slot `k` of the rotation: every pseudo-channel of every stack refreshes, in their banks, the rows from `first` up to
  `last` (R307). -/
  | hbmRefreshRows (k first last : Nat)
  /-- The pseudo-channels of every stack whose interface is calibrated in this refresh slot (R349). -/
  | hbmCalibrate (pcs : List Nat)
  /-- Codeword `n` of Vangeri port `p`: the PAM4 levels of each transmit lane, UI by UI, and how each lane drives them: the swing in
  mVppd and the transmit FFE's taps c−3 to c+2 in 1/64 (R266, R269). -/
  | codeword (p n : Nat) (lanes : List (List Int)) (drive : List (Nat × List Int))
  /-- Port `p` begins to send a test pattern of Table 12-11 in place of codewords (R283, R286). -/
  | pattern (p : Nat) (kind : Nat)
  /-- Port `p` of a far-end loop sends back what its lanes received (R286). -/
  | repeated (p : Nat) (line : LineIn)
  /-- A PCIe completion of an attach port (R73, R319): tag, status (0 SC, 1 UR, 2 RRS, 4 CA), data, poisoned. -/
  | completion (a tag status : Nat) (data : List Byte) (poison : Bool)
  /-- A completion of a configuration request: status, as above. -/
  | cfgCompletion (a status : Nat)
  /-- What a successful configuration read of a register returns. -/
  | cfgData (a : Nat) (data : List Byte)
  /-- The port's accesses to a trusted host become part of its TEE, or cease to be: its TDI enters or leaves RUN (R334). -/
  | trustedDma (a : Nat) (on : Bool)
  /-- The JTAG port's non-public instructions and internal scan chains are disabled (R358). -/
  | jtagLocked
  /-- A read or a write of host memory (R327): tag; PASID; address, translated or not. -/
  | hostRead (a tag pasid addr bytes : Nat) (translated : Bool) (mark : TlpMark)
  | hostWrite (a pasid addr lead : Nat) (data : List Byte) (poison translated : Bool) (mark : TlpMark)
  /-- An ATS translation request, an invalidate completion, a page request (R328-R330). -/
  | atsRequest (a pasid page : Nat)
  | invalidateDone (a itag : Nat)
  | pageRequest (a group pasid page : Nat) (write : Bool)
  /-- An SPDM response over DOE: its code and what it carries beyond the standard's own fields (R336). -/
  | spdm (a code : Nat) (data : List Byte)
  /-- What a core gets: data of a load or the prior value of an atomic, an exception with its RISC-V code, the status or
  value that a kernel call returns in a0 (R341, R347). -/
  | coreData (n : Nat) (data : List Byte) (poison : Bool)
  | coreFault (n cause : Nat)
  | coreReturn (n a0 : Nat)
  deriving DecidableEq, Repr

/-! ### Pip lanes (spec/02_turns_and_pip_lanes.md) -/

/-- A pip frame: the fields of Table 2-4 but SEQ and CRC, which each hop makes anew. -/
structure PipFrame where
  type : Nat
  op : Nat := 0
  system : Bool := false
  mismatch : Bool := false
  slice : Nat := 0
  tag : Nat := 0
  srcDomain : Nat := 0
  srcMember : Nat := 0
  dstDomain : Nat := 0
  dstMember : Nat := 0
  count : Nat := 0
  data : List Byte := []
  deriving DecidableEq, Repr

/-- A frame in a lane's retransmit buffer (R46): its bytes with SEQ and CRC, and how often it was sent again. -/
structure PipUnacked where
  seq : Nat
  urgent : Bool
  bytes : List Byte
  retries : Nat := 0
  deriving DecidableEq, Repr

/-- The frame a lane is sending: its symbols that have not left yet, and what was inserted into it so far (R45). -/
structure PipTx where
  urgent : Bool
  left : List Nat
  marks : Nat := 0
  echoes : Nat := 0
  beats : Nat := 0
  acks : Nat := 0
  deriving DecidableEq, Repr

/-- A child of this device: its member number, when its last heartbeat came, how many were judged missing in a row since,
and whether it has been reported absent and not present since (R53). -/
structure Kid where
  member : Nat
  lastHb : Nat
  missed : Nat := 0
  absent : Bool := false
  /-- A heartbeat has come since the lane's last IDENT. -/
  known : Bool := true
  /-- The turn boundary at which a heartbeat was last judged. -/
  judged : Nat := 0
  deriving DecidableEq, Repr

/-- One pip lane's link state (R43, R46) and what it knows of the child or parent behind it (R48, R53). -/
structure PipLane where
  /-- Next SEQ to send, modulo 256. -/
  txSeq : Nat := 0
  /-- Next SEQ expected, modulo 256. -/
  rxSeq : Nat := 0
  /-- The last 16 unacknowledged frames at most, oldest first. -/
  unacked : List PipUnacked := []
  /-- Frames not yet begun, urgent ones first, oldest first. -/
  waiting : List PipFrame := []
  /-- Frames of the retransmit buffer that are to be sent again, oldest first. -/
  again : List PipUnacked := []
  /-- Turn boundary count at the last acknowledgement progress or (re)transmission. -/
  timer : Nat := 0
  /-- Symbols of ordered sets, ACK and NAK that leave next, before the frame goes on. -/
  sets : List Nat := []
  /-- The frame that has begun and whose EOF has not left. -/
  frame : Option PipTx := none
  /-- Ordered sets, ACK and NAK that wait for the frame's EOF (R45). -/
  held : List Emission := []
  /-- What the transmitter sent in a near-end loop and the lane's receiver has yet to take (PIP_CTL.LOOP). -/
  back : List Emission := []
  /-- Running disparity of the transmitter and of the receiver: positive (R42). -/
  rdTx : Bool := false
  rdRx : Bool := false
  /-- Consecutive valid idle ordered sets received, kept at 64 once so many have come (R43). -/
  idles : Nat := 0
  /-- Accepted frames not yet acted on, oldest first. -/
  rx : List PipFrame := []
  identSent : Bool := false
  identSeq : Nat := 0
  identAcked : Bool := false
  identRcvd : Bool := false
  /-- Code violations of the last 1,000 turns: when, and how many (R43). -/
  violations : List (Nat × Nat) := []
  /-- The members below the lane as last reported by SUBTREE: domain and bitmap. -/
  subtree : List (Nat × Nat) := []
  /-- When the lane came up. -/
  upAt : Nat := 0
  /-- When the last turn mark came. -/
  lastMark : Nat := 0
  /-- The last 16 measured delays, newest first, in 1/1,024 turn (R35). -/
  delays : List Nat := []
  /-- Echo exchanges completed since frequency lock (R36). -/
  echos : Nat := 0
  /-- The echo request awaiting its response: ESEQ and t1 in 1/1,024 turn. -/
  echo : Option (Nat × Nat) := none
  /-- The members whose heartbeats come on this lane. -/
  kids : List Kid := []
  deriving DecidableEq, Repr

/-- A combine that waits at this node (R48): the contributions so far, each with its lane (none: this device's own). -/
structure Combine where
  commit : Bool
  slice : Nat
  tag : Nat
  system : Bool
  parts : List (Option Nat × PipFrame)
  deriving DecidableEq, Repr

/-- The device's place in the pip trees, apart from registers. -/
structure PipState where
  lanes : List (Nat × PipLane) := []
  /-- ESEQ of the next echo request. -/
  eseq : Nat := 0
  /-- Offsets above 128 units in a row (R37). -/
  badOffsets : Nat := 0
  /-- The counter has been loaded from a first valid turn mark (R36). -/
  loaded : Bool := false
  /-- The value that the counter is loaded with at the coming turn boundary (R36). -/
  load : Option Word := none
  /-- HSEQ of the next heartbeat. -/
  hseq : Nat := 0
  combines : List Combine := []
  /-- RESIGN frames remembered: slice, tag and when the first copy was seen (R52). -/
  resigns : List (Nat × Nat × Nat) := []
  /-- At a scope's root: commits decided: slice, tag and when (R220). -/
  decided : List (Nat × Nat × Nat) := []
  /-- At the domain root: parent and member of each standing present report (R54). -/
  reports : List (Nat × Nat) := []
  /-- Members that the domain root has marked absent, as flooded: a bitmap (R55). -/
  sticky : Nat := 0
  /-- At the domain root: members named by a STANDIN or REJOIN notice, and when it came (R416). -/
  notices : List (Nat × Nat) := []
  /-- At the domain root: parent and member of each standing present report of an absent member that was not accepted (R55,
  R422). -/
  claims : List (Nat × Nat) := []
  /-- At a new domain root: when the absence sweep is due (R476). -/
  sweepDue : Option Nat := none
  /-- At a new domain root: members reported present since the write, a bitmap (R476). -/
  reportedSince : Nat := 0
  /-- P2P frames delivered to this device and not yet acted on, oldest first. -/
  notes : List PipFrame := []
  /-- Presence changes flooded by or through this device and not yet applied to its own blocks: member, present, and whether the
  flood readmits a member that had been marked absent (R416). -/
  presNews : List (Nat × Bool × Bool) := []
  /-- SC_DOWN, COMMIT_DOWN, COUNTS and RESIGN frames delivered to this device's collective engine, oldest first. -/
  turned : List PipFrame := []
  /-- When the counter was loaded or started: the alignment turn (R389). -/
  alignAt : Option Nat := none
  /-- Heartbeats are stopped: SYNC_LOST (R409), stand-in (R418) or detach (R439). -/
  hbStopped : Bool := false
  deriving DecidableEq, Repr

/-! ### Frames (spec/04_ronpel_transactions.md R75-R77) -/

/-- A granule of a frame: 32 data bytes, and whether it travels in poisoned form (R296). -/
structure Granule where
  data : List Byte
  poison : Bool := false
  deriving DecidableEq, Repr

/-- A fabric frame: the header granule's fields (Table 4-2) and its data granules. NGR is the number of granules. -/
structure Frame where
  opcode : Nat
  vc : Nat := 0
  edition : Nat := 0
  poison : Bool := false
  slice : Nat := 0
  src : Nat := 0
  dst : Nat := 0
  tag : Nat := 0
  status : Nat := 0
  follow : Bool := false
  seq : Nat := 0
  /-- Bits [191:128]: ADDR, MSG, RESULT or the collective fields. -/
  addr : Nat := 0
  bytes : Nat := 0
  xfmt : Nat := 0
  tries : Nat := 0
  injTurn : Nat := 0
  /-- The reserved bits [95:91] and [15:13], in that order. -/
  reserved : Nat := 0
  gran : List Granule := []
  deriving DecidableEq, Repr

/-! ### The switch core (spec/10_switch_core.md) -/

/-- A frame inside the switch core. An egress is a Vangeri port 0 to 127, or 128 plus a local end-point's number. -/
structure SwFrame where
  frame : Frame
  egress : Nat
  /-- The Vangeri port whose receive slots hold it; none for a frame of a local end-point. -/
  ingress : Option Nat := none
  /-- The Vangeri port it came in by. -/
  via : Option Nat := none
  /-- Its number on the egress and channel (R239): numbers rise in the order of reception. -/
  num : Nat := 0
  /-- The turn in which its current step ends: the internal path, or arbitration once it is queued (R231, R475). -/
  due : Nat := 0
  /-- It takes the single direct path (R239). -/
  direct : Bool := false
  /-- The turn that a move list of this device lists for it, where it was injected in that turn (R244). -/
  listed : Option Nat := none
  /-- It has crossed the switch core and waits in the resequencer. -/
  arrived : Bool := false
  /-- Where its slots are: 0 shared area, 1 scheduled reserve, 2 control reserve. -/
  area : Nat := 0
  /-- Where in its spill ring its header granule is (R237). -/
  ringAt : Nat := 0
  deriving DecidableEq, Repr

/-- Deficit round-robin of one egress (R233). -/
structure Drr where
  bulk : Nat := 0
  bg : Nat := 0
  /-- Background is the class whose turn it is. -/
  atBg : Bool := false
  deriving DecidableEq, Repr

/-- A move-list entry as read ahead (Table 10-5), with whether it was read poisoned and the turn of the read. -/
structure MoveEntry where
  bytes : List Byte
  poison : Bool
  readAt : Nat
  deriving DecidableEq, Repr

/-- An armed or running move list (R242-R245). -/
structure MoveList where
  mlist : Nat
  /-- Which arm it is: the arms in use have numbers of their own. -/
  arm : Nat := 0
  collective : Bool
  queue : Nat
  start : Nat
  base : Nat
  entries : Nat
  /-- The collective it carries: CSEQ. -/
  cseq : Nat := 0
  /-- Entries read ahead and not yet injected, in list order. -/
  ahead : List MoveEntry := []
  read : Nat := 0
  done : Nat := 0
  lastOff : Nat := 0
  deriving DecidableEq, Repr

/-- The switch core apart from registers. Lists are in order of arrival. -/
structure SwitchState where
  /-- Frames on the internal paths or in a resequencer. -/
  crossing : List SwFrame := []
  /-- Frames ready for their egress and not yet admitted. -/
  ready : List SwFrame := []
  /-- Frames queued at an egress on die. -/
  queued : List SwFrame := []
  /-- Frames in spill rings, head first. -/
  spill : List SwFrame := []
  nextNum : Nat := 0
  drr : List (Nat × Drr) := []
  /-- Ports throttled for bulk, and for background, as bitmaps. -/
  thrBulk : Nat := 0
  thrBg : Nat := 0
  lists : List MoveList := []
  /-- Scheduled granules a port has accepted in a 256-turn window: port, window, granules. -/
  budget : List (Nat × Nat × Nat) := []
  /-- Collectives, by low CSEQ bits, that lost a frame to a port that went down, not yet resigned (R216). -/
  lostCol : List Nat := []
  /-- An edition flip is armed: edition and turn (R257). -/
  flip : Option (Nat × Nat) := none
  /-- A flip or direct write of CUR has happened since fundamental reset (R255). -/
  flipped : Bool := false
  /-- Writes of RTE_NBR_EXP that take effect in the next turn: the turn of the write, the port, what it held (R263). -/
  nbrOld : List (Nat × Nat × Word) := []
  deriving DecidableEq, Repr

/-! ### Vangeri ports (spec/12_vangeri_links.md) -/

/-- A frame or a part of one in a port's transmit stream: its granules not yet put in a codeword. -/
structure TxFrame where
  frame : Frame
  /-- The header granule has not been sent. -/
  atHead : Bool
  left : List Granule
  area : Nat
  /-- When its FEC encode is over (Table 10-1). -/
  due : Nat := 0
  /-- As in `SwFrame`. -/
  listed : Option Nat := none
  deriving DecidableEq, Repr

/-- A codeword kept for replay (R280): its LSEQ, layout and the slots it holds. -/
structure TxWord where
  lseq : Nat
  request : Nat
  hdrMap : Nat
  idleMap : Nat
  gran : List Granule
  /-- Collective frames with a granule in it, by low CSEQ bits. -/
  col : List Nat
  /-- Slots held: class, area and granules. -/
  slots : List (Nat × Nat × Nat)
  /-- The editions of the frames whose last granule it carries. -/
  tails : List Nat := []
  deriving DecidableEq, Repr

/-- A Vangeri port apart from registers. -/
structure VPort where
  /-- When the bring-up state was entered, and before when no attempt starts. -/
  enteredAt : Nat := 0
  notBefore : Nat := 0
  /-- A failed attempt for ENC_MISMATCH or KEYFAM holds the port in Ident (R277). -/
  stuck : Bool := false
  /-- Lanes in use, a bitmap. -/
  lanes : Nat := 0
  /-- The SWX_BUF_THR value in force (R234). -/
  thr : Word := 0x0800_0C00_0400_0800
  upAt : Nat := 0
  /-- The number of the last codeword sent, plus one. -/
  cwNext : Nat := 0
  txSeq : Nat := 0
  stream : List TxFrame := []
  unacked : List TxWord := []
  /-- Index of the next codeword to replay. -/
  replay : Option Nat := none
  replays : Nat := 0
  progressAt : Nat := 0
  rxSeq : Nat := 0
  /-- The turn in which the last replay began. -/
  replayAt : Option Nat := none
  /-- Codewords are being discarded until the replay. -/
  rxBad : Bool := false
  nakDue : Bool := false
  /-- Cumulative granules per VC: spent by this side, returned by the peer, returned to the peer. -/
  sent : List Nat := [0, 0, 0, 0, 0, 0, 0, 0]
  returned : List Nat := [0, 0, 0, 0, 0, 0, 0, 0]
  given : List Nat := [0, 0, 0, 0, 0, 0, 0, 0]
  limits : List Nat := [0, 0, 0, 0, 0, 0, 0, 0]
  /-- A credit return or an acknowledgement waits to be sent. -/
  ackDue : Bool := false
  /-- The granules of the frame being received, and complete frames not yet taken by the switch core, each with the turn in
  which FEC decode and Hatch check are over (Table 10-1). -/
  rxPart : List Granule := []
  rxFrames : List (Nat × List Granule) := []
  /-- How many of them were received before the link came up last: their credits are gone. -/
  stale : Nat := 0
  /-- Codewords received in FEC lock without an uncorrectable one between (R275). -/
  fecRun : Nat := 0
  /-- Receive lanes whose marker has failed CHECK once in this attempt, a bitmap (R276). -/
  checkBad : Nat := 0
  /-- The IDENT that bring-up was stopped for (R277). -/
  refused : Option LinkIdent := none
  /-- The taps of each lane as trained, in the layout of VGL_TX bits [41:12] (Table 12-21). -/
  trained : List Nat := [0, 0, 0, 0]
  /-- Consecutive marker misses per lane. -/
  misses : List Nat := [0, 0, 0, 0]
  /-- STATE requests received and not yet acted on. -/
  stateIn : List Nat := []
  /-- A STATE request to send. -/
  stateOut : Nat := 0
  quietTx : Bool := false
  quietRx : Bool := false
  /-- The other direction has left Quiet. -/
  wake : Bool := false
  /-- The first codeword after Quiet is a marker. -/
  markNext : Bool := false
  /-- When the last non-idle codeword was sent. -/
  busyAt : Nat := 0
  /-- Neighbour's IDENT of this attempt: domain, member, port, nonce. -/
  peer : Option (Nat × Nat × Nat × Nat) := none
  nonce : Nat := 0
  /-- The link key slot that the session key is derived from, fixed at Ident (R282). -/
  keySlot : Nat := 0
  /-- The peer's CREDIT_INIT has been received. -/
  credGot : Bool := false
  /-- Non-marker codewords sent since Up, the GCM IV, and those received and authenticated. Before Up the count runs from 2^63,
  which keeps every IV new (DESIGN CHOICE, notes/assumptions/71). -/
  ivTx : Nat := 0
  authRx : Nat := 0
  /-- The far-end loop is run for the peer, or by it. -/
  feGranted : Bool := false
  feWaiting : Bool := false
  /-- Symbols corrected in this window of 2^20 codewords, and codewords counted. -/
  winSym : Nat := 0
  winCw : Nat := 0
  deriving DecidableEq, Repr

/-! ### Ronpel end-points (spec/04_ronpel_transactions.md, spec/05_memory_model.md) -/

/-- Who asked for a request, and so who is told how it ended. -/
inductive Origin where
  | none
  /-- The BAR2 read `id` of attach port `a`. -/
  | bar2 (a id : Nat)
  /-- An output write of op queue `q`'s operation. -/
  | plate (q : Nat)
  /-- Granules of a remote plate operand: op queue, slot, granule index. -/
  | fetch (q slot gran : Nat)
  /-- Fragment `f` of the message that descriptor `ix` of queue `q` sends. -/
  | message (q ix f : Nat)
  /-- A frame of a collective, by its low CSEQ bits. -/
  | collective (cseq : Nat)
  /-- A ready-flag write of a collective. -/
  | readyFlag (cseq : Nat)
  /-- Part of DMA job `id` of attach port `a`: tile and piece. -/
  | dma (a id tile : Nat)
  /-- An access of Ilnyx core `n`. -/
  | core (n : Nat)
  /-- An atomic of Ilnyx core `n` whose prior value the core has, and whose final ACK is still to come (R113, R341). -/
  | coreAck (n : Nat)
  deriving DecidableEq, Repr

/-- Where and when a move list injects a frame (R244): its port, the list's number and arm, the turn listed and the turn in
which the entry was read. -/
structure Listed where
  port : Nat
  mlist : Nat
  arm : Nat
  turn : Nat
  readAt : Nat
  deriving DecidableEq, Repr

/-- A request that has passed its checks and waits for a tracker (R79, R80, R110, R113). -/
structure WaitReq where
  queue : Nat
  frame : Frame
  origin : Origin
  /-- Its place in the order in which requests and fences were issued. -/
  order : Nat
  /-- REP_WIN_STAT.GEN at its check (R71). -/
  gen : Nat := 0
  listed : Option Listed := none
  deriving DecidableEq, Repr

/-- How far a proof write is (R83). -/
inductive ProofStep where
  | notProof | waiting | going
  deriving DecidableEq, Repr

/-- A request that holds a tracker (R79). -/
structure Tracker where
  ep : Nat
  queue : Nat
  slot : Nat
  frame : Frame
  origin : Origin
  order : Nat
  /-- REP_WIN_STAT.GEN at its check (R71). -/
  gen : Nat
  takenAt : Nat
  /-- The egress port it is throttled against, while held (R240). -/
  heldFor : Option Nat := none
  sent : Bool := false
  delay : Nat := 0
  lastTx : Nat := 0
  /-- When the next retry is due. -/
  due : Option Nat := none
  /-- The prior value has come with FOLLOW = 1. -/
  prior : Option Nat := none
  proof : ProofStep := .notProof
  /-- A proof write covers writes from this order on (R83). -/
  coverFrom : Nat := 0
  listed : Option Listed := none
  deriving DecidableEq, Repr

/-- Who placed a fence. -/
inductive FenceOrigin where
  | none
  /-- BAR4 of attach port `a`, doorbell queue `j`, report slot. -/
  | bar4 (a j token : Nat)
  | core (n : Nat)
  deriving DecidableEq, Repr

/-- A fence in a requester queue (R84, R113). -/
structure Fence where
  queue : Nat
  kind : Nat
  scope : Nat
  origin : FenceOrigin
  order : Nat
  /-- What it completed with. -/
  status : Nat := 1
  deriving DecidableEq, Repr

/-- The issuing side of a requester queue. -/
structure QueueState where
  /-- Order of the last completed fence. -/
  lastFence : Nat := 0
  /-- Orders of writes that failed. -/
  bad : List Nat := []
  deriving DecidableEq, Repr

/-- A channel at its issuer (R80). -/
structure TxChan where
  src : Nat
  dst : Nat
  vc : Nat
  next : Nat
  last : Nat
  deriving DecidableEq, Repr

/-- A channel state at a target (R85). -/
structure Chan where
  src : Nat
  vc : Nat
  next : Nat
  last : Nat
  held : List Frame := []
  /-- SEQs taken and not yet answered. -/
  taken : List Nat := []
  /-- SEQs from the next expected on that have been taken before: a request before them was refused as it was performed, its
  outcome needing a result-log entry and none being free, and is expected again (R86, R87). -/
  skip : List Nat := []
  deriving DecidableEq, Repr

/-- A parked proof write (R83). -/
structure ParkedWrite where
  src : Nat
  vc : Nat
  frame : Frame
  /-- A PROOF_GO has come and waits for an earlier proof write. -/
  go : Option Frame := none
  deriving DecidableEq, Repr

/-- A result-log entry (R86). -/
structure LogEntry where
  src : Nat
  vc : Nat
  seq : Nat
  status : Nat
  opcode : Nat
  prior : Nat
  at' : Nat
  deriving DecidableEq, Repr

/-- A request being performed at the memory or plate EP. -/
structure Work where
  id : Nat
  frame : Frame
  /-- The lines of it still to be performed. -/
  lines : List Nat
  /-- The granules read so far (LOAD), by index in the frame. -/
  gran : List (Nat × Granule) := []
  status : Nat := 1
  prior : Nat := 0
  /-- Pinned lines whose write-back it waits for (R93). -/
  waits : List Nat := []
  /-- It answers a duplicate (R86). -/
  dup : Bool := false
  deriving DecidableEq, Repr

/-- A line held in SRAM (R92): pinned, or in a line buffer. -/
structure LineCopy where
  /-- Its granules, by index in the line, as they were decoded when it was copied and as requests have changed them since. -/
  gran : List (Nat × Granule) := []
  /-- Those that have changed since the last write-back, by index in the line. -/
  changed : List Nat := []
  pinned : Bool
  since : Nat
  /-- When it first changed since it was last written back. -/
  dirty : Option Nat := none
  deriving DecidableEq, Repr

/-- A line with a queue, a copy or a request history (R91, R92). -/
structure LineState where
  queue : List Nat := []
  copy : Option LineCopy := none
  /-- When requests were taken, newest first. -/
  times : List Nat := []
  /-- The head of the queue waits for its HBM read. -/
  reading : Bool := false
  deriving DecidableEq, Repr

/-- A Ronpel end-point, both sides, apart from registers. -/
structure EpState where
  /-- Frames delivered and not yet acted on, oldest first. -/
  arrived : List Frame := []
  chans : List Chan := []
  parks : List ParkedWrite := []
  log : List LogEntry := []
  work : List Work := []
  lines : List (Nat × LineState) := []
  /-- Requests taken by an EP without line queues and not yet performed, oldest first. -/
  service : List Frame := []
  /-- Frames discarded for a reserved field of their header that is not zero (R76). -/
  discarded : Nat := 0
  deriving DecidableEq, Repr

/-- How a request ended, for its origin. -/
structure Done where
  origin : Origin
  frame : Frame
  status : Nat
  delay : Nat
  data : List Byte
  poison : Bool
  /-- It ended before its frame left the end-point. -/
  unsent : Bool := false
  deriving DecidableEq, Repr

/-- The issuing side of all end-points, and what waits to be told to engines. -/
structure RepState where
  eps : List (Nat × EpState) := []
  queues : List (Nat × QueueState) := []
  chans : List TxChan := []
  trackers : List Tracker := []
  waiting : List WaitReq := []
  fences : List Fence := []
  nextOrder : Nat := 1
  nextWork : Nat := 0
  /-- Window registers written in a turn: the turn, the address, what the register held before that turn (R71). -/
  winOld : List (Nat × Nat × Word) := []
  /-- The last queue released from a throttle, per port and class. -/
  lastHeld : List (Nat × Nat) := []
  /-- Ends not yet told to their origins, oldest first. -/
  done : List Done := []
  /-- Fences completed and not yet reported. -/
  fenceDone : List Fence := []
  deriving DecidableEq, Repr

/-! ### Messages (spec/04_ronpel_transactions.md R95-R98) -/

/-- A message being sent. -/
structure MsgSend where
  queue : Nat
  ix : Nat
  /-- Statuses of its fragments, by index; 0 while open. -/
  status : List Nat
  deriving DecidableEq, Repr

/-- A message being received. -/
structure MsgRecv where
  src : Nat
  vc : Nat
  id : Nat
  /-- The pool used and its buffer; none where it is refused, with the status every fragment is answered with. -/
  pool : Nat
  buf : Nat
  refused : Option Nat := none
  reqPool : Nat
  bytes : Nat
  firstAt : Nat
  poison : Bool := false
  /-- The fragments written to its buffer. -/
  got : List Nat := []
  deriving DecidableEq, Repr

/-- The message engine apart from registers. -/
structure MsgState where
  /-- Next MSG_ID per destination. -/
  nextId : List (Nat × Nat) := []
  sends : List MsgSend := []
  recvs : List MsgRecv := []
  /-- Buffer states: pool and buffer; 1 in delivery, 2 delivered. -/
  bufs : List ((Nat × Nat) × Nat) := []
  /-- Records written per pool since its ring was configured. -/
  rings : List (Nat × Nat) := []
  /-- STATUS bytes of send descriptors that wait for a slot of HBM to be written (R16, R321): HBM offset and status. -/
  statusDue : List (Nat × Nat) := []
  deriving DecidableEq, Repr

/-! ### The plate array (spec/06_plate_array.md) -/

/-- An element as stored: its bits and, of an MX element, its block's scale code. -/
structure Elem where
  bits : Nat := 0
  scale : Nat := 127
  poison : Bool := false
  deriving DecidableEq, Repr

/-- A plate operation that has been fetched and not yet retired. Granules of operands are keyed slot × 2^40 + index. -/
structure PlateOp where
  queue : Nat
  /-- Ring index, modulo 2N, of the current member. -/
  index : Nat
  /-- The 128-byte descriptors of the chain's members; of an operation outside a chain, its own. -/
  chain : List (List Byte)
  member : Nat := 0
  /-- Visible turns of the members. -/
  visible : List Nat
  /-- The chain is malformed, or a descriptor was read poisoned. -/
  malformed : Bool := false
  /-- Strokes of the plan. -/
  strokes : Nat := 0
  /-- Strokes whose write-out has completed: the current stroke's index. -/
  stroke : Nat := 0
  /-- Element values read in earlier strokes and still needed (R136). -/
  carry : List (List Elem) := []
  /-- Turns of completed strokes, frozen turns included. -/
  active : Nat := 0
  stretched : Bool := false
  retries : Nat := 0
  delayed : Bool := false
  poisoned : Bool := false
  tainted : Bool := false
  /-- The first failing status (R143, R177). -/
  fail : Option Nat := none
  aborted : Bool := false
  /-- Granules written so far, for the digest. -/
  written : List (Nat × Granule) := []
  /-- This stroke's granules from outside local HBM and plate store. -/
  fetched : List (Nat × Granule) := []
  /-- How far a stroke's reads are: 0 streamed operands, 1 operands at data-dependent addresses, 2 all there. -/
  stage : Nat := 0
  /-- Keys requested and not yet returned. -/
  wanted : List Nat := []
  /-- This stroke's output granules, from its write-out phase. -/
  outs : List (Nat × Granule) := []
  /-- Output requests without a final status. -/
  pendingOut : Nat := 0
  /-- GATHER_GEMM: pieces found ready, and when progress was last made. -/
  ready : List Nat := []
  progressAt : Nat := 0
  /-- When the last operand from outside arrived in this stroke, pieces of a GATHER_GEMM apart, and when each piece did, in the order of
  arrival. -/
  arrivedAt : Nat := 0
  pieceAt : List Nat := []
  /-- A supply warning was observed while it ran: it ends Aborted at the end of its stroke (R454). -/
  warned : Bool := false
  /-- The carried state was read back poisoned from the carry area (R136, R296). -/
  carryBad : Bool := false
  /-- The live chain buffers, while the operation is saved. -/
  bufs : List (Nat × Granule) := []
  /-- The turns the array has been frozen in this operation. -/
  frozen : Nat := 0
  /-- The bound-set entry it uses. -/
  bset : Option Nat := none
  /-- What its bound-set slots name, as they were found at its fetch: none where R366 refuses them, some none where it has no such
  slot. From its fetch to its retire it is a user of the entry (R369). -/
  hold : Option (Option Nat) := some none
  /-- A reduction of the collective engine (R18, R212): its CSEQ and the turns of its stroke. -/
  job : Option (Nat × Nat) := none
  deriving DecidableEq, Repr

/-- What the array is doing, and since when or until when, in turns of State.clk. -/
inductive PlatePhase where
  | idle
  | planning (since : Nat)
  | stroke (since : Nat)
  /-- The write-out phase of the stroke that started at `since`; the phase itself began at `at'`. -/
  | writing (since at' : Nat)
  | retiring (since : Nat)
  | saving (due : Nat)
  | restoring (due : Nat)
  deriving DecidableEq, Repr

/-- The plate store and the array apart from registers. -/
structure PlateState where
  /-- Plate store bytes by PLATE offset; an unlisted byte is 0, as burnish leaves it (R370, R374). -/
  bytes : List Host.Cell := []
  /-- Poisoned granules of the plate store, by offset / 32. -/
  poison : List (Nat × Bool) := []
  /-- Chain buffers: buffer × 2^40 + granule index. -/
  chainBufs : List (Nat × Granule) := []
  phase : PlatePhase := .idle
  /-- The last queue served; 512 before any. -/
  last : Nat := 512
  roundAt : Nat := 0
  /-- PLT_CTL.ROUND as of the last selection (R135). -/
  roundLen : Nat := 4096
  expired : Bool := false
  op : Option PlateOp := none
  /-- Operations left partway, their carried state saved (R136). -/
  saved : List PlateOp := []
  /-- Visible turns of descriptors not yet fetched: queue, ring index, turn. -/
  visible : List (Nat × Nat × Nat) := []
  /-- TAILs held by counterproof gating (R395): queue and TAIL. -/
  gated : List (Nat × Nat) := []
  /-- Aborts of descriptors not yet fetched: queue and ring index (R146). -/
  aborts : List (Nat × Nat) := []
  /-- Reductions submitted to the collective op queue and not yet fetched: CSEQ and turns; and those ended: CSEQ, status. -/
  jobs : List (Nat × Nat) := []
  jobsDone : List (Nat × Nat) := []
  /-- Operations retired per queue. -/
  retired : List (Nat × Nat) := []
  deriving DecidableEq, Repr

/-! ### Collectives (spec/09_collectives.md) -/

/-- A stream being received (R215). -/
structure ColStream where
  phase : Nat
  /-- The sender's rank in the collective's scope. -/
  sender : Nat
  /-- Its granules by GOFF. -/
  gran : List (Nat × Granule) := []
  /-- What its COL_END said: CRC-64, granules, valid elements, elements dropped. -/
  ended : Option (Nat × Nat × Nat × Nat) := none
  deriving DecidableEq, Repr

/-- How a collective ended on this member (R220-R223). -/
structure ColOutcome where
  completed : Bool
  cause : Nat
  resigner : Nat
  members : Nat
  unknown : Bool := false
  deriving DecidableEq, Repr

/-- Where a collective stands on this member. -/
inductive ColStep where
  /-- The start barrier, or a small collective's combine, is awaited. -/
  | barrier
  /-- COUNTS frames are awaited (R213). -/
  | counts
  /-- The data phases have begun, and the member's own data waits for a slot of HBM to be placed (R16, R211). -/
  | placing
  | data
  /-- The vote is sent and the decision awaited (R221). -/
  | voted
  deriving DecidableEq, Repr

/-- A collective that this member has started and not yet recorded. -/
structure Coll where
  queue : Nat
  /-- Its ring index, modulo 2N. -/
  index : Nat
  /-- The 128-byte descriptor. -/
  desc : List Byte
  /-- COL_TOPO as the collective started: N, D, rank and domain index. -/
  n : Nat
  d : Nat
  rank : Nat
  dom : Nat
  step : ColStep
  /-- When the step that a timer runs for began. -/
  since : Nat
  streams : List ColStream := []
  /-- COUNTS received: rank and count; and the send counts read. -/
  counts : List (Nat × Nat) := []
  sendCounts : List Nat := []
  /-- Streams this member has sent, as phase × 65536 + receiver. -/
  sent : List Nat := []
  /-- Granules injected from a move list, by stream. -/
  injected : List (Nat × Nat) := []
  /-- Frames and flag writes without a final status. -/
  unended : Nat := 0
  retries : Nat := 0
  delayed : Bool := false
  /-- The reduction level that a plate job runs for, and how many levels are done. -/
  job : Option Nat := none
  reduced : Nat := 0
  /-- The result of the last level done. -/
  part : List Elem := []
  /-- Granules written at DST_ADDR, by index. -/
  wrote : List (Nat × Granule) := []
  dropped : Nat := 0
  poison : Bool := false
  localFail : Bool := false
  flagsWritten : Bool := false
  /-- The result of a SMALL that waits for a slot of HBM to be written. -/
  landing : List Byte := []
  outcome : Option ColOutcome := none
  deriving DecidableEq, Repr

/-- The collective engine apart from registers. -/
structure ColState where
  active : List Coll := []
  /-- RESIGNs received for collectives not started: TAG, cause, originator, when. -/
  early : List (Nat × Nat × Nat × Nat) := []
  deriving DecidableEq, Repr

/-! ### Memory stacks (spec/13_hbm_and_hatch_code.md) -/

/-- An active sweep (R304, R305). -/
structure Sweep where
  first : Nat
  last : Nat
  fill : Bool
  all : Bool
  newSlot : Nat
  /-- 0 started by software, 1 the initial fill, 2 burnish's fill. -/
  kind : Nat
  deriving DecidableEq, Repr

/-- A row: stack, pseudo-channel and row number. -/
abbrev HbmRow := Nat × Nat × Nat

/-- What HBM holds beside registers. Data bytes are held as plaintext (notes/assumptions/5): the ciphertext of a granule is
what the cipher makes of them under the slot that applies, and shows only where symbol errors have struck it. -/
structure HbmState where
  /-- Data bytes by HBM offset; an unlisted byte is 0, as the initial fill leaves it (R305). -/
  bytes : List Host.Cell := []
  /-- Poisoned granules, by granule index (offset / 32). -/
  poison : List (Nat × Bool) := []
  /-- Symbol errors that stored granules have taken since they were written (R293). -/
  errors : List (Nat × SymbolErrors) := []
  /-- The memory key map: slot by region; an unlisted region names slot 0 (R302). -/
  keyMap : List (Nat × Nat) := []
  sweep : Option Sweep := none
  /-- Granules that a read crossing damages, each with the turn in which it does (R391). -/
  slipped : List (Nat × Nat) := []
  /-- Write-back queue per stack: stack and granule index in HBM, oldest first, at most 64 per stack (R308). -/
  writeBack : List (Nat × Nat) := []
  /-- Activations per row in this refresh period, and when the period began (R309). -/
  acts : List (HbmRow × Nat) := []
  refreshStart : Nat := 0
  /-- Rows that have been found aggressors in this refresh period (R309). -/
  flagged : List HbmRow := []
  /-- Aggressors queued, oldest first, at most 16 per stack (R309). -/
  aggressors : List HbmRow := []
  /-- Stacks whose fabric accesses to the oldest aggressor's bank are held (R309). -/
  bankHeld : List HbmRow := []
  /-- Scrub corrections per row in this pass (R310). -/
  rowFix : List (HbmRow × Nat) := []
  /-- Rows in soft repair (R310). -/
  repaired : List HbmRow := []
  /-- The decoding mode before the last write of HATCH_MODE, and the turn of that write, in which it still holds (R293). -/
  hatchOld : Option (Nat × Nat) := none
  /-- Granules whose next pass through the memory cipher fails its round trip (R300). -/
  xtsBad : List Nat := []
  /-- The initial fill or burnish's fill has ended since the last burnish discard. -/
  fillDone : Bool := false
  deriving DecidableEq, Repr

/-- A function's MSI-X capability and table, as far as masking goes (R332). -/
structure MsixState where
  enabled : Bool := false
  functionMask : Bool := false
  /-- Masked vectors, a bitmap of 66; every vector is masked at reset, as PCIe has it. -/
  masked : Nat := 2 ^ 66 - 1
  /-- The pending bits. -/
  pending : Nat := 0
  /-- The message address and data of the vectors that the host has set up, by vector (Table 14-2). -/
  table : List (Nat × Nat × Nat) := []
  deriving DecidableEq, Repr

/-! ### Attach ports (spec/14_host_attach.md) -/

/-- A translation-cache entry (R328): a page of 4 KiB × 2^log2, its first 4 KiB page number, translated address. -/
structure AtcEntry where
  pasid : Nat
  page : Nat
  log2 : Nat
  addr : Nat
  read : Bool
  write : Bool
  deriving DecidableEq, Repr

/-- What a host access is for. -/
inductive HostUse where
  /-- A fabric PEER request taken at this port's end-point (R327). -/
  | peer (frame : Frame)
  /-- The fence report of a token: its 64 bytes (R323). -/
  | report (token : Nat) (bytes : List Byte)
  /-- The fetch of entry `j`'s next DMA descriptor, and the write of its result (R324). -/
  | descFetch (j : Nat)
  | descWrite (j : Nat) (bytes : List Byte)
  /-- The translation of page part `k` of entry `j`'s tile (R325). -/
  | dmaPart (j k : Nat)
  /-- A read of `n` bytes at byte `off` of that part. -/
  | dmaRead (j k off n : Nat)
  /-- A write of fabric data to byte `off` of that part. -/
  | dmaWrite (j k off : Nat) (bytes : List Byte) (poison : Bool)
  /-- The translation of a host range that op queue `q`'s stroke is about to write (R143). -/
  | plateOut (q : Nat)
  deriving DecidableEq, Repr

/-- How far a host access is. -/
inductive HostStep where
  | ready
  | translating
  /-- Held for page request `group`. -/
  | paging (group : Nat)
  /-- Held for a batched fault (R331). -/
  | batched
  /-- A read sent with this tag, when it was sent. -/
  | sent (tag sentAt : Nat)
  deriving DecidableEq, Repr

/-- A host access that is not yet done, in order of arrival. -/
structure HostAccess where
  id : Nat
  pasid : Nat
  iova : Nat
  bytes : Nat
  write : Bool
  use : HostUse
  step : HostStep := .ready
  /-- When it was taken, and when it was first held for a page request (R330). -/
  since : Nat
  heldAt : Option Nat := none
  deriving DecidableEq, Repr

/-- A page part of the current tile (R325). -/
structure DmaPart where
  host : Nat
  fabric : Nat
  len : Nat
  /-- 0 waits for its translation, 1 translated, 2 moving, 3 moved. -/
  step : Nat := 0
  /-- Bytes whose STOREs have been issued. -/
  sent : Nat := 0
  /-- Bytes still to land. -/
  left : Nat
  /-- Pieces of a transfer to the host that the fabric has answered and the host writes do not carry yet: offset, length, data and
  poison; none of one that failed. -/
  got : List (Nat × Nat × Option (List Byte × Bool)) := []
  deriving DecidableEq, Repr

/-- A DMA descriptor being carried out (R324, R325). -/
structure DmaJob where
  entry : Nat
  queue : Nat
  pasid : Nat
  /-- Ring index. -/
  index : Nat
  /-- The descriptor's bytes; empty until fetched. -/
  desc : List Byte := []
  tile : Nat := 0
  parts : List DmaPart := []
  /-- Flags written and not yet acknowledged. -/
  flags : List Nat := []
  /-- Tiles whose data and flag have landed. -/
  done : Nat := 0
  fail : Option Nat := none
  /-- The tile in which the first failing status arrived. -/
  failTile : Nat := 0
  retried : Bool := false
  delayed : Bool := false
  /-- Its result is being written. -/
  ending : Bool := false
  deriving DecidableEq, Repr

/-- A BAR2 read or atomic awaiting its pieces (R319). -/
structure Bar2Access where
  id : Nat
  tag : Nat
  addr : Nat
  len : Nat
  atomic : Bool
  /-- Pieces that have ended: offset, data, poisoned. -/
  got : List (Nat × List Byte × Bool) := []
  fail : Bool := false
  deriving DecidableEq, Repr

/-- A page fault gathered for a batch (R331). -/
structure PendingFault where
  pasid : Nat
  page : Nat
  write : Bool
  dma : Bool
  queue : Nat
  index : Nat
  since : Nat
  /-- The counter in the turn of the fault. -/
  turn : Nat
  /-- Its record found the park table full (R408). -/
  held : Bool := false
  deriving DecidableEq, Repr

/-- A key that IDE_KM has programmed (R333): stream, key set, direction, sub-stream, key and IV. -/
structure IdeKey where
  stream : Nat
  keySet : Bool
  transmit : Bool
  sub : Nat
  key : BitVec 256
  iv : BitVec 64
  deriving DecidableEq, Repr

/-- A range that a selective IDE stream is bound to (R333). -/
structure IdeRange where
  stream : Nat
  space : IdeSpace
  base : Nat
  limit : Nat
  deriving DecidableEq, Repr

/-- An invalidation whose completion is due (R329): the host accesses it waits for. -/
structure Invalidation where
  itag : Nat
  /-- The PASID; none for a global invalidation. -/
  pasid : Option Nat
  waits : List Nat
  deriving DecidableEq, Repr

/-- An attach port apart from registers. -/
structure AttachState where
  atc : List AtcEntry := []
  /-- Translation requests without a response: PASID and page. -/
  atsOut : List (Nat × Nat) := []
  atsEnabled : Bool := false
  priEnabled : Bool := false
  priAlloc : Nat := 0
  /-- Page requests without a response: group, PASID and page. -/
  pageOut : List (Nat × Nat × Nat) := []
  nextGroup : Nat := 0
  accesses : List HostAccess := []
  nextId : Nat := 0
  nextTag : Nat := 0
  jobs : List DmaJob := []
  bar2 : List Bar2Access := []
  faults : List PendingFault := []
  invals : List Invalidation := []
  /-- SLOT_SHIFT as of the last conventional reset (R72). -/
  slotShift : Nat := 30
  /-- The base that the host wrote to BAR2, to BAR0 and to BAR4. -/
  bar2Base : Nat := 0
  bar0Base : Nat := 0
  bar4Base : Nat := 0
  /-- SPDM (R336): 0 nothing negotiated, 1 version, 2 capabilities, 3 algorithms. -/
  spdmStep : Nat := 0
  /-- 0 no session, 1 keys exchanged, 2 established; and key updates of the session. -/
  session : Nat := 0
  keyUpdates : Nat := 0
  /-- IDE streams, the link stream first: 0 no keys, 1 keys programmed, 2 secure, 3 insecure. -/
  ide : List Nat := [0, 0, 0, 0, 0]
  /-- The keys programmed, and the ranges that selective streams are bound to (R333). -/
  ideKeys : List IdeKey := []
  ideRanges : List IdeRange := []
  /-- START_INTERFACE_NONCE of the locked interface. -/
  tdiNonce : Option (BitVec 256) := none
  deriving DecidableEq, Repr

/-! ### Ilnyx cores (spec/15_ilnyx_cores.md) -/

/-- A control kernel (R347, R348). -/
structure Kernel where
  num : Nat
  /-- 1 loaded, 2 running, 3 stopped (Table 15-3). -/
  state : Nat := 1
  cores : List Nat
  /-- Its share of private memory: byte offset from ILX_MEM.BASE and bytes. -/
  memAt : Nat
  memSize : Nat
  windows : Nat
  queues : List Nat
  /-- The slice that the device held when it was loaded (R347). -/
  slice : Nat := 0
  /-- The argument in a0 at its start. -/
  arg : Nat := 0
  /-- Exit code or exception cause, and ILX_C_STAT at the stop. -/
  exit : Nat := 0
  stat : Nat := 0
  deriving DecidableEq, Repr

/-- What firmware and the cores hold apart from registers. -/
structure IlxState where
  kernels : List Kernel := []
  /-- Mailbox requests carried out and not yet answered: port and STATUS. -/
  answers : List (Nat × Nat) := []
  /-- Cores that wait in a FENCE call. -/
  calls : List Nat := []
  /-- The reservation that a core's last LR holds in private memory: core, byte offset, bytes. -/
  reserved : List (Nat × Nat × Nat) := []
  /-- The order of the last fence placed for each core, which DONE shows. -/
  lastFence : List (Nat × Nat) := []
  /-- The telemetry ring: HBM offset and log2 of its records; records written; when the last was. -/
  ring : Option (Nat × Nat) := none
  written : Nat := 0
  sampledAt : Nat := 0
  /-- When firmware last wrote ILX_WDOG, or started. -/
  wdogAt : Nat := 0
  deriving DecidableEq, Repr

/-! ### Counterproof (spec/17_determinism_and_replay.md R393-R398) -/

/-- The data granules of scheduled frames in one codeword: the codeword's start in UI of turn time, and its port. -/
structure SchedPart where
  start : Nat
  port : Nat
  grans : List Granule
  deriving DecidableEq, Repr

/-- A counterproof window: the plate signature's CRC register and granules, the scheduled granules in their order, and whether
timing broke (R394). -/
structure TwnWindow where
  w : Nat
  preg : Nat := 0xFFFFFFFFFFFFFFFF
  pcount : Nat := 0
  sched : List SchedPart := []
  brk : Bool := false
  deriving DecidableEq, Repr

/-- Counterproof apart from registers. -/
structure TwnState where
  /-- The windows not yet sent, and the last four sent. -/
  wins : List TwnWindow := []
  /-- The first window whose record has not been sent. -/
  next : Nat := 0
  /-- Records of the peer that have come and not been compared: window and bytes. -/
  peer : List (Nat × List Byte) := []
  /-- Windows sent and not yet compared. -/
  open' : List Nat := []
  /-- Either side has flagged BRK since START_TURN. -/
  brkSeen : Bool := false
  /-- A stop is agreed: window, cause, which signatures differ. -/
  stop : Option (Nat × Nat × Nat) := none
  /-- TWN_REL has been written and its turn has not come (R395). -/
  relArmed : Bool := false
  /-- The locate search: the checkpoint range in which the first differing block lies, both ends. -/
  locate : Option (Nat × Nat) := none
  deriving DecidableEq, Repr

/-! ### Faults (spec/18_faults_and_resilience.md) -/

/-- A fault record (Table 18-3) but its PHASE bit, which the ring's lap gives. -/
structure FaultRec where
  cls : Nat
  code : Nat
  block : Nat
  inst : Nat
  turn : Nat
  seq : Nat
  pasid : Nat := 0
  addr : Nat := 0
  peer : Nat := 0
  tag : Nat := 0
  detail0 : Nat := 0
  detail1 : Nat := 0
  deriving DecidableEq, Repr

/-- Where a stand-in stands on the spare (R418). -/
inductive StandinStep where
  | idle
  /-- The notice is sent; member `m` is awaited absent; `prev` is the spare's own number. -/
  | expelling (m prev : Nat)
  /-- The number is taken; ADMIT is awaited. -/
  | admitting (m prev : Nat)
  /-- The refresh notice is sent; the present flood is awaited. -/
  | refreshing (m prev : Nat)
  deriving DecidableEq, Repr

/-- The fault queue and the fault procedures, apart from registers. -/
structure FaultState where
  /-- The park table, oldest first (R407). -/
  park : List FaultRec := []
  /-- When PARK_DRAIN last moved a record (R407: one per turn). -/
  parkedAt : Option Nat := none
  /-- Records of other classes that wait for the park table to empty into the ring. -/
  behind : List FaultRec := []
  /-- Fences new in a turn, which bind from the next (R414): set by this device (true) or by its peer, member, turn. -/
  newFences : List (Bool × Nat × Nat) := []
  /-- When vector 64 was last raised for the fault queue (R405). -/
  lastRaise : Option Nat := none
  /-- A raise waits for its COAL turns. -/
  raiseHeld : Bool := false
  standin : StandinStep := .idle
  /-- When FLT_REJOIN's notice was sent (R422). -/
  rejoinAt : Option Nat := none
  /-- When a stand-in token was last added, or reset (R420). -/
  lastRefill : Nat := 0
  deriving DecidableEq, Repr

/-! ### Bring-up (spec/19_bringup_and_identity.md) and security (spec/16_security_and_isolation.md) -/

/-- Bring-up state apart from registers. -/
structure BringupState where
  /-- RESET_N is low. -/
  resetLow : Bool := false
  pllLocked : Bool := false
  /-- MCH_BYPASS_N is driven high (R434). -/
  bypassHigh : Bool := false
  /-- The carrier identity memory as read at bring-up; empty before. -/
  cim : List Byte := []
  cimRead : Bool := false
  /-- A valid memory's contents with the writes made through the device since. -/
  cimNow : List Byte := []
  /-- The device's fixed number was already set in FIXED when it made its claim (R432). -/
  fixedTaken : Bool := false
  /-- CLAIM and ASSIGN frames held until the memory is read, each with the bitmaps HELD and FIXED of the domain's claim. -/
  heldChain : List (List Byte × Nat × Nat) := []
  /-- A sticky write-back is due (R433). -/
  writeBackDue : Bool := false
  firmwareTried : Bool := false
  firmwareVersion : Nat := 0
  /-- Firmware has been verified, or both slots have failed, since reset: attach ports answer configuration requests. -/
  attachOpen : Bool := false
  stacksRead : Nat := 0
  /-- When DETACH was written (R439). -/
  detachAt : Option Nat := none
  /-- When each cage's module was last read. -/
  cageAt : List (Nat × Nat) := []
  /-- Upper-page bytes behind MGT_CAGE's ID_CRC have been read once, per cage, a bitmap. -/
  cageSeen : Nat := 0
  /-- THERMTRIP_N is latched: the clocks are stopped (R453). -/
  tripped : Bool := false
  deriving DecidableEq, Repr

/-- What a loaded bound-set entry holds beside its registers (R365): the content key and the header. -/
structure BoundKey where
  key : BitVec 256
  header : List Byte
  deriving DecidableEq, Repr

/-- Security state apart from registers. -/
structure SecState where
  /-- When the running or last burnish started (R370). -/
  burnStart : Option Nat := none
  /-- 0 none, 1 discarding, 2 filling, 3 filling and read back. -/
  burnStep : Nat := 0
  burnReadback : Bool := true
  /-- RTE_CTL.SLICE may change: a burnish has passed since ADMIT was last 1 (R376). -/
  sliceFree : Bool := true
  /-- The bound-set image each entry is loading: header offset. -/
  loading : List (Nat × Nat) := []
  /-- The keys of entries that are LOADED or UNLOADING. -/
  sets : List (Nat × BoundKey) := []
  deriving DecidableEq, Repr

/-! ### Power (spec/20_power_package_pins.md) -/

/-- Power and load shaping apart from registers. -/
structure PwrState where
  /-- When the array entered RAMP_UP or RAMP_DOWN, and the fill step then (R445). -/
  rampAt : Nat := 0
  rampStep : Nat := 0
  /-- A stretch is in effect since this turn (R448). -/
  stretchAt : Option Nat := none
  /-- A droop freeze: when it began and, once the stretch has ended, when it ends (R449). -/
  freezeAt : Option Nat := none
  freezeDue : Option Nat := none
  /-- The duty window: when it started (R452). -/
  windowAt : Option Nat := none
  /-- When the quanta that duty limiting freezes end. -/
  dutyDue : Option Nat := none
  /-- When the rails were last polled. -/
  polledAt : Nat := 0
  /-- When the array froze, for whatever cause. -/
  frozenAt : Option Nat := none
  /-- A supply warning was observed at this turn (R454). -/
  warnAt : Option Nat := none
  /-- The PMBus access in progress: its OP, and what the controller answers (R443, Table 20-15). -/
  access : Option (Nat × Option Nat) := none
  /-- Polls that each rail has failed to answer in a row (R443). -/
  misses : List (Nat × Nat) := []
  /-- Rails of 0 to 3 whose current has exceeded its limit and has not been found below 95 % of it since (R444). -/
  overRails : List Nat := []
  /-- A stretched turn has run half of its core cycles: the next makes a turn of them (R448). -/
  halfTurn : Bool := false
  /-- The DUTY_ON of the cooling class (R451). -/
  classDuty : Nat := 97
  /-- The hottest junction sensor as last read (R450). -/
  junction : Nat := 0
  deriving DecidableEq, Repr

/-! ### The device -/

/-- A fault. No command of this block stops the device with one: what the spec calls a fault is a record in the fault
queue or a status, and both are effects on the state. -/
inductive Fault where
  /-- Raised by nothing: the spec gives the device no command whose outcome is a stop of the whole device. Safe. -/
  | none
  deriving DecidableEq, Repr

/-- A refusal. -/
inductive Refusal where
  /-- Raised by the arm of a command that has no meaning yet, under the command's mnemonic. Safe. -/
  | notModelled (mnemonic : String)
  deriving DecidableEq, Repr

/-- The state of the device. -/
structure State where
  /-- Commands waiting, first in, first out. -/
  pending : List Instr
  /-- Turn boundaries since RESET_N was released (R425): the time that durations are measured in. -/
  clk : Nat
  /-- The turn counter (R30). -/
  turn : Word
  /-- The turn counter counts. -/
  counting : Bool
  /-- Every register's stored value, by register address; unlisted, a register holds its reset value. -/
  regs : List (Nat × Word)
  pip : PipState
  hbm : HbmState
  flt : FaultState
  up : BringupState
  sec : SecState
  /-- The switch core and route editions. -/
  sw : SwitchState
  /-- Vangeri ports. -/
  ports : List (Nat × VPort)
  /-- Ronpel end-points. -/
  rep : RepState
  /-- The message engine. -/
  msg : MsgState
  /-- The plate store and the plate array. -/
  plate : PlateState
  /-- Attach ports. -/
  att : List (Nat × AttachState)
  /-- Counterproof. -/
  twn : TwnState
  /-- Firmware, control kernels, mailboxes. -/
  ilx : IlxState
  /-- Power and load shaping. -/
  pwr : PwrState
  /-- The collective engine. -/
  col : ColState
  /-- MSI-X state per attach port. -/
  msix : List (Nat × MsixState)
  /-- What the last command put on the device's pins and links. -/
  out : List Emission
  /-- How many free values have been taken: the model's own field (notes/assumptions/6). -/
  freeIx : Nat
  deriving DecidableEq, Repr

/-- The device right after fundamental reset: every register at its reset value, everything else empty. -/
def State.reset : State where
  pending := []
  clk := 0
  turn := 0
  counting := false
  regs := []
  pip := {}
  hbm := {}
  flt := {}
  up := {}
  sec := {}
  sw := {}
  ports := []
  rep := {}
  msg := {}
  plate := {}
  att := []
  twn := {}
  ilx := {}
  pwr := {}
  col := {}
  msix := []
  out := []
  freeIx := 0

end Sys2Proof.Machine
end

