-- ==== Sys2Proof/Machine/Ops.lean ====
section
/-!
DEFINITION. The named operations over the state that every block uses: register and field access, counters, free
values, emissions, and HBM as the memory end-point reads and writes it.
-/
namespace Sys2Proof.Machine

/-! ### Output and free values -/

/-- `s` with `e` put out. -/
def State.emit (s : State) (e : Emission) : State := { s with out := s.out ++ [e] }

/-- A value the spec does not state, `w` bits (notes/assumptions/6). -/
def State.free (s : State) (w : Nat) : Nat := (Config.freeValue s.freeIx w).toNat

/-- `s` with its free value used up. -/
def State.freeNext (s : State) : State := { s with freeIx := s.freeIx + 1 }

/-! ### Registers -/

/-- The stored value of the register at `a`. -/
def State.reg (s : State) (a : Nat) : Word := Sparse.get regReset s.regs a

/-- `s` with the register at `a` holding `v`. -/
def State.setReg (s : State) (a : Nat) (v : Word) : State := { s with regs := Sparse.set regReset s.regs a v }

/-- A field's value. -/
def State.get (s : State) (f : RField) : Nat := fieldGet (s.reg f.addr) f.hi f.lo

/-- `s` with a field set, truncated to the field. -/
def State.put (s : State) (f : RField) (v : Nat) : State := s.setReg f.addr (fieldPut (s.reg f.addr) f.hi f.lo v)

/-- A one-bit field as a Bool. -/
def State.flag (s : State) (f : RField) : Bool := s.get f != 0

/-- `s` with a one-bit field set or cleared. -/
def State.putFlag (s : State) (f : RField) (b : Bool) : State := s.put f (if b then 1 else 0)

/-- The turn counter as a number. -/
def State.now (s : State) : Nat := s.turn.toNat

/-- The largest value of a field. -/
def RField.max (f : RField) : Nat := 2 ^ (f.hi + 1 - f.lo) - 1

/-- The field at `f`'s place, counted among the RC fields of its page in ascending offset and descending bit (R469). -/
def rcIndexAux (ds : List RegDesc) (off hi : Nat) : List Nat → Nat → Option Nat
  | [], _ => none
  | o :: os, k =>
    match findDesc o ds with
    | none => rcIndexAux ds off hi os k
    | some d =>
      let rc := d.fields.filter (fun f => f.acc == .rc)
      if o = off then (rc.findIdx? (fun f => f.hi == hi)).map (k + ·)
      else rcIndexAux ds off hi os (k + rc.length)

/-- Which counter field of its page `f` is (R469). -/
def rcIndex (f : RField) : Option Nat :=
  match pageOf f.addr with
  | none => none
  | some (t, i, off) => rcIndexAux (pageDescs t i) off f.hi ((List.range 512).map (8 * ·)) 0

/-- The base of the page that holds address `a`. -/
def pageBaseOf (a : Nat) : Nat := a / 0x1000 * 0x1000

/-- `n` more events counted in PG_CNT_VAL of the page at `pg` where PG_CNT_SEL names them and reporting is on (R465,
R469). -/
def State.pgCount (s : State) (pg sel n : Nat) : State :=
  if s.get (F.PG_CNT_SEL_SEL pg) = sel ∧ s.flag (F.PG_CTL_EN pg) then
    s.setReg (Reg.PG_CNT_VAL pg) (s.reg (Reg.PG_CNT_VAL pg) + BitVec.ofNat 64 n)
  else s

/-- `n` events of a counter field: the field saturates, and PG_CNT_VAL follows where it selects the field (R469). -/
def State.count (s : State) (f : RField) (n : Nat) : State :=
  let s1 := s.put f (min f.max (s.get f + n))
  let pg := pageBaseOf f.addr
  let sel := s1.get (F.PG_CNT_SEL_SEL pg)
  if sel < 0x10 then s1
  else match rcIndex f with
    | some k => if sel = 0x10 + k then s1.pgCount pg sel n else s1
    | none => s1

/-! ### Rings (R131) -/

/-- Entries from HEAD to TAIL of a ring of N entries, whose indices count modulo 2N. -/
def ringUsed (n head tail : Nat) : Nat := (tail % (2 * n) + 2 * n - head % (2 * n)) % (2 * n)

/-- A TAIL that would put more than N entries in a ring of N. -/
def tailOver (n head tail : Nat) : Bool := decide (n < ringUsed n head tail)

/-- N of a ring whose register holds LOG2N: values other than 4 to 16 act as 4. -/
def ringSize (log2n : Nat) : Nat := 2 ^ (if 4 ≤ log2n ∧ log2n ≤ 16 then log2n else 4)

/-! ### Identity -/

/-- The device's own member number. -/
def State.member (s : State) : Nat := s.get F.MGT_ID_MEMBER
/-- The device's own domain. -/
def State.domain (s : State) : Nat := s.get F.MGT_ID_DOMAIN
/-- The device's slice. -/
def State.slice (s : State) : Nat := s.get F.RTE_CTL_SLICE
/-- The current edition (R249). -/
def State.edition (s : State) : Nat := s.get F.RTE_CTL_CUR
/-- The device is admitted (R264). -/
def State.admitted (s : State) : Bool := s.flag F.RTE_CTL_ADMIT

/-- The present members, a 128-bit bitmap (R53). -/
def State.present (s : State) : Nat :=
  (s.reg Reg.TRN_PRES0).toNat + (s.reg Reg.TRN_PRES1).toNat * 2 ^ 64

/-- `s` with the present members set. -/
def State.setPresent (s : State) (v : Nat) : State :=
  (s.setReg Reg.TRN_PRES0 (BitVec.ofNat 64 v)).setReg Reg.TRN_PRES1 (BitVec.ofNat 64 (v / 2 ^ 64))

/-- An endpoint identifier (R64): domain, member, local number. -/
def epId (domain member loc : Nat) : Nat := domain % 256 * 4096 + member % 128 * 32 + loc % 32

/-! ### HBM, as stored (R289, R300, R301) -/

/-- The HBM offset space: 1,536 GiB (R62). -/
def hbmSize : Nat := 0x18000000000

/-- The stack that holds HBM offset `off` (R61). -/
def hbmStack (off : Nat) : Nat := off / 2048 % 24
/-- The stack address of HBM offset `off` (R61). -/
def hbmSaddr (off : Nat) : Nat := off / 2048 / 24 * 2048 + off % 2048
/-- The HBM offset of a stack address (R61). -/
def hbmOffset (stack saddr : Nat) : Nat := (saddr / 2048 * 24 + stack) * 2048 + saddr % 2048
/-- The pseudo-channel of a stack address (R289). -/
def hbmPc (saddr : Nat) : Nat := saddr / 64 % 32
/-- The row of one pseudo-channel, 1 KiB, that holds a stack address (R310): sixteen 64-byte units in address order
(DEDUCED, notes/assumptions/8). -/
def hbmRow (off : Nat) : HbmRow := (hbmStack off, hbmPc (hbmSaddr off), hbmSaddr off / 32768)

/-- The byte at an HBM offset. -/
def State.hbmByte (s : State) (off : Nat) : Byte := Sparse.get (fun _ => 0) s.hbm.bytes off
/-- `n` bytes from an HBM offset, as stored. -/
def State.hbmBytes (s : State) (off n : Nat) : List Byte := Sparse.getBytes (fun _ => 0) s.hbm.bytes off n
/-- Whether granule `g` is poisoned. -/
def State.hbmPoisoned (s : State) (g : Nat) : Bool := Sparse.get (fun _ => false) s.hbm.poison g
/-- The symbol errors granule `g` has taken. -/
def State.hbmErrors (s : State) (g : Nat) : SymbolErrors := Sparse.get (fun _ => []) s.hbm.errors g

/-- `s` with granule `g` rewritten: its bytes and poison set, its symbol errors gone, its write-back entry dropped
(R293, R308). -/
def State.hbmRewrite (s : State) (g : Nat) (data : List Byte) (poison : Bool) : State :=
  { s with hbm := { s.hbm with
      bytes := Sparse.setBytes (fun _ => 0) s.hbm.bytes (32 * g) data
      poison := Sparse.set (fun _ => false) s.hbm.poison g poison
      errors := Sparse.set (fun _ => []) s.hbm.errors g []
      writeBack := s.hbm.writeBack.filter (fun e => e.2 ≠ g) } }

/-- `s` with more symbol errors in granule `g`. -/
def State.hbmStrike (s : State) (g : Nat) (e : SymbolErrors) : State :=
  let w := errorWord false (s.hbmErrors g ++ e)
  { s with hbm := { s.hbm with errors := Sparse.set (fun _ => []) s.hbm.errors g (wordErrors w) } }

/-- The decoding mode of every checking point: HBM_CTL.HATCH_MODE, whose write takes effect in the next turn (R293). -/
def State.hatchMode (s : State) : Nat :=
  match s.hbm.hatchOld with
  | some (m, t) => if t = s.clk then m else s.get F.HBM_CTL_HATCH_MODE
  | none => s.get F.HBM_CTL_HATCH_MODE

/-- What decoding granule `g` gives under the current mode (R293, R295). -/
def State.hbmDecode (s : State) (g : Nat) : HatchOut :=
  hatchDecode s.hatchMode (errorWord (s.hbmPoisoned g) (s.hbmErrors g))

/-! ### Memory as every engine sees it (R104, R105): HBM, or the copy of its line that the memory end-point holds -/

/-- Local end-point `n`. -/
def State.ep (s : State) (n : Nat) : EpState := Sparse.get (fun _ => {}) s.rep.eps n
/-- `s` with local end-point `n` set. -/
def State.setEp (s : State) (n : Nat) (e : EpState) : State :=
  { s with rep := { s.rep with eps := Sparse.set (fun _ => {}) s.rep.eps n e } }

/-- The state of line `l` at end-point `n`. -/
def EpState.line (e : EpState) (l : Nat) : LineState := Sparse.get (fun _ => {}) e.lines l
/-- `e` with line `l` set. -/
def EpState.setLine (e : EpState) (l : Nat) (v : LineState) : EpState :=
  { e with lines := Sparse.set (fun _ => {}) e.lines l v }

/-- The copy of granule `i` of its line. -/
def LineCopy.find (c : LineCopy) (i : Nat) : Option Granule :=
  (c.gran.find? (fun x => x.1 == i)).map (fun x => { data := sliceD 0 x.2.data 0 32, poison := x.2.poison })

/-- `c` holding `x` as granule `i` of its line. -/
def LineCopy.hold (c : LineCopy) (i : Nat) (x : Granule) : LineCopy :=
  { c with gran := (i, x) :: c.gran.filter (fun y => y.1 != i) }

/-- The copy of HBM granule `g` that the memory end-point holds in SRAM (R92). -/
def State.copied (s : State) (g : Nat) : Option Granule :=
  match ((s.ep 16).line (g / 4)).copy with
  | some c => c.find (g % 4)
  | none => none

/-- The byte at an HBM offset as an engine of the domain sees it. -/
def State.memByte (s : State) (off : Nat) : Byte :=
  match s.copied (off / 32) with
  | some x => x.data.getD (off % 32) 0
  | none => s.hbmByte off

/-- `n` bytes from an HBM offset as an engine of the domain sees them. -/
def State.memBytes (s : State) (off n : Nat) : List Byte := (List.range n).map (fun i => s.memByte (off + i))

/-- `s` with the copy of granule `g`, where there is one, holding what HBM now holds. -/
def State.syncCopy (s : State) (g : Nat) (x : Granule) : State :=
  let e := s.ep 16
  let v := e.line (g / 4)
  match v.copy with
  | some c =>
    let c1 := c.hold (g % 4) x
    s.setEp 16 (e.setLine (g / 4) { v with copy := some { c1 with changed := c.changed.filter (· != g % 4) } })
  | none => s

/-- `s` with granule `g` written by an engine of the device: in HBM, and in the copy of its line. -/
def State.memRewrite (s : State) (g : Nat) (data : List Byte) (poison : Bool) : State :=
  (s.hbmRewrite g data poison).syncCopy g { data := data, poison := poison }

end Sys2Proof.Machine
end

