-- ==== Sys2Proof/Machine/Events.lean ====
section
/-!
DEFINITION. Events and fault records (spec/18_faults_and_resilience.md R402-R408, spec/21_register_pages.md R464-R467):
the error registers of a page, the fault ring in HBM, the park table, MSI-X vectors.
-/
namespace Sys2Proof.Machine

/-- The port that serves what names port `a` (R314, R63). -/
def State.servingPort (s : State) (a : Nat) : Nat := if a % 2 = 1 ∧ s.flag (F.ATT_LINK_BONDED a) then a - 1 else a

/-- The message address and data of vector `v`: zeros where the host has set none. -/
def MsixState.entry (m : MsixState) (v : Nat) : Nat × Nat := Sparse.get (fun _ => (0, 0)) m.table v

/-- The emission of vector `v` of port `a`. -/
def MsixState.message (m : MsixState) (a v : Nat) : Emission := .msix a v (m.entry v).1 (m.entry v).2

/-- `s` with MSI-X vector `v` raised on port `port`, by the function that serves it (R332, R314): put out, or kept pending where
the vector or the function is masked (the PCIe masking and pending rules), or burnish runs (R335). -/
def State.raiseVector (s : State) (port v : Nat) : State :=
  let a := s.servingPort port
  let m := Sparse.get (fun _ => ({} : MsixState)) s.msix a
  if m.enabled && !m.functionMask && !bitAt m.masked v && !s.flag (F.ATT_SEC_RRS a) then s.emit (m.message a v)
  else { s with msix := Sparse.set (fun _ => {}) s.msix a { m with pending := setBitAt m.pending v true } }

/-- `s` with an event on the page of block type `t`, instance `i`: its PG_ERR bits, PG_ERR_FIRST, PG_ERR_LAST, the
event count and vector 65, all while the page's reporting is enabled (R403, R465, R467, R332). -/
def State.pageEvent (s : State) (t i bits code : Nat) : State :=
  let pg := pageBase t i
  if s.flag (F.PG_CTL_EN pg) then
    let old := s.reg (Reg.PG_ERR pg)
    let stamp := BitVec.ofNat 64 (code * 2 ^ 48 + s.now % 2 ^ 48)
    let s1 := if old = 0 then s.setReg (Reg.PG_ERR_FIRST pg) stamp else s
    let s2 := (s1.setReg (Reg.PG_ERR pg) (old ||| BitVec.ofNat 64 bits)).setReg (Reg.PG_ERR_LAST pg) stamp
    let s3 := s2.pgCount pg 2 1
    if (t = 7 ∨ (t = 6 ∧ i < 16)) ∧ (s3.reg (Reg.PG_ERR_EN pg) &&& BitVec.ofNat 64 bits) ≠ 0 then s3.raiseVector i 65
    else s3
  else s

/-- An armed symbol injection of the page of block type `t`, instance `i` (R469): the errors that strike the next data
granule checked there, 0xFF on data bytes 0 to k - 1, and the state with the injection applied. -/
def State.takeInjection (s : State) (t i : Nat) : SymbolErrors × State :=
  let pg := pageBase t i
  let k := s.get (F.PG_INJ_KIND pg)
  if s.flag (F.PG_INJ_ARM pg) && decide (1 ≤ k ∧ k ≤ 3) then
    ((List.range k).map (fun j => (j, 0xFF)), (s.putFlag (F.PG_INJ_ARM pg) false).pageEvent t i 8 0x8007)
  else ([], s)

/-- A write rejected by a check of its block (Table 21-5, 0x8005). -/
def State.rejected (s : State) (t i : Nat) : State := s.pageEvent t i 2 0x8005

/-- The size of the fault ring (Table 18-7). -/
def State.fltN (s : State) : Nat :=
  let l := s.get F.FLT_Q_CFG_LOG2N
  2 ^ (if 6 ≤ l ∧ l ≤ 16 then l else 6)

/-- Records between the head that is further behind and TAIL (R405). -/
def State.fltUsed (s : State) : Nat :=
  let n2 := 2 * s.fltN
  let tail := s.get F.FLT_Q_IDX_TAIL
  let behind := fun h => (tail + n2 - h % n2) % n2
  max (behind (s.get F.FLT_Q_IDX_HEAD_H)) (behind (s.get F.FLT_Q_HEADF_HEAD_F))

/-- The ring takes no record: it is full, or not in use (R405, R407). -/
def State.fltFull (s : State) : Bool := !s.flag F.FLT_Q_CFG_EN || decide (s.fltN ≤ s.fltUsed)

/-- Whom a record is for, by its code (R404): 1 host, 2 fabric manager, 3 both. -/
def faultDest (code : Nat) : Nat :=
  if code = 0x20 ∨ code = 0x21 ∨ code = 0x62 then 1
  else if code = 1 ∨ code = 2 ∨ code = 3 then 3
  else 2

/-- The 64 bytes of a record (Table 18-3), with the lap parity of the slot it takes. -/
def FaultRec.bytes (r : FaultRec) (phase : Nat) : List Byte :=
  toBytesLE 1 r.cls ++ toBytesLE 1 (phase + 2 * faultDest r.code) ++ toBytesLE 2 r.code ++ toBytesLE 2 r.block ++
  toBytesLE 2 r.inst ++ toBytesLE 8 r.turn ++ toBytesLE 4 r.seq ++ toBytesLE 4 r.pasid ++ toBytesLE 8 r.addr ++
  toBytesLE 4 r.peer ++ toBytesLE 4 r.tag ++ toBytesLE 8 r.detail0 ++ toBytesLE 8 r.detail1 ++ toBytesLE 8 0

/-- `s` with vector 64 raised for a record that entered the ring, or held for its COAL turns (R405). -/
def State.fltRaise (s : State) : State :=
  let due := match s.flt.lastRaise with
    | none => true
    | some t => decide (t + s.get F.FLT_Q_CFG_COAL ≤ s.clk)
  if due then
    { s.raiseVector (s.get F.FLT_Q_CFG_PORT) 64 with
        flt := { s.flt with lastRaise := some s.clk, raiseHeld := false } }
  else { s with flt := { s.flt with raiseHeld := true } }

/-- `s` with a record written into the ring's next slot (R404, R405). -/
def State.fltWrite (s : State) (r : FaultRec) : State :=
  let n := s.fltN
  let tail := s.get F.FLT_Q_IDX_TAIL % (2 * n)
  let off := s.get F.FLT_Q_BASE_BASE * 4096 + 64 * (tail % n)
  let b := r.bytes (if tail < n then 1 else 0)
  let s1 := (s.memRewrite (off / 32) (b.take 32) false).memRewrite (off / 32 + 1) (b.drop 32) false
  (s1.put F.FLT_Q_IDX_TAIL ((tail + 1) % (2 * n))).fltRaise

/-- `s` with the park table holding `p`, and FLT_STAT showing it. -/
def State.setPark (s : State) (p : List FaultRec) : State :=
  ({ s with flt := { s.flt with park := p } }.put F.FLT_STAT_PARK_USED p.length).putFlag F.FLT_STAT_PARK_FULL
    (decide (1024 ≤ p.length))

/-- `s` with a record in the ring, or dropped and counted where it takes none. -/
def State.writeOrDrop (s : State) (r : FaultRec) : State :=
  if s.fltFull then (s.count F.FLT_LOST_COUNT 1).putFlag F.FLT_STAT_OVERFLOW true else s.fltWrite r

/-- `s` with the records that waited for the park table to empty in the ring (R407). -/
def State.enterWaiting (s : State) : State :=
  if s.flt.park.isEmpty then s.flt.behind.foldl State.writeOrDrop { s with flt := { s.flt with behind := [] } } else s

/-- `s` with one parked record moved into the ring, where one waits and there is room (R407). -/
def State.parkStep (s : State) : State :=
  match s.flt.park with
  | [] => s
  | r :: p => if s.fltFull then s else ((s.setPark p).fltWrite r).enterWaiting

/-- The ring has no slot for a new record beside those that the parked records, and the records behind them, are to take. -/
def State.fltNoRoom (s : State) : Bool :=
  !s.flag F.FLT_Q_CFG_EN || decide (s.fltN ≤ s.fltUsed + s.flt.park.length + s.flt.behind.length)

/-- `s` with a record written, parked or dropped (R407). Parked records, which move one a turn, enter before a new one: a record of
another class that finds some waits behind them, where the ring has a slot for it too (DEDUCED, notes/assumptions/9). -/
def State.fltEnter (s : State) (r : FaultRec) : State :=
  let transaction := r.cls == 2
  if transaction && (s.fltFull || !s.flt.park.isEmpty) then
    if s.flt.park.length < 1024 then s.setPark (s.flt.park ++ [r]) else s
  else if s.flt.park.isEmpty then s.writeOrDrop r
  else if s.fltNoRoom then (s.count F.FLT_LOST_COUNT 1).putFlag F.FLT_STAT_OVERFLOW true
  else { s with flt := { s.flt with behind := s.flt.behind ++ [r] } }

/-- What a fault record holds besides its class, code and page. -/
structure FaultArgs where
  pasid : Nat := 0
  addr : Nat := 0
  peer : Nat := 0
  tag : Nat := 0
  detail0 : Nat := 0
  detail1 : Nat := 0
  /-- When it happened, where that is not now. -/
  turn : Option Nat := none
  deriving DecidableEq, Repr

/-- An event that calls for a record: the page's error registers, the next SEQ, and the record written, parked or
dropped (R403, R406, R407). -/
def State.fault (s : State) (cls code t i : Nat) (a : FaultArgs) : State :=
  let seq := s.get F.FLT_LOST_SEQ
  let r : FaultRec :=
    { cls := cls, code := code, block := t, inst := i, turn := a.turn.getD s.now, seq := seq, pasid := a.pasid, addr := a.addr,
      peer := a.peer, tag := a.tag, detail0 := a.detail0, detail1 := a.detail1 }
  ((s.pageEvent t i (2 ^ (7 + cls)) code).put F.FLT_LOST_SEQ (seq + 1)).fltEnter r

/-- The park table takes a record of class TRANSACTION, or the ring does (R408). -/
def State.parkRoom (s : State) : Bool := decide (s.flt.park.length < 1024)

/-- The device's own end-point identifier with LOCAL 31, which no end-point holds (R404). -/
def devicePeer (domain member : Nat) : Nat := epId domain member 31

end Sys2Proof.Machine
end

