-- ==== Sys2Proof/Machine/Seal.lean ====
section
/-!
DEFINITION. The status fields that show other state, and how they are brought up to date when a command ends.
-/
namespace Sys2Proof.Machine

/-- Nothing in the device is clocked: RESET_N is low (R424) or THERMTRIP_N is latched (R453). -/
def State.stopped (s : State) : Bool := s.up.resetLow || s.up.tripped

/-- Address `a` is a VPT_STAT register. -/
def isVptStat (a : Nat) : Bool :=
  decide (0x1020000 ≤ a ∧ a < 0x1024000 ∧ 0x108 ≤ a % 0x1000 ∧ a % 0x1000 < 0x908 ∧ a % 0x40 = 8)

/-- SEC_STAT.LINKS_ENC: every port that is up is encrypted (Table 16-9). Before the PLL locks nothing shows it, and it reads
its reset value 0 (DEDUCED, notes/assumptions/37). -/
def State.linksEncrypted (s : State) : Bool :=
  s.up.pllLocked && s.regs.all (fun e => !(isVptStat e.1 && e.2.getLsbD 0 && !e.2.getLsbD 1))

/-- SEC_STAT.MEM_ENC (R356). -/
def State.memEncrypted (s : State) : Bool := s.flag F.HBM_CTL_ENC_EN && s.flag F.HBM_STAT_INIT_DONE

/-- SEC_STAT.CONDITIONS: bits 0 to 4 all set (R356). -/
def State.conditions (s : State) : Bool :=
  s.flag F.SEC_LOCK_LOCK && s.flag F.SEC_STAT_FW_OK && s.memEncrypted && s.linksEncrypted && s.flag F.SEC_STAT_BURNISHED

/-- SEC_STAT as R356 makes it: BURNISHED and FW_OK are held in it, the other bits follow. -/
def State.secStat (s : State) : Word :=
  BitVec.ofNat 64 (b2n (s.flag F.SEC_LOCK_LOCK) + 2 * b2n (s.flag F.SEC_STAT_FW_OK) + 4 * b2n s.memEncrypted +
    8 * b2n s.linksEncrypted + 16 * b2n (s.flag F.SEC_STAT_BURNISHED) + 32 * b2n s.conditions)

/-- Every memory stack has reported 16 dies of 32 Gb (R311). -/
def State.stacksGood (s : State) : Bool :=
  (List.range 24).all (fun t => bitAt s.up.stacksRead t && s.flag (F.HBM_S_ID_OK t))

/-- Bring-up is complete: MGT_STAT.READY, once set, stays (Table 19-1). A stack that does not report what it should fails bring-up
(R311). -/
def State.isReady (s : State) : Bool :=
  s.flag F.MGT_STAT_READY ||
    (s.flag F.SEC_STAT_FW_OK && s.flag F.HBM_STAT_INIT_DONE && s.flag F.MGT_ID_VALID && s.flag F.TRN_STAT_ALIGNED &&
      s.stacksGood)

/-- `s` with SEC_STAT, RTE_STAT.CUR (Table 11-6), MGT_STAT.READY and TRN_NOW.COUNT (Table 2-10) showing what they show. -/
def State.showStatus (s : State) : State :=
  (((s.setReg Reg.SEC_STAT s.secStat).put F.RTE_STAT_CUR (s.get F.RTE_CTL_CUR)).putFlag F.MGT_STAT_READY s.isReady).setReg
    Reg.TRN_NOW s.turn

/-- `s` brought up to date: a record is written when CONDITIONS falls (R356, code 0x0040), and the status fields follow. -/
def State.seal (s : State) : State :=
  if s.flag F.SEC_STAT_CONDITIONS && !s.conditions then
    (s.fault 6 0x0040 13 0 { detail0 := s.secStat.toNat }).showStatus
  else s.showStatus

end Sys2Proof.Machine
end

