-- ==== Sys2Proof/Machine/RegHook.lean ====
section
/-!
DEFINITION. What a register's own write rule is given (spec/21_register_pages.md R463, R468, R473).
-/
namespace Sys2Proof.Machine

/-- A path of R69's management path. -/
def Path.management : Path → Bool
  | .chain => true
  | .oob => true
  | .firmware => true
  | .bar0 _ => false
  | .fabric => false

/-- A write that has passed the path filter, as its register's own rule sees it. -/
structure RegWrite where
  path : Path
  addr : Nat
  /-- The register before. -/
  old : Word
  /-- The register with every open RW and RWL field taken from the data and every W1C bit written 1 cleared. -/
  new : Word
  /-- The data's bits in open fields that are written 1: what W1S and WO fields act on. -/
  act : Word
  deriving DecidableEq, Repr

/-- The write as a plain register takes it. -/
def State.takeWrite (s : State) (w : RegWrite) : State := s.setReg w.addr w.new

/-- The new value of a field. -/
def RegWrite.newF (w : RegWrite) (f : RField) : Nat := fieldGet w.new f.hi f.lo
/-- The old value of a field. -/
def RegWrite.oldF (w : RegWrite) (f : RField) : Nat := fieldGet w.old f.hi f.lo
/-- The acting bits of a field. -/
def RegWrite.actF (w : RegWrite) (f : RField) : Nat := fieldGet w.act f.hi f.lo
/-- The write with a field's new value replaced. -/
def RegWrite.setNew (w : RegWrite) (f : RField) (v : Nat) : RegWrite := { w with new := fieldPut w.new f.hi f.lo v }
/-- The write with a field left as it was. -/
def RegWrite.keep (w : RegWrite) (f : RField) : RegWrite := w.setNew f (w.oldF f)

end Sys2Proof.Machine
end

