-- ==== Sys2Proof/Machine/Frame.lean ====
section
/-!
DEFINITION. Fabric frames: the header granule (spec/04_ronpel_transactions.md R75, R76), opcodes, channels and classes
(spec/12_vangeri_links.md R274), ages (spec/10_switch_core.md R238), and the responses that answer them.
-/
namespace Sys2Proof.Machine

/-! ### The header granule (Table 4-2) -/

/-- The 256 header bits of a frame. -/
def Frame.header (f : Frame) : Nat :=
  f.opcode % 2 ^ 8 + f.vc % 8 * 2 ^ 8 + f.edition % 2 * 2 ^ 11 + b2n f.poison * 2 ^ 12 +
  f.reserved % 8 * 2 ^ 13 + f.slice % 2 ^ 8 * 2 ^ 16 + f.src % 2 ^ 20 * 2 ^ 24 + f.dst % 2 ^ 20 * 2 ^ 44 +
  f.tag % 2 ^ 18 * 2 ^ 64 + f.status % 2 ^ 8 * 2 ^ 82 + b2n f.follow * 2 ^ 90 + f.reserved / 8 % 32 * 2 ^ 91 +
  f.seq % 2 ^ 32 * 2 ^ 96 + f.addr % 2 ^ 64 * 2 ^ 128 + f.bytes % 2 ^ 9 * 2 ^ 192 + f.xfmt % 8 * 2 ^ 201 +
  f.gran.length % 16 * 2 ^ 204 + f.tries % 2 ^ 8 * 2 ^ 208 + f.injTurn % 2 ^ 40 * 2 ^ 216

/-- NGR of a header. -/
def headerNgr (h : Nat) : Nat := bitsOf h 207 204

/-- The frame with header `h` and data granules `g`. -/
def Frame.ofHeader (h : Nat) (g : List Granule) : Frame :=
  { opcode := bitsOf h 7 0, vc := bitsOf h 10 8, edition := bitsOf h 11 11, poison := bitAt h 12,
    reserved := bitsOf h 95 91 * 8 + bitsOf h 15 13, slice := bitsOf h 23 16, src := bitsOf h 43 24,
    dst := bitsOf h 63 44, tag := bitsOf h 81 64, status := bitsOf h 89 82, follow := bitAt h 90,
    seq := bitsOf h 127 96, addr := bitsOf h 191 128, bytes := bitsOf h 200 192, xfmt := bitsOf h 203 201,
    tries := bitsOf h 215 208, injTurn := bitsOf h 255 216, gran := g }

/-! ### Opcodes (Table 4-1) -/

/-- LOAD, STORE, PROOF_WRITE and PROOF_GO. -/
def opLoad : Nat := 0x01
def opStore : Nat := 0x02
def opProof : Nat := 0x03
def opGo : Nat := 0x04
def opXa : Nat := 0x1A
def opMsg : Nat := 0x20
def opColData : Nat := 0x40
def opColEnd : Nat := 0x41
def opAck : Nat := 0x80
def opLoadRsp : Nat := 0x81
def opAtomRsp : Nat := 0x82
def opNack : Nat := 0x83

/-- ADD to XOR. -/
def isAtomic8 (op : Nat) : Bool := decide (0x10 ≤ op ∧ op ≤ 0x19)
/-- An 8-byte atomic or XA_ADD. -/
def isAtomic (op : Nat) : Bool := isAtomic8 op || op == opXa
/-- STORE, PROOF_WRITE, an atomic or XA_ADD: what a proof write covers (R83). -/
def isWrite (op : Nat) : Bool := op == opStore || op == opProof || isAtomic op
/-- LOAD, STORE, PROOF_WRITE, PROOF_GO, an atomic or XA_ADD. -/
def isMemory (op : Nat) : Bool := op == opLoad || op == opGo || isWrite op
/-- A collective-engine opcode. -/
def isCollective (op : Nat) : Bool := op == opColData || op == opColEnd
/-- A response. -/
def isResponse (op : Nat) : Bool := decide (0x80 ≤ op ∧ op ≤ 0x83)
/-- A request. -/
def isRequest (op : Nat) : Bool := isMemory op || op == opMsg || isCollective op
/-- Opcodes that are not reserved. -/
def opKnown (op : Nat) : Bool := isRequest op || isResponse op

/-! ### End-points, classes, channels -/

/-- The fields of an end-point identifier (Table 3-4). -/
def epDomain (i : Nat) : Nat := i / 4096 % 256
def epMember (i : Nat) : Nat := i / 32 % 128
def epLocal (i : Nat) : Nat := i % 32

/-- The identifier of this device's end-point `n`. -/
def State.ownEp (s : State) (n : Nat) : Nat := epId s.domain s.member n

/-- The class of a virtual channel (Table 12-5): 0 scheduled, 1 control, 2 bulk, 3 background. -/
def vcClass (vc : Nat) : Nat :=
  if vc = 0 then 0 else if vc = 1 ∨ vc = 2 ∨ vc = 6 then 1 else if vc = 3 ∨ vc = 5 then 2 else 3

/-- The class of a frame. -/
def Frame.cls (f : Frame) : Nat := vcClass f.vc
/-- Granules of a frame, the header's included. -/
def Frame.size (f : Frame) : Nat := f.gran.length + 1
/-- The channel of a frame (R80). -/
def Frame.chan (f : Frame) : Nat × Nat × Nat := (f.src, f.dst, f.vc)

/-- The virtual channel of an unscheduled request (R274). -/
def requestVc (op : Nat) (far bg : Bool) : Nat :=
  if op = opProof ∨ op = opGo then 1
  else if far then (if bg then 7 else 5) else (if bg then 4 else 3)

/-- The virtual channel of a response to `f` (R274). -/
def State.responseVc (s : State) (f : Frame) : Nat :=
  if 1 ≤ f.vc ∧ f.vc ≤ 4 then 2
  else if f.vc = 0 ∧ epDomain f.src = s.domain then 2
  else 6

/-- A reserved bit of the header or an encoding that Table 4-2 reserves is not zero (R76). -/
def Frame.badReserved (f : Frame) : Bool :=
  f.reserved != 0 || (f.xfmt != 0 && f.opcode != opXa) || (f.follow && f.opcode != opAtomRsp) ||
  (f.status != 0 && isRequest f.opcode) || (f.opcode == opMsg && bitsOf f.addr 15 6 != 0) ||
  (isCollective f.opcode && (decide (3 < bitsOf f.addr 47 44) || decide (3 < bitsOf f.addr 43 40)))

/-! ### Ages (R238) -/

/-- The age limit in force. -/
def State.ageLimit (s : State) : Nat := max 65536 (s.get F.SWX_AGE_LIMIT)
/-- The age of an injection turn: modulo 2^40. -/
def State.ageOf (s : State) (inj : Nat) : Nat := (s.now + 2 ^ 40 - inj % 2 ^ 40) % 2 ^ 40
/-- The frame is over the age limit. -/
def State.tooOld (s : State) (f : Frame) : Bool := decide (s.ageLimit < s.ageOf f.injTurn)

/-! ### Addresses (Table 3-1, Table 3-3) -/

def addrMember (a : Nat) : Nat := bitsOf a 63 57
def addrKind (a : Nat) : Nat := bitsOf a 56 53
def addrOffset (a : Nat) : Nat := bitsOf a 52 0
/-- A near fabric address. -/
def nearAddr (member kind off : Nat) : Nat := member % 128 * 2 ^ 57 + kind % 16 * 2 ^ 53 + off % 2 ^ 53

/-- The local end-point that answers a target kind (R59, R76); PEER's port as named. -/
def kindEp (kind off : Nat) : Nat :=
  if kind = 0 then 16 else if kind = 1 then 17 else if kind = 2 then bitsOf off 52 49 else 20

/-- Bytes `[off, off + n)` of a PLATE quadrant exist (Table 3-3). -/
def plateRange (off n : Nat) : Bool :=
  decide (off < 0x20000000) && decide (off % 0x8000000 + n ≤ 0x5F00000)
/-- Bytes `[off, off + n)` exist in the target kind's offset space (Table 3-3). -/
def offsetExists (kind off n : Nat) : Bool :=
  if kind = 0 then decide (off + n ≤ hbmSize)
  else if kind = 1 then plateRange off n
  else if kind = 2 then decide (off + n ≤ 2 ^ 53) && bitsOf off 52 49 == bitsOf (off + n - 1) 52 49
  else kind == 3 && decide (off + n ≤ 0x4000000)

/-! ### Data placement (R77) -/

/-- The granules that `bytes` from address `a` touch. -/
def granuleSpan (a bytes : Nat) : Nat := if bytes = 0 then 0 else (a % 32 + bytes + 31) / 32

/-- Bytes laid into granules from byte `a mod 32`, the rest zero. -/
def toGranules (a : Nat) (data : List Byte) : List (List Byte) :=
  let n := granuleSpan a data.length
  chunks 32 (sliceD 0 (List.replicate (a % 32) 0 ++ data) 0 (32 * n))

/-- Bytes `[a mod 32, a mod 32 + n)` of granules. -/
def ofGranules (a n : Nat) (g : List Granule) : List Byte :=
  sliceD 0 (g.flatMap (fun x => sliceD 0 x.data 0 32)) (a % 32) n

/-! ### Hash (spec/07_arithmetic.md R158) and port choice (R250) -/

/-- mix64 of R158. -/
def mix64 (z : BitVec 64) : BitVec 64 :=
  let a := (z ^^^ (z >>> 30)) * 0xBF58476D1CE4E5B9#64
  let b := (a ^^^ (a >>> 27)) * 0x94D049BB133111EB#64
  b ^^^ (b >>> 31)

/-- The port hash of R250. -/
def portHash (f : Frame) (spray : Bool) : Nat :=
  let key := BitVec.ofNat 64 (f.src * 2 ^ 44) ||| BitVec.ofNat 64 (f.dst * 2 ^ 24) ||| BitVec.ofNat 64 (f.vc * 2 ^ 21)
  (mix64 (if spray then key ^^^ (BitVec.ofNat 64 f.seq * 0xD1B54A32D192ED03#64) else key)).toNat

/-- A fabric address to record for a request: 0 for a message or a collective frame. -/
def Frame.address (f : Frame) : Nat := if isMemory f.opcode then f.addr else 0

end Sys2Proof.Machine
end

