-- ==== Sys2Proof/Machine/Crypto.lean ====
section
/-!
DEFINITION. The published algorithms that the spec names: AES-256 with its XTS, CMAC and GCM uses, SHA-384 and HMAC, and
the key derivation of NIST SP 800-108 in counter mode (spec/12_vangeri_links.md R282, spec/13_hbm_and_hatch_code.md R298,
spec/16_security_and_isolation.md R362-R364). The spec takes them from IEEE 1619, NIST and FIPS documents by name; their
text is outside it (notes/assumptions/64).
-/
namespace Sys2Proof.Machine

/-! ### AES-256 -/

/-- Multiplication by x in AES's field, polynomial 0x11B. -/
def aesX2 (a : Nat) : Nat := if a < 128 then a * 2 else (a * 2 % 256) ^^^ 0x1B

/-- The product of `a` and the low `n` bits of `b`, lowest bit first. -/
def aesMulAux : Nat → Nat → Nat → Nat
  | 0, _, _ => 0
  | n + 1, a, b => (if b % 2 = 1 then a else 0) ^^^ aesMulAux n (aesX2 a) (b / 2)

/-- Multiplication in AES's field. -/
def aesMul (a b : Nat) : Nat := aesMulAux 8 a b

/-- The inverse, and 0 of 0: the 254th power, squaring and multiplying by turns. -/
def aesInv (a : Nat) : Nat :=
  let step := fun (r : Nat) => aesMul (aesMul r r) a
  let r := step (step (step (step (step (step a)))))
  aesMul r r

/-- A byte rotated left by `k`. -/
def rotByte (b k : Nat) : Nat := (b * 2 ^ k) % 256 ||| b / 2 ^ (8 - k)

/-- The S-box. -/
def aesSub (a : Nat) : Nat :=
  let b := aesInv a
  b ^^^ rotByte b 1 ^^^ rotByte b 2 ^^^ rotByte b 3 ^^^ rotByte b 4 ^^^ 0x63

/-- The inverse S-box. -/
def aesUnsub (a : Nat) : Nat := aesInv (rotByte a 1 ^^^ rotByte a 3 ^^^ rotByte a 6 ^^^ 0x05)

/-- The element-wise exclusive or of two lists. -/
def xorList (a b : List Nat) : List Nat := List.zipWith (· ^^^ ·) a b

/-- One column through the matrix whose first row is `m`, each later row that row rotated right. -/
def aesColumn (m : List Nat) (c : List Nat) : List Nat :=
  (List.range 4).map (fun r =>
    (List.range 4).foldl (fun acc k => acc ^^^ aesMul (m.getD ((k + 4 - r) % 4) 0) (c.getD k 0)) 0)

/-- Every column of a 16-byte state through that matrix. -/
def aesColumns (m : List Nat) (st : List Nat) : List Nat := (chunks 4 st).flatMap (aesColumn m)

/-- Row r of the state rotated left by r (`d` = 1) or right by r (`d` = 3). -/
def aesRows (d : Nat) (st : List Nat) : List Nat :=
  (List.range 16).map (fun i => st.getD (4 * ((i / 4 + d * (i % 4)) % 4) + i % 4) 0)

/-- One more word of the key schedule, whose words are held newest first. -/
def aesExpandStep (ws : List (List Nat)) (i : Nat) : List (List Nat) :=
  let t := ws.getD 0 []
  let t1 :=
    if i % 8 = 0 then
      let s := (t.drop 1 ++ t.take 1).map aesSub
      xorList s [(List.range (i / 8 - 1)).foldl (fun r _ => aesX2 r) 1, 0, 0, 0]
    else if i % 8 = 4 then t.map aesSub else t
  xorList (ws.getD 7 []) t1 :: ws

/-- The fifteen round keys of a 32-byte key, in order. -/
def aesKeys (key : List Nat) : List (List Nat) :=
  let ws := ((List.range 52).map (· + 8)).foldl aesExpandStep (chunks 4 key).reverse
  (chunks 4 ws.reverse).map (·.flatten)

/-- A 16-byte block encrypted under expanded keys. -/
def aesEncrypt (ks : List (List Nat)) (block : List Nat) : List Nat :=
  let st := xorList block (ks.getD 0 [])
  let mid := ((ks.drop 1).take 13).foldl (fun st k =>
    xorList (aesColumns [2, 3, 1, 1] (aesRows 1 (st.map aesSub))) k) st
  xorList (aesRows 1 (mid.map aesSub)) (ks.getD 14 [])

/-- A 16-byte block decrypted under expanded keys. -/
def aesDecrypt (ks : List (List Nat)) (block : List Nat) : List Nat :=
  let st := xorList block (ks.getD 14 [])
  let mid := ((ks.drop 1).take 13).reverse.foldl (fun st k =>
    aesColumns [14, 11, 13, 9] (xorList ((aesRows 3 st).map aesUnsub) k)) st
  xorList ((aesRows 3 mid).map aesUnsub) (ks.getD 0 [])

/-! ### XTS of one 16-byte data unit, block index 0 (IEEE 1619; R298) -/

/-- The masks of a data unit: the tweak, little endian, under the second key. -/
def xtsMask (key : List Nat) (tweak : Nat) : List Nat :=
  aesEncrypt (aesKeys (key.drop 32)) ((toBytesLE 16 tweak).map (·.toNat))

/-- A data unit encrypted under a key pair, the 64 bytes of `key`. -/
def xtsEncrypt (key : List Nat) (tweak : Nat) (p : List Nat) : List Nat :=
  let t := xtsMask key tweak
  xorList (aesEncrypt (aesKeys (key.take 32)) (xorList p t)) t

/-- A data unit decrypted. -/
def xtsDecrypt (key : List Nat) (tweak : Nat) (c : List Nat) : List Nat :=
  let t := xtsMask key tweak
  xorList (aesDecrypt (aesKeys (key.take 32)) (xorList c t)) t

/-! ### CMAC and GCM (NIST SP 800-38B, SP 800-38D) -/

/-- The number that bytes spell, highest first. -/
def ofBytesBE (l : List Nat) : Nat := l.foldl (fun a b => a * 256 + b) 0

/-- `v` as `n` bytes, highest first. -/
def toBytesBE (n v : Nat) : List Nat := ((toBytesLE n v).map (·.toNat)).reverse

/-- A CMAC subkey doubled. -/
def cmacDouble (v : Nat) : Nat := v * 2 % 2 ^ 128 ^^^ (if v / 2 ^ 127 = 1 then 0x87 else 0)

/-- AES-256-CMAC of a message. -/
def aesCmac (key msg : List Nat) : List Nat :=
  let ks := aesKeys key
  let k1 := cmacDouble (ofBytesBE (aesEncrypt ks (List.replicate 16 0)))
  let blocks := if msg = [] then [[]] else chunks 16 msg
  let last := blocks.getLast?.getD []
  let fin := if last.length = 16 then xorList last (toBytesBE 16 k1)
    else xorList (last ++ 0x80 :: List.replicate (15 - last.length) 0) (toBytesBE 16 (cmacDouble k1))
  (blocks.dropLast ++ [fin]).foldl (fun x b => aesEncrypt ks (xorList x b)) (List.replicate 16 0)

/-- The product of GCM's field, whose bit 127 is the coefficient of 1; `n` bits of `x` are still to be taken, highest
first. -/
def ghashMulAux : Nat → Nat → Nat → Nat → Nat
  | 0, _, _, z => z
  | n + 1, x, v, z =>
    let z1 := if x / 2 ^ n % 2 = 1 then z ^^^ v else z
    ghashMulAux n x (if v % 2 = 1 then v / 2 ^^^ 0xE1 * 2 ^ 120 else v / 2) z1

/-- Bytes padded with zeros to whole blocks. -/
def pad16 (l : List Nat) : List Nat := l ++ List.replicate (roundUp l.length 16 - l.length) 0

/-- GHASH under `h` of whole blocks. -/
def ghash (h : Nat) (l : List Nat) : Nat :=
  (chunks 16 l).foldl (fun y b => ghashMulAux 128 (y ^^^ ofBytesBE b) h 0) 0

/-- The counter-mode key stream from counter block `(iv, c)` applied to `l`. -/
def gcmCrypt (ks : List (List Nat)) (iv : List Nat) (l : List Nat) : List Nat :=
  ((chunks 16 l).zipIdx).flatMap (fun x => xorList x.1 (aesEncrypt ks (iv ++ toBytesBE 4 (x.2 + 2))))

/-- The 128-bit tag of a ciphertext: key, 12-byte IV, additional data, ciphertext. -/
def gcmTag (ks : List (List Nat)) (iv aad c : List Nat) : List Nat :=
  let h := ofBytesBE (aesEncrypt ks (List.replicate 16 0))
  let g := ghash h (pad16 aad ++ pad16 c ++ toBytesBE 8 (8 * aad.length) ++ toBytesBE 8 (8 * c.length))
  xorList (toBytesBE 16 g) (aesEncrypt ks (iv ++ [0, 0, 0, 1]))

/-- AES-256-GCM: the ciphertext and the 16-byte tag. -/
def gcmSeal (key iv aad plain : List Nat) : List Nat × List Nat :=
  let ks := aesKeys key
  let c := gcmCrypt ks iv plain
  (c, gcmTag ks iv aad c)

/-- AES-256-GCM opened: none where the tag is wrong. -/
def gcmOpen (key iv aad cipher tag : List Nat) : Option (List Nat) :=
  let ks := aesKeys key
  if gcmTag ks iv aad cipher = tag then some (gcmCrypt ks iv cipher) else none

/-! ### SHA-384 and HMAC (FIPS 180-4, FIPS 198-1) -/

/-- The primes below 410 in order: the first 80. -/
def smallPrimes : List Nat :=
  (List.range 410).filter (fun n => decide (2 ≤ n) && ((List.range 21).all (fun d => d < 2 || n ≤ d || n % d != 0)))

/-- The largest `r` with `r ^ e ≤ v`, found bit by bit from bit `n` - 1. -/
def rootAux (e v : Nat) : Nat → Nat → Nat
  | 0, r => r
  | n + 1, r => rootAux e v n (if (r + 2 ^ n) ^ e ≤ v then r + 2 ^ n else r)

/-- The round constants: 64 bits of the fraction of each prime's cube root. -/
def shaK : List Nat := smallPrimes.map (fun p => rootAux 3 (p * 2 ^ 192) 68 0 % 2 ^ 64)

/-- The initial value of SHA-384: 64 bits of the fraction of the square roots of the ninth to sixteenth primes. -/
def shaInit : List Nat := ((smallPrimes.drop 8).take 8).map (fun p => rootAux 2 (p * 2 ^ 128) 68 0 % 2 ^ 64)

/-- A 64-bit word rotated right. -/
def rotr64 (x n : Nat) : Nat := x / 2 ^ n ||| x * 2 ^ (64 - n) % 2 ^ 64

/-- One more word of the message schedule, whose words are held newest first. -/
def shaExpand (ws : List Nat) : List Nat :=
  let a := ws.getD 1 0
  let b := ws.getD 14 0
  let s1 := rotr64 a 19 ^^^ rotr64 a 61 ^^^ a / 2 ^ 6
  let s0 := rotr64 b 1 ^^^ rotr64 b 8 ^^^ b / 2 ^ 7
  (s1 + ws.getD 6 0 + s0 + ws.getD 15 0) % 2 ^ 64 :: ws

/-- One round of the compression function on the eight working variables. -/
def shaRound (v : List Nat) (kw : Nat) : List Nat :=
  match v with
  | [a, b, c, d, e, f, g, h] =>
    let t1 := h + (rotr64 e 14 ^^^ rotr64 e 18 ^^^ rotr64 e 41) + ((e &&& f) ^^^ ((2 ^ 64 - 1 - e) &&& g)) + kw
    let t2 := (rotr64 a 28 ^^^ rotr64 a 34 ^^^ rotr64 a 39) + ((a &&& b) ^^^ (a &&& c) ^^^ (b &&& c))
    [(t1 + t2) % 2 ^ 64, a, b, c, (d + t1) % 2 ^ 64, e, f, g]
  | _ => v

/-- The compression of one 128-byte block. -/
def shaBlock (h : List Nat) (b : List Nat) : List Nat :=
  let w := (((List.range 64).foldl (fun ws _ => shaExpand ws) ((chunks 8 b).map ofBytesBE).reverse)).reverse
  let v := (List.zipWith (· + ·) shaK w).foldl shaRound h
  (List.zipWith (· + ·) h v).map (· % 2 ^ 64)

/-- SHA-384 of a message: 48 bytes. -/
def sha384Bytes (msg : List Nat) : List Nat :=
  let n := msg.length
  let padded := msg ++ 0x80 :: List.replicate (roundUp (n + 17) 128 - n - 17) 0 ++ toBytesBE 16 (8 * n)
  (((chunks 128 padded).foldl shaBlock shaInit).take 6).flatMap (toBytesBE 8)

/-- HMAC with SHA-384. -/
def hmac384 (key msg : List Nat) : List Nat :=
  let k := if 128 < key.length then sha384Bytes key else key
  let kb := k ++ List.replicate (128 - k.length) 0
  sha384Bytes (kb.map (· ^^^ 0x5C) ++ sha384Bytes (kb.map (· ^^^ 0x36) ++ msg))

/-! ### Key derivation in counter mode (NIST SP 800-108) -/

/-- 32 bytes derived by `prf`, which gives `n` bytes a call: counter, label, zero byte, context and length, the counter and
the length as 32 bits, highest byte first. -/
def kdfCounter (prf : List Nat → List Nat) (n : Nat) (label context : List Nat) : List Nat :=
  ((List.range (ceilDiv 32 n)).flatMap (fun i =>
    prf (toBytesBE 4 (i + 1) ++ label ++ 0 :: context ++ toBytesBE 4 256))).take 32

/-- The bytes of an ASCII string. -/
def asciiBytes (t : String) : List Nat := t.toList.map (·.toNat)

/-! ### P-384 (R361-R363, R426) -/

/-- The prime of P-384's field, the constant b of its equation y² = x³ − 3x + b, the order of its generator. -/
def ecP : Nat := 2 ^ 384 - 2 ^ 128 - 2 ^ 96 + 2 ^ 32 - 1
def ecB : Nat :=
  0xB3312FA7E23EE7E4988E056BE3F82D19181D9C6EFE8141120314088F5013875AC656398D8A2ED19D2A85C8EDD3EC2AEF
def ecN : Nat :=
  0xFFFFFFFFFFFFFFFFFFFFFFFFFFFFFFFFFFFFFFFFFFFFFFFFC7634D81F4372DDF581A0DB248B0A77AECEC196ACCC52973

/-- A point in Jacobian coordinates: (x / z², y / z³), the point at infinity where z is 0. -/
structure EcPoint where
  x : Nat
  y : Nat
  z : Nat
  deriving DecidableEq, Repr

/-- The generator. -/
def ecG : EcPoint :=
  { x := 0xAA87CA22BE8B05378EB1C71EF320AD746E1D3B628BA79B9859F741E082542A385502F25DBF55296C3A545E3872760AB7
    y := 0x3617DE4A96262C6F5D9E98BF9292DC29F8F41DBD289A147CE9DA3113B5F0B8C00A60B1CE1D7E819D7A431D7C90EA0E5F
    z := 1 }

/-- A difference modulo `m` of numbers below it. -/
def modSub (m a b : Nat) : Nat := (a + m - b) % m

/-- The power of `b` to the low `n` bits of `e` modulo `m`, times `r` squared `n` times, highest bit first. -/
def modPowAux (m b e : Nat) : Nat → Nat → Nat
  | 0, r => r
  | i + 1, r => modPowAux m b e i (if bitAt e i then r * r % m * b % m else r * r % m)

/-- The inverse modulo a prime `m` below 2^384, and 0 of 0. -/
def modInv (m a : Nat) : Nat := modPowAux m (a % m) (m - 2) 384 1

/-- A point doubled. -/
def ecDouble (a : EcPoint) : EcPoint :=
  let yy := a.y * a.y % ecP
  let t := 4 * a.x * yy % ecP
  let zz := a.z * a.z % ecP
  let m := 3 * (modSub ecP (a.x % ecP) zz * ((a.x + zz) % ecP)) % ecP
  let x := modSub ecP (m * m % ecP) (2 * t % ecP)
  { x := x, y := modSub ecP (m * modSub ecP t x % ecP) (8 * yy * yy % ecP), z := 2 * a.y * a.z % ecP }

/-- The sum of two points. -/
def ecAdd (a b : EcPoint) : EcPoint :=
  if a.z = 0 then b
  else if b.z = 0 then a
  else
    let aa := a.z * a.z % ecP
    let bb := b.z * b.z % ecP
    let u := a.x * bb % ecP
    let t := a.y * (b.z * bb) % ecP
    let h := modSub ecP (b.x * aa % ecP) u
    let r := modSub ecP (b.y * (a.z * aa) % ecP) t
    if h = 0 then (if r = 0 then ecDouble a else { x := 1, y := 1, z := 0 })
    else
      let hh := h * h % ecP
      let v := u * hh % ecP
      let x := modSub ecP (modSub ecP (r * r % ecP) (h * hh % ecP)) (2 * v % ecP)
      { x := x, y := modSub ecP (r * modSub ecP v x % ecP) (t * (h * hh) % ecP), z := a.z * b.z % ecP * h % ecP }

/-- The low `n` bits of `k` times `q`, added to `r` doubled `n` times, highest bit first. -/
def ecMulAux (k : Nat) (q : EcPoint) : Nat → EcPoint → EcPoint
  | 0, r => r
  | i + 1, r => ecMulAux k q i (if bitAt k i then ecAdd (ecDouble r) q else ecDouble r)

/-- A multiple of a point. -/
def ecMul (k : Nat) (q : EcPoint) : EcPoint := ecMulAux k q 384 { x := 1, y := 1, z := 0 }

/-- The affine coordinates of a point. -/
def EcPoint.affine (a : EcPoint) : Nat × Nat :=
  let i := modInv ecP a.z
  (a.x * (i * i % ecP) % ecP, a.y * (i * i % ecP * i % ecP) % ecP)

/-- A point lies on the curve. -/
def ecOnCurve (x y : Nat) : Bool := decide (x < ecP ∧ y < ecP) && y * y % ecP == (x * x * x + 3 * (ecP - x) + ecB) % ecP

/-- The number that ECDSA with SHA-384 signs for a message. -/
def ecDigest (msg : List Nat) : Nat := ofBytesBE (sha384Bytes msg)

/-- An ECDSA signature of a message under private key `d`, made with number `k`: r and s, highest byte first. -/
def ecSign (d k : Nat) (msg : List Nat) : List Nat :=
  let r := (ecMul k ecG).affine.1 % ecN
  toBytesBE 48 r ++ toBytesBE 48 (modInv ecN k * ((ecDigest msg + r * d) % ecN) % ecN)

/-- A signature of 96 bytes verifies under an uncompressed public key of 97. -/
def ecVerify (key msg sig : List Nat) : Bool :=
  let x := ofBytesBE ((key.drop 1).take 48)
  let y := ofBytesBE ((key.drop 49).take 48)
  let r := ofBytesBE (sig.take 48)
  let t := ofBytesBE ((sig.drop 48).take 48)
  key.length == 97 && key.head? == some 4 && ecOnCurve x y && decide (0 < r ∧ r < ecN ∧ 0 < t ∧ t < ecN) &&
    (let w := modInv ecN t
     let p := ecAdd (ecMul (ecDigest msg * w % ecN) ecG) (ecMul (r * w % ecN) { x := x, y := y, z := 1 })
     p.z != 0 && p.affine.1 % ecN == r)

/-! ### The device's keys -/

/-- Bytes as numbers. -/
def natBytes (l : List Byte) : List Nat := l.map (·.toNat)

/-- Numbers as bytes. -/
def byteList (l : List Nat) : List Byte := l.map (BitVec.ofNat 8)

/-- SHA-384 of a byte string, its first byte lowest in the result. -/
def sha384 (l : List Byte) : BitVec 384 := BitVec.ofNat 384 (ofBytesLE (byteList (sha384Bytes (natBytes l))))

/-- The XTS key pair of a memory key slot (R302): 64 bytes. -/
def memKeys (slot : Nat) : List Nat := natBytes (toBytesLE 64 (Config.memKey slot).toNat)

/-- A link's session key (R282): the context is that of the two IDENT blocks. -/
def linkSessionKey (slot : Nat) (context : List Byte) : List Nat :=
  kdfCounter (aesCmac (natBytes (toBytesLE 32 (Config.linkKey slot).toNat))) 16 (asciiBytes "TXN-LINK") (natBytes context)

/-- The device's identity private key, and its public key as 97 uncompressed bytes (Table 16-1). -/
def identityScalar : Nat := Config.identityKey.toNat % (ecN - 1) + 1
def identityPublic : List Byte :=
  let a := (ecMul identityScalar ecG).affine
  byteList (4 :: (toBytesBE 48 a.1 ++ toBytesBE 48 a.2))

/-- The identity hash (R362). -/
def identityHash : BitVec 384 := sha384 identityPublic

/-- A message signed with the identity key (R361). -/
def identitySign (msg : List Byte) : List Byte :=
  byteList (ecSign identityScalar ((Config.signNonce msg).toNat % (ecN - 1) + 1) (natBytes msg))

/-- Z of R363: the x-coordinate of the ECDH product of the identity private key and a point given as 96 bytes, x then y. -/
def ecdhX (point : List Byte) : List Nat :=
  let q : EcPoint := { x := ofBytesBE (natBytes (point.take 48)), y := ofBytesBE (natBytes (sliceD 0 point 48 48)), z := 1 }
  toBytesBE 48 (ecMul identityScalar q).affine.1

/-- The device's key-encryption key for a bound-set image (R363): of EPHEMERAL and SET_ID. -/
def kekOf (ephemeral setId : List Byte) : List Nat :=
  kdfCounter (hmac384 (ecdhX ephemeral)) 48 (asciiBytes "TXN-BSET") (natBytes (toBytesLE 48 identityHash.toNat ++ setId))

/-- The device certificate: among what else it holds, the part number, the serial number and the key family of its subject, and the
identity public key; and the chain of slot 0, which ends with it (R361; the fields' form is DESIGN CHOICE,
notes/assumptions/85). -/
def deviceCert : List Byte :=
  Config.certPart 0 ++ byteList (asciiBytes "TXN-24H") ++ Config.certPart 1 ++ toBytesLE 8 Config.fusedSerial.toNat ++
    Config.certPart 2 ++ toBytesLE 2 (Config.fusedKeyFamily.toNat % 10000) ++ Config.certPart 3 ++ identityPublic ++ Config.certPart 4
def certChain : List Byte := Config.certAbove ++ deviceCert

end Sys2Proof.Machine
end

