-- ==== Sys2Proof/Machine/Hbm.lean ====
section
/-!
DEFINITION. Memory stacks (spec/13_hbm_and_hatch_code.md): decoded reads and stores of granules, the key slots and
sweeps, and the background slots.
-/
namespace Sys2Proof.Machine

/-! ### Key slots (R302) -/

/-- Bytes of a region. -/
def regionSize : Nat := 0x200000
/-- Regions of HBM (R302). -/
def regionCount : Nat := 786432

/-- The slot the map byte of a region names (R302). -/
def State.mapSlot (s : State) (r : Nat) : Nat := Sparse.get (fun _ => 0) s.hbm.keyMap r

/-- The slot that applies to an offset: the sweep's below its pointer, else the map's (R302). -/
def State.slotOf (s : State) (off : Nat) : Nat :=
  match s.hbm.sweep with
  | some w =>
    if w.first * regionSize ≤ off ∧ off < (w.last + 1) * regionSize ∧ off < s.get F.HBM_SWEEP_PTR_PTR then w.newSlot
    else s.mapSlot (off / regionSize)
  | none => s.mapSlot (off / regionSize)

/-! ### The stored form (R298-R300) -/

/-- The XTS tweak of half `h` of granule `g` under a slot with salt `salt`: the salt in [127:64], the stack in [40:36], the
stack byte address of the half in [35:0] (R298). -/
def xtsTweak (salt g h : Nat) : Nat :=
  salt * 2 ^ 64 + hbmStack (32 * g) * 2 ^ 36 + (hbmSaddr (32 * g) + 16 * h)

/-- Half `h` of granule `g`'s plaintext after the bytes `r` of an error word have struck its ciphertext: encrypted as it was
stored, struck, and decrypted under the slot that applies. -/
def State.xtsStruck (s : State) (g h : Nat) (p : List Byte) (r : List Nat) : List Byte :=
  let slot := s.slotOf (32 * g)
  let t := xtsTweak (s.reg (Reg.HBM_SLOT_SALT slot)).toNat g h
  byteList (xtsDecrypt (memKeys slot) t (xorList (xtsEncrypt (memKeys slot) t (natBytes p)) r))

/-- The plaintext of granule `g` once the error word `w` has struck what is stored: with encryption off the bytes struck,
with it on each half that is struck decrypted afresh (R298, R299). -/
def State.residualData (s : State) (g : Nat) (data : List Byte) (w : List Nat) : List Byte :=
  if s.flag F.HBM_CTL_ENC_EN then
    (if residualInHalf w 0 then s.xtsStruck g 0 (data.take 16) (w.take 16) else data.take 16) ++
    (if residualInHalf w 16 then s.xtsStruck g 1 (data.drop 16) ((w.drop 16).take 16) else data.drop 16)
  else applyResidual data w

/-- The memory cipher's next pass over granule `g` fails its round trip; with encryption off there is no pass (R299, R300). -/
def State.xtsFails (s : State) (g : Nat) : Bool := s.flag F.HBM_CTL_ENC_EN && s.hbm.xtsBad.contains g

/-- A round-trip mismatch of the cipher at the memory EP (R300). -/
def State.xtsFault (s : State) (g : Nat) (isRead : Bool) : State :=
  let st := hbmStack (32 * g)
  let s1 := { s with hbm := { s.hbm with xtsBad := s.hbm.xtsBad.erase g } }
  (s1.count (F.HBM_S_ECC_XTS_ERR st) 1).fault 3 0x0002 8 (st / 6)
    { addr := 32 * g, detail0 := st + (if isRead then 0x100 else 0) }

/-! ### Reads and stores at the memory end-point (R295, R300, R301, R308) -/

/-- The memory EP, the spill rings and the plate stream units may access HBM (R305). -/
def State.hbmOpen (s : State) : Bool := s.flag F.HBM_STAT_INIT_DONE && !s.flag F.HBM_STAT_SWEEP_ALL

/-- The syndromes of a granule as DETAIL1 holds them (Table 18-2). -/
def syndromeDetail (sy : List Nat) : Nat :=
  sy.getD 0 0 + sy.getD 1 0 * 0x100 + sy.getD 2 0 * 0x10000 + sy.getD 3 0 * 0x1000000

/-- Granule `g` as a checking point hands it on once `e` has struck it since it was written, and what the point made of it (R295, R297):
one that it cannot correct is put in poisoned form over the data as received. -/
def Granule.decoded (g : Granule) (mode : Nat) (e : SymbolErrors) : Granule × HatchOut :=
  let word := errorWord g.poison e
  match hatchDecode mode word with
  | .good w => ({ data := applyResidual g.data w }, .good w)
  | .corrected w => ({ data := applyResidual g.data w }, .corrected w)
  | .poisoned => ({ data := applyResidual g.data word, poison := true }, .poisoned)
  | .uncorrectable sy => ({ data := applyResidual g.data word, poison := true }, .uncorrectable sy)

/-- A granule checked by the checking point whose counters are `corr` and `uncorr` of page `t`, instance `i`: as handed on, whether it
was uncorrectable, and the state after the count and the record (R294, R295); `x` holds the record's address, peer and
DETAIL0. -/
def State.checkPoint (s : State) (corr uncorr : RField) (t i : Nat) (x : FaultArgs) (g : Granule) (e : SymbolErrors) :
    Granule × Bool × State :=
  let d := g.decoded s.hatchMode e
  match d.2 with
  | .good _ | .poisoned => (d.1, false, s)
  | .corrected _ => (d.1, false, s.count corr 1)
  | .uncorrectable sy => (d.1, true, (s.count uncorr 1).fault 3 0x0001 t i { x with detail1 := syndromeDetail sy })

/-- Granule `g`, read in this turn, crosses to the core clock damaged (R391). -/
def State.crossingBad (s : State) (g : Nat) : Bool := s.hbm.slipped.contains (g, s.clk)

/-- Granule `g` decoded from HBM: its data, whether it is delivered poisoned, and the state after the counters, the fault
record and the write-back queue have taken the outcome (R294, R295, R308). A granule that cannot be corrected is put in
poisoned form over the data as received. -/
def State.hbmSense (s : State) (g : Nat) : List Byte × Bool × State :=
  let st := hbmStack (32 * g)
  let data := s.hbmBytes (32 * g) 32
  let (inj, s) := s.takeInjection 8 4
  let word := errorWord (s.hbmPoisoned g) (s.hbmErrors g ++ inj)
  match hatchDecode s.hatchMode word with
  | .good w => (s.residualData g data w, false, s)
  | .poisoned => (s.residualData g data word, true, s)
  | .corrected w =>
    let s2 := s.count (F.HBM_S_ECC_CORR st) 1
    let mine := s2.hbm.writeBack.filter (fun e => e.1 = st)
    let s3 := if mine.length < 64 ∧ ¬ (st, g) ∈ mine then
        { s2 with hbm := { s2.hbm with writeBack := s2.hbm.writeBack ++ [(st, g)] } } else s2
    (s.residualData g data w, false, s3)
  | .uncorrectable sy =>
    let s1 := s.count (F.HBM_S_ECC_UNCORR st) 1
    (s.residualData g data word, true, s1.fault 3 0x0001 8 (st / 6)
      { addr := 32 * g, detail0 := 1 + st * 0x100, detail1 := syndromeDetail sy })

/-- Granule `g` read from HBM: decoded, and poisoned where a slip of the stack's read crossing has damaged it on its way. -/
def State.hbmRead (s : State) (g : Nat) : List Byte × Bool × State :=
  let (d, p, s1) := s.hbmSense g
  (d, p || s.crossingBad g, s1)

/-- Granule `g` read at the memory EP: decoded, then decrypted; a round-trip mismatch delivers it poisoned (R300). -/
def State.hbmLoad (s : State) (g : Nat) : List Byte × Bool × State :=
  let (d, p, s1) := s.hbmRead g
  if s1.xtsFails g then (d, true, s1.xtsFault g true) else (d, p, s1)

/-- Granule `g` as an engine reads it: from the copy of its line where the memory EP holds one, else from HBM (R104). -/
def State.memLoad (s : State) (g : Nat) : List Byte × Bool × State :=
  match s.copied g with
  | some x => (x.data, x.poison, s)
  | none => s.hbmLoad g

/-- `s` with granule `g` encrypted and written to HBM: poisoned too where the cipher's round trip fails (R300). -/
def State.hbmPut (s : State) (g : Nat) (data : List Byte) (poison : Bool) : State :=
  if s.xtsFails g then (s.xtsFault g false).hbmRewrite g data true else s.hbmRewrite g data poison

/-- `s` with granule `g` written by an engine: in HBM, and in the copy of its line. -/
def State.memPut (s : State) (g : Nat) (data : List Byte) (poison : Bool) : State :=
  let t := s.hbmPut g data poison
  t.syncCopy g { data := data, poison := t.hbmPoisoned g }

/-- `data` stored into granule `g` from byte `lo`, poisoned if `poison`: a whole granule replaces data and poison, a
partial one is merged into the old granule and leaves its poison (R296, R301). -/
def State.hbmStoreGranule (s : State) (g lo : Nat) (data : List Byte) (poison : Bool) : State :=
  if lo = 0 ∧ data.length = 32 then s.memPut g data poison
  else
    let (old, oldPoison, s1) := s.memLoad g
    s1.memPut g (old.take lo ++ data ++ old.drop (lo + data.length)) (oldPoison || poison)

/-- Bytes stored from HBM offset `off`, granule by granule; `fuel` bounds the granules. -/
def State.hbmStoreAux : Nat → State → Nat → List Byte → Bool → State
  | 0, s, _, _, _ => s
  | fuel + 1, s, off, bs, p =>
    match bs with
    | [] => s
    | _ :: _ =>
      let lo := off % 32
      let n := min (32 - lo) bs.length
      State.hbmStoreAux fuel (s.hbmStoreGranule (off / 32) lo (bs.take n) p) (off + n) (bs.drop n) p

/-- Bytes stored from HBM offset `off`. -/
def State.hbmStore (s : State) (off : Nat) (bs : List Byte) (poison : Bool) : State :=
  State.hbmStoreAux bs.length s off bs poison

/-- Granules `[g, g + n)` read in order: their bytes, whether any is poisoned, and the state after. -/
def State.hbmLoads : Nat → State → Nat → List Byte × Bool × State
  | 0, s, _ => ([], false, s)
  | n + 1, s, g =>
    let (d, p, s1) := s.memLoad g
    let (ds, ps, s2) := State.hbmLoads n s1 (g + 1)
    (d ++ ds, p || ps, s2)

/-- Bytes `[off, off + n)` read through the memory EP. -/
def State.hbmFetch (s : State) (off n : Nat) : List Byte × Bool × State :=
  let g0 := off / 32
  let k := (off + n + 31) / 32 - g0
  let (d, p, s1) := State.hbmLoads (if n = 0 then 0 else k) s g0
  ((d.drop (off % 32)).take n, p, s1)

/-! ### Key slots and sweeps (R302-R305) -/

/-- `s` with a slot's references changed by `d`. -/
def State.addRefs (s : State) (n : Nat) (d : Int) : State :=
  s.put (F.HBM_SLOT_STAT_REFS n) (((s.get (F.HBM_SLOT_STAT_REFS n) : Int) + d).toNat)

/-- `s` with the map byte of region `r` naming slot `n`, and REFS following (R303). -/
def State.setMap (s : State) (r n : Nat) : State :=
  let old := s.mapSlot r
  let s1 := { s with hbm := { s.hbm with keyMap := Sparse.set (fun _ => 0) s.hbm.keyMap r n } }
  if old = n then s1 else (s1.addRefs old (-1)).addRefs n 1

/-- `s` with a sweep begun (R304, R305). -/
def State.startSweep (s : State) (w : Sweep) : State :=
  let s1 := { s with hbm := { s.hbm with sweep := some w } }
  let s2 := (s1.putFlag F.HBM_STAT_SWEEP_ACTIVE true).putFlag F.HBM_STAT_SWEEP_ALL w.all
  (s2.put F.HBM_SWEEP_PTR_PTR (w.first * regionSize)).addRefs w.newSlot 1

/-- `s` with no sweep active. -/
def State.endSweep (s : State) : State :=
  match s.hbm.sweep with
  | none => s
  | some w =>
    let s1 := { s with hbm := { s.hbm with sweep := none } }
    ((s1.putFlag F.HBM_STAT_SWEEP_ACTIVE false).putFlag F.HBM_STAT_SWEEP_ALL false).addRefs w.newSlot (-1)

/-- Granule `g` as scrub or a sweep rewrites it (R297, R304, R308): corrected, poisoned afresh, or found uncorrectable
and poisoned with a record. A sweep writes a good one too, as it decodes it: errors that spell a codeword are data from then
on. `bySweep` is DETAIL0 bit 8. The Bool says that it was corrected. -/
def State.hbmScrubGranule (s : State) (g : Nat) (bySweep : Bool) : Bool × State :=
  let st := hbmStack (32 * g)
  let data := s.hbmBytes (32 * g) 32
  let word := errorWord (s.hbmPoisoned g) (s.hbmErrors g)
  match s.hbmDecode g with
  | .good w => (false, if bySweep then s.hbmRewrite g (s.residualData g data w) false else s)
  | .poisoned => (false, s.hbmRewrite g (s.residualData g data word) true)
  | .corrected w => (true, (s.count (F.HBM_S_ECC_CORR st) 1).hbmRewrite g (s.residualData g data w) false)
  | .uncorrectable sy =>
    let s1 := (s.count (F.HBM_S_ECC_UNCORR st) 1).hbmRewrite g (s.residualData g data word) true
    (false, s1.fault 3 0x0003 8 (st / 6)
      { addr := 32 * g, detail0 := st + (if bySweep then 0x100 else 0), detail1 := syndromeDetail sy })

/-- `s` with every copy of a line in HBM offsets `[a, b)` holding zeros, as a FILL leaves them (R304, R105). -/
def State.fillCopies (s : State) (a b : Nat) : State :=
  { s with rep := { s.rep with eps := s.rep.eps.map (fun x =>
    if x.1 = 16 then (x.1, { x.2 with lines := x.2.lines.map (fun y =>
      match y.2.copy with
      | some c => (y.1, { y.2 with copy := some { c with gran := c.gran.map (fun z =>
          if a ≤ 128 * y.1 + 32 * z.1 ∧ 128 * y.1 + 32 * z.1 < b then (z.1, { data := List.replicate 32 0 }) else z) } })
      | none => y) })
    else x) } }

/-- `s` with HBM offsets `[a, b)` swept: zeroed by FILL, re-encrypted granule by granule by ROTATE (R304). -/
def State.sweepRange (s : State) (fill : Bool) (a b : Nat) : State :=
  if fill then
    { s.fillCopies a b with hbm := { s.hbm with
        bytes := s.hbm.bytes.filter (fun e => !(decide (a ≤ e.1) && decide (e.1 < b)))
        poison := s.hbm.poison.filter (fun e => !(decide (a ≤ 32 * e.1) && decide (32 * e.1 < b)))
        errors := s.hbm.errors.filter (fun e => !(decide (a ≤ 32 * e.1) && decide (32 * e.1 < b)))
        writeBack := s.hbm.writeBack.filter (fun e => !(decide (a ≤ 32 * e.2) && decide (32 * e.2 < b))) } }
  else
    (s.hbm.errors.filter (fun e => decide (a ≤ 32 * e.1) && decide (32 * e.1 < b))).foldl
      (fun s e => (s.hbmScrubGranule e.1 true).2) s

/-- `s` with regions `[r, r + n)` mapped to a slot. -/
def State.setMaps : Nat → State → Nat → Nat → State
  | 0, s, _, _ => s
  | n + 1, s, r, slot => State.setMaps n (s.setMap r slot) (r + 1) slot

/-- `s` after one sweep slot of the active sweep `w` (R304, R305). -/
def State.sweepAdvance (s : State) (w : Sweep) : State :=
  let stripes := if w.all then (if w.fill then 5 else 2) else 1
  let p := s.get F.HBM_SWEEP_PTR_PTR
  let stop := (w.last + 1) * regionSize
  let q := min stop ((p / 49152 + stripes) * 49152)
  let s1 := s.sweepRange w.fill p q
  let s2 := State.setMaps (q / regionSize - p / regionSize) (s1.put F.HBM_SWEEP_PTR_PTR q) (p / regionSize) w.newSlot
  if q = stop then
    let s3 := s2.endSweep
    if w.kind = 1 then s3.putFlag F.HBM_STAT_INIT_DONE true
    else if w.kind = 2 then { s3 with hbm := { s3.hbm with fillDone := true } }
    else s3
  else s2

/-- The 16-turn slot of this turn (R291). -/
def State.slotNow (s : State) : Nat := s.now % 16
/-- The background position of this turn (R306). -/
def State.bgPos (s : State) : Nat := s.now / 16 % 16
/-- This turn is the background slot, at a position in `l` (R291, R306). -/
def State.inBackground (s : State) (l : List Nat) : Bool := s.slotNow == 15 && l.contains s.bgPos

/-- The plate stream units may be using their slots: a stroke runs or writes out, or carried state moves. -/
def PlatePhase.streams : PlatePhase → Bool
  | .idle => false
  | .planning _ => false
  | .stroke _ => true
  | .writing _ _ => true
  | .retiring _ => false
  | .saving _ => true
  | .restoring _ => true

/-- The slot of this turn is open to the memory EP, the spill rings and hot-line write-back: a fabric slot, or a plate slot
while no static plan runs (R16, Table 13-1). Which plate slots a running plan leaves idle is not stated; none is taken
(DESIGN CHOICE, notes/assumptions/68). -/
def State.fabricSlot (s : State) : Bool :=
  [2, 5, 8, 11, 14].contains s.slotNow || (s.slotNow != 15 && !s.plate.phase.streams)

/-- HBM takes fabric and spill traffic in this turn (R16, R305). -/
def State.memSlot (s : State) : Bool := s.hbmOpen && s.fabricSlot

/-- The spill area's first HBM offset: the top SWX_SPILL.SIZE GiB (R62). -/
def State.spillBase (s : State) : Nat := hbmSize - s.get F.SWX_SPILL_SIZE * 0x40000000

/-- SWEEP_SLOT. -/
def State.doSweepSlot (s : State) : State :=
  match s.hbm.sweep with
  | none => s
  | some w =>
    if s.inBackground [3, 11] || (w.all && s.slotNow != 15) then s.sweepAdvance w else s

/-- The write rule of HBM_SWEEP: every field is stored but START, which reads 0 and starts the sweep that the fields
then name, or is rejected (R304). -/
def hookHbmSweep (s : State) (w : RegWrite) : State :=
  let s1 := s.takeWrite (w.setNew F.HBM_SWEEP_START 0)
  if w.actF F.HBM_SWEEP_START = 0 then s1
  else
    let first := s1.get F.HBM_SWEEP_FIRST_REGION
    let last := s1.get F.HBM_SWEEP_LAST_REGION
    let slot := s1.get F.HBM_SWEEP_NEW_SLOT
    let fill := s1.flag F.HBM_SWEEP_MODE
    let all := s1.flag F.HBM_SWEEP_ALL_SLOTS
    if s1.flag F.HBM_STAT_SWEEP_ACTIVE || decide (last < first) || decide (regionCount ≤ last)
        || s1.flag (F.HBM_SLOT_STAT_RETIRED slot)
        || (fill && s1.flag F.SWX_CLASS_CTL_SPILL_EN && decide (s1.spillBase < (last + 1) * regionSize))
        || (all && (s1.admitted || s1.flag F.PLT_CTL_EN)) then
      (s1.putFlag F.HBM_STAT_SWEEP_REJ true).rejected 8 4
    else s1.startSweep { first := first, last := last, fill := fill, all := all, newSlot := slot, kind := 0 }

/-- The write rule of HBM_CTL: ENC_EN is fixed once INIT_DONE is 1 (R299), HATCH_MODE takes effect in the next turn
(R293), INIT starts the initial fill or is ignored (R305). -/
def hookHbmCtl (s : State) (w : RegWrite) : State :=
  let encRej := s.flag F.HBM_STAT_INIT_DONE && w.newF F.HBM_CTL_ENC_EN != w.oldF F.HBM_CTL_ENC_EN
  let w1 := if encRej then w.keep F.HBM_CTL_ENC_EN else w
  let s1 := s.takeWrite w1
  let s2 := if encRej then (s1.putFlag F.HBM_STAT_CFG_REJ true).rejected 8 4 else s1
  let s3 := if w.newF F.HBM_CTL_HATCH_MODE ≠ w.oldF F.HBM_CTL_HATCH_MODE then
      { s2 with hbm := { s2.hbm with hatchOld := some (s.hatchMode, s.clk) } } else s2
  if w.actF F.HBM_CTL_INIT = 1 ∧ s3.flag F.HBM_STAT_INIT_DONE = false ∧ s3.flag F.HBM_STAT_SWEEP_ACTIVE = false then
    s3.startSweep { first := 0, last := regionCount - 1, fill := true, all := true, newSlot := 0, kind := 1 }
  else s3

/-- The write rule of HBM_SLOT_STAT of slot `n`: RETIRE needs REFS 0, REARM returns the slot to use with its salt plus
one; both read 0 (R303). REARM of a slot that is not retired does nothing (DEDUCED, notes/assumptions/10). -/
def hookSlotStat (n : Nat) (s : State) (w : RegWrite) : State :=
  let s1 := s.takeWrite ((w.setNew (F.HBM_SLOT_STAT_RETIRE n) 0).setNew (F.HBM_SLOT_STAT_REARM n) 0)
  let s2 := if w.actF (F.HBM_SLOT_STAT_RETIRE n) = 1 then
      (if s1.get (F.HBM_SLOT_STAT_REFS n) = 0 then s1.putFlag (F.HBM_SLOT_STAT_RETIRED n) true
       else (s1.putFlag F.HBM_STAT_SLOT_REJ true).rejected 8 4)
    else s1
  if w.actF (F.HBM_SLOT_STAT_REARM n) = 1 ∧ s2.flag (F.HBM_SLOT_STAT_RETIRED n) = true then
    (s2.putFlag (F.HBM_SLOT_STAT_RETIRED n) false).setReg (Reg.HBM_SLOT_SALT n) (s2.reg (Reg.HBM_SLOT_SALT n) + 1)
  else s2

/-- `s` with a new salt from the random source in slots `[n, 16)` (R303, R370): free values. -/
def State.newSalts : Nat → State → State
  | 0, s => s
  | k + 1, s => State.newSalts k ((s.setReg (Reg.HBM_SLOT_SALT k) (BitVec.ofNat 64 (s.free 64))).freeNext)

/-! ### Background slots (R306-R310) -/

/-- A refresh period: every row is refreshed within it (R307). -/
def refreshPeriod : Nat := 4000000

/-- Rows of a pseudo-channel: 1 KiB each of its share of a stack's 64 GiB (R310). -/
def channelRows : Nat := 2 ^ 21

/-- The rows refreshed in each slot: enough of them that all are refreshed within a period. -/
def rowsPerSlot : Nat := 17

/-- The refresh slot of the rotation that falls in this turn: one background slot in two is a refresh slot, so one turn in
32, and the rotation runs through a period's 125,000 slots (R306, R307; notes/assumptions/65). -/
def State.refreshSlot (s : State) : Nat := s.now / 32 % (refreshPeriod / 32)

/-- The pseudo-channels whose interface is calibrated in slot `k` of the rotation: each once in a rotation (R349). -/
def calibrated (k : Nat) : List Nat :=
  (List.range 32).filter (fun pc => Config.calibrationSlot pc % (refreshPeriod / 32) == k)

/-- REFRESH_SLOT: every stack refreshes the rows that the fixed rotation names for this slot, so that each row is refreshed within
a period (R307); the rotation's order, row by row, is not stated (DESIGN CHOICE, notes/assumptions/65). Activation counts begin
anew with each refresh period (R309). -/
def State.doRefreshSlot (s : State) : State :=
  if s.inBackground [0, 2, 4, 6, 8, 10, 12, 14] then
    let k := s.refreshSlot
    let s1 := (s.emit (.hbmRefreshRows k (min channelRows (rowsPerSlot * k)) (min channelRows (rowsPerSlot * (k + 1))))).emit
      (.hbmCalibrate (calibrated k))
    if s.hbm.refreshStart + refreshPeriod ≤ s.clk then
      { s1 with hbm := { s1.hbm with acts := [], flagged := [], refreshStart := s.clk } }
    else s1
  else s

/-- Granules of one stack. -/
def stackGranules : Nat := 2 ^ 31

/-- The HBM granule index of granule `i` of stack `t`. -/
def stackGranule (t i : Nat) : Nat := hbmOffset t (32 * i) / 32

/-- The granule index within its stack of HBM granule `g`. -/
def inStack (g : Nat) : Nat := hbmSaddr (32 * g) / 32

/-- How many times a row is listed. -/
def rowCount (l : List (HbmRow × Nat)) (r : HbmRow) : Nat := ((l.find? (fun e => e.1 = r)).map (·.2)).getD 0

/-- `l` with a row's count set. -/
def setRow (l : List (HbmRow × Nat)) (r : HbmRow) (n : Nat) : List (HbmRow × Nat) :=
  l.filter (fun e => e.1 ≠ r) ++ [(r, n)]

/-- `s` with granule `g` scrubbed, and a correction counted against its row (R308, R310). -/
def State.scrubOne (s : State) (g : Nat) : State :=
  let (fixed, s1) := s.hbmScrubGranule g false
  if fixed then
    let r := hbmRow (32 * g)
    { s1 with hbm := { s1.hbm with rowFix := setRow s1.hbm.rowFix r (rowCount s1.hbm.rowFix r + 1) } }
  else s1

/-- `s` with every granule of stack `t` in `[i, i + n)` of the stack scrubbed: only one that has taken errors or is
poisoned can change. -/
def State.scrubSpan (s : State) (t i n : Nat) : State :=
  let gs := (s.hbm.errors.map (·.1)).filter (fun g =>
    decide (hbmStack (32 * g) = t) && decide (i ≤ inStack g) && decide (inStack g < i + n))
  gs.foldl State.scrubOne s

/-- SCRUB_SLOT. Write-backs drain first and count against SCRUB_RATE (DEDUCED, notes/assumptions/11); the slot then
reads on from HBM_S_SCRUB.POS, and a pass ends where the position wraps. -/
def State.doScrubSlot (s : State) (t : Fin 24) (struck : List (Nat × SymbolErrors)) : State :=
    let s0 := struck.foldl (fun s e => s.hbmStrike (stackGranule t (e.1 % stackGranules)) e.2) s
    if s0.inBackground [1, 5, 9, 13] then
      let rate := min 256 (s0.get F.HBM_CTL_SCRUB_RATE)
      let queue := (s0.hbm.writeBack.filter (fun e => e.1 = t.val)).take rate
      let s1 := queue.foldl (fun s e =>
        let s' := s.scrubOne e.2
        { s' with hbm := { s'.hbm with writeBack := s'.hbm.writeBack.filter (· ≠ e) } }) s0
      if s1.flag F.HBM_CTL_SCRUB_EN then
        let n := rate - queue.length
        let p := s1.get (F.HBM_S_SCRUB_POS t)
        let s2 := s1.scrubSpan t p (min n (stackGranules - p))
        if p + n < stackGranules then s2.put (F.HBM_S_SCRUB_POS t) (p + n)
        else
          let s3 := (s2.count (F.HBM_S_SCRUB_PASSES t) 1).put (F.HBM_S_SCRUB_POS t) (p + n - stackGranules)
          let s4 := { s3 with hbm := { s3.hbm with rowFix := s3.hbm.rowFix.filter (fun e => e.1.1 ≠ t.val) } }
          s4.scrubSpan t 0 (p + n - stackGranules)
      else s1
    else s0

/-- The bank of a row: the spec gives no bank numbering, so a row's bank is taken to be the row itself and the rows the
opaque relation names (notes/assumptions/12). -/
def sameBank (a b : HbmRow) : Bool := a.1 == b.1 && a.2.1 == b.2.1 && Config.sameBank a.2.2 b.2.2

/-- `s` after one activation of the row that holds HBM offset `off` (R309). Each access to a line is one activation
(DESIGN CHOICE, notes/assumptions/12). A row becomes an aggressor once in a refresh period. -/
def State.activate (s : State) (off : Nat) : State :=
  let r := hbmRow off
  let n := rowCount s.hbm.acts r + 1
  let s0 := { s with hbm := { s.hbm with acts := setRow s.hbm.acts r n } }
  if s0.flag F.HBM_WEAR_EN && decide (s0.get F.HBM_WEAR_THRESH ≤ n) && !s0.hbm.flagged.contains r then
    let s1 := { s0 with hbm := { s0.hbm with flagged := s0.hbm.flagged ++ [r] } }
    let mine : List HbmRow := s1.hbm.aggressors.filter (fun x => decide (x.1 = r.1))
    if mine.length < 16 then
      { s1 with hbm := { s1.hbm with aggressors := s1.hbm.aggressors ++ [r] } }.put (F.HBM_S_WEAR_QUEUED r.1)
        (mine.length + 1)
    else
      match mine with
      | [] => s1
      | o :: _ =>
        let s2 := { s1 with hbm := { s1.hbm with bankHeld := s1.hbm.bankHeld ++ [o] } }
        (s2.count (F.HBM_S_WEAR_OVERFLOW r.1) 1).fault 4 0x0004 8 (r.1 / 6)
          { detail0 := r.1 + o.2.1 * 0x100, detail1 := o.2.2 }
  else s0

/-- A fabric access to HBM offset `off` is held: its bank waits for a mitigation (R309). -/
def State.bankHeldAt (s : State) (off : Nat) : Bool := s.hbm.bankHeld.any (fun o => sameBank o (hbmRow off))

/-- HBM takes a fabric access to bytes `[off, off + n)` in this turn: the slot is the fabric's, and none of their banks waits for a
mitigation (R16, R309). -/
def State.slotFor (s : State) (off n : Nat) : Bool :=
  s.memSlot && (s.hbm.bankHeld.isEmpty ||
    (List.range (ceilDiv (off % 128 + n) 128)).all (fun k => !s.bankHeldAt (off - off % 128 + 128 * k)))

/-- WEAR_SLOT: the rows within DIST of up to four aggressors of the stack are refreshed. -/
def State.doWearSlot (s : State) (t : Fin 24) : State :=
  if s.inBackground [7] && s.flag F.HBM_WEAR_EN then
    let d := if s.get F.HBM_WEAR_DIST = 1 then 1 else 2
    let mine : List HbmRow := s.hbm.aggressors.filter (fun x => decide (x.1 = t.val))
    let now := mine.take 4
    let s1 := now.foldl (fun s a => (List.range d).foldl (fun s k =>
      let s' := if a.2.2 < k + 1 then s else s.emit (.hbmRefresh a.1 a.2.1 (a.2.2 - (k + 1)))
      s'.emit (.hbmRefresh a.1 a.2.1 (a.2.2 + (k + 1)))) s) s
    let s2 := { s1 with hbm := { s1.hbm with
      aggressors := s1.hbm.aggressors.filter (fun a => !now.contains a)
      bankHeld := s1.hbm.bankHeld.filter (fun a => !now.contains a) } }
    (s2.count (F.HBM_S_WEAR_MITIGATED t) now.length).put (F.HBM_S_WEAR_QUEUED t) (mine.length - now.length)
  else s

/-- The HBM granules of a row: 32, sixteen 64-byte units of one pseudo-channel (R310). -/
def rowGranules (r : HbmRow) : List Nat :=
  (List.range 16).flatMap (fun k =>
    let g := hbmOffset r.1 (r.2.2 * 32768 + k * 2048 + r.2.1 * 64) / 32
    [g, g + 1])

/-- REPAIR_SLOT: one row of the pseudo-channel whose scrub corrections have reached PPR_THRESH in this pass, a repaired one as well,
is copied to a spare, each granule rewritten as scrub rewrites it, or skipped where no spare is left. -/
def State.doRepairSlot (s : State) (t : Fin 24) (pc : Fin 32) (spareLeft : Bool) : State :=
    if s.inBackground [15] then
      match s.hbm.rowFix.find? (fun e => e.1.1 = t.val ∧ e.1.2.1 = pc.val
          ∧ s.get (F.HBM_S_REPAIR_PPR_THRESH t) ≤ e.2) with
      | none => s
      | some (r, _) =>
        let s1 := { s with hbm := { s.hbm with rowFix := s.hbm.rowFix.filter (fun e => e.1 ≠ r) } }
        if spareLeft then
          let s2 := (rowGranules r).foldl (fun s g => (s.hbmScrubGranule g false).2) s1
          let s3 := { s2 with hbm := { s2.hbm with repaired := s2.hbm.repaired.erase r ++ [r] } }
          (s3.put (F.HBM_S_REPAIR_SOFT_USED t) (s3.get (F.HBM_S_REPAIR_SOFT_USED t) + 1)).emit
            (.hbmRepair false r.1 r.2.1 r.2.2)
        else
          (s1.count (F.HBM_S_REPAIR_SOFT_FAIL t) 1).fault 4 0x0005 8 (t / 6)
            { detail0 := t + pc * 0x100, detail1 := r.2.2 }
    else s

/-- HARD_REPAIR: issued by running firmware while ADMIT is 0 (R310). That it takes up to 500,000 turns is a bound
(notes/assumptions/60). -/
def State.doHardRepair (s : State) (t : Fin 24) (pc : Fin 32) (row : Nat) : State :=
    if !s.admitted && s.get F.MGT_STAT_BOOT == 1 && decide (0 < s.get (F.HBM_S_REPAIR_HARD_LEFT t)) then
      (s.put (F.HBM_S_REPAIR_HARD_LEFT t) (s.get (F.HBM_S_REPAIR_HARD_LEFT t) - 1)).emit (.hbmRepair true t pc row)
    else s

/-- STACK_IDENTITY_READ: the identity is taken after PLL lock; OK needs 16 dies of 32 Gb (R311). -/
def State.doStackIdentityRead (s : State) (t : Fin 24) (mfr : Byte) (part date : BitVec 16)
    (height density : Byte) (hardLeft : BitVec 16) : State :=
  if s.up.pllLocked then
    let s1 := (s.put (F.HBM_S_ID_MFR t) mfr.toNat).put (F.HBM_S_ID_PART t) part.toNat
    let s2 := (s1.put (F.HBM_S_ID_DATE t) date.toNat).put (F.HBM_S_ID_HEIGHT t) height.toNat
    let s3 := (s2.put (F.HBM_S_ID_DENSITY t) density.toNat).put (F.HBM_S_REPAIR_HARD_LEFT t) hardLeft.toNat
    let s4 := s3.putFlag (F.HBM_S_ID_OK t) (height == 16 && density == 32)
    { s4 with up := { s4.up with stacksRead := setBitAt s4.up.stacksRead t true } }
  else s

end Sys2Proof.Machine
end

