-- ==== Sys2Proof/Machine/Crc.lean ====
section
/-!
DEFINITION. The cyclic redundancy codes the spec names: CRC-16 of pip frames, ordered sets and chain frames (R44),
CRC-32 of IEEE 802.3 (R428, R436), CRC-64 of proof digests (R144).
-/
namespace Sys2Proof.Machine

/-- One bit of the unreflected CRC-16 with polynomial 0x1021. -/
def crc16Bit (c : Nat) : Nat :=
  if c < 0x8000 then c * 2 else (c * 2 % 0x10000) ^^^ 0x1021

/-- One byte of the CRC-16 of R44. -/
def crc16Byte (c : Nat) (b : Byte) : Nat :=
  crc16Bit (crc16Bit (crc16Bit (crc16Bit (crc16Bit (crc16Bit (crc16Bit (crc16Bit (c ^^^ (b.toNat * 256)))))))))

/-- CRC-16: polynomial 0x1021, initial value 0xFFFF, no reflection, no final XOR (R44). -/
def crc16 (bs : List Byte) : Nat := bs.foldl crc16Byte 0xFFFF

/-- One bit of a reflected CRC with reversed polynomial `p`. -/
def crcReflBit (p c : Nat) : Nat := if c % 2 = 1 then (c / 2) ^^^ p else c / 2

/-- One byte of a reflected CRC. -/
def crcReflByte (p c : Nat) (b : Byte) : Nat :=
  (List.range 8).foldl (fun c _ => crcReflBit p c) (c ^^^ b.toNat)

/-- CRC-32 of IEEE 802.3. -/
def crc32 (bs : List Byte) : Nat := (bs.foldl (crcReflByte 0xEDB88320) 0xFFFFFFFF) ^^^ 0xFFFFFFFF

/-- The reversed polynomial of the proof digest's CRC-64, 0x42F0E1EBA9EA3693 bit-reversed (R144). -/
def crc64Poly : Nat := 0xC96C5795D7870F42

/-- The digest register before any granule. -/
def crc64Init : Nat := 0xFFFFFFFFFFFFFFFF

/-- The digest register after more bytes. -/
def crc64Update (c : Nat) (bs : List Byte) : Nat := bs.foldl (crcReflByte crc64Poly) c

/-- The digest that a register value stands for. -/
def crc64Final (c : Nat) : Nat := c ^^^ 0xFFFFFFFFFFFFFFFF

/-- CRC-64 of a byte string (R144). -/
def crc64 (bs : List Byte) : Nat := crc64Final (crc64Update crc64Init bs)

end Sys2Proof.Machine
end

