-- ==== Sys2Proof/Machine/TwnCore.lean ====
section
/-!
DEFINITION. Counterproof signatures (spec/17_determinism_and_replay.md R394): what the plate array's write-outs and the
ports' scheduled frames add to the current window.
-/
namespace Sys2Proof.Machine

/-- Counterproof compares windows: it is enabled and has not stopped. -/
def State.twnOn (s : State) : Bool := s.flag F.TWN_CTL_EN && !s.flag F.TWN_STAT_STOPPED

/-- Counterproof has stopped the device, and the pairing has not ended (R396, R398). -/
def State.twnStopped (s : State) : Bool := s.flag F.TWN_CTL_EN && s.flag F.TWN_STAT_STOPPED

/-- Window `w` as gathered so far. -/
def State.twnWin (s : State) (w : Nat) : TwnWindow := (s.twn.wins.find? (fun x => x.w == w)).getD { w := w }

/-- `s` with a window replaced, or added as the newest. -/
def State.setTwnWin (s : State) (x : TwnWindow) : State :=
  { s with twn := { s.twn with wins := s.twn.wins.filter (fun y => y.w != x.w) ++ [x] } }

/-- The 32 bytes that a granule adds to a signature: zeros where it is poisoned (R394). -/
def Granule.signed (g : Granule) : List Byte := if g.poison then List.replicate 32 0 else g.data

/-- The HBM offset of checkpoint `b` of window `w`: each of the four windows has a quarter of the log (DESIGN CHOICE). -/
def State.twnLogAt (s : State) (w b : Nat) : Nat := s.get F.TWN_LOG_BASE * 4096 + w % 4 * 65536 + 8 * b

/-- `s` with a granule that the plate array wrote added to PSIG; every 1,024th is logged. -/
def State.twnPlate (s : State) (g : Granule) : State :=
  if s.twnOn then
    let x := s.twnWin (s.now / 1024)
    let r := crc64Update x.preg g.signed
    let n := x.pcount + 1
    let s1 := s.setTwnWin { x with preg := r, pcount := n }
    let off := s1.twnLogAt x.w (n / 1024 - 1)
    if n % 1024 = 0 ∧ n / 1024 ≤ 8192 ∧ off + 8 ≤ hbmSize then s1.hbmStore off (toBytesLE 8 (crc64Final r)) false else s1
  else s

/-- A frame put in its place: ascending start of the codeword that it begins in, then ascending port, then, after those before it in
that codeword, granule position (R394). -/
def schedInsert (x : SchedPart) : List SchedPart → List SchedPart
  | [] => [x]
  | y :: ys => if x.start < y.start ∨ (x.start = y.start ∧ x.port < y.port) then x :: y :: ys else y :: schedInsert x ys

/-- The CRC register of a window's scheduled granules, and their number. -/
def TwnWindow.sreg (x : TwnWindow) : Nat :=
  (x.sched.flatMap (·.grans)).foldl (fun r g => crc64Update r g.signed) 0xFFFFFFFFFFFFFFFF
def TwnWindow.scount (x : TwnWindow) : Nat := (x.sched.flatMap (·.grans)).length

/-- `s` with the scheduled frames, each given as its data granules, that begin in a codeword of port `p` starting at UI `start` added
to the current window. -/
def State.twnSched (s : State) (p start : Nat) (frames : List (List Granule)) : State :=
  if s.twnOn && !frames.isEmpty then
    let x := s.twnWin (s.now / 1024)
    s.setTwnWin { x with sched := frames.foldl (fun l gs => schedInsert { start := start, port := p, grans := gs } l) x.sched }
  else s

/-- `s` with the current window's BRK set: a stretch, duty limiting or a late move-list injection. -/
def State.twnBreak (s : State) : State :=
  if s.twnOn then
    let x := s.twnWin (s.now / 1024)
    if x.brk then s else (s.setTwnWin { x with brk := true }).count F.TWN_TBRK1_BRK_WINDOWS 1
  else s

/-- `s` with a late injection counted (R244, Table 17-2). -/
def State.countLate (s : State) : State := (s.count F.SWX_ML_CNT_LATE 1).twnBreak

/-- `s` with an unscheduled frame of its own end-points counted (Table 17-14). -/
def State.noteUnscheduled (s : State) (cls : Nat) : State := if cls = 0 then s else s.count F.TWN_TBRK1_UNSCHED 1

end Sys2Proof.Machine
end

