-- ==== Sys2Proof/Machine/Switch.lean ====
section
/-!
DEFINITION. The switch core (spec/10_switch_core.md R230-R241) and the route lookup (spec/11_routing_and_slices.md
R247-R252, R263): where a frame goes, how it waits, and who is evicted, aged, spilled or held back.
-/
namespace Sys2Proof.Machine

/-! ### Ports and end-points -/

/-- Vangeri port `p`. -/
def State.port (s : State) (p : Nat) : VPort := Sparse.get (fun _ => {}) s.ports p
/-- `s` with Vangeri port `p` set. -/
def State.setPort (s : State) (p : Nat) (v : VPort) : State :=
  { s with ports := Sparse.set (fun _ => {}) s.ports p v }

/-- `s` with a frame that a reserved header field makes unfit discarded at end-point `n` and counted (R76). -/
def State.countDiscard (s : State) (n : Nat) : State :=
  let e := s.ep n
  s.setEp n { e with discarded := e.discarded + 1 }

/-- The egress of a local end-point. -/
def epEgress (n : Nat) : Nat := 128 + n

/-- Port `p` is a far port (R474). -/
def State.isFar (s : State) (p : Nat) : Bool := bitAt (s.reg (Reg.RTE_PORT_FAR (p / 64))).toNat (p % 64)

/-- RTE_NBR_EXP of port `p` in effect in this turn: a write takes effect in the next (R263). -/
def State.nbrExp (s : State) (p : Nat) : Word :=
  match s.sw.nbrOld.find? (fun x => x.1 == s.clk && x.2.1 == p) with
  | some x => x.2.2
  | none => s.reg (Reg.RTE_NBR_EXP p)

/-- A field of the expected neighbour of port `p` in effect in this turn. -/
def State.nbrGet (s : State) (p : Nat) (f : RField) : Nat := fieldGet (s.nbrExp p) f.hi f.lo

/-- The seen identity of port `p` is the expected one. -/
def State.nbrSame (s : State) (p : Nat) : Bool :=
  s.get (F.RTE_NBR_SEEN_DOMAIN p) == s.nbrGet p (F.RTE_NBR_EXP_DOMAIN p)
    && s.get (F.RTE_NBR_SEEN_MEMBER p) == s.nbrGet p (F.RTE_NBR_EXP_MEMBER p)
    && s.get (F.RTE_NBR_SEEN_PORT p) == s.nbrGet p (F.RTE_NBR_EXP_PORT p)

/-- Port `p` is in service (R263). -/
def State.inService (s : State) (p : Nat) : Bool :=
  s.flag (F.VPT_STAT_UP p) && s.get (F.VPT_STAT_LSTATE p) != 3 && s.flag (F.RTE_NBR_SEEN_VALID p)
    && s.nbrGet p (F.RTE_NBR_EXP_VALID p) != 0 && (s.nbrGet p (F.RTE_NBR_EXP_ANY p) != 0 || s.nbrSame p)

/-! ### Route lookup -/

/-- What a lookup finds. -/
inductive Route where
  | egress (e : Nat)
  | foreign
  | isolated
  | noPort
  deriving DecidableEq, Repr

/-- The port set of a near entry. -/
def State.nearPorts (s : State) (e m : Nat) : Nat :=
  (s.reg (Reg.RTE_NEAR_B e m)).toNat + (s.reg (Reg.RTE_NEAR_C e m)).toNat * 2 ^ 64
/-- The port set of a far entry. -/
def State.farPorts (s : State) (e d : Nat) : Nat :=
  (s.reg (Reg.RTE_FAR_B e d)).toNat + (s.reg (Reg.RTE_FAR_C e d)).toNat * 2 ^ 64

/-- The port choice of R250. -/
def State.choosePort (s : State) (f : Frame) (spray : Bool) (ports : Nat) : Route :=
  let up := (setBitsList ports 128).filter s.inService
  match up with
  | [] => .noPort
  | _ :: _ => .egress (up.getD (portHash f spray % up.length) 0)

/-- The near step and its entry check (R247 steps 4-6) for member `m`. -/
def State.nearStep (s : State) (f : Frame) (m : Nat) : Route :=
  let e := f.edition
  if s.flag (F.RTE_NEAR_A_VALID e m) && s.get (F.RTE_NEAR_A_SLICE e m) == f.slice then
    s.choosePort f (s.flag (F.RTE_NEAR_A_SPRAY e m)) (s.nearPorts e m)
  else .isolated

/-- The port set that the entry for a frame's destination holds: none where an entry check fails or it is local. -/
def State.entryPorts (s : State) (f : Frame) : Option Nat :=
  let e := f.edition
  let near := fun m =>
    if s.flag (F.RTE_NEAR_A_VALID e m) && s.get (F.RTE_NEAR_A_SLICE e m) == f.slice then some (s.nearPorts e m) else none
  let d := epDomain f.dst
  if d ≠ s.domain then
    if s.flag (F.RTE_FAR_A_VALID e d) && s.get (F.RTE_FAR_A_SLICE e d) == f.slice then
      (if s.get (F.RTE_FAR_A_NH e d) = 2 then some (s.farPorts e d)
       else if s.get (F.RTE_FAR_A_NH e d) = 1 ∧ s.get (F.RTE_FAR_A_GW_MEMBER e d) ≠ s.member then
         near (s.get (F.RTE_FAR_A_GW_MEMBER e d))
       else none)
    else none
  else if epMember f.dst = s.member then none
  else near (epMember f.dst)

/-- The lookup of R247, for a frame from Vangeri port `ingress`, or from a local end-point. A reserved NH fails the
entry check (DEDUCED, notes/assumptions/15). -/
def State.lookup (s : State) (f : Frame) (ingress : Option Nat) : Route :=
  let e := f.edition
  let barred := match ingress with
    | none => false
    | some p =>
      !s.admitted || f.slice != s.slice
        || (s.isFar p && (isMemory f.opcode || f.opcode == opLoadRsp || f.opcode == opAtomRsp))
        || !(if e = 1 then s.flag F.RTE_ED_READY1 else s.flag F.RTE_ED_READY0)
  let d := epDomain f.dst
  if barred then .foreign
  else if d ≠ s.domain then
    if s.flag (F.RTE_FAR_A_VALID e d) && s.get (F.RTE_FAR_A_SLICE e d) == f.slice then
      let nh := s.get (F.RTE_FAR_A_NH e d)
      if nh = 2 then s.choosePort f (s.flag (F.RTE_FAR_A_SPRAY e d)) (s.farPorts e d)
      else if nh = 1 then
        let gw := s.get (F.RTE_FAR_A_GW_MEMBER e d)
        if gw = s.member then .isolated else s.nearStep f gw
      else .isolated
    else .isolated
  else if epMember f.dst = s.member then
    .egress (epEgress (epLocal f.dst))
  else s.nearStep f (epMember f.dst)

/-! ### Credits and the resequencer -/

/-- `s` with the receive slots of a frame of `n` granules on `vc` freed: its credits go back to the neighbour (R279). -/
def State.giveCredits (s : State) (ingress : Option Nat) (vc n : Nat) : State :=
  match ingress with
  | none => s
  | some p =>
    let v := s.port p
    s.setPort p { v with given := listSet v.given vc ((v.given.getD vc 0 + n) % 1024), ackDue := true }

/-- `s` with every frame of egress `e` that has arrived and waits for no earlier frame of its channel made ready (R239);
`fuel` bounds their number. -/
def State.resequence : Nat → State → Nat → State
  | 0, s, _ => s
  | k + 1, s, e =>
    let free := fun (x : SwFrame) => x.arrived && x.egress == e &&
      !s.sw.crossing.any (fun y => y.egress == e && y.frame.chan == x.frame.chan && decide (y.num < x.num))
    match s.sw.crossing.find? free with
    | none => s
    | some x =>
      State.resequence k { s with sw := { s.sw with
        crossing := s.sw.crossing.filter (fun y => y.num != x.num), ready := s.sw.ready ++ [x] } } e

/-- The frames in the resequencer of egress `e`: arrived ahead of an earlier frame of their channel (R239). -/
def State.window (s : State) (e : Nat) : Nat :=
  (s.sw.crossing.filter (fun y => y.egress == e && y.arrived && !y.direct)).length

/-- `s` with frame `x0` numbered and on its way to its egress: over one of the internal paths, or over the single direct path
where the resequencer's window is full or RESEQ_EN is 0 (R239). With RESEQ_EN 0 and nothing else on its way to the egress it
has only the turns of the path to wait. -/
def State.place (s : State) (x0 : SwFrame) : State :=
  let x := { x0 with num := s.sw.nextNum }
  let s1 := { s with sw := { s.sw with nextNum := s.sw.nextNum + 1 } }
  let cross := fun (s : State) (x : SwFrame) => { s with sw := { s.sw with crossing := s.sw.crossing ++ [x] } }
  if s1.flag F.SWX_CLASS_CTL_RESEQ_EN then
    if s1.window x.egress < 4096 then cross s1 x
    else cross (if x.egress < 128 then s1.count (F.SWX_P_THR_RESEQ_FULL x.egress) 1 else s1) { x with direct := true }
  else if s1.sw.crossing.any (fun y => y.egress == x.egress) then cross s1 { x with direct := true }
  else { s1 with sw := { s1.sw with ready := s1.sw.ready ++ [x] } }

/-! ### The check at the switch core (R230, R294, R295) -/

/-- One granule checked at the switch core: as forwarded, and whether it was uncorrectable. The frame came by port `p`, or from
an end-point of the device; `addr` is its fabric address, 0 for a header granule. A symbol injection strikes data granules only
(R469). -/
def State.checkGranule (s : State) (p : Option Nat) (src addr : Nat) (isData : Bool) (g : Granule) (e : SymbolErrors) :
    Granule × Bool × State :=
  let (inj, s0) := if isData then s.takeInjection 4 0 else ([], s)
  s0.checkPoint F.SWX_ECC_CORR F.SWX_ECC_UNCORR 4 0 { addr := addr, peer := src, detail0 := 3 + p.getD 0 * 0x100 } g (e ++ inj)

/-- The granules of a frame checked in order. -/
def State.checkGranules (s : State) (p : Option Nat) (src addr : Nat) (struck : List (Nat × SymbolErrors)) :
    Nat → List Granule → List Granule × State
  | _, [] => ([], s)
  | i, g :: gs =>
    let e := ((struck.find? (fun x => x.1 == i)).map (·.2)).getD []
    let (g', _, s1) := s.checkGranule p src addr true g e
    let (gs', s2) := State.checkGranules s1 p src addr struck (i + 1) gs
    (g' :: gs', s2)

/-- The data granules of frame `f` checked at the switch core: POISON is set where one is poisoned (R230). -/
def State.checkFrame (s : State) (p : Option Nat) (struck : List (Nat × SymbolErrors)) (f : Frame) : Frame × State :=
  let (gs, s1) := s.checkGranules p f.src f.address struck 1 f.gran
  ({ f with gran := gs, poison := f.poison || gs.any (·.poison) }, s1)

/-! ### The times of a frame's steps (Table 10-1, R475) -/

/-- Turns from the end of a frame's Hatch check until it is queued at egress `e`: route lookup and internal path. -/
def coreTurns (e : Nat) : Nat := if e < 128 then 12 else 9
/-- Turns from an end-point's hand-off of a frame until it is queued at its egress. -/
def handTurns : Nat := 6
/-- Turns from the acceptance of a request at an end-point to its hand-off. -/
def acceptTurns : Nat := 2
/-- Turns of egress arbitration, of a Vangeri port. -/
def arbTurns : Nat := 2
/-- Turns of FEC encode, and of FEC decode with the Hatch check. -/
def encodeTurns : Nat := 2
def decodeTurns : Nat := 17

/-! ### Responses -/

/-- The response to `f`: TAG, SEQ and TRIES echoed, SRC and DST exchanged, stamped in this turn with the current edition
(R76, R88, R249, R274). -/
def State.response (s : State) (f : Frame) (op status : Nat) : Frame :=
  { opcode := op, vc := s.responseVc f, edition := s.edition, slice := s.slice, src := f.dst, dst := f.src, tag := f.tag,
    status := status, seq := f.seq, tries := f.tries, injTurn := s.now % 2 ^ 40 }

/-- `s` with a response handed to the switch core in this turn and checked there: isolated or without a port, it is dropped
(R248, R250). -/
def State.sendAnswer (s0 : State) (r0 : Frame) : State :=
  if !s0.admitted then s0
  else
    let (r, s) := s0.checkFrame none [] r0
    match s.lookup r none with
    | .egress e => s.place { frame := r, egress := e, due := s.clk + handTurns }
    | .isolated => s.count F.RTE_CNT_ISOLATED 1
    | .noPort => s.count F.RTE_CNT_NOPORT 1
    | .foreign => s

/-- `s` with a response of one of its end-points sent, an unscheduled frame of it (Table 17-14). -/
def State.sendResponse (s : State) (r : Frame) : State := (if s.admitted then s.noteUnscheduled r.cls else s).sendAnswer r

/-- `s` with the request `f` answered by a NACK of the switch core (R87, R248). -/
def State.sendNack (s : State) (f : Frame) (status : Nat) : State :=
  if isRequest f.opcode then s.sendAnswer (s.response f opNack status) else s

/-- `s` with a frame that has been checked looked up and placed, discarded or answered Isolated (R247-R250); `back` is the
port its credits go back to. -/
def State.route (s : State) (f : Frame) (ingress back : Option Nat) : State :=
  match s.lookup f ingress with
  | .egress e =>
    s.place { frame := f, egress := e, ingress := back, via := ingress,
              due := s.clk + (if ingress.isSome then coreTurns e else acceptTurns + handTurns) }
  | .foreign => (s.count F.RTE_CNT_FOREIGN 1).giveCredits back f.vc f.size
  | .isolated => ((s.count F.RTE_CNT_ISOLATED 1).giveCredits back f.vc f.size).sendNack f 0x20
  | .noPort => (s.count F.RTE_CNT_NOPORT 1).giveCredits back f.vc f.size

/-- `s` with a request that an end-point of the device injects in this turn checked and routed. -/
def State.inject (s : State) (f : Frame) : State :=
  let (g, s1) := (s.noteUnscheduled f.cls).checkFrame none [] f
  s1.route g none none

/-! ### Port buffers (R234-R237) -/

/-- The four numbers of the SWX_BUF_THR value a port runs with. -/
def thrRx (w : Word) : Nat := fieldGet w 63 48
def thrSched (w : Word) : Nat := fieldGet w 47 32
def thrCtrl (w : Word) : Nat := fieldGet w 31 16
def thrBgMax (w : Word) : Nat := fieldGet w 15 0
/-- Slots of a port's shared area (R234). -/
def thrShared (w : Word) : Nat := 14560 - thrRx w - thrSched w - thrCtrl w

/-- What occupies port `p`'s transmit side: class, area and granules of each holder, transmitted frames held until they
are acknowledged (R280). -/
def State.occ (s : State) (p : Nat) : List (Nat × Nat × Nat) :=
  (s.sw.queued.filter (fun x => x.egress == p)).map (fun x => (x.frame.cls, x.area, x.frame.size)) ++
  (s.port p).stream.map (fun x => (x.frame.cls, x.area, x.left.length + b2n x.atHead)) ++
  (s.port p).unacked.flatMap (fun w => w.slots)

/-- Granules on die of a class. -/
def State.occClass (s : State) (p c : Nat) : Nat :=
  ((s.occ p).filter (fun x => x.1 == c)).foldl (fun n x => n + x.2.2) 0
/-- Slots taken in an area: 0 shared, 1 scheduled reserve, 2 control reserve. -/
def State.occArea (s : State) (p a : Nat) : Nat :=
  ((s.occ p).filter (fun x => x.2.1 == a)).foldl (fun n x => n + x.2.2) 0
/-- Free shared slots. -/
def State.sharedFree (s : State) (p : Nat) : Nat := thrShared (s.port p).thr - s.occArea p 0

/-- Granules in port `p`'s spill ring. -/
def State.spillFill (s : State) (p : Nat) : Nat :=
  (s.sw.spill.filter (fun x => x.egress == p)).foldl (fun n x => n + x.frame.size) 0
/-- Port `p`'s spill ring has room for `n` granules (R237). -/
def State.spillRoom (s : State) (p n : Nat) : Bool :=
  s.flag F.SWX_CLASS_CTL_SPILL_EN && s.get F.SWX_SPILL_SIZE != 0 &&
    decide (s.spillFill p + n ≤ s.get F.SWX_SPILL_SIZE * 262144)

/-- Granules of one spill ring. -/
def State.ringSlots (s : State) : Nat := s.get F.SWX_SPILL_SIZE * 262144
/-- The HBM granule that is number `i` of port `p`'s ring, counted modulo its size (R237). -/
def State.ringGranule (s : State) (p i : Nat) : Nat := s.spillBase / 32 + p * s.ringSlots + i % s.ringSlots
/-- Where in port `p`'s ring the next frame begins: after the last. An empty ring begins at its first granule (DESIGN CHOICE,
notes/assumptions/68). -/
def State.ringTail (s : State) (p : Nat) : Nat :=
  match (s.sw.spill.filter (fun x => x.egress == p)).getLast? with
  | some x => x.ringAt + x.frame.size
  | none => 0
/-- Where in port `p`'s ring a frame of `n` granules begins that goes to its head. -/
def State.ringHead (s : State) (p n : Nat) : Nat :=
  match s.sw.spill.find? (fun x => x.egress == p) with
  | some x => (x.ringAt + s.ringSlots - n % s.ringSlots) % s.ringSlots
  | none => 0

/-- The granules of a frame as the spill area stores them: the header first. -/
def Frame.stored (f : Frame) : List Granule := { data := toBytesLE 32 f.header } :: f.gran

/-- HBM takes the `n` granules of port `p`'s ring from place `i` in this turn (R16, R309). -/
def State.ringSlot (s : State) (p i n : Nat) : Bool :=
  s.memSlot && (s.hbm.bankHeld.isEmpty || (List.range n).all (fun k => !s.bankHeldAt (32 * s.ringGranule p (i + k))))

/-- `s` with granules written into port `p`'s ring from place `i`, encrypted as any HBM data. -/
def State.ringWrite (s : State) (p : Nat) : Nat → List Granule → State
  | _, [] => s
  | i, g :: gs => State.ringWrite ((s.activate (32 * s.ringGranule p i)).hbmPut (s.ringGranule p i) g.data g.poison) p (i + 1) gs

/-- `n` granules read from port `p`'s ring from place `i`. -/
def State.ringRead (s : State) (p : Nat) : Nat → Nat → List Granule × State
  | 0, _ => ([], s)
  | n + 1, i =>
    let (d, bad, s1) := (s.activate (32 * s.ringGranule p i)).hbmLoad (s.ringGranule p i)
    let (gs, s2) := State.ringRead s1 p n (i + 1)
    ({ data := d, poison := bad } :: gs, s2)

/-- `s` with the highest fill of port `p`'s ring noted. -/
def State.notePeak (s : State) (p : Nat) : State :=
  let n := s.spillFill p
  let s1 := s.put (F.SWX_P_SPILL_FILL p) n
  if s1.get (F.SWX_P_SPILL_PEAK p) < n then s1.put (F.SWX_P_SPILL_PEAK p) n else s1

/-- `s` with port `p`'s throttles following their measures, with hysteresis (R240). -/
def State.updateThrottle (s : State) (p : Nat) : State :=
  if 128 ≤ p then s
  else
    let bg := s.occClass p 3
    let bulk := s.occClass p 2 + bg
    let back := bg + s.spillFill p
    let next := fun on (m lo hi : Nat) => if on then decide (lo ≤ m) else decide (hi ≤ m)
    { s with sw := { s.sw with
        thrBulk := setBitAt s.sw.thrBulk p
          (next (bitAt s.sw.thrBulk p) bulk (s.get F.SWX_THROTTLE_BULK_OFF) (s.get F.SWX_THROTTLE_BULK_ON))
        thrBg := setBitAt s.sw.thrBg p
          (next (bitAt s.sw.thrBg p) back (s.get F.SWX_THROTTLE_BG_OFF) (s.get F.SWX_THROTTLE_BG_ON)) } }

/-- Egress `e` is throttled for class `c`, bulk or background (R240). -/
def State.throttled (s : State) (e c : Nat) : Bool :=
  decide (e < 128) && (if c = 2 then bitAt s.sw.thrBulk e else c == 3 && bitAt s.sw.thrBg e)

/-- When a frame queued in this turn has been arbitrated: an end-point's egress has no such step (Table 10-1), and a listed
frame keeps its listed turn (R244). -/
def State.arbitrated (s : State) (x : SwFrame) : Nat := s.clk + (if x.egress < 128 ∧ x.listed = none then arbTurns else 0)

/-- `s` with frame `x` queued on die in `area`; its receive slots are free. -/
def State.takeIn (s : State) (x : SwFrame) (area : Nat) : State :=
  let s1 := { s with sw := { s.sw with
    ready := s.sw.ready.filter (fun y => y.num != x.num)
    queued := s.sw.queued ++ [{ x with area := area, ingress := none, due := s.arbitrated x }] } }
  (s1.giveCredits x.ingress x.frame.vc x.frame.size).updateThrottle x.egress

/-- `s` with frame `x` stored in port `p`'s spill ring, at its head or behind its last frame. -/
def State.spillIn (s : State) (p : Nat) (x : SwFrame) (front : Bool) : State :=
  let i := if front then s.ringHead p x.frame.size else s.ringTail p % s.ringSlots
  let y := { x with ingress := none, ringAt := i }
  let s1 := s.ringWrite p i x.frame.stored
  { s1 with sw := { s1.sw with spill := if front then y :: s1.sw.spill else s1.sw.spill ++ [y] } }.notePeak p

/-- The frames that push-out could evict for a frame of class `c` at port `p`: queued, not begun, of a lower class, in
the shared area (R236). -/
def State.evictable (s : State) (p c : Nat) : List SwFrame :=
  if s.flag F.SWX_CLASS_CTL_PUSHOUT_EN then
    s.sw.queued.filter (fun x => x.egress == p && x.area == 0 && decide (c < x.frame.cls))
  else []

/-- The next victim: the youngest frame of the lowest class (R236). -/
def nextVictim (l : List SwFrame) : Option SwFrame :=
  let low := l.foldl (fun n x => max n x.frame.cls) 0
  (l.filter (fun x => x.frame.cls == low)).getLast?

/-- `s` with frame `x` evicted from port `p` (R236). -/
def State.evict (s : State) (p : Nat) (x : SwFrame) : State :=
  let s1 := { s with sw := { s.sw with queued := s.sw.queued.filter (fun y => y.num != x.num) } }
  if x.frame.cls = 3 ∧ s1.spillRoom p x.frame.size = true then s1.spillIn p x true
  else if isRequest x.frame.opcode then (s1.count (F.SWX_P_DROP_PUSHED p) 1).sendNack x.frame 0x12
  else s1.count (F.SWX_P_DROP_RSP_DROP p) 1

/-- A frame whose eviction must wait for a slot of HBM: it goes to the spill ring (R16, R237). -/
def State.evictWaits (s : State) (p : Nat) (x : SwFrame) : Bool :=
  x.frame.cls == 3 && s.spillRoom p x.frame.size && !s.ringSlot p (s.ringHead p x.frame.size) x.frame.size

/-- `s` with frames evicted until `n` shared slots of port `p` are free, or the next eviction must wait; `fuel` bounds their
number. -/
def State.pushOut : Nat → State → Nat → Nat → Nat → State
  | 0, s, _, _, _ => s
  | k + 1, s, p, c, n =>
    if n ≤ s.sharedFree p then s
    else match nextVictim (s.evictable p c) with
      | none => s
      | some x => if s.evictWaits p x then s else State.pushOut k (s.evict p x) p c n

/-- `s` with ready frame `x` admitted to port `p` by the first step of R235 that applies, or still waiting; what goes to the
spill ring waits for a slot of HBM (R16). -/
def State.admitToPort (s : State) (p : Nat) (x : SwFrame) : State :=
  let n := x.frame.size
  let c := x.frame.cls
  let thr := (s.port p).thr
  if c = 0 ∧ s.occArea p 1 + n ≤ thrSched thr then s.takeIn x 1
  else if c = 1 ∧ s.occArea p 2 + n ≤ thrCtrl thr then s.takeIn x 2
  else if c = 3 ∧ (s.spillFill p ≠ 0 ∨ thrBgMax thr ≤ s.occClass p 3) ∧ s.spillRoom p n = true then
    if s.ringSlot p (s.ringTail p) n then
      let s1 := { s with sw := { s.sw with ready := s.sw.ready.filter (fun y => y.num != x.num) } }
      ((s1.giveCredits x.ingress x.frame.vc n).spillIn p x false).updateThrottle p
    else s
  else if n ≤ s.sharedFree p then s.takeIn x 0
  else
    let ev := s.evictable p c
    if n ≤ s.sharedFree p + ev.foldl (fun k y => k + y.frame.size) 0 then
      let t := State.pushOut ev.length s p c n
      if n ≤ t.sharedFree p then t.takeIn x 0 else t.updateThrottle p
    else s

/-- `s` with the oldest ready frame of class `c` for egress `e` whose internal path is over admitted. An end-point's egress has no buffer limit in
the spec and takes every frame (DEDUCED, notes/assumptions/16). -/
def State.egressAdmit (s : State) (e c : Nat) : State :=
  match s.sw.ready.find? (fun x => x.egress == e && x.frame.cls == c && decide (x.due ≤ s.clk)) with
  | none => s
  | some x => if e < 128 then s.admitToPort e x else s.takeIn x 0

/-! ### The scheduled budget (R245) and listed ports (R474) -/

/-- Scheduled granules that port `p` has accepted in the current window. -/
def State.budgetUsed (s : State) (p : Nat) : Nat :=
  ((s.sw.budget.filter (fun b => b.1 == p && b.2.1 == s.now / 256)).map (·.2.2)).foldl (· + ·) 0

/-- Granules that port `p` may accept in a window. -/
def State.budgetOf (s : State) (p : Nat) : Nat :=
  min 90 (s.get F.SWX_SCHED_BUDGET) * popCount (s.port p).lanes 4 * 7168 / 1000

/-- Port `p` takes a frame of `n` granules in this window. -/
def State.inBudget (s : State) (p n : Nat) : Bool := decide (s.budgetUsed p + n ≤ s.budgetOf p)

/-- `s` with `n` granules of port `p`'s budget spent. -/
def State.spendBudget (s : State) (p n : Nat) : State :=
  { s with sw := { s.sw with
      budget := s.sw.budget.filter (fun b => b.2.1 == s.now / 256 && b.1 != p) ++ [(p, s.now / 256, s.budgetUsed p + n)] } }

/-- A frame's listed port is in its route's set and in service (R474). -/
def State.listedPortOk (s : State) (f : Frame) (p : Nat) : Bool :=
  match s.entryPorts f with
  | some ps => bitAt ps p && s.inService p
  | none => false

/-! ### Active move lists (R243) -/

/-- `s` with the lists in use set, and SWX_ML_STAT.ACTIVE showing their number. -/
def State.setLists (s : State) (l : List MoveList) : State :=
  { s with sw := { s.sw with lists := l } }.put F.SWX_ML_STAT_ACTIVE l.length

/-- `s` with a move-list error recorded (Table 10-6). -/
def State.listError (s : State) (mlist err : Nat) : State :=
  (s.put F.SWX_ML_STAT_ERR err).put F.SWX_ML_STAT_ERR_LIST mlist

/-- `s` with the list of arm `a` ended. -/
def State.endArm (s : State) (a : Nat) : State := s.setLists (s.sw.lists.filter (fun x => x.arm != a))

/-- `s` with list `m` ended. -/
def State.dropList (s : State) (m : MoveList) : State := s.endArm m.arm

/-- `s` with an active list replaced. -/
def State.setList (s : State) (m : MoveList) : State :=
  { s with sw := { s.sw with lists := s.sw.lists.map (fun x => if x.arm = m.arm then m else x) } }

/-! ### Service (R233, R238) -/

/-- A frame over the age limit, discarded at port or end-point `e`: NACK Aged for a request, else dropped (R238). The counters
are the egress port's; at an end-point's egress, which has none, those of the port the frame came in by, where it came by one
(DEDUCED, notes/assumptions/16). -/
def State.discardAged (s : State) (e : Nat) (via : Option Nat) (f : Frame) : State :=
  let n := fun (s : State) (g : Nat → RField) =>
    match (if e < 128 then some e else via) with
    | some p => s.count (g p) 1
    | none => s
  if isRequest f.opcode then (n s F.SWX_P_DROP_AGED).sendNack f 0x13 else n s F.SWX_P_DROP_RSP_DROP

/-- Credits a port holds on a virtual channel (R279). -/
def VPort.credit (v : VPort) (vc : Nat) : Nat :=
  v.limits.getD vc 0 - (v.sent.getD vc 0 + 1024 - v.returned.getD vc 0) % 1024

/-- Egress `e` can take frame `f` now: an end-point always; a port in service, with its link Active in that direction and
credits for the frame (R233, R263, R279). How far ahead of its codeword a frame may begin is not stated: while fewer granules
wait in the stream than three codewords hold (DESIGN CHOICE, notes/assumptions/70). A scheduled frame goes before those of other
classes, and they do not hold it back (R233, R244). -/
def State.canServe (s : State) (e : Nat) (f : Frame) : Bool :=
  if e < 128 then
    let v := s.port e
    s.inService e && !v.quietTx && decide (f.size ≤ v.credit f.vc) &&
      (f.cls == 0 || decide (v.stream.foldl (fun n x => n + x.left.length + b2n x.atHead) 0 < 51))
  else true

/-- The head of class `c` at egress `e`, where its arbitration is over and the egress can take it. -/
def State.headOf (s : State) (e c : Nat) : Option SwFrame :=
  match s.sw.queued.find? (fun x => x.egress == e && x.frame.cls == c) with
  | none => none
  | some x => if s.canServe e x.frame && decide (x.due ≤ s.clk) then some x else none

/-- Deficit round-robin between the heads of bulk and background (R233): the head taken and the deficits after. A class
that has nothing to send keeps no deficit. Each visit to a class adds its weight once. -/
def drrPick (wBulk wBg : Nat) : Nat → Drr → Option SwFrame → Option SwFrame → Option (SwFrame × Drr)
  | _, _, none, none => none
  | _, d, some b, none => some (b, { d with bg := 0, bulk := d.bulk - b.frame.size, atBg := false })
  | _, d, none, some g => some (g, { d with bulk := 0, bg := d.bg - g.frame.size, atBg := true })
  | 0, d, some b, some _ => some (b, d)
  | k + 1, d, some b, some g =>
    if d.atBg then
      if g.frame.size ≤ d.bg then some (g, { d with bg := d.bg - g.frame.size })
      else drrPick wBulk wBg k { d with atBg := false, bulk := d.bulk + wBulk } (some b) (some g)
    else
      if b.frame.size ≤ d.bulk then some (b, { d with bulk := d.bulk - b.frame.size })
      else drrPick wBulk wBg k { d with atBg := true, bg := d.bg + wBg } (some b) (some g)

/-- The next frame of egress `e` by class order, and the deficits after (R233). -/
def State.nextFrame (s : State) (e : Nat) : Option (SwFrame × Drr) :=
  let d := Sparse.get (fun _ => ({} : Drr)) s.sw.drr e
  match s.headOf e 0, s.headOf e 1 with
  | some x, _ => some (x, d)
  | none, some x => some (x, d)
  | none, none =>
    drrPick (max 1 (s.get F.SWX_CLASS_CTL_BULK_W)) (max 1 (s.get F.SWX_CLASS_CTL_BG_W)) 64 d (s.headOf e 2) (s.headOf e 3)

/-- `s` with frame `x` begun at egress `e`: into the port's transmit stream, spending its credits, or delivered. -/
def State.begin' (s : State) (e : Nat) (x : SwFrame) : State :=
  if e < 128 then
    let v := s.port e
    s.setPort e { v with
      stream := v.stream ++
        [{ frame := x.frame, atHead := true, left := x.frame.gran, area := x.area, due := s.clk + encodeTurns,
           listed := x.listed }]
      sent := listSet v.sent x.frame.vc ((v.sent.getD x.frame.vc 0 + x.frame.size) % 1024) }
  else
    let n := e - 128
    let p := s.ep n
    s.setEp n { p with arrived := p.arrived ++ [x.frame] }

/-- `s` with egress `e` beginning its next frame, or discarding it for age. A device that is not admitted forwards and delivers
nothing (R264). -/
def State.egressServe (s : State) (e : Nat) : State :=
  match (if s.admitted then s.nextFrame e else none) with
  | none => s
  | some (x, d) =>
    let s1 := { s with sw := { s.sw with
      queued := s.sw.queued.filter (fun y => y.num != x.num), drr := Sparse.set (fun _ => {}) s.sw.drr e d } }
    let s2 := if s1.tooOld x.frame then s1.discardAged e x.via x.frame else s1.begin' e x
    s2.updateThrottle e

/-- `s` with frame `x` as it was read back from port `p`'s ring queued again. A header that HBM could not keep is treated as the
switch core treats one at reception: the frame is discarded and counted in BAD_HDR (R230; DEDUCED, notes/assumptions/16). -/
def State.spillBack (s : State) (p : Nat) (x : SwFrame) : List Granule → State
  | [] => s
  | h :: gs =>
    let raw := ofBytesLE h.data
    if h.poison || !opKnown (bitsOf raw 7 0) then s.count (F.SWX_P_THR_BAD_HDR p) 1
    else
      let f := Frame.ofHeader raw gs
      let y := { x with frame := { f with poison := f.poison || gs.any (·.poison) }, area := 0, due := s.arbitrated x }
      { s with sw := { s.sw with queued := s.sw.queued ++ [y] } }

/-- `s` with the head of port `p`'s spill ring read and returned to the shared area, or discarded for age (R237, R238). -/
def State.spillReturn (s : State) (p : Nat) : State :=
  match s.sw.spill.find? (fun x => x.egress == p) with
  | none => s
  | some x =>
    let s1 := { s with sw := { s.sw with spill := s.sw.spill.filter (fun y => y.num != x.num) } }
    if 2 * s.occClass p 3 < thrBgMax (s.port p).thr ∧ x.frame.size ≤ s.sharedFree p ∧ s.ringSlot p x.ringAt x.frame.size = true then
      let s2 :=
        if s1.tooOld x.frame then s1.discardAged p x.via x.frame
        else
          let (gs, t) := s1.ringRead p x.frame.size x.ringAt
          t.spillBack p x gs
      (s2.notePeak p).updateThrottle p
    else s

/-! ### Frames from a link (R230) -/

/-- `s` with the oldest whole frame of port `p` checked and looked up, or discarded for its header (R230), once its FEC decode and
Hatch check are over. A frame's credits are those of its header as received. -/
def State.frameReceive (s : State) (p : Nat) (struck : List (Nat × SymbolErrors)) : State :=
  let v := s.port p
  match v.rxFrames with
  | [] => s
  | (_, []) :: rest => s.setPort p { v with rxFrames := rest, stale := v.stale - 1 }
  | (due, h :: gs) :: rest =>
    if s.clk < due then s
    else
      let s0 := s.setPort p { v with rxFrames := rest, stale := v.stale - 1 }
      let back := if v.stale = 0 then some p else none
      let e := ((struck.find? (fun x => x.1 == 0)).map (·.2)).getD []
      let (h', bad, s1) := s0.checkGranule (some p) (bitsOf (ofBytesLE h.data) 43 24) 0 false h e
      let raw := ofBytesLE h'.data
      if bad || h'.poison || !opKnown (bitsOf raw 7 0) then
        (s1.count (F.SWX_P_THR_BAD_HDR p) 1).giveCredits back (bitsOf raw 10 8) (gs.length + 1)
      else
        let (f, s2) := s1.checkFrame (some p) struck (Frame.ofHeader raw gs)
        s2.route f (some p) back

/-! ### Meanings -/

/-- FRAME_RECEIVE. -/
def State.doFrameReceive (s : State) (p : Fin 128) (struck : List (Nat × SymbolErrors)) : State :=
  s.frameReceive p struck

/-- EGRESS_ADMIT. -/
def State.doEgressAdmit (s : State) (e : Fin 149) (cls : Fin 4) : State :=
  s.egressAdmit e cls

/-- EGRESS_SERVE. -/
def State.doEgressServe (s : State) (e : Fin 149) : State :=
  s.egressServe e

/-- SPILL_RETURN. -/
def State.doSpillReturn (s : State) (p : Fin 128) : State :=
  s.spillReturn p

/-- Frame `x` may arrive at its egress: its path is over; on the direct path no earlier frame of its channel and none before it
on that path is still on its way; on another, it needs a place in the window where an earlier one of its channel is (R239). -/
def State.mayArrive (s : State) (x : SwFrame) : Bool :=
  let early := s.sw.crossing.any (fun y => y.egress == x.egress && y.frame.chan == x.frame.chan && decide (y.num < x.num))
  let ahead := s.sw.crossing.any (fun y => y.egress == x.egress && y.direct && decide (y.num < x.num))
  decide (x.due ≤ s.clk) && (if x.direct then !early && !ahead else !early || decide (s.window x.egress < 4096))

/-- RESEQUENCER_RELEASE: the `k`-th oldest frame crossing toward egress `e` arrives; every frame of the egress that then
waits for no earlier frame of its channel is released. -/
def State.doResequencerRelease (s : State) (e : Fin 149) (k : Nat) : State :=
  match (s.sw.crossing.filter (fun x => x.egress == e.val && !x.arrived))[k]? with
  | none => s
  | some x =>
    if s.mayArrive x then
      let s1 := { s with sw := { s.sw with
        crossing := s.sw.crossing.map (fun y => if y.num = x.num then { y with arrived := true } else y) } }
      State.resequence s1.sw.crossing.length s1 e
    else s

/-! ### Register write rules -/

/-- The write rule of SWX_BUF_THR (R234). -/
def hookSwxBufThr (s : State) (w : RegWrite) : State :=
  if thrRx w.new + thrSched w.new + thrCtrl w.new + 2048 ≤ 14560 then s.takeWrite w
  else (s.put F.SWX_ML_STAT_ERR 6).rejected 4 0

/-- The write rule of SWX_SPILL (R237): SIZE changes only while every ring is empty and spilling is off. -/
def hookSwxSpill (s : State) (w : RegWrite) : State :=
  let size := w.newF F.SWX_SPILL_SIZE
  if 64 < size ∨ (size ≠ w.oldF F.SWX_SPILL_SIZE ∧
      (s.sw.spill ≠ [] ∨ s.flag F.SWX_CLASS_CTL_SPILL_EN = true)) then
    ((s.takeWrite (w.keep F.SWX_SPILL_SIZE)).putFlag F.SWX_SPILL_SIZE_REJ true).rejected 4 0
  else s.takeWrite w

end Sys2Proof.Machine
end

