-- ==== Sys2Proof/Machine/Issue.lean ====
section
/-!
DEFINITION. The issuing side of a Ronpel end-point (spec/03_fabric_addressing.md R65-R71, spec/04_ronpel_transactions.md
R79, R80, R83, R84, R88-R90, R100, R101, spec/05_memory_model.md R108-R113): checks, trackers, sequence numbers, proof
writes, fences, retries, final statuses.
-/
namespace Sys2Proof.Machine

/-! ### Queues -/

/-- The end-point that owns requester queue `q` (R14). -/
def State.owner (s : State) (q : Nat) : Option Nat :=
  (List.range 21).find? (fun n => decide (q < 512) && bitAt (s.reg (Reg.REP_QOWN n (q / 64))).toNat (q % 64))

/-- Unscheduled requests of queue `q` use the background class (Table 4-15). -/
def State.queueBg (s : State) (ep q : Nat) : Bool := bitAt (s.reg (Reg.REP_QCLASS ep (q / 64))).toNat (q % 64)

/-- The issuing side of queue `q`. -/
def State.queue (s : State) (q : Nat) : QueueState := Sparse.get (fun _ => {}) s.rep.queues q
/-- `s` with the issuing side of queue `q` set. -/
def State.setQueue (s : State) (q : Nat) (v : QueueState) : State :=
  { s with rep := { s.rep with queues := Sparse.set (fun _ => {}) s.rep.queues q v } }

/-- The tracker with tag `t`. -/
def State.tracker (s : State) (t : Nat) : Option Tracker := s.rep.trackers.find? (fun x => x.frame.tag == t)
/-- `s` with a tracker replaced by the one of the same tag. -/
def State.setTracker (s : State) (t : Tracker) : State :=
  { s with rep := { s.rep with
      trackers := s.rep.trackers.map (fun x => if x.frame.tag = t.frame.tag then t else x) } }

/-! ### Checks (R65, R66, R78) -/

/-- The bit of REP_WIN_A that grants a request type (Table 3-5). -/
def rightBit (op : Nat) : Nat :=
  if op = opLoad then 0 else if op = opStore then 1 else if op = opProof then 2 else if op = opXa then 4 else 3

/-- A register of a window table as the checks of this turn see it: a write governs the requests of the turns after it
(R71). -/
def State.winReg (s : State) (a : Nat) : Word :=
  match s.rep.winOld.find? (fun x => x.1 == s.clk && x.2.1 == a) with
  | some x => x.2.2
  | none => s.reg a

/-- A field of a window table as the checks of this turn see it. -/
def State.winGet (s : State) (f : RField) : Nat := fieldGet (s.winReg f.addr) f.hi f.lo

/-- `s` with the register at `a` about to be written: the checks of this turn keep seeing what it holds. -/
def State.winKeep (s : State) (a : Nat) : State :=
  let now := s.rep.winOld.filter (fun x => x.1 == s.clk)
  { s with rep := { s.rep with winOld := if now.any (fun x => x.2.1 == a) then now else now ++ [(s.clk, a, s.reg a)] } }

/-- Window `e` of end-point `n` covers bytes `[off, off + len)` of a kind at a member, for queue `q` (R65). -/
def State.windowCovers (s : State) (n e q kind member off len : Nat) : Bool :=
  s.winGet (F.REP_WIN_A_VALID n e) == 1 && s.winGet (F.REP_WIN_A_KIND n e) == kind
    && decide (s.winGet (F.REP_WIN_A_MEMBER_FIRST n e) ≤ member) && decide (member ≤ s.winGet (F.REP_WIN_A_MEMBER_LAST n e))
    && decide (s.winGet (F.REP_WIN_A_QUEUE_FIRST n e) ≤ q) && decide (q ≤ s.winGet (F.REP_WIN_A_QUEUE_LAST n e))
    && decide (s.winGet (F.REP_WIN_B_BASE n e) * 4096 ≤ off)
    && decide (off + len ≤ (s.winGet (F.REP_WIN_C_LIMIT n e) + 1) * 4096)

/-- The windows of end-point `n` grant a right, `bit` of REP_WIN_A, over a span: the lowest covering window decides. -/
def State.windowGrants (s : State) (n q kind member off len bit : Nat) : Bool :=
  match (List.range 64).find? (fun e => s.windowCovers n e q kind member off len) with
  | some e => bitAt (s.winReg (Reg.REP_WIN_A n e)).toNat bit
  | none => false

/-- Bytes that a memory request addresses from ADDR (R77, R82). -/
def Frame.span (f : Frame) : Nat := if f.opcode = opXa then 80 else if isAtomic8 f.opcode then 8 else f.bytes

/-- Member `m` of the own domain is fenced from this device, from the turn after the fence (R413, R414). -/
def State.isFenced (s : State) (m : Nat) : Bool :=
  (bitAt (s.reg (Reg.FLT_FENCE (m / 64))).toNat (m % 64) && !s.flt.newFences.contains (true, m, s.clk)) ||
    (bitAt (s.reg (Reg.FLT_FENCED_BY (m / 64))).toNat (m % 64) && !s.flt.newFences.contains (false, m, s.clk))

/-- Step 1 of Table 3-6 passes for request `f` on queue `q` of end-point `n`, a window being asked for right `right`. -/
def State.permitted (s : State) (n q right : Nat) (f : Frame) : Bool :=
  if isMemory f.opcode then
    let k := addrKind f.addr
    !(isAtomic f.opcode && (k == 2 || k == 3)) &&
      s.windowGrants n q k (addrMember f.addr) (addrOffset f.addr) f.span right
  else if f.opcode = opMsg then epLocal f.dst == 19
  else epLocal f.dst == 18

/-- The status with which steps 1 to 3 of Table 3-6 end a request that needs right `right` of a window; none where it proceeds. -/
def State.checkRight (s : State) (n q right : Nat) (f : Frame) : Option Nat :=
  let near := epDomain f.dst == s.domain
  if !s.permitted n q right f then some 0x23
  else if near && s.isFenced (epMember f.dst) then some 0x21
  else if near && !bitAt s.present (epMember f.dst) then some 0x22
  else none

/-- The same, of a request that needs the right of its opcode (R65). -/
def State.checkRequest (s : State) (n q : Nat) (f : Frame) : Option Nat := s.checkRight n q (rightBit f.opcode) f

/-! ### Final statuses (R100, R101) -/

/-- 0x01 to 0x03. -/
def isSuccess (st : Nat) : Bool := decide (1 ≤ st ∧ st ≤ 3)

/-- The status of a request that took effect (R100). -/
def successStatus (tries delay : Nat) : Nat := if 1 ≤ tries then 3 else if 0 < delay then 2 else 1

/-- A 16-bit counter of a status block, one higher. -/
def bump16 (b : List Byte) (i : Nat) : List Byte := b.take i ++ toBytesLE 2 (min 65535 (bytesAt b i 2 + 1)) ++ b.drop (i + 2)

/-- A queue status block after a final status (Table 4-10). -/
def qsbUpdate (b : List Byte) (st tag addr turn : Nat) : List Byte :=
  if isSuccess st then (if st = 3 then bump16 b 26 else if st = 2 then bump16 b 28 else b)
  else
    let b1 := if bytesAt b 0 1 = 0 then
        toBytesLE 1 st ++ (b.drop 1).take 3 ++ toBytesLE 4 tag ++ toBytesLE 8 addr ++ toBytesLE 8 turn ++ b.drop 24
      else b
    bump16 b1 24

/-- The HBM offset of queue `q`'s status block, where blocks are written (R101). -/
def State.qsbAt (s : State) (ep q : Nat) : Option Nat :=
  let off := s.get (F.REP_QSB_BASE ep) * 32 + 32 * q
  if s.flag (F.REP_QSB_EN ep) && s.hbmOpen && decide (off + 32 ≤ hbmSize) then some off else none

/-- `s` with queue `q`'s status block updated for a final status. -/
def State.qsbNote (s : State) (ep q st tag addr : Nat) : State :=
  match s.qsbAt ep q with
  | none => s
  | some off =>
    let (b, p, s1) := s.memLoad (off / 32)
    let b' := qsbUpdate b st tag addr s.now
    if b' = b then s1 else s1.memPut (off / 32) b' p

/-- Queue `q`'s status block as a fence reports it: zeros where none is written (Table 4-13). -/
def State.qsbRead (s : State) (q : Nat) : List Byte :=
  match s.owner q with
  | none => List.replicate 32 0
  | some ep => match s.qsbAt ep q with
    | some off => s.memBytes off 32
    | none => List.replicate 32 0

/-- `s` with an end told to the request's origin. -/
def State.tell (s : State) (d : Done) : State := { s with rep := { s.rep with done := s.rep.done ++ [d] } }

/-! ### Injection (R79, R80, R240, R249) -/

/-- The next SEQ of a channel at its issuer (R80). -/
def State.nextSeq (s : State) (src dst vc : Nat) : Nat :=
  ((s.rep.chans.find? (fun c => c.src == src && c.dst == dst && c.vc == vc)).map (·.next)).getD 0

/-- `s` with a channel's next SEQ and last activity set. -/
def State.setSeq (s : State) (src dst vc next : Nat) : State :=
  let keep := s.rep.chans.filter (fun c => !(c.src == src && c.dst == dst && c.vc == vc))
  { s with rep := { s.rep with
      chans := keep ++ [{ src := src, dst := dst, vc := vc, next := next % 2 ^ 32, last := s.clk }] } }

/-- Requests of a channel without a final status. -/
def State.chanOpen (s : State) (src dst vc : Nat) : Nat :=
  (s.rep.trackers.filter (fun t => t.frame.src == src && t.frame.dst == dst && t.frame.vc == vc)).length

/-- The frame as it leaves the end-point now: edition and, at first injection, INJ_TURN. -/
def State.stamp (s : State) (t : Tracker) : Frame :=
  let f := { t.frame with edition := s.edition, slice := s.slice }
  if t.sent then f else { f with injTurn := s.now % 2 ^ 40 }

/-- The PROOF_GO of a proof write (R83). Its BYTES is 0, as it carries no data: R83 names the fields it shares with the proof
write and states no BYTES (DESIGN CHOICE, notes/assumptions/66). -/
def goFrame (f : Frame) : Frame := { f with opcode := opGo, gran := [], bytes := 0, poison := false }

/-- `s` with tracker `t` freed with a final status; its failure is remembered for proof writes (R83). -/
def State.endTracker (s : State) (t : Tracker) (st : Nat) (data : List Byte) (poison : Bool) : State :=
  let s1 := { s with rep := { s.rep with trackers := s.rep.trackers.filter (fun x => x.frame.tag != t.frame.tag) } }
  let s2 := s1.setSeq t.frame.src t.frame.dst t.frame.vc (s1.nextSeq t.frame.src t.frame.dst t.frame.vc)
  let q := s2.queue t.queue
  let s3 := if isWrite t.frame.opcode && !isSuccess st then s2.setQueue t.queue { q with bad := q.bad ++ [t.order] } else s2
  (s3.qsbNote t.ep t.queue st t.frame.tag t.frame.address).tell
    { origin := t.origin, frame := t.frame, status := st, delay := t.delay, data := data, poison := poison, unsent := !t.sent }

/-- The injection of listed frame `l` in this turn is late: its turn is past, its entry came after it, or the port runs free
(R244, R268). -/
def State.listedLate (s : State) (l : Listed) : Bool :=
  decide (l.turn < s.now) || decide (l.turn < l.readAt) || s.flag (F.VPT_CTL_FREE_RUN l.port)

/-- `s` with the listed frame `f0` injected on its port (R244, R474), counted, and late where its codeword is past already. -/
def State.injectListed (s0 : State) (l : Listed) (f0 : Frame) : State :=
  let (f, s) := s0.checkFrame none [] f0
  let late := s.listedLate l
  let s1 := s.place { frame := f, egress := l.port, due := s.clk, listed := if late then none else some l.turn }
  let s2 := (s1.spendBudget l.port f.size).count F.SWX_ML_CNT_INJECTED 1
  if late then s2.countLate else s2

/-- `s` with the first injection of a listed request, which takes its port and its budget in the turn of the injection: a port
that is not in its route's set and in service ends it Isolated (R474), one whose budget is spent ends it Refused and stops a
STORE list (R245). -/
def State.sendListed (s : State) (t : Tracker) (l : Listed) : State :=
  let f := t.frame
  let t0 := { t with sent := false }
  if !s.listedPortOk f l.port then (s.count F.RTE_CNT_ISOLATED 1).endTracker t0 0x20 [] false
  else if !s.inBudget l.port f.size then
    let s1 := s.count F.SWX_ML_CNT_OVER 1
    (if isCollective f.opcode then s1 else (s1.listError l.mlist 3).endArm l.arm).endTracker t0 0x10 [] false
  else s.injectListed l f

/-- `s` with tracker `t`'s request sent: a first injection, or a retry, for which TRIES has risen. A proof write whose GO
has been sent is followed by it (R83). -/
def State.transmit (s : State) (t : Tracker) : State :=
  let f := s.stamp t
  let t1 := { t with frame := f, sent := true, lastTx := s.clk, due := none, heldFor := none,
                     delay := if t.sent then t.delay else s.clk - t.takenAt }
  let s1 := (s.setTracker t1).setSeq f.src f.dst f.vc (s.nextSeq f.src f.dst f.vc)
  match (if t.sent then none else t.listed) with
  | some l => s1.sendListed t1 l
  | none =>
    let s2 := s1.inject f
    if t.proof = .going then s2.inject (goFrame f) else s2

/-- The egress that a tracker's request would take, if it is throttled for its class (R240). -/
def State.throttleAt (s : State) (t : Tracker) : Option Nat :=
  let c := t.frame.cls
  if c = 2 ∨ c = 3 then
    match s.lookup (s.stamp t) none with
    | .egress e => if s.throttled e c then some e else none
    | _ => none
  else none

/-- What a request held for a supply warning names in place of an egress (R454). -/
def heldByWarning : Nat := 256

/-- `s` with tracker `t`'s request sent, or held by a throttle (R240) or a supply warning (R454). -/
def State.injectOrHold (s : State) (t : Tracker) : State :=
  if s.flag F.PWR_STAT_WARN && t.frame.cls != 0 then s.setTracker { t with heldFor := some heldByWarning }
  else match s.throttleAt t with
    | some e => s.setTracker { t with heldFor := some e }
    | none => s.transmit t

/-- `s` with every request that a supply warning held released (R455), once the device may inject (R264). -/
def State.releaseWarned (s : State) : State :=
  if !s.admitted then s
  else (s.rep.trackers.filter (fun t => t.heldFor == some heldByWarning)).foldl (fun s t => s.injectOrHold t) s

/-! ### Waiting (R79, R80, R110, R113) -/

/-- Two memory requests touch a common byte. -/
def Frame.overlaps (a b : Frame) : Bool :=
  isMemory a.opcode && isMemory b.opcode && a.addr / 2 ^ 53 == b.addr / 2 ^ 53 &&
    decide (addrOffset a.addr < addrOffset b.addr + b.span) && decide (addrOffset b.addr < addrOffset a.addr + a.span)

/-- A read whose data an acquire waits for (Table 5-4). -/
def isObserving (op : Nat) : Bool := op == opLoad || isAtomic8 op

/-- Request `w` is held by a fence of its queue (Table 5-4). A RELEASE fence holds every request but a LOAD, collective frames too,
which the table's list of held requests does not name (DESIGN CHOICE, notes/assumptions/79). -/
def State.fenceHolds (s : State) (w : WaitReq) : Bool :=
  s.rep.fences.any (fun f => f.queue == w.queue && decide (f.order < w.order) &&
    (f.kind == 0 || (f.kind == 1 && w.frame.opcode != opLoad) ||
      (f.kind == 2 &&
        (s.rep.trackers.any (fun t => t.queue == w.queue && decide (t.order < f.order) && isObserving t.frame.opcode
            && t.prior.isNone)
          || s.rep.waiting.any (fun v => v.queue == w.queue && decide (v.order < f.order) && isObserving v.frame.opcode)))))

/-- Request `w` touches a byte of an earlier proof write of its queue that has no final status (R110). -/
def State.proofHolds (s : State) (w : WaitReq) : Bool :=
  s.rep.trackers.any (fun t => t.queue == w.queue && decide (t.order < w.order) && t.proof != .notProof
    && t.frame.overlaps w.frame) ||
  s.rep.waiting.any (fun v => v.queue == w.queue && decide (v.order < w.order) && v.frame.opcode == opProof
    && v.frame.overlaps w.frame)

/-- A free tracker slot of a queue (R79). Which of the free slots a request takes is not stated: the lowest-numbered (DESIGN
CHOICE, notes/assumptions/66). -/
def State.freeSlot (s : State) (q : Nat) : Option Nat :=
  (List.range 512).find? (fun k => !s.rep.trackers.any (fun t => t.queue == q && t.slot == k))

/-- No scheduled injection starts now: the counter is in HOLDOVER (R40), or counterproof has stopped injections (R396). -/
def State.noScheduled (s : State) : Bool := s.flag F.TRN_STAT_HOLDOVER || s.twnStopped

/-- Something holds request `w`: a fence, an earlier proof write, or, of a listed request, that no scheduled injection starts
now. -/
def State.reqHeld (s : State) (w : WaitReq) : Bool :=
  s.fenceHolds w || s.proofHolds w || (w.listed.isSome && s.noScheduled)

/-- Request `w` may take a tracker now: the device is admitted (R264), nothing holds it, its channel has room, and no
earlier request of its queue waits for a tracker. -/
def State.mayTake (s : State) (w : WaitReq) : Bool :=
  s.admitted && !s.reqHeld w &&
    decide (s.chanOpen (s.ownEp (epLocal w.frame.src)) w.frame.dst w.frame.vc < 512) &&
    !s.rep.waiting.any (fun v => v.queue == w.queue && decide (v.order < w.order) && !s.reqHeld v)

/-- `s` with request `w` given a tracker, a sequence number and its stamps, and sent or held. It travels under the member number
the device has now, which a stand-in may have changed while it waited (R418). -/
def State.takeTracker (s : State) (w : WaitReq) (ep slot : Nat) : State :=
  let f := { w.frame with src := s.ownEp (epLocal w.frame.src) }
  let seq := s.nextSeq f.src f.dst f.vc
  let t : Tracker :=
    { ep := ep, queue := w.queue, slot := slot, order := w.order, origin := w.origin, gen := w.gen,
      takenAt := s.clk, frame := { f with tag := w.queue * 512 + slot, seq := seq },
      proof := if f.opcode = opProof then .waiting else .notProof, coverFrom := (s.queue w.queue).lastFence,
      listed := w.listed }
  let s1 := s.setSeq f.src f.dst f.vc (seq + 1)
  let s2 := { s1 with rep := { s1.rep with
    trackers := s1.rep.trackers ++ [t], waiting := s1.rep.waiting.filter (fun v => v.order != w.order) } }
  s2.injectOrHold t

/-- `s` with request `w` given a tracker where it may have one, else waiting. -/
def State.takeOrWait (s : State) (w : WaitReq) (ep : Nat) : State :=
  let wait := if s.rep.waiting.any (fun v => v.order == w.order) then s
    else { s with rep := { s.rep with waiting := s.rep.waiting ++ [w] } }
  if s.mayTake w then
    match s.freeSlot w.queue with
    | some k => s.takeTracker w ep k
    | none => wait
  else wait

/-! ### Ends (R83, R84, R89) -/

/-- A proof write that waits covers a write that failed (R83). -/
def State.tainted (s : State) (t : Tracker) : Bool :=
  (s.queue t.queue).bad.any (fun o => decide (t.coverFrom ≤ o) && decide (o < t.order))

/-- A proof write that waits covers a write without a final status. -/
def State.covering (s : State) (t : Tracker) : Bool :=
  s.rep.trackers.any (fun x => x.queue == t.queue && decide (x.order < t.order) && isWrite x.frame.opcode) ||
  s.rep.waiting.any (fun x => x.queue == t.queue && decide (x.order < t.order) && isWrite x.frame.opcode)

/-- `s` with the PROOF_GO of `t` sent for the first time, on the current edition, which the tracker's request then travels
on; the response timeout starts (R83, R255). -/
def State.sendGo (s : State) (t : Tracker) : State :=
  let t1 := { t with proof := .going, lastTx := s.clk, frame := { t.frame with edition := s.edition } }
  (s.setTracker t1).inject (goFrame t1.frame)

/-- A fence all of whose earlier requests have a final status (R84). -/
def State.fenceReady (s : State) (f : Fence) : Bool :=
  !s.rep.trackers.any (fun t => t.queue == f.queue && decide (t.order < f.order)) &&
  !s.rep.waiting.any (fun w => w.queue == f.queue && decide (w.order < f.order))

/-- `s` with an event of end-point `n` counted in a field of its REP_ORD_CNT that counts what it issues; in the memory
end-point's page these fields read 0 (R123). -/
def State.orderCount (s : State) (n : Nat) (f : RField) : State := if n = 16 then s else s.count f 1

/-- `s` with a fence of queue `q` counted where its owner counts what it issues (R123). -/
def State.fenceCount (s : State) (q : Nat) : State :=
  match s.owner q with
  | some ep => s.orderCount ep (F.REP_ORD_CNT_FENCES ep)
  | none => s

/-- `s` with a fence completed: counted, and reported to its origin later (R84, R123). -/
def State.fenceEnd (s : State) (f : Fence) (st : Nat) : State :=
  let s1 := { s with rep := { s.rep with
    fences := s.rep.fences.filter (fun x => x.order != f.order),
    fenceDone := s.rep.fenceDone ++ [{ f with status := st }] } }
  let q := s1.queue f.queue
  let live := s1.rep.trackers.filter (fun t => t.queue == f.queue && t.proof != .notProof)
  let s2 := if st = 1 then
      let covered := fun o => live.any (fun t => decide (t.coverFrom ≤ o) && decide (o < t.order))
      let bad := q.bad.filter (fun o => decide (f.order ≤ o) || covered o)
      s1.setQueue f.queue { lastFence := max q.lastFence f.order, bad := bad }
    else s1
  s2.fenceCount f.queue

/-- `s` with every proof write and fence of queue `q` that can go on settled: a proof write once every write it covers has a
final status (R83), and while the device is admitted, since its PROOF_GO is an injection (R264). `fuel` bounds their
number. -/
def State.settleQueue : Nat → State → Nat → State
  | 0, s, _ => s
  | k + 1, s, q =>
    match s.rep.trackers.find? (fun t => t.queue == q && t.proof == .waiting && t.sent && !s.covering t
        && (s.tainted t || s.admitted)) with
    | some t =>
      if s.tainted t then
        State.settleQueue k ((s.orderCount t.ep (F.REP_ORD_CNT_PW_TAINTED t.ep)).endTracker t 0x31 [] false) q
      else State.settleQueue k (s.sendGo t) q
    | none =>
      match s.rep.fences.find? (fun f => f.queue == q && s.fenceReady f) with
      | some f => State.settleQueue k (s.fenceEnd f 1) q
      | none => s

/-- The settling of queue `q` with fuel enough for all its proof writes and fences. -/
def State.settleQ (s : State) (q : Nat) : State :=
  State.settleQueue (2 * s.rep.trackers.length + s.rep.fences.length + 1) s q

/-- `s` with a request ended and its queue settled. -/
def State.finish (s : State) (t : Tracker) (st : Nat) (data : List Byte) (poison : Bool) : State :=
  (s.endTracker t st data poison).settleQ t.queue

/-! ### Issue -/

/-- `s` with request `f` of queue `q`, of place `order` in the order of issue, ended with `st` without ever having held a tracker:
its failure is remembered for proof writes (R83), noted in the queue status block and told. The tag recorded for it is not
stated: a free value. -/
def State.failUntracked (s : State) (ep q order : Nat) (f : Frame) (st : Nat) (o : Origin) : State :=
  let v := s.queue q
  let s1 := if isWrite f.opcode then s.setQueue q { v with bad := v.bad ++ [order] } else s
  (s1.freeNext.qsbNote ep q st (s1.free 18) f.address).tell
    { origin := o, frame := f, status := st, delay := 0, data := [], poison := false }

/-- `s` with a place in the order of issue given away. -/
def State.orderTaken (s : State) : State := { s with rep := { s.rep with nextOrder := s.rep.nextOrder + 1 } }

/-- `s` with request `f` of queue `q` checked for right `right`, then given a tracker, made to wait, or ended at once: step 1 counts
in REP_WIN_DENY. -/
def State.issueRight (s : State) (ep q right : Nat) (f : Frame) (o : Origin) : State :=
  let order := s.rep.nextOrder
  let s1 := s.orderTaken
  match s1.checkRight ep q right f with
  | some st =>
    let s2 := if st = 0x23 then s1.count (F.REP_WIN_DENY_COUNT ep) 1 else s1
    (s2.failUntracked ep q order f st o).settleQ q
  | none => (s1.takeOrWait
      { queue := q, frame := f, origin := o, order := order, gen := s1.winGet (F.REP_WIN_STAT_GEN ep) } ep).settleQ q

/-- The same, for the right of its opcode. -/
def State.issueOne (s : State) (ep q : Nat) (f : Frame) (o : Origin) : State := s.issueRight ep q (rightBit f.opcode) f o

/-- The pieces of a memory request at aligned 256-byte boundaries (R77): offset from its start and length. -/
def pieces (a : Nat) : Nat → Nat → Nat → List (Nat × Nat)
  | 0, _, _ => []
  | fuel + 1, off, n =>
    if n = 0 then []
    else
      let k := min n (256 - (a + off) % 256)
      (off, k) :: pieces a fuel (off + k) (n - k)

/-- The frame of a memory request on `queue` of end-point `ep`, not yet stamped. `sched` puts it on VC0. -/
def State.memoryFrame (s : State) (ep q op addr bytes : Nat) (data : List Byte) (xfmt : Nat) (sched poison : Bool) : Frame :=
  let dst := epId s.domain (addrMember addr) (kindEp (addrKind addr) (addrOffset addr))
  let gran := if op = opLoad then []
    else if isAtomic op then [sliceD 0 data 0 32]
    else toGranules addr (sliceD 0 data 0 bytes)
  { opcode := op, vc := if sched then 0 else requestVc op false (s.queueBg ep q), edition := s.edition, slice := s.slice,
    src := s.ownEp ep, dst := dst, addr := addr, bytes := if op = opXa then 80 else bytes, xfmt := xfmt,
    poison := poison, gran := gran.map (fun d => { data := d, poison := poison }) }

/-- `s` with a memory request issued on queue `q`, split where R77 splits it; the data is poisoned where `poison` says. A
queue without an owner issues nothing. -/
def State.issueData (s : State) (q op addr bytes : Nat) (data : List Byte) (xfmt : Nat) (poison : Bool) (o : Origin) : State :=
  match s.owner q with
  | none => s
  | some ep =>
    if isAtomic op then s.issueOne ep q (s.memoryFrame ep q op addr 8 data xfmt false poison) o
    else (pieces addr bytes 0 bytes).foldl (fun s (x : Nat × Nat) =>
      s.issueOne ep q (s.memoryFrame ep q op (addr + x.1) x.2 ((data.drop x.1).take x.2) 0 false poison) o) s

/-- `s` with one granule stored from queue `q` under right `right` of its windows. -/
def State.issueGranule (s : State) (q right addr : Nat) (g : Granule) (o : Origin) : State :=
  match s.owner q with
  | none => s
  | some ep => s.issueRight ep q right (s.memoryFrame ep q opStore addr 32 g.data 0 false g.poison) o

/-- A memory request whose data is good. -/
def State.issueMemory (s : State) (q op addr bytes : Nat) (data : List Byte) (xfmt : Nat) (o : Origin) : State :=
  s.issueData q op addr bytes data xfmt false o

/-- `s` with a fence placed in queue `q` (R84, R113): a reserved KIND or SCOPE completes with PermissionDenied and holds nothing
(Tables 5-2, 5-3), at once, whatever is before it in its queue: the spec does not say when (DESIGN CHOICE,
notes/assumptions/79). It is a completed fence and counts in FENCES (R123). -/
def State.placeFence (s : State) (q kind scope : Nat) (o : FenceOrigin) : State :=
  let f : Fence := { queue := q, kind := kind, scope := scope, origin := o, order := s.rep.nextOrder }
  if kind = 3 ∨ scope = 3 then
    ({ s with rep := { s.rep with fenceDone := s.rep.fenceDone ++ [{ f with status := 0x23 }] } } : State).fenceCount q
  else
    { s with rep := { s.rep with nextOrder := s.rep.nextOrder + 1, fences := s.rep.fences ++ [f] } }.settleQ q

/-- The opcodes an engine may ask for by REQUEST_ISSUE: memory requests but PROOF_GO, which the end-point sends itself. -/
def isAsked (op : Nat) : Bool := op == opLoad || isWrite op

/-- `s` with the oldest waiting request of queue `q` that may go on given a tracker (R79); where none may, with what else waits
in the queue settled. -/
def State.releaseWaiting (s : State) (q : Nat) : State :=
  match s.rep.waiting.find? (fun w => w.queue == q && s.mayTake w) with
  | some w => match s.owner q with
    | some ep => (s.takeOrWait w ep).settleQ q
    | none => s
  | none => s.settleQ q

/-! ### Responses, timeouts and retries (R88, R89) -/

/-- CSEQ of a collective descriptor (Table 9-1). -/
def cCseq (d : List Byte) : Nat := bytesAt d 8 4
/-- The TAG of its frames (R206). -/
def Coll.tag (c : Coll) : Nat := cCseq c.desc % 65536

/-- A frame of a collective that has been resigned: it is not sent again (R223). -/
def State.resigned (s : State) (o : Origin) : Bool :=
  s.col.active.any (fun c => o == Origin.collective c.tag && (c.outcome.map (fun x => !x.completed)).getD false)

/-- `s` with a retry of tracker `t` due, or its end with `st` where LIMIT retries have been sent (R88, Table 4-5). A TIMEOUT or
BACKOFF below its range acts as written: the spec gives the range only (DESIGN CHOICE, notes/assumptions/79). LIMIT does
not apply to a proof write that waits for covered writes (R83); a frame of a resigned collective is not retried (R223). -/
def State.retryOrEnd (s : State) (t : Tracker) (st : Nat) : State :=
  let k := t.frame.tries + 1
  if (t.proof ≠ .waiting ∧ s.get (F.REP_RETRY_LIMIT t.ep) < k) ∨ s.resigned t.origin = true then s.finish t st [] false
  else s.setTracker { t with due := some (s.clk + s.get (F.REP_RETRY_BACKOFF t.ep) * k) }

/-- What the origin of an atomic still waits for once ATOM_RSP with FOLLOW = 1 has given it the prior value: a core for the final
ACK, a BAR2 access for nothing. An engine that has no use for the value waits for the final status alone (R119, R341). -/
def Origin.follows : Origin → Option Origin
  | .core n => some (.coreAck n)
  | .bar2 _ _ => some .none
  | .none | .plate _ | .fetch _ _ _ | .message _ _ _ | .collective _ | .readyFlag _ | .dma _ _ _ | .coreAck _ => none

/-- `s` with response `r` acted on for tracker `t` (Table 4-5). ATOM_RSP with FOLLOW = 1 gives the prior value to an engine
that uses it, and the tracker waits for the ACK with the final status (R113). -/
def State.respond (s : State) (t : Tracker) (r : Frame) : State :=
  if r.opcode = opNack ∧ (r.status = 0x12 ∨ r.status = 0x10) then
    if r.tries = t.frame.tries ∧ t.due = none then s.retryOrEnd t r.status else s
  else if r.opcode = opAtomRsp ∧ r.follow = true then
    match t.prior with
    | some _ => s
    | none => match t.origin.follows with
      | some o => (s.setTracker { t with prior := some r.addr, origin := o }).tell
          { origin := t.origin, frame := t.frame, status := if r.status = 1 then successStatus t.frame.tries t.delay else r.status,
            delay := t.delay, data := toBytesLE 8 r.addr, poison := r.poison }
      | none => s.setTracker { t with prior := some r.addr }
  else
    let ok := r.opcode ≠ opNack ∧ r.status = 1
    let st := if ok then successStatus t.frame.tries t.delay else r.status
    let data := if r.opcode = opLoadRsp then ofGranules t.frame.addr t.frame.bytes r.gran
      else if isAtomic8 t.frame.opcode then toBytesLE 8 (t.prior.getD r.addr) else []
    s.finish t st data (r.poison || r.gran.any (·.poison))

/-- `s` with the oldest response delivered to end-point `n` matched by TAG and SEQ, or discarded (R76, R89). -/
def State.responseReceive (s : State) (n : Nat) : State :=
  let e := s.ep n
  match e.arrived.find? (fun f => isResponse f.opcode) with
  | none => s
  | some r =>
    let s1 := s.setEp n { e with arrived := e.arrived.erase r }
    if r.badReserved then s1.countDiscard n
    else match s1.rep.trackers.find? (fun t => t.ep == n && t.sent && t.frame.tag == r.tag && t.frame.seq == r.seq) with
    | some t => s1.respond t r
    | none => s1

/-- `s` where no response has come to tracker `t` within TIMEOUT (R88). A collective frame is not retried (R216). -/
def State.timeout (s : State) (t : Tracker) : State :=
  if t.sent = true ∧ t.due = none ∧ t.proof ≠ .waiting ∧ t.lastTx + s.get (F.REP_RETRY_TIMEOUT t.ep) ≤ s.clk then
    (if isCollective t.frame.opcode then s.finish t 0x14 [] false else s.retryOrEnd t 0x14)
  else s

/-- `s` with the due retry of tracker `t` sent, held, or its end with Lost where it would be too old (R88, R89); a proof write
that waits for covered writes is not ended Lost (R83). -/
def State.retrySend (s : State) (t : Tracker) : State :=
  match t.due with
  | none => s
  | some d =>
    if s.clk < d ∨ s.admitted = false then s
    else if t.proof ≠ .waiting ∧ s.ageLimit - s.get (F.REP_RETRY_TIMEOUT t.ep) < s.ageOf t.frame.injTurn then
      s.finish t 0x14 [] false
    else match s.throttleAt t with
      | some e => s.setTracker { t with heldFor := some e }
      | none =>
        (s.count (F.REP_CNT_RETRIES t.ep) 1).transmit { t with frame := { t.frame with tries := t.frame.tries + 1 } }

/-! ### Throttle release (R241) -/

/-- Requests held for port `p` and class `c`. -/
def State.heldAt (s : State) (p c : Nat) : List Tracker :=
  s.rep.trackers.filter (fun t => t.heldFor == some p && t.frame.cls == c)

/-- When a held request's hold began. -/
def Tracker.heldSince (t : Tracker) : Nat := if t.sent then t.due.getD t.takenAt else t.takenAt

/-- The next held request of a port and class: round-robin by queue number after the last released, oldest first within
a queue. -/
def nextHeld (l : List Tracker) (last : Nat) : Option Tracker :=
  let least := fun (l : List Tracker) => l.foldl (fun (m : Option Nat) t => some (min t.queue (m.getD t.queue))) none
  match least (l.filter (fun t => decide (last < t.queue))), least l with
  | some q, _ => l.find? (fun t => t.queue == q)
  | none, some q => l.find? (fun t => t.queue == q)
  | none, none => none

/-- `s` with one held request of port `p` and class `c` released, where the throttle is off or the hold has reached
SWX_THR_MAX. -/
def State.throttleRelease (s : State) (p c : Nat) : State :=
  let l := s.heldAt p c
  let due := if s.throttled p c then l.filter (fun t => decide (t.heldSince + s.get F.SWX_THR_MAX_MAX ≤ s.clk)) else l
  if !s.admitted then s
  else match nextHeld due (Sparse.get (fun _ => 512) s.rep.lastHeld (2 * p + c % 2)) with
    | none => s
    | some t =>
      let s1 := { s with rep := { s.rep with lastHeld := Sparse.set (fun _ => 512) s.rep.lastHeld (2 * p + c % 2) t.queue } }
      if t.sent then
        if s1.ageLimit - s1.get (F.REP_RETRY_TIMEOUT t.ep) < s1.ageOf t.frame.injTurn then s1.finish t 0x14 [] false
        else (s1.count (F.REP_CNT_RETRIES t.ep) 1).transmit { t with frame := { t.frame with tries := t.frame.tries + 1 } }
      else (s1.transmit t).settleQ t.queue

/-! ### Absence (R90) -/

/-- An end-point of member `m` of the own domain. -/
def State.isOf (s : State) (m ep : Nat) : Bool := epDomain ep == s.domain && epMember ep == m

/-- `s` with every request toward member `m` ended Absent, and only then what waited for them in its queue settled; its
channels are back at SEQ 0. -/
def State.absentIssuers (s : State) (m : Nat) : State :=
  let gone := s.rep.trackers.filter (fun t => s.isOf m t.frame.dst)
  let wait := s.rep.waiting.filter (fun w => s.isOf m w.frame.dst)
  let s1 := { s with rep := { s.rep with waiting := s.rep.waiting.filter (fun w => !s.isOf m w.frame.dst) } }
  let s2 := wait.foldl (fun s w => s.failUntracked (epLocal w.frame.src) w.queue w.order w.frame 0x22 w.origin) s1
  let ended := gone.foldl (fun s t => s.endTracker t 0x22 [] false) s2
  let s3 := (wait.map (·.queue) ++ gone.map (·.queue)).foldl State.settleQ ended
  { s3 with rep := { s3.rep with chans := s3.rep.chans.filter (fun c => !s3.isOf m c.dst) } }

/-! ### Windows (R70, R71) -/

/-- The range of a window lies in the valid offsets of its kind (R70, Table 3-3). -/
def windowRange (kind base limit : Nat) : Bool :=
  let lo := base * 4096
  let hi := (limit + 1) * 4096
  if kind = 0 then decide (hi ≤ hbmSize)
  else if kind = 1 then decide (lo < 0x20000000) && decide (lo / 0x8000000 * 0x8000000 + 0x5F00000 ≥ hi)
  else if kind = 2 then true
  else decide (hi ≤ 0x4000000)

/-- `s` with a window write of end-point `n`, entry `e`, rejected (R70). -/
def State.windowRejected (s : State) (n e : Nat) : State :=
  ((s.putFlag (F.REP_WIN_STAT_REJECTED n) true).put (F.REP_WIN_STAT_REJ_ENTRY n) e).rejected 6 n

/-- The write rule of REP_WIN_A of end-point `n`, entry `e`. Reserved bits of `data` are checked before the filter. -/
def hookWinA (n e : Nat) (data : Word) (s : State) (w : RegWrite) : State :=
  let b := s.get (F.REP_WIN_B_BASE n e)
  let l := s.get (F.REP_WIN_C_LIMIT n e)
  let k := w.newF (F.REP_WIN_A_KIND n e)
  if w.newF (F.REP_WIN_A_VALID n e) = 1 ∧
      (3 < k ∨ w.newF (F.REP_WIN_A_MEMBER_LAST n e) < w.newF (F.REP_WIN_A_MEMBER_FIRST n e)
        ∨ w.newF (F.REP_WIN_A_QUEUE_LAST n e) < w.newF (F.REP_WIN_A_QUEUE_FIRST n e) ∨ l < b
        ∨ fieldGet data 62 62 ≠ 0 ∨ fieldGet data 25 5 ≠ 0 ∨ windowRange k b l = false) then s.windowRejected n e
  else
    let s1 := ((s.winKeep w.addr).winKeep (Reg.REP_WIN_STAT n)).takeWrite w
    s1.put (F.REP_WIN_STAT_GEN n) (s1.get (F.REP_WIN_STAT_GEN n) + 1)

/-- The write rule of REP_WIN_B and REP_WIN_C. -/
def hookWinBC (n e : Nat) (s : State) (w : RegWrite) : State :=
  if s.flag (F.REP_WIN_A_VALID n e) then s.windowRejected n e else (s.winKeep w.addr).takeWrite w

/-- DRAINED (R71): no request checked under an older generation holds a tracker of end-point `n` or waits for one. A request is
checked when it arrives, and not again when it takes its tracker; one that waits counts, where R71 names those that hold a
tracker (DESIGN CHOICE, notes/assumptions/79). -/
def State.windowsDrained (s : State) (n : Nat) : Bool :=
  s.rep.trackers.all (fun t => t.ep != n || t.gen == s.get (F.REP_WIN_STAT_GEN n)) &&
  s.rep.waiting.all (fun w => epLocal w.frame.src != n || w.gen == s.get (F.REP_WIN_STAT_GEN n))

/-! ### The commands of the issuing side -/

/-- REQUEST_ISSUE. Opcodes that no engine asks for, and lengths outside 1 to 256 bytes of a piece, issue nothing. A REGS
request other than an aligned 8-byte LOAD or STORE, a host error of the host's own making (R77), is issued like any other, and
its target answers it with PermissionDenied (R78; DESIGN CHOICE, notes/assumptions/67). -/
def State.doRequestIssue (s : State) (queue : Fin 512) (req : Request) : State :=
  let op := req.opcode.toNat
  if isAsked op then s.issueMemory queue op req.addr.toNat req.bytes req.data req.xfmt .none else s

/-- TRACKER_WAIT_RELEASE. -/
def State.doTrackerWaitRelease (s : State) (queue : Fin 512) : State := s.releaseWaiting queue

/-- RESPONSE_RECEIVE. -/
def State.doResponseReceive (s : State) (ep : Fin 21) : State := s.responseReceive ep

/-- RESPONSE_TIMEOUT. -/
def State.doResponseTimeout (s : State) (tag : BitVec 18) : State :=
  match s.tracker tag.toNat with
  | some t => s.timeout t
  | none => s

/-- RETRY_SEND. -/
def State.doRetrySend (s : State) (tag : BitVec 18) : State :=
  match s.tracker tag.toNat with
  | some t => s.retrySend t
  | none => s

/-- CHANNEL_SEQ_RESET: a span of 2A + 128 turns without an open request or a first injection (R80). -/
def State.doChannelSeqReset (s : State) (ep : Fin 21) (dst : BitVec 20) (vc : Fin 8) : State :=
  let src := s.ownEp ep
  let gone := fun (c : TxChan) => c.src == src && c.dst == dst.toNat && c.vc == vc.val
    && decide (s.chanOpen src dst.toNat vc = 0) && decide (c.last + 2 * s.ageLimit + 128 ≤ s.clk)
  { s with rep := { s.rep with chans := s.rep.chans.filter (fun c => !gone c) } }

/-- FENCE_ENTER. -/
def State.doFenceEnter (s : State) (queue : Fin 512) (kind scope : Fin 4) : State := s.placeFence queue kind scope .none

/-- THROTTLE_RELEASE. -/
def State.doThrottleRelease (s : State) (p : Fin 128) (bg : Bool) : State := s.throttleRelease p (if bg then 3 else 2)

end Sys2Proof.Machine
end

