-- ==== Sys2Proof/Machine/Arith.lean ====
section
/-!
DEFINITION. Number formats and exact arithmetic (spec/07_arithmetic.md R148-R171): values, rounding, conversion, MX
quantisation, exact accumulators, the packed exact format, ordered sums.
-/
namespace Sys2Proof.Machine

/-! ### Formats (Tables 7-1, 7-2, 7-5, 8-2) -/

/-- The floating-point formats of Table 7-2. -/
inductive FloatKind where
  | fp64 | fp32 | fp16 | bf16 | e4m3 | e5m2 | e3m2 | e2m3 | e2m1
  deriving DecidableEq, Repr

/-- The element types of MX formats (Table 7-5). -/
inductive MxKind where
  | e4m3 | e5m2 | e3m2 | e2m3 | e2m1 | int8
  deriving DecidableEq, Repr

/-- The element formats (Tables 7-1 and 8-2). -/
inductive Fmt where
  | float (k : FloatKind)
  | mx (k : MxKind)
  /-- A two's-complement (`signed`) or unsigned integer of `bytes` bytes. -/
  | int (signed : Bool) (bytes : Nat)
  | xa320 | xa640 | bitmap | raw | htable
  deriving DecidableEq, Repr

/-- FMT byte to format; none where it is reserved. -/
def Fmt.ofCode (c : Nat) : Option Fmt :=
  if c = 0x01 then some (.float .fp64)
  else if c = 0x02 then some (.float .fp32)
  else if c = 0x03 then some (.float .fp16)
  else if c = 0x04 then some (.float .bf16)
  else if c = 0x05 then some (.float .e4m3)
  else if c = 0x06 then some (.float .e5m2)
  else if c = 0x08 then some (.mx .e4m3)
  else if c = 0x09 then some (.mx .e5m2)
  else if c = 0x0A then some (.mx .e3m2)
  else if c = 0x0B then some (.mx .e2m3)
  else if c = 0x0C then some (.mx .e2m1)
  else if c = 0x0D then some (.mx .int8)
  else if c = 0x10 then some (.int true 1)
  else if c = 0x11 then some (.int true 4)
  else if c = 0x12 then some (.int true 8)
  else if c = 0x18 then some .xa320
  else if c = 0x19 then some .xa640
  else if c = 0x80 then some (.int false 4)
  else if c = 0x81 then some (.int false 8)
  else if c = 0x82 then some .bitmap
  else if c = 0x83 then some .raw
  else if c = 0x84 then some .htable
  else none

/-- Significand width with the hidden bit. -/
def FloatKind.p : FloatKind → Nat
  | .fp64 => 53 | .fp32 => 24 | .fp16 => 11 | .bf16 => 8 | .e4m3 => 4 | .e5m2 => 3 | .e3m2 => 3 | .e2m3 => 4 | .e2m1 => 2

/-- Exponent field width. -/
def FloatKind.ebits : FloatKind → Nat
  | .fp64 => 11 | .fp32 => 8 | .fp16 => 5 | .bf16 => 8 | .e4m3 => 4 | .e5m2 => 5 | .e3m2 => 3 | .e2m3 => 2 | .e2m1 => 2

/-- Exponent bias. -/
def FloatKind.bias : FloatKind → Nat
  | .fp64 => 1023 | .fp32 => 127 | .fp16 => 15 | .bf16 => 127 | .e4m3 => 7 | .e5m2 => 15 | .e3m2 => 3 | .e2m3 => 1
  | .e2m1 => 1

/-- Smallest normal exponent. -/
def FloatKind.emin (k : FloatKind) : Int := 1 - (k.bias : Int)

/-- Bits of an encoding. -/
def FloatKind.bits (k : FloatKind) : Nat := k.ebits + k.p

/-- The format has infinities and NaNs as IEEE 754 lays them out. -/
def FloatKind.ieee : FloatKind → Bool
  | .fp64 | .fp32 | .fp16 | .bf16 | .e5m2 => true
  | .e4m3 | .e3m2 | .e2m3 | .e2m1 => false

/-- The largest finite value: significand and the weight of its last bit. -/
def FloatKind.maxFinite : FloatKind → Nat × Int
  | .fp64 => (2 ^ 53 - 1, 971) | .fp32 => (2 ^ 24 - 1, 104) | .fp16 => (2047, 5) | .bf16 => (255, 120)
  | .e4m3 => (14, 5) | .e5m2 => (7, 13) | .e3m2 => (7, 2) | .e2m3 => (15, -1) | .e2m1 => (3, 1)

/-- The canonical NaN of Table 7-2 (0 where the format has none). -/
def FloatKind.nan : FloatKind → Nat
  | .fp64 => 0x7FF8000000000000 | .fp32 => 0x7FC00000 | .fp16 => 0x7E00 | .bf16 => 0x7FC0 | .e4m3 => 0x7F | .e5m2 => 0x7E
  | .e3m2 | .e2m3 | .e2m1 => 0

/-! ### Values -/

/-- A value: NaN, an infinity, or (-1)^neg × m × 2^l. -/
inductive Num where
  | nan
  | inf (neg : Bool)
  | fin (neg : Bool) (m : Nat) (l : Int)
  deriving DecidableEq, Repr

/-- An exact integer. -/
def Num.ofInt (x : Int) : Num := .fin (decide (x < 0)) x.natAbs 0

/-- The value is zero. -/
def Num.isZero : Num → Bool
  | .fin _ m _ => m == 0
  | .nan | .inf _ => false

/-- A finite value as an integer multiple of 2^q, for q at most its own weight. -/
def scaled (neg : Bool) (m : Nat) (l q : Int) : Int :=
  let v : Int := (m : Int) * 2 ^ (l - q).toNat
  if neg then -v else v

/-- The product of two values (R165). -/
def Num.mul : Num → Num → Num
  | .nan, _ => .nan
  | _, .nan => .nan
  | .inf a, .inf b => .inf (a != b)
  | .inf a, .fin b m _ => if m = 0 then .nan else .inf (a != b)
  | .fin a m _, .inf b => if m = 0 then .nan else .inf (a != b)
  | .fin a m l, .fin b n k => .fin (a != b) (m * n) (l + k)

/-- A value times 2^e. -/
def Num.shift (e : Int) : Num → Num
  | .fin s m l => .fin s m (l + e)
  | .nan => .nan
  | .inf s => .inf s

/-- Order of two values that are not NaN: −0 below +0 (R154). -/
def Num.lt : Num → Num → Bool
  | .nan, _ => false
  | _, .nan => false
  | .inf a, .inf b => a && !b
  | .inf a, .fin _ _ _ => a
  | .fin _ _ _, .inf b => !b
  | .fin a m l, .fin b n k =>
    let q := min l k
    let x := scaled a m l q
    let y := scaled b n k q
    decide (x < y) || (x == y && m == 0 && a && !b)

/-- Minimum and maximum (R154). -/
def Num.minMax (isMax : Bool) (a b : Num) : Num :=
  if a = .nan ∨ b = .nan then .nan
  else if isMax then (if a.lt b then b else a) else (if b.lt a then b else a)

/-! ### Rounding (R156-R158) -/

/-- RMODE. -/
inductive Mode where
  | rne | rtz | rup | rdn | sr
  deriving DecidableEq, Repr

/-- RMODE's encoding (Table 6-1). -/
def Mode.ofCode (c : Nat) : Option Mode :=
  if c = 0 then some .rne else if c = 1 then some .rtz else if c = 2 then some .rup else if c = 3 then some .rdn
  else if c = 4 then some .sr else none

/-- How an output value is rounded: the mode, SAT, and the 64 random bits of its element (R158). -/
structure Rnd where
  mode : Mode
  sat : Bool
  sr : Nat
  deriving DecidableEq, Repr

/-- Every rounding inside an operation uses nearest even when RMODE is stochastic (R158). -/
def Rnd.inner (r : Rnd) : Rnd := if r.mode = .sr then { r with mode := .rne } else r

/-- sr_bits of R158. -/
def srBits (seed idx : Nat) : Nat :=
  let k := mix64 (BitVec.ofNat 64 seed + 0x9E3779B97F4A7C15#64)
  (mix64 (k ^^^ (BitVec.ofNat 64 idx * 0xD1B54A32D192ED03#64))).toNat

/-- Whether the magnitude is rounded up: `d` of `w` bits is discarded below `k`. -/
def roundUpBit (r : Rnd) (neg : Bool) (k d w : Nat) : Bool :=
  match r.mode with
  | .rne => decide (2 ^ (w - 1) < d) || (d == 2 ^ (w - 1) && k % 2 == 1)
  | .rtz => false
  | .rup => !neg
  | .rdn => neg
  | .sr => decide (2 ^ 32 ≤ d * 2 ^ 32 / 2 ^ w + r.sr / 2 ^ 32)

/-- `m × 2^l` rounded to a multiple of 2^q: the multiple. -/
def roundAt (r : Rnd) (neg : Bool) (m : Nat) (l q : Int) : Nat :=
  if l < q then
    let w := (q - l).toNat
    let k := m / 2 ^ w
    let d := m % 2 ^ w
    if d ≠ 0 ∧ roundUpBit r neg k d w then k + 1 else k
  else m * 2 ^ (l - q).toNat

/-- Position of the most significant set bit of a non-zero number. -/
def msb (m : Nat) : Nat := Nat.log2 m

/-- The sign bit placed above an encoding. -/
def FloatKind.signed (k : FloatKind) (neg : Bool) (x : Nat) : Nat := x + (if neg then 2 ^ (k.bits - 1) else 0)

/-- The encoding of significand `c` with last-bit weight 2^q. -/
def FloatKind.encode (k : FloatKind) (neg : Bool) (c : Nat) (q : Int) : Nat :=
  let h := 2 ^ (k.p - 1)
  k.signed neg (if c < h then c else (q + k.bias + k.p - 1).toNat * h + (c - h))

/-- ±max. -/
def FloatKind.maxBits (k : FloatKind) (neg : Bool) : Nat := k.encode neg k.maxFinite.1 k.maxFinite.2

/-- ±Inf of a format that has it. -/
def FloatKind.infBits (k : FloatKind) (neg : Bool) : Nat := k.signed neg ((2 ^ k.ebits - 1) * 2 ^ (k.p - 1))

/-- Overflow to a format outside MX (Table 7-3). -/
def FloatKind.overflow (k : FloatKind) (r : Rnd) (neg : Bool) : Nat :=
  if k.ieee then
    match r.mode with
    | .rne | .sr => k.infBits neg
    | .rtz => k.maxBits neg
    | .rup => if neg then k.maxBits true else k.infBits false
    | .rdn => if neg then k.infBits true else k.maxBits false
  else if r.sat then k.maxBits neg else k.nan

/-- The rounded significand and its weight, before the range check (R156). -/
def FloatKind.roundFin (k : FloatKind) (r : Rnd) (neg : Bool) (m : Nat) (l : Int) : Nat × Int :=
  let e := max ((msb m : Int) + l) k.emin
  let q := e - ((k.p : Int) - 1)
  let c := roundAt r neg m l q
  if c = 2 ^ k.p then (c / 2, q + 1) else (c, q)

/-- A rounded significand is beyond the largest finite value. -/
def FloatKind.beyond (k : FloatKind) (c : Nat) (q : Int) : Bool :=
  decide (k.maxFinite.2 < q ∧ 0 < c) || (q == k.maxFinite.2 && decide (k.maxFinite.1 < c))

/-- round_fmt, with Table 7-3 for special values, to a format outside MX. -/
def FloatKind.ofNum (k : FloatKind) (r : Rnd) : Num → Nat
  | .nan => k.nan
  | .inf s => if k.ieee then k.infBits s else if r.sat then k.maxBits s else k.nan
  | .fin s m l =>
    if m = 0 then k.signed s 0
    else
      let (c, q) := k.roundFin r s m l
      if k.beyond c q then k.overflow r s else k.encode s c q

/-- round_fmt to an MX element: ±max on overflow (Table 7-3). -/
def FloatKind.ofNumMx (k : FloatKind) (r : Rnd) : Num → Nat
  | .nan => 0
  | .inf s => k.maxBits s
  | .fin s m l =>
    if m = 0 then k.signed s 0
    else
      let (c, q) := k.roundFin r s m l
      if k.beyond c q then k.maxBits s else k.encode s c q

/-- The value of an encoding (R149). -/
def FloatKind.toNum (k : FloatKind) (x : Nat) : Num :=
  let h := 2 ^ (k.p - 1)
  let s := bitAt x (k.bits - 1)
  let e := bitsOf x (k.bits - 2) (k.p - 1)
  let f := x % h
  let top := 2 ^ k.ebits - 1
  if k.ieee ∧ e = top then (if f = 0 then .inf s else .nan)
  else if k = .e4m3 ∧ e = top ∧ f = h - 1 then .nan
  else if e = 0 then .fin s f (k.emin - k.p + 1)
  else .fin s (h + f) ((e : Int) - k.bias - k.p + 1)

/-- Rounding to an integer format: quantum 1, saturating; NaN gives 0 (Tables 7-3, 7-4). -/
def intOfNum (signed : Bool) (bytes : Nat) (r : Rnd) (x : Num) : Int :=
  let w := 8 * bytes
  let hi : Int := if signed then 2 ^ (w - 1) - 1 else 2 ^ w - 1
  let lo : Int := if signed then -(2 ^ (w - 1)) else 0
  match x with
  | .nan => 0
  | .inf s => if s then lo else hi
  | .fin s m l =>
    let k : Int := roundAt r s m l 0
    let v := if s then -k else k
    max lo (min hi v)

/-! ### Exact accumulators (R164-R169) -/

/-- An exact accumulator: STATE (Table 7-7) and VALUE. -/
structure Xa where
  st : Nat := 0
  v : Int := 0
  deriving DecidableEq, Repr

/-- STATE combination (Table 7-7). -/
def xaCombine (a b : Nat) : Nat := if a = 0 then b else if b = 0 then a else if a = b then a else 3

/-- A value taken modulo 2^w into two's complement. -/
def wrapTo (w : Nat) (x : Int) : Int := signedOf w (twosOf w x)

/-- Weight of bit 0 and width of VALUE: XA-640, XA-320. -/
def xa640Lsb : Int := -298
def xa640Bits : Nat := 638
def xa320Lsb : Int := -149
def xa320Bits : Nat := 318

/-- The STATE that an addend brings. -/
def Num.xaState : Num → Nat
  | .fin _ _ _ => 0
  | .inf s => if s then 2 else 1
  | .nan => 3

/-- xa_add into XA-640 (R165). -/
def Xa.add (x : Xa) (a : Num) : Xa :=
  let st := xaCombine x.st a.xaState
  if st ≠ 0 then { st := st, v := 0 }
  else match a with
    | .fin s m l => { st := 0, v := wrapTo xa640Bits (x.v + scaled s m l xa640Lsb) }
    | .inf _ | .nan => { st := st, v := 0 }

/-- The exact sum of values in XA-640. -/
def xaSum (l : List Num) : Xa := l.foldl Xa.add {}

/-- Two accumulators added. -/
def Xa.merge (a b : Xa) : Xa :=
  let st := xaCombine a.st b.st
  if st ≠ 0 then { st := st, v := 0 } else { st := 0, v := wrapTo xa640Bits (a.v + b.v) }

/-- The value of an accumulator with bit 0 at weight 2^lsb (R167: a zero sum is +0). -/
def Xa.toNum (x : Xa) (lsb : Int) : Num :=
  if x.st = 3 then .nan
  else if x.st = 1 then .inf false
  else if x.st = 2 then .inf true
  else .fin (decide (x.v < 0)) x.v.natAbs lsb

/-- A value rounded to a multiple of 2^lsb and taken into an accumulator of `w` VALUE bits (Table 7-4). -/
def Xa.ofNum (w : Nat) (lsb : Int) (r : Rnd) (a : Num) : Xa :=
  match a with
  | .fin s m l =>
    let k : Int := roundAt r s m l lsb
    { st := 0, v := wrapTo w (if s then -k else k) }
  | .inf _ | .nan => { st := a.xaState, v := 0 }

/-- The layout of Table 7-6: STATE above `w` bits of VALUE. -/
def Xa.bits (x : Xa) (w : Nat) : Nat := twosOf w x.v + x.st % 4 * 2 ^ w
/-- The accumulator that bits hold. -/
def Xa.ofBits (w b : Nat) : Xa := { st := b / 2 ^ w % 4, v := signedOf w (b % 2 ^ w) }

/-- XA-640 to XA-320 where every term is a multiple of 2^-149 (R178). -/
def Xa.toXa320 (x : Xa) : Xa := { st := x.st, v := wrapTo xa320Bits (x.v / 2 ^ 149) }

/-- Limb `j` of the 640-bit number (R169). -/
def Xa.limb (x : Xa) (j : Nat) : Nat := twosOf 640 x.v / 2 ^ (64 * j) % 2 ^ 64

/-- Limbs `[i, 10)` are all `f`. -/
def Xa.limbsFrom (x : Xa) (i f : Nat) : Bool := (List.range (10 - i)).all (fun j => x.limb (i + j) == f)

/-- The canonical XA-P encoding (R169). -/
def Xa.pack (x : Xa) : List Byte :=
  if x.st ≠ 0 then [BitVec.ofNat 8 (0x10 * x.st)]
  else if x.v = 0 then [0]
  else
    let start := ((List.range 10).find? (fun j => x.limb j != 0)).getD 0
    let fill := fun i => if bitAt (x.limb i) 63 then 2 ^ 64 - 1 else 0
    let count := ((List.range (10 - start)).find? (fun c => x.limbsFrom (start + c + 1) (fill (start + c)))).getD (9 - start) + 1
    BitVec.ofNat 8 (16 * start + count) :: (List.range count).flatMap (fun j => toBytesLE 8 (x.limb (start + j)))

/-- What an XA-P encoding at the head of a byte string decodes to, and how many bytes it takes. -/
def Xa.unpack (b : List Byte) : Xa × Nat :=
  let h := bytesAt b 0 1
  let start := h / 16
  let count := h % 16
  if count = 0 then
    (if h = 0 then {} else if h = 0x10 then { st := 1 } else if h = 0x20 then { st := 2 } else { st := 3 }, 1)
  else if 10 < start + count then ({ st := 3 }, 1 + 8 * count)
  else
    let raw := bytesAt b 1 (8 * count) * 2 ^ (64 * start)
    ({ st := 0, v := wrapTo xa640Bits (signedOf (64 * (start + count)) raw) }, 1 + 8 * count)

/-! ### Elements -/

/-- The float format of an MX element type. -/
def MxKind.float : MxKind → FloatKind
  | .e4m3 => .e4m3 | .e5m2 => .e5m2 | .e3m2 => .e3m2 | .e2m3 => .e2m3 | .e2m1 => .e2m1
  | .int8 => .e2m1

/-- emax_elem (Table 7-5). -/
def MxKind.emax : MxKind → Int
  | .e4m3 => 8 | .e5m2 => 15 | .e3m2 => 4 | .e2m3 => 2 | .e2m1 => 2 | .int8 => 0

/-- Bits of an MX element. -/
def MxKind.bits : MxKind → Nat
  | .e4m3 | .e5m2 | .int8 => 8 | .e3m2 | .e2m3 => 6 | .e2m1 => 4

/-- The value of an MX element under a scale (R149, R163). -/
def MxKind.toNum (k : MxKind) (x scale : Nat) : Num :=
  if scale = 255 then .nan
  else
    let v : Num := match k with
      | .int8 => let n := signedOf 8 x; .fin (decide (n < 0)) n.natAbs (-6)
      | .e4m3 | .e5m2 | .e3m2 | .e2m3 | .e2m1 =>
        let f := k.float
        match f.toNum x with
        | .fin s m l => .fin s m l
        | .nan | .inf _ => .fin (bitAt x (f.bits - 1)) f.maxFinite.1 f.maxFinite.2
    v.shift ((scale : Int) - 127)

/-- The value of an element. -/
def Fmt.toNum (f : Fmt) (e : Elem) : Num :=
  match f with
  | .float k => k.toNum e.bits
  | .mx k => k.toNum e.bits e.scale
  | .int true b => .ofInt (signedOf (8 * b) e.bits)
  | .int false b => .fin false (e.bits % 2 ^ (8 * b)) 0
  | .xa320 => (Xa.ofBits xa320Bits e.bits).toNum xa320Lsb
  | .xa640 => (Xa.ofBits xa640Bits e.bits).toNum xa640Lsb
  | .bitmap | .raw | .htable => .fin false e.bits 0

/-- The integer an element of an integer format holds. -/
def Fmt.toInt (f : Fmt) (e : Elem) : Int :=
  match f with
  | .int true b => signedOf (8 * b) e.bits
  | .int false b => (e.bits % 2 ^ (8 * b) : Nat)
  | .float _ | .mx _ | .xa320 | .xa640 | .bitmap | .raw | .htable => 0

/-- A value converted to a format outside MX (Table 7-4). -/
def Fmt.ofNum (f : Fmt) (r : Rnd) (x : Num) : Nat :=
  match f with
  | .float k => k.ofNum r x
  | .int s b => twosOf (8 * b) (intOfNum s b r x)
  | .xa320 => (Xa.ofNum xa320Bits xa320Lsb r x).bits xa320Bits
  | .xa640 => (Xa.ofNum xa640Bits xa640Lsb r x).bits xa640Bits
  | .mx _ | .bitmap | .raw | .htable => 0

/-- Kinds of format. -/
def Fmt.isFloat : Fmt → Bool
  | .float _ => true
  | .mx _ | .int _ _ | .xa320 | .xa640 | .bitmap | .raw | .htable => false
def Fmt.isMx : Fmt → Bool
  | .mx _ => true
  | .float _ | .int _ _ | .xa320 | .xa640 | .bitmap | .raw | .htable => false
def Fmt.isInt : Fmt → Bool
  | .int _ _ => true
  | .float _ | .mx _ | .xa320 | .xa640 | .bitmap | .raw | .htable => false
def Fmt.isXa (f : Fmt) : Bool := f == .xa320 || f == .xa640
def Fmt.isFp64 (f : Fmt) : Bool := f == .float .fp64
/-- A format whose elements are numbers. -/
def Fmt.isNumeric (f : Fmt) : Bool := f.isFloat || f.isMx || f.isInt || f.isXa

/-! ### Ordered sums (R170) -/

/-- One IEEE 754 addition before rounding: exact, with the sign of a zero sum (R170). -/
def Num.addExact (down : Bool) : Num → Num → Num
  | .nan, _ => .nan
  | _, .nan => .nan
  | .inf a, .inf b => if a = b then .inf a else .nan
  | .inf a, .fin _ _ _ => .inf a
  | .fin _ _ _, .inf b => .inf b
  | .fin a m l, .fin b n k =>
    let q := min l k
    let x := scaled a m l q + scaled b n k q
    if x = 0 then .fin (if m = 0 ∧ n = 0 ∧ a = b then a else down) 0 q
    else .fin (decide (x < 0)) x.natAbs q

/-- A value rounded to a float format, as a value. -/
def FloatKind.round (k : FloatKind) (r : Rnd) (x : Num) : Num := k.toNum (k.ofNum r x)

/-- One rounded addition in format `k`. -/
def FloatKind.add (k : FloatKind) (r : Rnd) (a b : Num) : Num := k.round r (Num.addExact (r.mode == .rdn) a b)

/-- The largest power of two below `n`, for n at least 2. -/
def powBelow (n : Nat) : Nat := 2 ^ msb (n - 1)

/-- The tree of R170 over `t`; its last addition is rounded by `top`, every other by `r`. `fuel` bounds its depth. -/
def orderedTree (k : FloatKind) (r : Rnd) : Nat → Rnd → List Num → Num
  | _, _, [] => .fin false 0 0
  | _, _, [x] => x
  | 0, _, x :: _ :: _ => x
  | fuel + 1, top, a :: b :: t =>
    let l := a :: b :: t
    let h := powBelow l.length
    k.add top (orderedTree k r fuel r (l.take h)) (orderedTree k r fuel r (l.drop h))

/-- The ordered sum of terms in format `k` (R170). -/
def orderedSum (k : FloatKind) (top : Rnd) (t : List Num) : Num := orderedTree k top.inner t.length top t

/-! ### MX quantisation (R162) -/

/-- The exponent of the leading bit of a finite value. -/
def Num.lead : Num → Int
  | .fin _ m l => (msb m : Int) + l
  | .nan | .inf _ => 0

/-- The largest magnitude of a block: the leading exponent of X, none where X is 0. -/
def blockLead (l : List Num) : Option Int :=
  l.foldl (fun o x => if x.isZero then o else match o with
    | none => some x.lead
    | some e => some (max e x.lead)) none

/-- The scale code of a block, and its element codes; `rnd i` rounds element `i` of the block. -/
def mxBlock (k : MxKind) (rnd : Nat → Rnd) (xs : List Num) : Nat × List Nat :=
  let special := xs.any (fun x => match x with
    | .fin _ _ _ => false
    | .nan => true
    | .inf _ => true)
  if special then (255, xs.map (fun _ => 0))
  else
    let s : Int := match blockLead xs with
      | none => -127
      | some e => max (-127) (min 127 (e - k.emax))
    let code := fun (x : Num) (r : Rnd) => match k with
      | .int8 => match x with
        | .fin sg m l =>
          let v : Int := roundAt r sg m (l - s) (-6)
          twosOf 8 (if sg then -(min v 127) else min v 127)
        | .nan => 0
        | .inf _ => 0
      | .e4m3 | .e5m2 | .e3m2 | .e2m3 | .e2m1 => k.float.ofNumMx r (x.shift (-s))
    ((s + 127).toNat, (xs.zipIdx).map (fun (x, i) => code x (rnd i)))

/-! ### Sums of operations (R171, R178) -/

/-- The arithmetic in which an operation accumulates. -/
inductive AccKind where
  | exact
  | ordered (k : FloatKind)
  /-- Integer inputs only: some input is signed; the old value of an INOUT output is added exactly (EXACT = 1). -/
  | integer (signed exact : Bool)
  deriving DecidableEq, Repr

/-- The accumulation of inputs of formats `fs` (R178). -/
def accKind (exact : Bool) (fs : List Fmt) : AccKind :=
  if fs.all (·.isInt) then .integer (fs.any (fun f => match f with
    | .int s _ => s
    | .float _ | .mx _ | .xa320 | .xa640 | .bitmap | .raw | .htable => false)) exact
  else if exact then .exact
  else .ordered (if fs.any (·.isFp64) then .fp64 else .fp32)

/-- A finished output value before its place in an output format: a number to be rounded, or final bits. -/
structure OutVal where
  num : Num := .fin false 0 0
  /-- The bits of a scalar output. -/
  bits : Nat := 0
  poison : Bool := false
  deriving DecidableEq, Repr

/-- An output value that is a number, rounded to `f` (MX formats are quantised later). -/
def OutVal.ofNum (f : Fmt) (r : Rnd) (x : Num) (poison : Bool) : OutVal :=
  { num := x, bits := f.ofNum r x, poison := poison }

/-- A 64-bit integer sum as a number (R171). -/
def sum64 (signed : Bool) (x : Int) : Num :=
  if signed then .ofInt (wrapTo 64 x) else .fin false (twosOf 64 x) 0

/-- An exact sum, and the old value of an INOUT element as one further term, as an output of format `f` (R165-R167, R178). -/
def exactOut (f : Fmt) (r : Rnd) (terms : List Num) (old : Option Num) (poison : Bool) : OutVal :=
  let x := (xaSum terms).merge (xaSum old.toList)
  let n := x.toNum xa640Lsb
  match f with
  | .xa640 => { num := n, bits := x.bits xa640Bits, poison := poison }
  | .xa320 => { num := n, bits := x.toXa320.bits xa320Bits, poison := poison }
  | .float _ | .mx _ | .int _ _ | .bitmap | .raw | .htable => .ofNum f r n poison

/-- The sum of terms in the accumulation `acc`, with the old value `old` of an INOUT element as one further term, as an
output of format `f` (R178). Terms of ordered sums are rounded to the accumulation format first; `dot`: integer terms
are products, summed in 64-bit two's complement and converted. The sums that R171 forms modulo 2^64 are those of a float or MX output:
an accumulator takes each integer term exactly (R165). -/
def sumOut (acc : AccKind) (dot : Bool) (f : Fmt) (r : Rnd) (terms : List Num) (old : Option Num) (poison : Bool) : OutVal :=
  match acc with
  | .exact => exactOut f r terms old poison
  | .ordered k =>
    let top := if f = .float k ∧ old = none then r else r.inner
    let last := if f = .float k then r else r.inner
    let ts := match terms with
      | [t] => [k.round top t]
      | _ => terms.map (k.round r.inner)
    let sum := orderedSum k top ts
    let v := match old with
      | none => sum
      | some o => k.add last sum (k.round r.inner o)
    if f = .float k then { num := v, bits := k.ofNum r.inner v, poison := poison } else .ofNum f r v poison
  | .integer sg exact =>
    let toI := fun (x : Num) => match x with
      | .fin s m l => scaled s m l 0
      | .nan => 0
      | .inf _ => 0
    let total := (terms.map toI).foldl (· + ·) 0
    match f with
    | .int _ b =>
      let t := total + (old.map toI).getD 0
      if dot then .ofNum f r (.ofInt (wrapTo 64 t)) poison
      else { num := .ofInt t, bits := twosOf (8 * b) t, poison := poison }
    | .xa320 | .xa640 => exactOut f r terms old poison
    | .float _ | .mx _ | .bitmap | .raw | .htable =>
      let n := sum64 (sg || dot) total
      match old with
      | none => .ofNum f r n poison
      | some o =>
        if exact then exactOut f r [n] (some o) poison
        else
          let k : FloatKind := .fp32
          let last := if f = .float k then r else r.inner
          let v := k.add last (k.round r.inner n) (k.round r.inner o)
          if f = .float k then { num := v, bits := k.ofNum r.inner v, poison := poison } else .ofNum f r v poison

end Sys2Proof.Machine
end

