-- ==== Sys2Proof/Machine/PlateMem.lean ====
section
/-!
DEFINITION. The plate store as operands and as fabric target (spec/06_plate_array.md R125, spec/13_hbm_and_hatch_code.md
R294-R296): granules by PLATE offset, checked where the plate array or the plate end-point reads them.
-/
namespace Sys2Proof.Machine

/-- The 32 bytes of plate-store granule `g` (offset / 32). -/
def State.plateBytes (s : State) (g : Nat) : List Byte := Sparse.getBytes (fun _ => 0) s.plate.bytes (32 * g) 32
/-- Whether plate-store granule `g` is poisoned. -/
def State.platePoisoned (s : State) (g : Nat) : Bool := Sparse.get (fun _ => false) s.plate.poison g

/-- Plate-store granule `g` as stored: the plate end-point moves it whole, unchecked (Table 13-3). -/
def State.plateGranule (s : State) (g : Nat) : Granule := { data := s.plateBytes g, poison := s.platePoisoned g }

/-- `s` with plate-store granule `g` rewritten. -/
def State.plateRewrite (s : State) (g : Nat) (x : Granule) : State :=
  { s with plate := { s.plate with
      bytes := Sparse.setBytes (fun _ => 0) s.plate.bytes (32 * g) x.data
      poison := Sparse.set (fun _ => false) s.plate.poison g x.poison } }

/-- Plate-store granule `g` as the operand check delivers it: symbol errors reach the plate store only by injection
(R294, R295, R469). -/
def State.plateLoad (s : State) (g : Nat) : Granule × State :=
  let (inj, s1) := s.takeInjection 9 0
  let (x, _, s2) := s1.checkPoint F.PLT_ECC_CORR F.PLT_ECC_UNCORR 9 0 { addr := nearAddr s1.member 1 (32 * g), detail0 := 2 }
    { data := s1.plateBytes g, poison := s1.platePoisoned g } inj
  (x, s2)

/-- Bytes stored into plate-store granule `g` from byte `lo`: a whole granule replaces data and poison, a partial one is
merged (R296). -/
def State.plateStoreGranule (s : State) (g lo : Nat) (data : List Byte) (poison : Bool) : State :=
  if lo = 0 ∧ data.length = 32 then s.plateRewrite g { data := data, poison := poison }
  else
    let old := s.plateBytes g
    s.plateRewrite g
      { data := old.take lo ++ data ++ old.drop (lo + data.length), poison := s.platePoisoned g || poison }

end Sys2Proof.Machine
end

