-- ==== Sys2Proof/Machine/Target.lean ====
section
/-!
DEFINITION. The target side of a Ronpel end-point (spec/04_ronpel_transactions.md R81-R87, R91-R93, R97,
spec/05_memory_model.md R104-R106, R112): channels, duplicates, parked proof writes, the result log, line queues and
pinned lines.
-/
namespace Sys2Proof.Machine

/-! ### Channels (R85) -/

/-- A channel state of an end-point. -/
def EpState.chan (e : EpState) (src vc : Nat) : Option Chan := e.chans.find? (fun c => c.src == src && c.vc == vc)

/-- `e` with a channel state set. -/
def EpState.setChan (e : EpState) (c : Chan) : EpState :=
  if (e.chan c.src c.vc).isSome then
    { e with chans := e.chans.map (fun x => if x.src = c.src ∧ x.vc = c.vc then c else x) }
  else { e with chans := e.chans ++ [c] }

/-- How far SEQ `q` lies ahead of `next`, modulo 2^32. -/
def seqAhead (q next : Nat) : Nat := (q + 2 ^ 32 - next % 2 ^ 32) % 2 ^ 32

/-- Frames that an end-point holds ahead of gaps. -/
def EpState.heldCount (e : EpState) : Nat := e.chans.foldl (fun n c => n + c.held.length) 0

/-- A request of this channel and SEQ is parked. -/
def EpState.parked (e : EpState) (src vc seq : Nat) : Option ParkedWrite :=
  e.parks.find? (fun p => p.src == src && p.vc == vc && p.frame.seq == seq)

/-- SEQ `q` is behind the next expected value, or was taken before it. -/
def Chan.behind (c : Chan) (q : Nat) : Bool := decide (2 ^ 31 ≤ seqAhead q c.next) || c.skip.contains q

/-- A channel with its next expected SEQ taken. -/
def Chan.advance (c : Chan) : Chan :=
  { c with next := (c.next + 1) % 2 ^ 32, skip := c.skip.filter (· != c.next) }

/-- `s` with request `f` of a channel noted as taken and not yet answered. -/
def State.noteTaken (s : State) (n : Nat) (f : Frame) : State :=
  let e := s.ep n
  match e.chan f.src f.vc with
  | some c => s.setEp n (e.setChan { c with taken := c.taken.erase f.seq ++ [f.seq] })
  | none => s

/-- Request `f` has been taken and not been answered: of a duplicate answered, there is none such. -/
def EpState.isOpen (e : EpState) (f : Frame) : Bool := ((e.chan f.src f.vc).map (fun c => c.taken.contains f.seq)).getD false

/-! ### The result log (R86) -/

/-- Entries of end-point `n`'s result log. -/
def logSize (n : Nat) : Nat := if n = 16 ∨ n = 17 then 16384 else 1024

/-- The log entry of a request. -/
def EpState.logged (e : EpState) (f : Frame) : Option LogEntry :=
  e.log.find? (fun l => l.src == f.src && l.vc == f.vc && l.seq == f.seq)

/-- Atomics taken and not yet performed: each will need a log entry. -/
def EpState.atomicsOpen (e : EpState) : Nat :=
  (e.work.filter (fun w => isAtomic8 w.frame.opcode && !w.dup && !w.lines.isEmpty)).length

/-- The result log of end-point `n` has room for one more. -/
def State.logRoom (s : State) (n : Nat) : Bool :=
  decide ((s.ep n).log.length + (s.ep n).atomicsOpen < logSize n)

/-- `s` with a log entry taken for request `f`, where the log has room. -/
def State.logResult (s : State) (n : Nat) (f : Frame) (op st prior : Nat) : State :=
  let e := s.ep n
  if e.log.length < logSize n then
    s.setEp n { e with log := e.log ++
      [{ src := f.src, vc := f.vc, seq := f.seq, status := st, opcode := op, prior := prior, at' := s.clk }] }
  else s

/-- `e` with the entries of `f`'s channel freed that are 512 or more behind it (R86). -/
def EpState.freeLog (e : EpState) (f : Frame) : EpState :=
  { e with log := e.log.filter (fun l =>
      !(l.src == f.src && l.vc == f.vc && decide (512 ≤ seqAhead f.seq l.seq ∧ seqAhead f.seq l.seq < 2 ^ 31))) }

/-! ### Answers -/

/-- Bytes from ADDR that a memory request touches. -/
def Frame.touch (f : Frame) : Nat := if f.opcode = opXa then 80 else if isAtomic8 f.opcode then 8 else f.bytes

/-- The lines that a memory request touches. -/
def Frame.lines (f : Frame) : List Nat :=
  let a := addrOffset f.addr
  if f.touch = 0 then [a / 128]
  else (List.range ((a + f.touch - 1) / 128 - a / 128 + 1)).map (a / 128 + ·)

/-- The opcode of a request's response (Table 4-1). -/
def answerOp (op : Nat) : Nat := if op = opLoad then opLoadRsp else if isAtomic8 op then opAtomRsp else opAck

/-- `s` with request `f` answered NACK Refused and not taken (R87). -/
def State.refuse (s : State) (n : Nat) (f : Frame) : State :=
  (s.count (F.REP_CNT_NACKS n) 1).sendResponse (s.response f opNack 0x10)

/-- `s` with a taken request's SEQ no longer unanswered. -/
def State.noteAnswered (s : State) (n : Nat) (f : Frame) : State :=
  let e := s.ep n
  match e.chan f.src f.vc with
  | some c => s.setEp n (e.setChan { c with taken := c.taken.erase f.seq })
  | none => s

/-- `e` with work it holds discarded. -/
def EpState.dropWork (e : EpState) (gone : Work → Bool) : EpState :=
  let ids := (e.work.filter gone).map (·.id)
  { e with
    work := e.work.filter (fun w => !gone w),
    lines := e.lines.map (fun y =>
      let q := y.2.queue.filter (fun i => !ids.contains i)
      (y.1, { y.2 with queue := q, reading := y.2.reading && q.head? == y.2.queue.head? })) }

/-- Request `g` follows `f` in its channel. -/
def Frame.follows (g f : Frame) : Bool :=
  g.src == f.src && g.dst == f.dst && g.vc == f.vc && decide (1 ≤ seqAhead g.seq f.seq ∧ seqAhead g.seq f.seq < 2 ^ 31)

/-- Work not begun, of a request that follows `f` in its channel. -/
def Work.unbegun (w : Work) (f : Frame) : Bool :=
  w.frame.opcode != opGo && !w.dup && w.lines == w.frame.lines && w.waits.isEmpty && w.frame.follows f

/-- The PEER request of a host access that follows `f` in its channel and has not been performed. -/
def HostAccess.unbegun (h : HostAccess) (f : Frame) : Option Frame :=
  match h.use with
  | .peer g => if g.follows f then some g else none
  | .report _ _ | .descFetch _ | .descWrite _ _ | .dmaPart _ _ | .dmaRead _ _ _ _ | .dmaWrite _ _ _ _ _ | .plateOut _ => none

/-- `s` with the requests that follow `f` in its channel, were taken at end-point `n` and are not begun no longer taken; and those
requests. -/
def State.untake (s : State) (n : Nat) (f : Frame) : List Frame × State :=
  let e := s.ep n
  let ws := e.work.filter (fun w => w.unbegun f)
  let sv := e.service.filter (fun g => g.follows f)
  let ps := s.att.flatMap (fun a => a.2.accesses.filterMap (fun h => h.unbegun f))
  let s1 := s.setEp n { e.dropWork (fun w => w.unbegun f) with service := e.service.filter (fun g => !g.follows f) }
  (ws.map (·.frame) ++ sv ++ ps, { s1 with att := s1.att.map (fun a =>
    (a.1, { a.2 with accesses := a.2.accesses.filter (fun h => (h.unbegun f).isNone) })) })

/-- `s` with request `f`, which was taken and not performed, refused after all: its outcome needs a log entry and none is free, so
it is not taken (R86, R87). Its channel expects it again; the requests behind it that have not begun are held once more, and
those that have been answered or parked are passed over when their turn comes. At most 511 follow it (R80). -/
def State.refuseTaken (s : State) (n : Nat) (f : Frame) : State :=
  let (back, s1) := s.untake n f
  let e := s1.ep n
  match e.chan f.src f.vc with
  | some c =>
    let after := (List.range (min 512 (seqAhead c.next f.seq - 1))).map (fun i => (f.seq + 1 + i) % 2 ^ 32)
    let isBack := fun (q : Nat) => back.any (fun g => g.seq == q)
    (s1.setEp n (e.setChan { c with
      next := f.seq, held := c.held ++ back, taken := c.taken.filter (fun q => !(q == f.seq || isBack q)),
      skip := c.skip ++ after.filter (fun q => !isBack q) })).refuse n f
  | none => s1.refuse n f

/-- `s` with a request answered: its final response, `op` with status `st`, sent, and its result logged where its status
is not Completed (R86); refused where the log has no entry for that (R87). A duplicate that is answered takes no entry. -/
def State.answerAs (s : State) (n : Nat) (f : Frame) (op st : Nat) (r : Frame → Frame) : State :=
  let s1 := s.noteAnswered n f
  if st = 1 ∨ ((s1.ep n).logged f).isSome = true ∨ (s.ep n).isOpen f = false then s1.sendResponse (r (s1.response f op st))
  else if s1.logRoom n then
    let s2 := s1.logResult n f op st 0
    s2.sendResponse (r (s2.response f op st))
  else s1.refuseTaken n f

/-- `s` with a taken request answered by the response to its opcode. -/
def State.answer (s : State) (n : Nat) (f : Frame) (st : Nat) (r : Frame → Frame) : State :=
  s.answerAs n f (answerOp f.opcode) st r

/-- `s` with a request taken and answered at once with a status other than Completed; none where the log is full. -/
def State.takeFailed (s : State) (n : Nat) (f : Frame) (st : Nat) : Option State :=
  if s.logRoom n then some ((s.noteTaken n f).answer n f st id) else none

/-! ### Checks at the target (R68, R78, R81, R82) -/

/-- The kind of addresses that end-point `n` serves. -/
def epKind (n : Nat) : Nat := if n < 16 then 2 else if n = 16 then 0 else if n = 17 then 1 else 3

/-- The offset of a memory request exists and is open to the fabric (R62, R68). -/
def State.openOffset (s : State) (f : Frame) : Bool :=
  let off := addrOffset f.addr
  offsetExists (addrKind f.addr) off f.touch && (addrKind f.addr != 0 || decide (off + f.touch ≤ s.spillBase))

/-- End-point `n` accepts request `f` (Table 4-4, R68, R81, R82). -/
def State.accepts (s : State) (n : Nat) (f : Frame) : Bool :=
  isMemory f.opcode && addrKind f.addr == epKind n &&
  (n == 16 || n == 17 || !isAtomic f.opcode) && s.openOffset f &&
  (!isAtomic8 f.opcode || f.addr % 8 == 0) && (f.opcode != opXa || (f.addr % 128 == 0 && decide (f.xfmt ≤ 2)))

/-! ### Lines (R91-R93) -/

/-- Entries of a line queue open to a request with this TRIES (R91). The last quarter of a LINE_MAX that is no multiple of 4 is
its quarter rounded down (DESIGN CHOICE, notes/assumptions/66); a LINE_MAX outside 64 to 16,384 acts as written, the spec giving
the range only (DESIGN CHOICE, notes/assumptions/79). -/
def State.lineRoom (s : State) (n tries : Nat) : Nat :=
  let m := s.get (F.REP_HOT_LINE_MAX n)
  if tries = 0 then m - m / 4 else m

/-- The quadrant of an HBM line's stack. -/
def lineQuadrant (l : Nat) : Nat := hbmStack (128 * l) / 6

/-- Pinned lines, of quadrant `q` where one is named. -/
def EpState.pinned (e : EpState) (q : Option Nat) : Nat :=
  (e.lines.filter (fun x => (x.2.copy.map (·.pinned)).getD false && (q.isNone || q == some (lineQuadrant x.1)))).length

/-- The four granules of HBM line `l` read and decoded for a copy in SRAM, and the state after. -/
def State.copyLine (s : State) (l : Nat) : List (Nat × Granule) × State :=
  (List.range 4).foldl (fun (acc : List (Nat × Granule) × State) i =>
    let (d, p, t) := acc.2.hbmLoad (4 * l + i)
    (acc.1 ++ [(i, { data := d, poison := p })], t)) ([], s.activate (128 * l))

/-- `s` with HBM line `l` pinned, or held in a line buffer, where it has taken THRESH requests in WINDOW turns (R92). A THRESH
below its minimum of 4 acts as 4 here, and as written where a line is unpinned: the spec gives the range only (DESIGN CHOICE,
notes/assumptions/79). -/
def State.pinCheck (s : State) (l : Nat) : State :=
  let e := s.ep 16
  let v := e.line l
  let hot := (v.times.filter (fun t => decide (s.clk < t + s.get (F.REP_HOT_WINDOW 16)))).length
  if s.flag (F.REP_HOT_PIN_EN 16) && v.copy.isNone && s.slotFor (128 * l) 128 && decide (max 4 (s.get (F.REP_HOT_THRESH 16)) ≤ hot) then
    let pin := decide (e.pinned (some (lineQuadrant l)) < 8192)
    let (gs, s1) := s.copyLine l
    let e1 := s1.ep 16
    s1.setEp 16 (e1.setLine l { e1.line l with copy := some { gran := gs, pinned := pin, since := s1.clk } })
  else s

/-- `s` with a request entered in the queues of its lines; none where one of them has no entry for it (R87, R91). -/
def State.enterLines (s : State) (n : Nat) (f : Frame) (dup : Bool) : Option State :=
  let ls := f.lines
  let e := s.ep n
  if ls.all (fun l => decide ((e.line l).queue.length < s.lineRoom n f.tries)) then
    let id := s.rep.nextWork
    let s1 := { s with rep := { s.rep with nextWork := id + 1 } }
    let e1 := ls.foldl (fun (e : EpState) l =>
      let v := e.line l
      let keep := (v.times.filter (fun t => decide (s.clk < t + max (s.get (F.REP_HOT_COLD n)) (s.get (F.REP_HOT_WINDOW n)))))
      e.setLine l { v with queue := v.queue ++ [id], times := if n = 16 then s.clk :: keep else [] }) e
    let s2 := s1.setEp n { e1 with work := e1.work ++ [{ id := id, frame := f, lines := ls, dup := dup }] }
    some (if n = 16 then ls.foldl State.pinCheck s2 else s2)
  else none

/-! ### Parked proof writes (R83) -/

/-- An earlier proof write of the channel that `p` waits for. -/
def EpState.blocked (e : EpState) (p : ParkedWrite) : Bool :=
  e.parks.any (fun x => x.src == p.src && x.vc == p.vc && decide (2 ^ 31 ≤ seqAhead x.frame.seq p.frame.seq)
    && decide (addrOffset x.frame.addr < addrOffset p.frame.addr + p.frame.bytes)
    && decide (addrOffset p.frame.addr < addrOffset x.frame.addr + x.frame.bytes))

/-- `s` with the parked write `p`, released by GO frame `g`, handed on by `enter`; refused where that finds no room. -/
def State.applyPark (enter : State → Frame → Option State) (s : State) (n : Nat) (p : ParkedWrite) (g : Frame) : State :=
  let f := { g with gran := p.frame.gran, bytes := p.frame.bytes, poison := p.frame.poison }
  match enter (s.noteTaken n f) f with
  | some s1 =>
    let e := s1.ep n
    s1.setEp n { e with parks := e.parks.erase p }
  | none =>
    let e := s.ep n
    (s.setEp n { e with parks := e.parks.map (fun x => if x = p then { p with go := none } else x) }).refuse n g

/-- `s` with every parked write applied whose PROOF_GO has come and whose earlier proof writes are gone; `fuel` bounds
their number. -/
def State.releaseParks (enter : State → Frame → Option State) : Nat → State → Nat → State
  | 0, s, _ => s
  | k + 1, s, n =>
    let e := s.ep n
    match e.parks.find? (fun p => p.go.isSome && !e.blocked p) with
    | some p => match p.go with
      | some g => State.releaseParks enter k (s.applyPark enter n p g) n
      | none => s
    | none => s

/-- `s` with request `f`, a proof write, parked; none where the park limit is reached (R87). -/
def State.park (s : State) (n : Nat) (f : Frame) : Option State :=
  let e := s.ep n
  if e.parks.length < 4096 then some (s.setEp n { e with parks := e.parks ++ [{ src := f.src, vc := f.vc, frame := f }] })
  else none

/-! ### Taking in order (R85) -/

/-- `s` with the held requests of a channel taken that now follow in sequence; one that finds no room is refused, and a SEQ that
was taken before is passed over. `accept` takes a request, or answers none; `fuel` bounds their number. -/
def State.takeHeld (accept : State → Frame → Option State) : Nat → State → Nat → Nat → Nat → State
  | 0, s, _, _, _ => s
  | k + 1, s, n, src, vc =>
    match (s.ep n).chan src vc with
    | none => s
    | some c =>
      if c.skip.contains c.next then State.takeHeld accept k (s.setEp n ((s.ep n).setChan c.advance)) n src vc
      else match c.held.find? (fun f => f.seq == c.next) with
        | none => s
        | some f =>
          let c1 := { c with held := c.held.erase f }
          match accept (s.setEp n ((s.ep n).setChan c1.advance)) f with
          | some s1 => State.takeHeld accept k s1 n src vc
          | none => (s.setEp n ((s.ep n).setChan c1)).refuse n f

/-- Steps enough for all that a channel holds and passes over. -/
def Chan.fuel (c : Chan) : Nat := c.held.length + c.skip.length + 1

/-- `s` with request `f` of an existing channel state `c` taken, held, or treated as a duplicate by `dup`. -/
def State.takeInChannel (accept : State → Frame → Option State) (dup : State → Frame → State) (s : State) (n : Nat)
    (c : Chan) (f : Frame) : State :=
  if c.behind f.seq then dup s f
  else if seqAhead f.seq c.next = 0 then
    match accept (s.setEp n ((s.ep n).setChan c.advance)) f with
    | none => s.refuse n f
    | some s1 => State.takeHeld accept c.fuel s1 n c.src c.vc
  else if c.held.any (fun h => h.seq == f.seq) then s
  else if (s.ep n).heldCount < 16384 then s.setEp n ((s.ep n).setChan { c with held := c.held ++ [f] })
  else s.refuse n f

/-- `s` with the oldest request delivered to end-point `n` taken, held, refused or answered as a duplicate; one with a
reserved field set is discarded and counted (R76). PROOF_GO has its own event. -/
def State.requestTake (accept : State → Frame → Option State) (dup : State → Frame → State) (s : State) (n : Nat) : State :=
  let e := s.ep n
  match e.arrived.find? (fun f => isRequest f.opcode && f.opcode != opGo) with
  | none => s
  | some f =>
    let s1 := s.setEp n { e with arrived := e.arrived.erase f }
    if f.badReserved then s1.countDiscard n
    else
      let e1 := (s1.ep n).freeLog f
      match e1.chan f.src f.vc with
      | some c => State.takeInChannel accept dup (s1.setEp n (e1.setChan { c with last := s.clk })) n { c with last := s.clk } f
      | none =>
        if e1.chans.length < 16384 then
          let c : Chan := { src := f.src, vc := f.vc, next := 0, last := s.clk }
          State.takeInChannel accept dup (s1.setEp n (e1.setChan c)) n c f
        else (s1.setEp n e1).refuse n f

/-- `s` with a duplicate answered from the log, or discarded (R85, R86). `again` reads a duplicate LOAD once more. -/
def State.answerDuplicate (again : State → Frame → State) (s : State) (n : Nat) (f : Frame) : State :=
  let e := s.ep n
  let open' := e.isOpen f
  let l := e.logged f
  if isAtomic8 f.opcode then
    match l with
    | some x =>
      if open' then s.sendResponse { s.response f opAtomRsp x.status with follow := true, addr := x.prior }
      else s.sendResponse { s.response f opAtomRsp x.status with addr := x.prior }
    | none => s
  else if open' || (e.parked f.src f.vc f.seq).isSome then s
  else if f.opcode = opLoad then again s f
  else s.sendResponse (s.response f ((l.map (·.opcode)).getD opAck) ((l.map (·.status)).getD 1))

/-- End-point `n` accepts PROOF_GO `g` (Table 4-4): a memory, plate or attach end-point, for addresses of its kind. -/
def State.goOpen (_ : State) (n : Nat) (g : Frame) : Bool := decide (n ≤ 17) && addrKind g.addr == epKind n

/-- `s` with the oldest PROOF_GO delivered to end-point `n` acted on (R83), or answered PermissionDenied where the end-point
takes none (R78). -/
def State.proofGoReceive (enter : State → Frame → Option State) (s : State) (n : Nat) : State :=
  let e := s.ep n
  match e.arrived.find? (fun f => f.opcode == opGo) with
  | none => s
  | some g =>
    let s1 := s.setEp n { e with arrived := e.arrived.erase g }
    let e1 := s1.ep n
    if g.badReserved then s1.countDiscard n
    else if !s1.goOpen n g then s1.sendResponse (s1.response g opAck 0x23)
    else match e1.parked g.src g.vc g.seq with
      | some p =>
        if e1.blocked p then
          s1.setEp n { e1 with parks := e1.parks.map (fun x => if x = p then { p with go := some g } else x) }
        else
          let s2 := s1.applyPark enter n p g
          State.releaseParks enter (s2.ep n).parks.length s2 n
      | none =>
        match e1.chan g.src g.vc with
        | some c =>
          if c.behind g.seq = true ∧ c.taken.contains g.seq = false then
            s1.sendResponse (s1.response g opAck (((e1.logged g).map (·.status)).getD 1))
          else s1
        | none => s1

/-- `s` with a park entry discarded at INJ_TURN + A + 64 (R83). -/
def State.parkExpire (enter : State → Frame → Option State) (s : State) (n src vc seq : Nat) : State :=
  let e := s.ep n
  match e.parked src vc seq with
  | some p =>
    if s.ageLimit + 64 ≤ s.ageOf p.frame.injTurn then
      State.releaseParks enter e.parks.length (s.setEp n { e with parks := e.parks.erase p }) n
    else s
  | none => s

/-- The held frame of lowest SEQ beyond the hole (R112). -/
def Chan.lowest (c : Chan) : Option Frame :=
  c.held.foldl (fun (m : Option Frame) f => match m with
    | none => some f
    | some g => if seqAhead f.seq c.next < seqAhead g.seq c.next then some f else some g) none

/-- `s` with the hole of a channel skipped, once its turn has come (R112). -/
def State.holeSkip (accept : State → Frame → Option State) (s : State) (n src vc : Nat) : State :=
  let e := s.ep n
  match e.chan src vc with
  | none => s
  | some c =>
    match c.lowest with
    | none => s
    | some m =>
      if s.ageLimit + 64 ≤ s.ageOf m.injTurn then
        State.takeHeld accept c.fuel ((s.setEp n (e.setChan
          { c with next := m.seq, skip := c.skip.filter (fun q => decide (seqAhead q m.seq < 2 ^ 31)) })).count
            (F.REP_ORD_CNT_GAP_SKIP n) 1) n src vc
      else s

/-- `s` with a silent channel state freed (R85). -/
def State.chanFree (s : State) (n src vc : Nat) : State :=
  let e := s.ep n
  match e.chan src vc with
  | none => s
  | some c =>
    if c.last + s.ageLimit ≤ s.clk ∧ c.held = [] ∧ c.taken = []
        ∧ e.parks.any (fun p => p.src == src && p.vc == vc) = false then
      s.setEp n { e with chans := e.chans.filter (fun x => !(x.src == src && x.vc == vc)) }
    else s

/-- `s` with a log entry freed A + 64 turns after it was written (R86). -/
def State.logFree (s : State) (n src vc seq : Nat) : State :=
  let e := s.ep n
  s.setEp n { e with log := e.log.filter (fun l =>
    !(l.src == src && l.vc == vc && l.seq == seq && decide (l.at' + s.ageLimit + 64 ≤ s.clk))) }

/-- `s` with all that the end-points hold for member `m`'s channels discarded (R90). A line buffer whose queue empties so is
written back by the line's next service (R92). -/
def State.absentTargets (s : State) (m : Nat) : State :=
  let own := fun (src : Nat) => epDomain src == s.domain && epMember src == m
  { s with rep := { s.rep with eps := s.rep.eps.map (fun x =>
      let e := x.2.dropWork (fun w => own w.frame.src)
      (x.1, { e with
        chans := e.chans.filter (fun c => !own c.src), parks := e.parks.filter (fun p => !own p.src),
        log := e.log.filter (fun l => !own l.src), service := e.service.filter (fun f => !own f.src) })) } }

/-! ### The ordering point of memory and plate (R81, R82, R104, R106) -/

/-- Granule `g` of HBM or of the plate store, as the end-point holds it. -/
def State.epGranule (s : State) (n g : Nat) : Granule × State :=
  if n = 17 then (s.plateGranule g, s)
  else
    let (d, p, s1) := s.memLoad g
    ({ data := d, poison := p }, s1)

/-- `s` with bytes written into granule `g` from byte `lo` at the ordering point. -/
def State.epStore (s : State) (n g lo : Nat) (data : List Byte) (poison : Bool) : State :=
  if n = 17 then s.plateStoreGranule g lo data poison
  else
    let e := s.ep 16
    let v := e.line (g / 4)
    match v.copy with
    | none => s.hbmStoreGranule g lo data poison
    | some c =>
      let old := (s.epGranule 16 g).1
      let whole := lo = 0 ∧ data.length = 32
      let x : Granule := if whole then { data := data, poison := poison }
        else { data := old.data.take lo ++ data ++ old.data.drop (lo + data.length), poison := old.poison || poison }
      let c1 := { c.hold (g % 4) x with changed := c.changed.filter (· != g % 4) ++ [g % 4],
                                        dirty := some (c.dirty.getD s.clk) }
      s.setEp 16 (e.setLine (g / 4) { v with copy := some c1 })

/-- The new value of an 8-byte atomic (Table 4-1). -/
def atomicValue (op prior operand compare : Nat) : Nat :=
  let p := signedOf 64 prior
  let x := signedOf 64 operand
  if op = 0x10 then (prior + operand) % 2 ^ 64
  else if op = 0x11 then (if x < p then operand else prior)
  else if op = 0x12 then (if p < x then operand else prior)
  else if op = 0x13 then min prior operand
  else if op = 0x14 then max prior operand
  else if op = 0x15 then operand
  else if op = 0x16 then (if prior = compare then operand else prior)
  else if op = 0x17 then prior &&& operand
  else if op = 0x18 then prior ||| operand
  else prior ^^^ operand

/-- The format of XA_ADD's value (Table 4-2). -/
def xaFormat (xfmt : Nat) : FloatKind := if xfmt = 0 then .fp32 else if xfmt = 1 then .bf16 else .fp16

/-- The granules of frame `f` that lie in line `l`: index in the frame and granule of the offset space. -/
def Frame.granulesIn (f : Frame) (l : Nat) : List (Nat × Nat) :=
  let g0 := addrOffset f.addr / 32
  ((List.range (granuleSpan (addrOffset f.addr) f.bytes)).map (fun i => (i, g0 + i))).filter (fun x => x.2 / 4 == l)

/-- The bytes of granule `i` of a span: first byte and length. -/
def spanIn (a bytes i : Nat) : Nat × Nat :=
  let lo := if i = 0 then a % 32 else 0
  let hi := min 32 (a % 32 + bytes - 32 * i)
  (lo, hi - lo)

/-- A granule of a LOAD_RSP: what lies outside the span `x` of it, first byte and length, is zero (R77). -/
def Granule.within (g : Granule) (x : Nat × Nat) : Granule :=
  { g with data := List.replicate x.1 0 ++ (g.data.drop x.1).take x.2 ++ List.replicate (32 - x.1 - x.2) 0 }

/-- A LOAD's part in line `l`: the granules read, as LOAD_RSP carries them. -/
def State.loadLine (s : State) (n : Nat) (f : Frame) (l : Nat) : List (Nat × Granule) × State :=
  (f.granulesIn l).foldl (fun (acc : List (Nat × Granule) × State) x =>
    let (g, s1) := acc.2.epGranule n x.2
    (acc.1 ++ [(x.1, g.within (spanIn (addrOffset f.addr) f.bytes x.1))], s1)) ([], s)

/-- `s` with a store's part in line `l` written. -/
def State.storeLine (s : State) (n : Nat) (f : Frame) (l : Nat) : State :=
  (f.granulesIn l).foldl (fun s x =>
    let (lo, k) := spanIn (addrOffset f.addr) f.bytes x.1
    let g := f.gran.getD x.1 { data := List.replicate 32 0 }
    s.epStore n x.2 lo (sliceD 0 g.data lo k) g.poison) s

/-- An 8-byte atomic applied: its status, the prior value and the state after (R81, R99). -/
def State.atomicApply (s : State) (n : Nat) (f : Frame) : Nat × Nat × State :=
  let a := addrOffset f.addr
  let x := f.gran.getD 0 { data := [] }
  let (g, s1) := s.epGranule n (a / 32)
  let prior := bytesAt g.data (a % 32) 8
  if g.poison || x.poison then (0x30, prior, s1)
  else
    let v := atomicValue f.opcode prior (bytesAt x.data 0 8) (bytesAt x.data 8 8)
    (1, prior, s1.epStore n (a / 32) (a % 32) (toBytesLE 8 v) false)

/-- An XA_ADD applied to its cell: its status and the state after (R82, R168). -/
def State.xaApply (s : State) (n : Nat) (f : Frame) : Nat × State :=
  let g := addrOffset f.addr / 32
  let x := f.gran.getD 0 { data := [] }
  let (a, s1) := s.epGranule n g
  let (b, s2) := s1.epGranule n (g + 1)
  let (c, s3) := s2.epGranule n (g + 2)
  if a.poison || b.poison || c.poison || x.poison then (0x30, s3)
  else
    let k := xaFormat f.xfmt
    let cell := Xa.ofBits xa640Bits (ofBytesLE (sliceD 0 (a.data ++ b.data ++ c.data) 0 80))
    let out := toBytesLE 80 ((cell.add (k.toNum (bytesAt x.data 0 (k.bits / 8)))).bits xa640Bits)
    (1, ((s3.epStore n g 0 (out.take 32) false).epStore n (g + 1) 0 ((out.drop 32).take 32) false).epStore n (g + 2) 0
      (out.drop 64) false)

/-- Work `w` after its part in line `l`, and the state after. -/
def State.performLine (s : State) (n : Nat) (w : Work) (l : Nat) : Work × State :=
  let f := w.frame
  let w1 := { w with lines := w.lines.filter (· != l) }
  if f.opcode = opLoad then
    let (g, s1) := s.loadLine n f l
    ({ w1 with gran := w1.gran ++ g, status := if g.any (fun x => x.2.poison) then 0x30 else w1.status }, s1)
  else if f.opcode = opXa then
    let (st, s1) := s.xaApply n f
    ({ w1 with status := st }, s1)
  else if isAtomic8 f.opcode then
    let (st, prior, s1) := s.atomicApply n f
    ({ w1 with status := st, prior := prior }, s1)
  else (w1, s.storeLine n f l)

/-- `s` with finished work `w` answered for the last time. -/
def State.finishWork (s : State) (n : Nat) (w : Work) : State :=
  let e := s.ep n
  let s1 := s.setEp n { e with work := e.work.filter (fun x => x.id != w.id) }
  let f := w.frame
  if f.opcode = opLoad then
    let gs := (List.range (granuleSpan (addrOffset f.addr) f.bytes)).map (fun i =>
      ((w.gran.find? (fun x => x.1 == i)).map (·.2)).getD { data := List.replicate 32 0 })
    let rsp := fun (r : Frame) => { r with gran := gs, poison := gs.any (·.poison), bytes := f.bytes }
    if w.dup then s1.sendResponse (rsp (s1.response f opLoadRsp w.status)) else s1.answer n f w.status rsp
  else s1.answer n f w.status (fun r => if isAtomic8 f.opcode then { r with addr := w.prior } else r)

/-- `s` with work `w` of end-point `n` performed on its last line: answered at once, or after the write-back of the pinned
lines it changed. An atomic's result is logged; on a pinned line, changed by it or not, its prior value goes ahead with
FOLLOW = 1 (R86, R93). One that took no effect changes no line, and is answered at once. -/
def State.performed (s : State) (n : Nat) (w : Work) : State :=
  let f := w.frame
  let s1 := if isAtomic8 f.opcode then s.logResult n f opAtomRsp w.status w.prior else s
  let waits := if n = 16 ∧ f.opcode ≠ opLoad ∧ (w.status = 1 ∨ isAtomic8 f.opcode = true) then
      f.lines.filter (fun l => (((s1.ep 16).line l).copy.map (fun c =>
        c.pinned && (c.dirty.isSome || isAtomic8 f.opcode))).getD false) else []
  match waits with
  | [] => s1.finishWork n w
  | _ :: _ =>
    let e := s1.ep n
    let s2 := s1.setEp n { e with work := e.work.map (fun x => if x.id = w.id then { w with waits := waits } else x) }
    if isAtomic8 f.opcode then
      s2.sendResponse { s2.response f opAtomRsp w.status with follow := true, addr := w.prior }
    else s2

/-- `s` with the changed granules of line `l`'s copy written to HBM (R93). -/
def State.writeBackLine (s : State) (l : Nat) : State :=
  let v := (s.ep 16).line l
  match v.copy with
  | none => s
  | some c =>
    let s1 := c.changed.foldl (fun s i =>
      match c.find i with
      | some x => s.hbmPut (4 * l + i) x.data x.poison
      | none => s) (s.activate (128 * l))
    let e := s1.ep 16
    s1.setEp 16 (e.setLine l { e.line l with copy := some { c with changed := [], dirty := none } })

/-- `s` with every work that waited for line `l`'s write-back alone answered: an atomic by the ACK that follows its
FOLLOW response (R93). -/
def State.answerWaiting (s : State) (l : Nat) : State :=
  let e := s.ep 16
  let ws := e.work.filter (fun w => w.waits.contains l)
  ws.foldl (fun (s : State) (w : Work) =>
    let left := w.waits.filter (· != l)
    let e := s.ep 16
    if left = [] then
      let s1 := s.setEp 16 { e with work := e.work.filter (fun x => x.id != w.id) }
      s1.answerAs 16 w.frame opAck w.status id
    else s.setEp 16 { e with work := e.work.map (fun x => if x.id = w.id then { w with waits := left } else x) }) s

/-- `s` with work `w` of end-point `n` performed at line `l`. -/
def State.performWork (s : State) (n l : Nat) (w : Work) : State :=
  let (w1, s1) := s.performLine n w l
  if w1.lines.isEmpty then s1.performed n w1
  else
    let e := s1.ep n
    s1.setEp n { e with work := e.work.map (fun x => if x.id == w.id then w1 else x) }

/-- `s` with the line buffer of line `l` written back and given up (R92). -/
def State.giveUpBuffer (s : State) (n l : Nat) : State :=
  let s1 := s.writeBackLine l
  let e := s1.ep n
  s1.setEp n (e.setLine l { e.line l with copy := none })

/-- A line is held in a line buffer, not pinned. -/
def LineState.buffered (v : LineState) : Bool :=
  match v.copy with
  | some c => !c.pinned
  | none => false

/-- `s` with the head of line `l`'s queue performed there and taken off it; a line buffer whose queue empties is written
back (R92). What reads or writes HBM without a read issued before activates the row (R309). -/
def State.performHead (s : State) (n l : Nat) : State :=
  let e := s.ep n
  let v := e.line l
  match v.queue with
  | [] => s
  | id :: rest =>
    let s0 := if n = 16 && v.copy.isNone && !v.reading then s.activate (128 * l) else s
    let s1 := s0.setEp n (e.setLine l { v with queue := rest, reading := false })
    let s2 := match e.work.find? (fun w => w.id == id) with
      | none => s1
      | some w => s1.performWork n l w
    if rest.isEmpty && ((s2.ep n).line l).buffered then s2.giveUpBuffer n l else s2

/-- The head of line `l`'s queue must read HBM first: the line is not in SRAM, and the request is no write of whole
granules only. -/
def State.needsRead (s : State) (l : Nat) : Bool :=
  let e := s.ep 16
  let v := e.line l
  v.copy.isNone && match v.queue with
    | [] => false
    | id :: _ => match e.work.find? (fun w => w.id == id) with
      | none => false
      | some w => w.frame.opcode == opLoad || isAtomic w.frame.opcode

/-- Work `w` is an unscheduled request that R108 orders: PROOF_GO is not, nor is the second reading of a duplicate. -/
def Work.ordered (w : Work) : Bool := w.frame.opcode != opGo && !w.dup

/-- The head of line `l`'s queue at end-point `n` is the next of its channel to be performed: no request of the channel that
was taken before it has a part still to be performed in another line (R108). -/
def State.inOrder (s : State) (n l : Nat) : Bool :=
  let e := s.ep n
  match (e.line l).queue with
  | [] => true
  | id :: _ => match e.work.find? (fun w => w.id == id) with
    | none => true
    | some w => !w.ordered || e.work.all (fun v =>
        !(v.ordered && v.frame.src == w.frame.src && v.frame.vc == w.frame.vc && decide (v.id < w.id) && !v.lines.isEmpty))

/-- LINE_QUEUE_SERVICE at the memory EP (`n` = 16) or plate EP: the head is performed, or its HBM read is issued; a line buffer
whose queue has emptied is written back and given up. HBM that is closed, a turn whose slot is not the fabric's, and a bank
held for a mitigation wait (R16, R305, R309). In which of the 16 bank slots of the plate store its fabric accesses fall is not
stated, and changes no outcome (R17; notes/assumptions/68). -/
def State.lineService (s : State) (n l : Nat) : State :=
  if !s.inOrder n l then s
  else if n = 17 then s.performHead 17 l
  else if !s.slotFor (128 * l) 128 then s
  else if ((s.ep 16).line l).reading then s
  else if ((s.ep 16).line l).queue.isEmpty then
    (if ((s.ep 16).line l).buffered then s.giveUpBuffer 16 l else s)
  else if s.needsRead l then
    let s1 := s.activate (128 * l)
    let e := s1.ep 16
    s1.setEp 16 (e.setLine l { e.line l with reading := true })
  else s.performHead 16 l

/-- HBM_READ_COMPLETE: the read that the head of line `l` waits for returns in a fabric slot (R16, R300). -/
def State.readComplete (s : State) (l : Nat) (struck : List (Nat × SymbolErrors)) : State :=
  let s1 := struck.foldl (fun s e => s.hbmStrike (4 * l + e.1 % 4) e.2) s
  if ((s1.ep 16).line l).reading && s1.memSlot && s1.inOrder 16 l then s1.performHead 16 l else s1

/-- LINE_UNPIN: COLD turns with fewer than THRESH / 4 requests (R92). -/
def State.lineUnpin (s : State) (l : Nat) : State :=
  let v := (s.ep 16).line l
  match v.copy with
  | none => s
  | some c =>
    let cold := s.get (F.REP_HOT_COLD 16)
    let recent := (v.times.filter (fun t => decide (s.clk < t + cold))).length
    if c.pinned && s.slotFor (128 * l) 128 && decide (c.since + cold ≤ s.clk) && decide (recent < s.get (F.REP_HOT_THRESH 16) / 4) then
      let s1 := (s.writeBackLine l).answerWaiting l
      let e := s1.ep 16
      s1.setEp 16 (e.setLine l { e.line l with copy := none })
    else s

/-- PINNED_WRITE_BACK of line `l`, which has changed or has an atomic waiting for the write-back, in a fabric slot (R16,
R93). -/
def State.pinnedWriteBack (s : State) (l : Nat) : State :=
  match ((s.ep 16).line l).copy with
  | none => s
  | some c =>
    let due := c.dirty.isSome || (s.ep 16).work.any (fun w => w.waits.contains l)
    if c.pinned && due && s.slotFor (128 * l) 128 then (s.writeBackLine l).answerWaiting l else s

/-! ### Memory and plate end-points as targets -/

/-- A memory request taken at end-point `n`, 16 or 17: refused with a status, parked, or entered in its line queues. -/
def State.acceptMemory (n : Nat) (s : State) (f : Frame) : Option State :=
  if !s.accepts n f then s.takeFailed n f 0x23
  else if f.opcode = opProof then s.park n f
  else if isAtomic8 f.opcode && !s.logRoom n then none
  else (s.enterLines n f false).map (fun s => s.noteTaken n f)

/-- A duplicate LOAD is read again (R86), and refused again where its end-point does not accept it (R78). -/
def State.loadAgain (n : Nat) (s : State) (f : Frame) : State :=
  if !s.accepts n f then s.sendResponse (s.response f opLoadRsp 0x23) else (s.enterLines n f true).getD (s.refuse n f)

/-- A PROOF_GO's data enters its line queues. -/
def State.enterGo (n : Nat) (s : State) (f : Frame) : Option State := s.enterLines n f false

end Sys2Proof.Machine
end

