-- ==== Sys2Proof/Machine/Attach.lean ====
section
/-!
DEFINITION. Attach ports (spec/14_host_attach.md R324-R332): host accesses, the translation cache, page requests and
fault batches, the DMA rings, and the PEER end-point as a target.
-/
namespace Sys2Proof.Machine

/-! ### Ports -/

/-- Attach port `a`. -/
def State.attach (s : State) (a : Nat) : AttachState := Sparse.get (fun _ => {}) s.att a
/-- `s` with attach port `a` set; ATT_ATC.USED follows its translation cache. -/
def State.setAttach (s : State) (a : Nat) (x : AttachState) : State :=
  { s with att := Sparse.set (fun _ => {}) s.att a x }.put (F.ATT_ATC_USED a) x.atc.length

/-- Port `a`'s link is up and the port enabled. -/
def State.portOn (s : State) (a : Nat) : Bool := s.flag (F.ATT_LINK_UP a) && s.flag (F.ATT_CTL_EN a)

/-- Port `a` may access its host: not in burnish (R335), and its TDI not in ERROR (R334). -/
def State.mayHost (s : State) (a : Nat) : Bool :=
  s.portOn a && !s.flag (F.ATT_SEC_RRS a) && s.get (F.ATT_SEC_TDI_STATE a) != 3

/-- Requester queue `q` is owned by port `a`'s EP, or by the EP of the odd port bonded to it (R314). -/
def State.portOwns (s : State) (a q : Nat) : Bool :=
  s.owner q == some a || (s.flag (F.ATT_LINK_BONDED a) && a % 2 == 0 && s.owner q == some (a + 1))

/-- Size of the DMA ring of entry `j` (Table 14-11). -/
def State.fqN (s : State) (a j : Nat) : Nat :=
  let l := s.get (F.ATT_FQ_C_LOG2N a j)
  2 ^ (if 4 ≤ l ∧ l ≤ 12 then l else 4)

/-- Granules that leave for the host from address `addr` on, checked at the attach transmit check (R294, R295): symbol errors reach
them only by injection (R469). -/
def State.attCheck (s : State) (a addr : Nat) : List Granule → List Granule × State
  | [] => ([], s)
  | g :: gs =>
    let (inj, s1) := s.takeInjection 7 a
    let (g1, _, s2) := s1.checkPoint (F.ATT_ECC_CORR a) (F.ATT_ECC_UNCORR a) 7 a { addr := addr, detail0 := 4 + a * 0x100 } g inj
    let (rest, s3) := s2.attCheck a (addr + 32) gs
    (g1 :: rest, s3)

/-! ### Accesses -/

/-- `s` with a host access begun at port `a`. -/
def State.addAccess (s : State) (a pasid iova bytes : Nat) (write : Bool) (use : HostUse) : State :=
  let x := s.attach a
  s.setAttach a { x with
    nextId := x.nextId + 1,
    accesses := x.accesses ++ [{ id := x.nextId, pasid := pasid, iova := iova, bytes := bytes, write := write, use := use,
                                 since := s.clk }] }

/-- `s` with an access replaced by the one of the same number. -/
def State.setAccess (s : State) (a : Nat) (h : HostAccess) : State :=
  let x := s.attach a
  s.setAttach a { x with accesses := x.accesses.map (fun y => if y.id = h.id then h else y) }

/-- `s` with an access done. -/
def State.dropAccess (s : State) (a id : Nat) : State :=
  let x := s.attach a
  s.setAttach a { x with accesses := x.accesses.filter (fun y => y.id != id) }

/-- `s` with the DMA job of entry `j` changed. -/
def State.mapJob (s : State) (a j : Nat) (f : DmaJob → DmaJob) : State :=
  let x := s.attach a
  s.setAttach a { x with jobs := x.jobs.map (fun y => if y.entry = j then f y else y) }

/-- A job with its first failing status set. -/
def DmaJob.failWith (x : DmaJob) (st : Nat) : DmaJob :=
  if x.fail.isSome then x else { x with fail := some st, failTile := x.tile }

/-- A job with `n` bytes of part `k` landed. -/
def DmaJob.landed (x : DmaJob) (k n : Nat) : DmaJob :=
  { x with parts := (x.parts.zipIdx).map (fun (p, i) =>
      if i = k then { p with left := p.left - n, step := if p.left ≤ n then 3 else p.step } else p) }

/-- A job with the STOREs of `n` bytes of part `k` issued. -/
def DmaJob.issued (x : DmaJob) (k n : Nat) : DmaJob :=
  { x with parts := (x.parts.zipIdx).map (fun (p, i) => if i = k then { p with sent := p.sent + n } else p) }

/-- A job with part `k` given up. -/
def DmaJob.dropPart (x : DmaJob) (k : Nat) : DmaJob :=
  { x with parts := (x.parts.zipIdx).map (fun (p, i) => if i = k then { p with left := 0, step := 3 } else p) }

/-- The translation-cache entry of a page. -/
def AttachState.cached (x : AttachState) (pasid page : Nat) : Option AtcEntry :=
  x.atc.find? (fun e => e.pasid == pasid && page / 2 ^ e.log2 == e.page / 2 ^ e.log2)

/-- The entry permits the access. -/
def AtcEntry.permits (e : AtcEntry) (write : Bool) : Bool := if write then e.write else e.read

/-- The address that an entry gives an IOVA. -/
def AtcEntry.translate (e : AtcEntry) (iova : Nat) : Nat :=
  let sz := 4096 * 2 ^ e.log2
  e.addr / sz * sz + iova % sz

/-! ### Performing an access -/

/-- Non-posted requests that port `a` has outstanding. -/
def AttachState.outstanding (x : AttachState) : Nat :=
  (x.accesses.filter (fun h => match h.step with
    | .sent _ _ => true
    | .ready | .translating | .paging _ | .batched => false)).length

/-- How a request for IOVA `iova` travels: on the secure selective stream bound to it, else on the link's stream where that is
secure; trusted where the TDI is in RUN (R333, R334). -/
def State.tlpMark (s : State) (a iova : Nat) : TlpMark :=
  let x := s.attach a
  let own := x.ideRanges.find? (fun r => r.space == .host && x.ide.getD r.stream 0 == 2 && decide (r.base ≤ iova ∧ iova < r.limit))
  { ide := match own with
      | some r => some r.stream
      | none => if x.ide.getD 0 0 = 2 then some 0 else none
    trusted := s.get (F.ATT_SEC_TDI_STATE a) == 2 }

/-- `s` with a write of `data` for IOVA `iova` put on the link at host address `addr`: the request starts at the 32-byte boundary
at or below it, the bytes before `addr` not enabled (Table 14-1; DESIGN CHOICE, notes/assumptions/84). -/
def State.sendWrite (s : State) (a pasid iova addr : Nat) (data : List Byte) (poison translated : Bool) : State :=
  s.emit (.hostWrite a pasid (addr - addr % 32) (addr % 32) data poison translated (s.tlpMark a iova))

/-- `s` with a final status write put on the link: 8 bytes at an 8-byte boundary (Table 14-1). -/
def State.sendStatusWrite (s : State) (a pasid iova addr : Nat) (data : List Byte) (translated : Bool) : State :=
  s.emit (.hostWrite a pasid addr 0 data false translated (s.tlpMark a iova))

/-- `s` with access `h` sent as a read of the granules it touches (Table 14-1: reads start on a 32-byte boundary). -/
def State.sendRead (s : State) (a : Nat) (h : HostAccess) (addr : Nat) (translated : Bool) : State :=
  let x := s.attach a
  let s1 := s.setAttach a { x with nextTag := (x.nextTag + 1) % 2 ^ 14 }
  (s1.setAccess a { h with step := .sent x.nextTag s.clk }).emit
    (.hostRead a x.nextTag h.pasid (addr - addr % 32) (32 * granuleSpan addr h.bytes) translated (s.tlpMark a h.iova))

/-- `s` with the descriptor of entry `j` of port `a` ended: counted, and its vector raised if it says NOTIFY (R332). -/
def State.jobEnded (s : State) (a j : Nat) : State :=
  let x := s.attach a
  match x.jobs.find? (fun y => y.entry == j) with
  | none => s
  | some job =>
    let s1 := (s.setAttach a { x with jobs := x.jobs.filter (fun y => y.entry != j) }).count (F.ATT_DB_STAT_DMA_DONE a) 1
    if bitAt (bytesAt job.desc 28 1) 1 then s1.raiseVector a (job.queue % 64) else s1

/-- `s` with access `h` performed at host address `addr`: a read sent, or writes put on the link and their source told
(R323-R325, R327). -/
def State.performAccess (s : State) (a : Nat) (h : HostAccess) (addr : Nat) (translated : Bool) : State :=
  match h.use with
  | .peer f =>
    if f.opcode = opLoad then s.sendRead a h addr translated
    else
      let (gs, s1) := s.attCheck a (f.addr / 32 * 32) f.gran
      let s2 := (s1.dropAccess a h.id).sendWrite a h.pasid h.iova addr (ofGranules f.addr f.bytes gs) (gs.any (·.poison)) translated
      s2.answer (epLocal f.dst) f 1 id
  | .report _ bytes =>
    let s1 := (s.dropAccess a h.id).sendWrite a h.pasid h.iova addr (bytes.take 56) false translated
    (s1.sendStatusWrite a h.pasid h.iova (addr + 56) (bytes.drop 56) translated).count (F.ATT_DB_STAT_FENCES a) 1
  | .descFetch _ => s.sendRead a h addr translated
  | .descWrite j bytes =>
    let s1 := (s.dropAccess a h.id).sendStatusWrite a h.pasid h.iova (addr + 8) (toBytesLE 8 s.now) translated
    (s1.sendStatusWrite a h.pasid h.iova addr bytes translated).jobEnded a j
  | .dmaPart j k =>
    (s.dropAccess a h.id).mapJob a j (fun x => { x with parts := (x.parts.zipIdx).map (fun (p, i) =>
      if i = k ∧ p.step = 0 then { p with step := 1 } else p) })
  | .dmaRead _ _ _ _ => s.sendRead a h addr translated
  | .dmaWrite j k _ bytes poison =>
    let (gs, s1) := s.attCheck a h.iova ((chunks 32 bytes).map (fun d => { data := d, poison := poison }))
    ((s1.dropAccess a h.id).sendWrite a h.pasid h.iova addr (gs.flatMap (·.data)) (gs.any (·.poison)) translated).mapJob a j
      (·.landed k bytes.length)
  | .plateOut _ => s.dropAccess a h.id

/-- `s` with access `h`, where it still stands, ended without its effect, with status `st` (R327, R328, R331). -/
def State.failAccess (s : State) (a : Nat) (h : HostAccess) (st : Nat) : State :=
  let s1 := s.dropAccess a h.id
  if !(s.attach a).accesses.any (fun y => y.id == h.id) then s
  else match h.use with
  | .peer f => s1.answer (epLocal f.dst) f st id
  | .report token _ => s1.fault 3 0x0021 7 a { detail0 := token }
  | .descFetch j => s1.mapJob a j (fun x => { x with fail := some st, ending := true, desc := List.replicate 64 0 })
  | .descWrite j _ => s1.jobEnded a j
  | .dmaPart j k => s1.mapJob a j (fun x => (x.failWith st).dropPart k)
  | .dmaRead j k _ n => s1.mapJob a j (fun x => (x.failWith st).landed k n)
  | .dmaWrite j k _ bytes _ => s1.mapJob a j (fun x => (x.failWith st).landed k bytes.length)
  | .plateOut q =>
    s1.tell { origin := .plate q, frame := { opcode := opStore }, status := st, delay := 0, data := [], poison := false }

/-! ### Faults (R328, R330, R331) -/

/-- What handles a fault of an access. -/
inductive FaultWay where
  | fail
  /-- Page request or batch; of a DMA tile or of a fabric PEER request. -/
  | page (dma : Bool)
  deriving DecidableEq, Repr

/-- How the fault of an access is handled, by its source (R328). -/
def HostUse.way : HostUse → FaultWay
  | .peer f => if epLocal f.src = 17 then .fail else .page false
  | .report _ _ | .descFetch _ | .descWrite _ _ | .plateOut _ => .fail
  | .dmaPart _ _ | .dmaRead _ _ _ _ | .dmaWrite _ _ _ _ _ => .page true

/-- The DMA entry that an access is for. -/
def HostUse.entry : HostUse → Option Nat
  | .descFetch j | .descWrite j _ | .dmaPart j _ | .dmaRead j _ _ _ | .dmaWrite j _ _ _ _ => some j
  | .peer _ | .report _ _ | .plateOut _ => none

/-- `s` with a fault gathered for a batch, once per page and source. -/
def State.gatherFault (s : State) (a : Nat) (h : HostAccess) (dma : Bool) : State :=
  let x := s.attach a
  let page := h.iova / 4096
  if x.faults.any (fun p => p.pasid == h.pasid && p.page == page && p.dma == dma) then s
  else
    let (q, ix) : Nat × Nat := match h.use with
      | .peer f => (f.tag / 512 % 512, 0)
      | .dmaPart j _ | .dmaRead j _ _ _ | .dmaWrite j _ _ _ _ =>
        match x.jobs.find? (fun y => y.entry == j) with
        | some job => (job.queue, job.index)
        | none => (0, 0)
      | .report _ _ | .descFetch _ | .descWrite _ _ | .plateOut _ => (0, 0)
    s.setAttach a { x with faults := x.faults ++
      [{ pasid := h.pasid, page := page, write := h.write, dma := dma, queue := q, index := ix, since := s.clk, turn := s.now }] }

/-- `s` with access `h` held for page request `g`; how long a PEER request is held counts from the first time (R330). -/
def State.holdAccess (s : State) (a : Nat) (h : HostAccess) (g : Nat) : State :=
  s.setAccess a { h with step := .paging g, heldAt := h.heldAt.orElse (fun _ => some s.clk) }

/-- `s` with the fault of access `h` batched (R331). -/
def State.batchAccess (s : State) (a : Nat) (h : HostAccess) (dma : Bool) : State :=
  let s1 := s.gatherFault a h dma
  if dma then s1.setAccess a { h with step := .batched } else s1.failAccess a h 0x40

/-- `s` with the fault of access `h` handled. -/
def State.faultAccess (s : State) (a : Nat) (h : HostAccess) : State :=
  match h.use.way with
  | .fail => s.failAccess a h 0x41
  | .page dma =>
    let x := s.attach a
    let page := h.iova / 4096
    if !x.priEnabled || s.flag (F.ATT_PRI_FALLBACK a) then s.batchAccess a h dma
    else match x.pageOut.find? (fun o => o.2.1 == h.pasid && o.2.2 == page) with
      | some (g, _, _) => s.holdAccess a h g
      | none =>
        if x.pageOut.length < min 1024 x.priAlloc then
          let s1 := s.setAttach a { x with
            pageOut := x.pageOut ++ [(x.nextGroup, h.pasid, page)], nextGroup := (x.nextGroup + 1) % 512 }
          (s1.holdAccess a h x.nextGroup).emit (.pageRequest a x.nextGroup h.pasid page h.write)
        else s.batchAccess a h dma

/-! ### The pump -/

/-- Access `h` waits behind an earlier PEER request of its channel (R327). -/
def AttachState.behind (x : AttachState) (h : HostAccess) : Bool :=
  match h.use with
  | .peer f => x.accesses.any (fun y => decide (y.id < h.id) && match y.use with
    | .peer g => g.src == f.src && g.dst == f.dst && g.vc == f.vc
    | .report _ _ | .descFetch _ | .descWrite _ _ | .dmaPart _ _ | .dmaRead _ _ _ _ | .dmaWrite _ _ _ _ _ | .plateOut _ => false)
  | .report _ _ | .descFetch _ | .descWrite _ _ | .dmaPart _ _ | .dmaRead _ _ _ _ | .dmaWrite _ _ _ _ _ | .plateOut _ => false

/-- An invalidation of PASID `p` whose completion has not been sent: translation requests wait for it (R329). -/
def AttachState.invalidating (x : AttachState) (p : Nat) : Bool := x.invals.any (fun i => i.pasid.getD p == p)

/-- Access `h` can go on now. -/
def State.canGo (s : State) (a : Nat) (h : HostAccess) : Bool :=
  let x := s.attach a
  h.step == .ready && !x.behind h && (!h.write && decide (4096 ≤ x.outstanding)) == false &&
    (!x.atsEnabled || ((x.cached h.pasid (h.iova / 4096)).map (·.permits h.write)).getD false || !x.invalidating h.pasid)

/-- `s` with a ready access performed, or its translation asked for. -/
def State.goAccess (s : State) (a : Nat) (h : HostAccess) : State :=
  let x := s.attach a
  let page := h.iova / 4096
  if !x.atsEnabled then s.performAccess a h h.iova false
  else match x.cached h.pasid page with
    | some e =>
      if e.permits h.write then s.performAccess a h (e.translate h.iova) true
      else if x.atsOut.contains (h.pasid, page) then s.setAccess a { h with step := .translating }
      else ((s.setAttach a { x with atsOut := x.atsOut ++ [(h.pasid, page)] }).setAccess a
        { h with step := .translating }).emit (.atsRequest a h.pasid page)
    | none =>
      if x.atsOut.contains (h.pasid, page) then s.setAccess a { h with step := .translating }
      else ((s.setAttach a { x with atsOut := x.atsOut ++ [(h.pasid, page)] }).setAccess a
        { h with step := .translating }).emit (.atsRequest a h.pasid page)

/-- The parts of tile `k` of a job: its host range cut at 4 KiB boundaries (R325). -/
def tileParts (host fabric : Nat) : Nat → Nat → List DmaPart
  | 0, _ => []
  | fuel + 1, n =>
    if n = 0 then []
    else
      let m := min n (4096 - host % 4096)
      { host := host, fabric := fabric, len := m, left := m } :: tileParts (host + m) (fabric + m) fuel (n - m)

/-- A DMA descriptor's fields (Table 14-5). -/
def dmaHost (d : List Byte) : Nat := bytesAt d 0 8
def dmaFabric (d : List Byte) : Nat := bytesAt d 8 8
def dmaBytes (d : List Byte) : Nat := bytesAt d 16 8
def dmaTile (d : List Byte) : Nat := bytesAt d 24 4
def dmaFlags (d : List Byte) : Nat := bytesAt d 28 1
/-- The transfer goes from the fabric to the host. -/
def dmaToHost (d : List Byte) : Bool := bitAt (dmaFlags d) 0
/-- A flag is written after each tile. -/
def dmaFlagEn (d : List Byte) : Bool := bitAt (dmaFlags d) 2

/-- The descriptor keeps the limits of Table 14-5. -/
def dmaValid (d : List Byte) : Bool :=
  let t := dmaTile d
  let n := dmaBytes d
  dmaHost d % 256 == 0 && dmaFabric d % 32 == 0 && (addrKind (dmaFabric d) == 0 || addrKind (dmaFabric d) == 1)
    && n % 256 == 0 && decide (256 ≤ n ∧ n ≤ 2 ^ 36) && decide (256 ≤ t ∧ t ≤ 2 ^ 30) && t == 2 ^ Nat.log2 t && n % t == 0
    && (!dmaFlagEn d || bytesAt d 32 8 % 8 == 0)

/-- `s` with tile `k` of entry `j`'s descriptor begun. -/
def State.startTile (s : State) (a j k : Nat) (job : DmaJob) : State :=
  let d := job.desc
  let t := dmaTile d
  let ps := tileParts (dmaHost d + k * t) (dmaFabric d + k * t) t t
  let s1 := s.mapJob a j (fun x => { x with tile := k, parts := ps })
  (ps.zipIdx).foldl (fun s (p, i) => s.addAccess a job.pasid p.host p.len (dmaToHost d) (.dmaPart j i)) s1

/-- `s` with the result of entry `j`'s descriptor, STATUS and TILES_DONE, on its way to the host; TURN is that of the write
(R324). -/
def State.endJob (s : State) (a j : Nat) (job : DmaJob) : State :=
  let st := match job.fail with
    | some st => st
    | none => if job.retried then 3 else if job.delayed then 2 else 1
  let done := match job.fail with
    | some _ => min job.failTile job.done
    | none => job.done
  let bytes := toBytesLE 4 st ++ toBytesLE 4 done
  let at' := s.get (F.ATT_FQ_C_RING a j) * 4096 + 64 * (job.index % s.fqN a j) + 48
  (s.mapJob a j (fun x => { x with ending := true, parts := [] })).addAccess a job.pasid at' 16 true (.descWrite j bytes)

/-- What a job can do next. -/
inductive JobNext where
  | nothing
  | finish
  | tile (k : Nat)
  deriving DecidableEq, Repr

/-- Every part of the current tile has landed or been given up. -/
def DmaJob.tileDone (x : DmaJob) : Bool := x.parts.all (fun p => p.left == 0 && p.step == 3)

/-- The flag of the current tile may be written: every STORE of the tile has been issued, so that the proof write behind them in
the queue waits for each (R83, Example 14-1); or, toward the host, every part has landed (R325). -/
def DmaJob.flagReady (x : DmaJob) : Bool :=
  if dmaToHost x.desc then x.tileDone else x.parts.all (fun p => p.sent == p.len || (p.left == 0 && p.step == 3))

/-- What job `x` can do next. A tile with a flag to write waits for DMA_TILE_FLAG. -/
def DmaJob.next (x : DmaJob) : JobNext :=
  if x.desc = [] then .nothing
  else if x.ending then (if x.parts = [] ∧ x.tile = 0 ∧ x.done = 0 then .finish else .nothing)
  else if !x.tileDone then .nothing
  else if x.fail.isSome then (if x.flags = [] then .finish else .nothing)
  else if x.parts = [] then .nothing
  else if dmaFlagEn x.desc && decide (x.flags.contains x.tile = false ∧ x.done ≤ x.tile) then .nothing
  else if (x.tile + 1) * dmaTile x.desc < dmaBytes x.desc then .tile (x.tile + 1)
  else if x.flags = [] then .finish else .nothing

/-- A result write of entry `j` is already under way. -/
def AttachState.writing (x : AttachState) (j : Nat) : Bool :=
  x.accesses.any (fun h => match h.use with
    | .descWrite k _ => k == j
    | .peer _ | .report _ _ | .descFetch _ | .dmaPart _ _ | .dmaRead _ _ _ _ | .dmaWrite _ _ _ _ _ | .plateOut _ => false)

/-- `s` with the next thing done that a DMA job of port `a` can do; none where there is nothing. -/
def State.jobStep (s : State) (a : Nat) : Option State :=
  let x := s.attach a
  x.jobs.findSome? (fun job =>
    if x.writing job.entry then none
    else match job.next with
      | .nothing => none
      | .finish =>
        let whole := !dmaFlagEn job.desc && job.fail.isNone
        some (s.endJob a job.entry (if whole then { job with done := job.tile + 1 } else job))
      | .tile k =>
        let job1 := if dmaFlagEn job.desc then job else { job with done := job.tile + 1 }
        some ((s.mapJob a job.entry (fun _ => job1)).startTile a job.entry k job1))

/-- `s` with everything done that port `a`'s accesses and jobs can do now; `fuel` bounds it. -/
def State.attPumpAux : Nat → State → Nat → State
  | 0, s, _ => s
  | k + 1, s, a =>
    match s.jobStep a with
    | some s1 => State.attPumpAux k s1 a
    | none =>
      if s.mayHost a then
        match (s.attach a).accesses.find? (fun h => s.canGo a h) with
        | some h => State.attPumpAux k (s.goAccess a h) a
        | none => s
      else s

/-- The pump with fuel enough: every access is performed, sent or asked about at most once, and every job takes at most
three steps of its own with its accesses. -/
def State.attPump (s : State) (a : Nat) : State :=
  let x := s.attach a
  let tiles := x.jobs.foldl (fun n j => n + 8 + dmaTile j.desc / 256) 0
  State.attPumpAux (4 * x.accesses.length + 4 * tiles + 8) s a

/-! ### The PEER end-point as a target (R326, R327) -/

/-- The aperture's size. -/
def State.apertureSize (s : State) (a : Nat) : Nat :=
  let l := s.get (F.ATT_PEER_CFG_LOG2SIZE a)
  2 ^ (if 12 ≤ l ∧ l ≤ 49 then l else 12)

/-- `s` with a PEER request of end-point `n` handed to its host side; a failure of the aperture check ends it. -/
def State.enterPeer (n : Nat) (s : State) (f : Frame) : Option State :=
  let a := s.servingPort n
  let o := bitsOf (addrOffset f.addr) 48 0
  if !s.flag (F.ATT_PEER_CFG_EN a) || decide (s.apertureSize a < o + f.bytes) || !s.portOn a then s.takeFailed n f 0x41
  else
    let iova := (s.get (F.ATT_PEER_BASE_BASE a) * 4096 + o) % 2 ^ 64
    some ((s.addAccess a (s.get (F.ATT_PEER_CFG_PASID a)) iova f.bytes (f.opcode != opLoad) (.peer f)).attPump a)

/-- A request taken at attach end-point `n`. -/
def State.acceptPeer (n : Nat) (s : State) (f : Frame) : Option State :=
  if !s.accepts n f then s.takeFailed n f 0x23
  else if f.opcode = opProof then s.park n f
  else State.enterPeer n (s.noteTaken n f) f

/-- A duplicate PEER LOAD is read again (R86), and refused again where its end-point does not accept it (R78). -/
def State.peerAgain (n : Nat) (s : State) (f : Frame) : State :=
  if !s.accepts n f then s.sendResponse (s.response f opLoadRsp 0x23) else (State.enterPeer n s f).getD (s.refuse n f)

/-! ### Host answers (R327-R330) -/

/-- `s` with a sent read `h` returned: its bytes and whether they came poisoned. -/
def State.readReturned (s : State) (a : Nat) (h : HostAccess) (bytes : List Byte) (poison : Bool) : State :=
  match h.use with
  | .peer f =>
    let n := granuleSpan f.addr f.bytes
    let gs := ((chunks 32 (sliceD 0 bytes 0 (32 * n))).zipIdx).map (fun (d, i) =>
      ({ data := d, poison := poison } : Granule).within (spanIn f.addr f.bytes i))
    (s.dropAccess a h.id).answer (epLocal f.dst) f (if poison then 0x30 else 1)
      (fun r => { r with gran := gs, poison := poison, bytes := f.bytes })
  | .descFetch j =>
    let d := sliceD 0 bytes 0 64
    let s1 := s.dropAccess a h.id
    if poison then s1.mapJob a j (fun x => { x with fail := some 0x30, ending := true, desc := List.replicate 64 0 })
    else if !dmaValid d then s1.mapJob a j (fun x => { x with fail := some 0x23, ending := true, desc := d })
    else
      match (s1.attach a).jobs.find? (fun x => x.entry == j) with
      | none => s1
      | some job => (s1.mapJob a j (fun x => { x with desc := d })).startTile a j 0 { job with desc := d }
  | .dmaRead j k off n =>
    let s1 := s.dropAccess a h.id
    match (s1.attach a).jobs.find? (fun x => x.entry == j) with
    | none => s1
    | some job => match job.parts[k]? with
      | none => s1
      | some p =>
        let s2 := s1.mapJob a j (fun x => (if poison then x.failWith 0x30 else x).issued k n)
        s2.issueData job.queue opStore (p.fabric + off) n (sliceD 0 bytes 0 n) 0 poison (.dma a j k)
  | .report _ _ | .descWrite _ _ | .dmaPart _ _ | .dmaWrite _ _ _ _ _ | .plateOut _ => s.dropAccess a h.id

/-- The access whose read has tag `tag`. -/
def AttachState.byTag (x : AttachState) (tag : Nat) : Option HostAccess :=
  x.accesses.find? (fun h => match h.step with
    | .sent t _ => t == tag
    | .ready | .translating | .paging _ | .batched => false)

/-- HOST_READ_COMPLETION. -/
def State.doHostReadCompletion (s : State) (a : Fin 16) (tag : BitVec 14) (reply : HostReply) : State :=
  match (s.attach a).byTag tag.toNat with
  | none => s
  | some h => match reply with
    | .data bytes poison => (s.readReturned a h bytes poison).attPump a
    | .unsupported | .abort => (s.failAccess a h 0x41).attPump a

/-- HOST_COMPLETION_TIMEOUT: CPL_TO turns have passed. -/
def State.doHostCompletionTimeout (s : State) (a : Fin 16) (tag : BitVec 14) : State :=
  match (s.attach a).byTag tag.toNat with
  | none => s
  | some h => match h.step with
    | .sent _ t => if t + max 256 (s.get (F.ATT_CTL_CPL_TO a)) ≤ s.clk then (s.failAccess a h 0x41).attPump a else s
    | .ready | .translating | .paging _ | .batched => s

/-- `x` with a translation cached: it replaces what the cache held of the page; the oldest entry makes room. -/
def AttachState.cache (x : AttachState) (e : AtcEntry) : AttachState :=
  let keep := x.atc.filter (fun o => !(o.pasid == e.pasid && o.page / 2 ^ max o.log2 e.log2 == e.page / 2 ^ max o.log2 e.log2))
  let l := keep ++ [e]
  { x with atc := l.drop (l.length - 8192) }

/-- `s` with the accesses that wait for this page's translation let go on, or faulted. -/
def State.translated (s : State) (a pasid page : Nat) (r : Option AtcEntry) : State :=
  let hs := (s.attach a).accesses.filter (fun h => h.step == .translating && h.pasid == pasid && h.iova / 4096 == page)
  hs.foldl (fun s h =>
    if (r.map (·.permits h.write)).getD false then s.setAccess a { h with step := .ready } else s.faultAccess a h) s

/-- ATS_TRANSLATION_RESPONSE. -/
def State.doAtsTranslationResponse (s : State) (a : Fin 16) (pasid : BitVec 20) (page : BitVec 52) (result : Option AtsResult) :
    State :=
  let x := s.attach a
  let k := (pasid.toNat, page.toNat)
  if x.atsOut.contains k then
    let e := result.map (fun r => ({ pasid := k.1, page := k.2 / 2 ^ r.log2.val * 2 ^ r.log2.val, log2 := r.log2,
                                     addr := r.addr.toNat, read := r.read, write := r.write } : AtcEntry))
    let x1 := { x with atsOut := x.atsOut.erase k }
    let s1 := s.setAttach a (match e with
      | some e => x1.cache e
      | none => x1)
    (s1.translated a k.1 k.2 e).attPump a
  else s

/-! ### Invalidations (R329) -/

/-- The PASID is one that an invalidation names. -/
def invMatches (p : Option Nat) (q : Nat) : Bool := p.getD q == q

/-- `s` with every cache entry of a PASID dropped (all of them for none); accesses being translated ask again. -/
def State.dropAtc (s : State) (a : Nat) (p : Option Nat) : State :=
  let x := s.attach a
  s.setAttach a { x with
    atc := x.atc.filter (fun e => !invMatches p e.pasid),
    atsOut := x.atsOut.filter (fun o => !invMatches p o.1),
    accesses := x.accesses.map (fun h => if h.step = .translating ∧ invMatches p h.pasid then { h with step := .ready } else h) }

/-- ATS_INVALIDATE_REQUEST: its completion waits for the reads in flight under the PASID. -/
def State.doAtsInvalidateRequest (s : State) (a : Fin 16) (itag : Fin 32) (pasid : Option (BitVec 20)) : State :=
  if s.portOn a then
    let p := pasid.map (·.toNat)
    let s1 := s.dropAtc a p
    let x := s1.attach a
    let waits := (x.accesses.filter (fun h => invMatches p h.pasid && match h.step with
      | .sent _ _ => true
      | .ready | .translating | .paging _ | .batched => false)).map (·.id)
    s1.setAttach a { x with invals := x.invals ++ [{ itag := itag, pasid := p, waits := waits }] }
  else s

/-- INVALIDATE_COMPLETION. -/
def State.doInvalidateCompletion (s : State) (a : Fin 16) : State :=
  let x := s.attach a
  let ready := fun (i : Invalidation) => i.waits.all (fun w => !x.accesses.any (fun h => h.id == w))
  match x.invals.find? ready with
  | none => s
  | some i => ((s.setAttach a { x with invals := x.invals.erase i }).emit (.invalidateDone a i.itag)).attPump a

/-- The write rule of ATT_ATC: INV and INV_ALL drop entries as an invalidation does, with no completion to send. -/
def hookAttAtc (a : Nat) (s : State) (w : RegWrite) : State :=
  let s1 := s.takeWrite w
  let s2 := if w.actF (F.ATT_ATC_INV_ALL a) = 1 then s1.dropAtc a none
    else if w.actF (F.ATT_ATC_INV a) = 1 then s1.dropAtc a (some (s1.get (F.ATT_ATC_INV_PASID a)))
    else s1
  s2.attPump a

/-! ### Page requests and batches (R330, R331) -/

/-- The page requests' group that an access waits for. -/
def HostAccess.group (h : HostAccess) : Option Nat :=
  match h.step with
  | .paging g => some g
  | .ready | .translating | .batched | .sent _ _ => none

/-- PAGE_REQUEST_GROUP_RESPONSE. A code that PCIe does not define acts as Response Failure. -/
def State.doPageRequestGroupResponse (s : State) (a : Fin 16) (group : BitVec 9) (code : Fin 16) : State :=
  let x := s.attach a
  let g := group.toNat
  if x.pageOut.any (fun o => o.1 == g) then
    let s1 := s.setAttach a { x with pageOut := x.pageOut.filter (fun o => o.1 != g) }
    let hs := x.accesses.filter (fun h => h.group == some g)
    let s2 := if code.val = 0 then hs.foldl (fun s h => s.setAccess a { h with step := .ready }) s1
      else
        let s3 := hs.foldl (fun s h => s.failAccess a h 0x41) s1
        if code.val = 1 then s3 else s3.putFlag (F.ATT_PRI_FALLBACK a) true
    s2.attPump a
  else s

/-- PEER_HOLD_TIMEOUT: the PEER request held longest has waited more than HOLD turns for its page. -/
def State.doPeerHoldTimeout (s : State) (a : Fin 16) : State :=
  let late := fun (h : HostAccess) => h.group.isSome && h.use.way == .page false &&
    decide (h.heldAt.getD s.clk + s.get (F.ATT_PRI_HOLD a) < s.clk)
  match (s.attach a).accesses.find? late with
  | none => s
  | some h => (s.failAccess a h 0x40).attPump a

/-- The write rule of ATT_PRI: RESUME_PRI clears FALLBACK. -/
def hookAttPri (a : Nat) (s : State) (w : RegWrite) : State :=
  let s1 := s.takeWrite w
  if w.actF (F.ATT_PRI_RESUME_PRI a) = 1 then s1.putFlag (F.ATT_PRI_FALLBACK a) false else s1

/-- A DMA fault's record cannot be taken: the ring takes none now and the park table is full (R408). -/
def State.recordBlocked (s : State) : Bool := (s.fltFull || !s.flt.park.isEmpty) && !s.parkRoom

/-- The DMA ring of queue `q` is held: a fault of a descriptor of it has no record, and no park entry has freed since (R408). -/
def State.ringHeld (s : State) (a q : Nat) : Bool :=
  s.recordBlocked && (s.attach a).faults.any (fun p => p.held && p.queue == q)

/-- FLT_STAT.BACKPRESS: some ring is held so. -/
def State.backpress (s : State) : Bool := s.recordBlocked && s.att.any (fun x => x.2.faults.any (·.held))

/-- `s` with the records of gathered faults written, in order. -/
def State.writeFaults : State → Nat → List PendingFault → State
  | s, _, [] => s
  | s, a, p :: ps =>
    if p.dma ∧ s.recordBlocked = true then
      let x := s.attach a
      State.writeFaults (s.setAttach a { x with faults := x.faults ++ [{ p with held := true }] }) a ps
    else
      let s1 := s.fault (if p.dma then 2 else 1) 0x0020 7 a
        { pasid := p.pasid, addr := 4096 * p.page, tag := p.queue, detail0 := a + b2n p.write * 0x100 + b2n p.dma * 0x200,
          detail1 := if p.dma then p.index else 0, turn := some p.turn }
      State.writeFaults s1 a ps

/-- FAULT_BATCH: BATCH_T turns since the first fault gathered, or BATCH_N faults held (R331). -/
def State.doFaultBatch (s : State) (a : Fin 16) : State :=
  let x := s.attach a
  let due := decide (max 1 (s.get (F.ATT_PRI_BATCH_N a)) ≤ x.faults.length) ||
    x.faults.any (fun p => decide (p.since + s.get (F.ATT_PRI_BATCH_T a) ≤ s.clk))
  if due then State.writeFaults (s.setAttach a { x with faults := [] }) a x.faults else s

/-- The write rule of ATT_FLT_RES: the held descriptors of a PASID retranslate, or end PageFaultBatched (R331). -/
def hookAttFltRes (a : Nat) (s : State) (w : RegWrite) : State :=
  let p := w.actF (F.ATT_FLT_RES_PASID a)
  let hs := (s.attach a).accesses.filter (fun h => h.step == .batched && h.pasid == p)
  let s1 := if w.actF (F.ATT_FLT_RES_ACTION a) = 0 then hs.foldl (fun s h => s.setAccess a { h with step := .ready }) s
    else hs.foldl (fun s h => s.failAccess a h 0x40) s
  s1.attPump a

/-! ### DMA rings (R324, R325) -/

/-- DMA_DESCRIPTOR_FETCH from the ring of entry `j`: a used entry whose queue this port owns, with no descriptor under
way. -/
def State.doDmaDescriptorFetch (s : State) (a : Fin 16) (j : Fin 32) : State :=
  let x := s.attach a
  let q := s.get (F.ATT_FQ_A_QUEUE a j)
  let n := s.fqN a j
  let head := s.get (F.ATT_FQ_D_HEAD a j) % (2 * n)
  let tail := s.get (F.ATT_FQ_D_TAIL a j) % (2 * n)
  if s.mayHost a && s.flag (F.ATT_FQ_A_VALID a j) && s.portOwns a q && !x.jobs.any (fun y => y.entry == j.val) && head != tail &&
      !s.ringHeld a q then
    let pasid := s.get (F.ATT_FQ_B_PASID a j)
    let job : DmaJob := { entry := j, queue := q, pasid := pasid, index := head }
    let s1 := (s.setAttach a { x with jobs := x.jobs ++ [job] }).put (F.ATT_FQ_D_HEAD a j) ((head + 1) % (2 * n))
    (s1.addAccess a pasid (s1.get (F.ATT_FQ_C_RING a j) * 4096 + 64 * (head % n)) 64 false (.descFetch j)).attPump a
  else s

/-- Bytes `[0, n)` cut into pieces of at most 256: offset and length. -/
def pieces256 (n : Nat) : List (Nat × Nat) := (List.range (ceilDiv n 256)).map (fun i => (256 * i, min 256 (n - 256 * i)))

/-- DMA_PAGE_MOVE: the first translated part of entry `j`'s tile that has not been moved. -/
def State.doDmaPageMove (s : State) (a : Fin 16) (j : Fin 32) : State :=
  let x := s.attach a
  match x.jobs.find? (fun y => y.entry == j.val) with
  | none => s
  | some job =>
    match job.parts.findIdx? (fun p => p.step == 1) with
    | none => s
    | some k => match job.parts[k]? with
      | none => s
      | some p =>
        if !s.mayHost a then s
        else
          let s1 := s.mapJob a j (fun y => { y with parts := (y.parts.zipIdx).map (fun (p, i) =>
            if i = k then { p with step := 2 } else p) })
          let s2 := if dmaToHost job.desc then
              (pieces256 p.len).foldl (fun s (o, n) =>
                s.issueMemory job.queue opLoad (p.fabric + o) n [] 0 (.dma a j k)) s1
            else
              (pieces256 p.len).foldl (fun s (o, n) =>
                s.addAccess a job.pasid (p.host + o) n false (.dmaRead j k o n)) s1
          s2.attPump a

/-- DMA_TILE_FLAG: the flag of entry `j`'s tile follows by PROOF_WRITE. -/
def State.doDmaTileFlag (s : State) (a : Fin 16) (j : Fin 32) : State :=
  match (s.attach a).jobs.find? (fun y => y.entry == j.val) with
  | none => s
  | some job =>
    let d := job.desc
    if d ≠ [] ∧ job.ending = false ∧ dmaFlagEn d = true ∧ job.parts ≠ [] ∧ job.flagReady = true ∧ job.fail = none
        ∧ job.flags.contains job.tile = false ∧ job.done ≤ job.tile then
      let s1 := s.mapJob a j (fun y => { y with flags := y.flags ++ [y.tile] })
      (s1.issueMemory job.queue opProof (bytesAt d 32 8 + 8 * job.tile) 8 ((d.drop 40).take 8) 0 (.dma a j (2 ^ 40 + job.tile))).attPump a
    else s

/-- `s` with `n` bytes at byte `off` of part `k` of a transfer to the host answered by the fabric: their data, or none where the LOAD
failed. A block of 256 bytes whose last piece this is goes to the host in one write, or is given up (R325). -/
def State.dmaLoaded (s : State) (a : Nat) (job : DmaJob) (k off n : Nat) (data : Option (List Byte × Bool)) : State :=
  match job.parts[k]? with
  | none => s
  | some p =>
    let b := off / 256
    let all := p.got ++ [(off, n, data)]
    let mine := (all.filter (fun x => x.1 / 256 == b)).mergeSort (fun x y => decide (x.1 ≤ y.1))
    let keep := fun (g : List (Nat × Nat × Option (List Byte × Bool))) => s.mapJob a job.entry (fun x =>
      { x with parts := (x.parts.zipIdx).map (fun (p, i) => if i = k then { p with got := g } else p) })
    if mine.foldl (fun t x => t + x.2.1) 0 < min 256 (p.len - 256 * b) then keep all
    else
      let s1 := keep (all.filter (fun x => x.1 / 256 != b))
      let len := min 256 (p.len - 256 * b)
      if mine.any (fun x => x.2.2.isNone) then s1.mapJob a job.entry (·.landed k len)
      else s1.addAccess a job.pasid (p.host + 256 * b) len true
        (.dmaWrite job.entry k (256 * b) (mine.flatMap (fun x => (x.2.2.map (·.1)).getD []))
          (mine.any (fun x => (x.2.2.map (·.2)).getD false)))

/-- `s` with a request of DMA entry `j`'s descriptor ended: `k` is the part, or 2^40 and the tile of a flag. -/
def State.dmaDone (s : State) (a j k : Nat) (d : Done) : State :=
  let ok := isSuccess d.status || d.status == 0x30
  let note := fun (x : DmaJob) =>
    let x1 := if isSuccess d.status then x else x.failWith d.status
    { x1 with retried := x1.retried || d.status == 3, delayed := x1.delayed || decide (0 < d.delay) }
  let s1 :=
    if 2 ^ 40 ≤ k then
      s.mapJob a j (fun x =>
        let y := note x
        let y1 := { y with flags := y.flags.erase (k - 2 ^ 40) }
        if isSuccess d.status then { y1 with done := max y1.done (k - 2 ^ 40 + 1) } else y1)
    else if d.frame.opcode = opLoad then
      match (s.attach a).jobs.find? (fun x => x.entry == j) with
      | none => s
      | some job => (s.mapJob a j note).dmaLoaded a job k (d.frame.addr - ((job.parts[k]?).map (·.fabric)).getD 0) d.frame.bytes
          (if ok then some (sliceD 0 d.data 0 d.frame.bytes, d.poison) else none)
    else s.mapJob a j (fun x => (note x).landed k d.frame.bytes)
  s1.attPump a

/-! ### Absence and link down -/

/-- `s` with what port `a` holds for absent member `m`'s channels discarded (R90). -/
def State.absentPeer (s : State) (m a : Nat) : State :=
  let x := s.attach a
  let gone := fun (h : HostAccess) => match h.use with
    | .peer f => epDomain f.src == s.domain && epMember f.src == m
    | .report _ _ | .descFetch _ | .descWrite _ _ | .dmaPart _ _ | .dmaRead _ _ _ _ | .dmaWrite _ _ _ _ _ | .plateOut _ => false
  s.setAttach a { x with accesses := x.accesses.filter (fun h => !gone h) }

/-- `s` with every host access of port `a` but result writes ended TranslationError. -/
def State.endAccesses (s : State) (a : Nat) : State :=
  let hs := (s.attach a).accesses.filter (fun h => match h.use with
    | .descWrite _ _ => false
    | .peer _ | .report _ _ | .descFetch _ | .dmaPart _ _ | .dmaRead _ _ _ _ | .dmaWrite _ _ _ _ _ | .plateOut _ => true)
  hs.foldl (fun s h => s.failAccess a h 0x41) s

/-- ATTACH_LINK_DOWN: what is held or in flight ends TranslationError; BAR2 requests run on and their responses are
discarded (R327, Table 14-6). -/
def State.doAttachLinkDown (s : State) (a : Fin 16) : State :=
  if s.flag (F.ATT_LINK_UP a) then
    let s1 := (((s.putFlag (F.ATT_LINK_UP a) false).put (F.ATT_LINK_SPEED a) 0).put (F.ATT_LINK_WIDTH a) 0).putFlag
      (F.ATT_LINK_FLIT a) false
    let s2 := s1.endAccesses a
    let x := s2.attach a
    (s2.setAttach a { x with bar2 := [], atsOut := [], pageOut := [], invals := [], faults := [] }).attPump a
  else s

end Sys2Proof.Machine
end

