-- ==== Sys2Proof/Machine/Route.lean ====
section
/-!
DEFINITION. Route tables, editions, slices, admission and neighbours (spec/11_routing_and_slices.md R252-R264, R474;
spec/16_security_and_isolation.md R374-R376).
-/
namespace Sys2Proof.Machine

/-! ### Editions (R255) -/

/-- Frames in port `p`'s buffer that carry edition `e`: those in the stream, those whose last granule is held for replay, and
those received or being received. -/
def VPort.editionCount (v : VPort) (e : Nat) : Nat :=
  (v.stream.filter (fun x => x.frame.edition == e)).length +
  v.unacked.foldl (fun n w => n + (w.tails.filter (fun d => d == e)).length) 0 +
  ((v.rxFrames.map (·.2) ++ [v.rxPart]).filter (fun l => match l with
    | [] => false
    | h :: _ => bitsOf (ofBytesLE h.data) 11 11 == e)).length

/-- DRAIN of edition `e`: the device's own frames and trackers that depend on it (R255). -/
def State.drain (s : State) (e : Nat) : Nat :=
  let sw := fun (l : List SwFrame) => (l.filter (fun x => x.frame.edition == e)).length
  sw s.sw.crossing + sw s.sw.ready + sw s.sw.queued + sw s.sw.spill +
  s.ports.foldl (fun n x => n + x.2.editionCount e) 0 +
  s.rep.eps.foldl (fun n x => n + (x.2.arrived.filter (fun f => f.edition == e)).length) 0 +
  (s.rep.trackers.filter (fun t => t.frame.edition == e)).length

/-- Edition `e` may be written (R255). -/
def State.writable (s : State) (e : Nat) : Bool :=
  !s.admitted || (e != s.edition && s.drain e == 0 &&
    (!s.sw.flipped || decide (s.get F.RTE_LAST_FLIP_TURN + s.ageLimit + 64 ≤ s.now)))

/-- A rejected RTE write (R252): REJ and the page's event. -/
def State.rteRejected (s : State) : State := (s.putFlag F.RTE_STAT_REJ true).rejected 5 0

/-- `s` with no flip armed. -/
def State.disarm (s : State) : State :=
  { (s.putFlag F.RTE_STAT_ARMED false) with sw := { s.sw with flip := none } }

/-- `s` with READY of edition `e` cleared, and a flip to it disarmed (R252, R257). -/
def State.unready (s : State) (e : Nat) : State :=
  let s1 := s.putFlag (if e = 1 then F.RTE_ED_READY1 else F.RTE_ED_READY0) false
  match s1.sw.flip with
  | some (ed, _) => if ed = e then s1.disarm else s1
  | none => s1

/-! ### Entry writes (R252) -/

/-- The far ports, a bitmap. -/
def State.farMap (s : State) : Nat :=
  (s.reg (Reg.RTE_PORT_FAR 0)).toNat + (s.reg (Reg.RTE_PORT_FAR 1)).toNat * 2 ^ 64

/-- An entry, near or far, that R252 does not permit. -/
def State.badEntry (s : State) (far : Bool) (a : Word) (ports : Nat) : Bool :=
  let nh := fieldGet a 61 60
  if far then
    ports &&& (2 ^ 128 - 1 - s.farMap % 2 ^ 128) != 0 || (nh == 1 && ports != 0) || (nh == 2 && ports == 0)
  else ports &&& s.farMap != 0 || decide (16 < popCount ports 128)

/-- The write rule of a word of a route entry. -/
def hookRouteEntry (far : Bool) (e i : Nat) (s : State) (w : RegWrite) : State :=
  if !s.writable e then s.rteRejected
  else
    let t := s.takeWrite w
    let a := t.reg (if far then Reg.RTE_FAR_A e i else Reg.RTE_NEAR_A e i)
    if s.badEntry far a (if far then t.farPorts e i else t.nearPorts e i) then s.rteRejected
    else t.unready e

/-- The entries of one table that are VALID and name any of `ports`. -/
def State.namesPort (s : State) (ports : Nat) : Bool :=
  [0, 1].any (fun e =>
    (List.range 128).any (fun m => s.flag (F.RTE_NEAR_A_VALID e m) && s.nearPorts e m &&& ports != 0) ||
    (List.range 256).any (fun d => s.flag (F.RTE_FAR_A_VALID e d) && s.farPorts e d &&& ports != 0))

/-- The write rule of RTE_PORT_FAR word `k` (R474). -/
def hookPortFar (k : Nat) (s : State) (w : RegWrite) : State :=
  if s.namesPort ((w.old ^^^ w.new).toNat * 2 ^ (64 * k)) then s.rteRejected else s.takeWrite w

/-! ### Flips (R256, R257) -/

/-- The write rule of RTE_ED (R257). -/
def hookRteEd (s : State) (w : RegWrite) : State :=
  let s1 := s.takeWrite w
  match s1.sw.flip with
  | some (ed, _) => if s1.flag (if ed = 1 then F.RTE_ED_READY1 else F.RTE_ED_READY0) then s1 else s1.disarm
  | none => s1

/-- The write rule of RTE_FLIP_ARM: CANCEL, observed before T, then ARM (R257). -/
def hookFlipArm (s : State) (w : RegWrite) : State :=
  let cancel := w.actF F.RTE_FLIP_ARM_CANCEL == 1
  let s1 := match s.sw.flip with
    | some (_, t) => if cancel && decide (s.now < t) then s.disarm else s
    | none => s
  if w.actF F.RTE_FLIP_ARM_ARM = 0 then s1
  else
    let ed := w.actF F.RTE_FLIP_ARM_TO
    let t := s1.get F.RTE_FLIP_TURN_TURN
    let ready := s1.flag (if ed = 1 then F.RTE_ED_READY1 else F.RTE_ED_READY0)
    if !s1.admitted || ed == s1.edition || !ready || decide (t < s1.now + 4096) then
      (if cancel then s1.disarm else s1).rteRejected
    else
      let s2 := (s1.putFlag F.RTE_STAT_ARMED true).put F.RTE_STAT_ARM_TO ed
      { s2 with sw := { s2.sw with flip := some (ed, t) } }

/-- `s` with edition `e` current since turn `t` (R255, R256). -/
def State.setCur (s : State) (e t : Nat) : State :=
  let s1 := (s.put F.RTE_CTL_CUR e).put F.RTE_LAST_FLIP_TURN t
  { s1 with sw := { s1.sw with flipped := true } }

/-- `s` with the armed flip made, where it stands armed for a turn that `due` holds of (R256). -/
def State.flipWhere (s : State) (due : Nat → Bool) : State :=
  match s.sw.flip with
  | some (ed, t) => if due t then s.disarm.setCur ed t else s
  | none => s

/-- EDITION_FLIP: in turn T, and in no other (R256, R383). -/
def State.doEditionFlip (s : State) : State := s.flipWhere (fun t => t == s.now)

/-! ### RTE_CTL (R254, R264, R375, R376) -/

/-- The write rule of RTE_CTL: SLICE needs ADMIT 0 and a burnish since ADMIT was last 1, CUR needs ADMIT 0, ADMIT = 1
needs no burnish running, failed or too recent. A refused write leaves the whole register. While ADMIT is 0 every write of the
register writes CUR; while it is 1, one that changes CUR (DEDUCED, notes/assumptions/18). -/
def hookRteCtl (s : State) (w : RegWrite) : State :=
  let was := s.admitted
  let slice := w.newF F.RTE_CTL_SLICE != w.oldF F.RTE_CTL_SLICE
  let cur := w.newF F.RTE_CTL_CUR != w.oldF F.RTE_CTL_CUR
  let adm := w.newF F.RTE_CTL_ADMIT == 1
  let recent := match s.sec.burnStart with
    | some t => decide (s.clk < t + s.ageLimit + 64)
    | none => false
  if (slice && (was || !s.sec.sliceFree)) || (cur && was)
      || (adm && (s.flag F.SEC_BURN_ACTIVE || s.get F.SEC_BURN_RESULT == 2 || recent)) then s.rteRejected
  else
    let s1 := s.takeWrite w
    let s2 := if !was then s1.setCur (w.newF F.RTE_CTL_CUR) s.now else s1
    if adm then { s2 with sec := { s2.sec with sliceFree := false } } else s2

/-- `s` with ADMIT cleared by the device (R409). -/
def State.clearAdmit (s : State) : State := s.putFlag F.RTE_CTL_ADMIT false

/-! ### Neighbours (R262, R263) -/

/-- `s` with the seen identity of port `p` compared with the expected one; MISMATCH rising is counted and recorded. -/
def State.nbrCompare (s : State) (p : Nat) : State :=
  let bad := s.flag (F.RTE_NBR_SEEN_VALID p) && s.nbrGet p (F.RTE_NBR_EXP_VALID p) != 0
    && s.nbrGet p (F.RTE_NBR_EXP_ANY p) == 0 && !s.nbrSame p
  let s1 := s.putFlag (F.RTE_NBR_SEEN_MISMATCH p) bad
  if bad && !s.flag (F.RTE_NBR_SEEN_MISMATCH p) then
    (s1.count F.RTE_CNT_NBR_MISMATCH 1).fault 4 0x0012 5 7
      { peer := devicePeer (s.get (F.RTE_NBR_SEEN_DOMAIN p)) (s.get (F.RTE_NBR_SEEN_MEMBER p)), detail0 := p,
        detail1 := (s.nbrExp p).toNat }
  else s1

/-- The write rule of RTE_NBR_EXP of port `p`: what this turn still sees is what it held at the turn's beginning (R263). -/
def hookNbrExp (p : Nat) (s : State) (w : RegWrite) : State :=
  let old := s.sw.nbrOld.filter (fun x => x.1 == s.clk && x.2.1 == p)
  let s1 := s.takeWrite w
  { s1 with sw := { s1.sw with
      nbrOld := if old.isEmpty then s1.sw.nbrOld ++ [(s.clk, p, s.reg (Reg.RTE_NBR_EXP p))] else s1.sw.nbrOld } }

/-- `s` in a new turn, in which the writes of RTE_NBR_EXP of the last take effect: the identities are compared (R263). -/
def State.nbrTurn (s : State) : State :=
  (s.sw.nbrOld.map (·.2.1)).eraseDups.foldl State.nbrCompare { s with sw := { s.sw with nbrOld := [] } }

end Sys2Proof.Machine
end

