-- ==== Sys2Proof/Machine/SecCore.lean ====
section
/-!
DEFINITION. Bound sets (spec/16_security_and_isolation.md R362-R369): the checks of an image, the entries, and the
plaintext view through which a plate operation reads one.
-/
namespace Sys2Proof.Machine

/-! ### The image (R362, Table 16-3) -/

/-- Bytes a hash or key of `n` bytes occupies, lowest first. -/
def hashBytes {w : Nat} (n : Nat) (h : BitVec w) : List Byte := toBytesLE n h.toNat

/-- The offset of the content from the header: the first 4 KiB boundary after the identity entries. -/
def bsetContent (ndev : Nat) : Nat := roundUp (256 + 96 * ndev) 4096

/-- Bytes a chunk takes: 129 granules. -/
def chunkSize : Nat := 4128

/-- The header's fields are valid, and the image from `base` lies in local HBM (Table 16-4, FORMAT). -/
def bsetFormat (base : Nat) (h : List Byte) : Bool :=
  let ndev := bytesAt h 6 2
  let ops := bytesAt h 12 4
  let n := bytesAt h 16 8
  bytesAt h 0 4 == 0x54425331 && bytesAt h 4 2 == 1 && decide (1 ≤ ndev ∧ ndev ≤ 256) && decide (bytesAt h 8 1 < 8)
    && bytesAt h 11 1 == 0 && ((h.drop 172).all (· == 0)) && ops % 2 == 0 && decide (ops < 2 ^ 18)
    && n % 4096 == 0 && decide (4096 ≤ n ∧ n ≤ 2 ^ 36)
    && decide (base + bsetContent ndev + n / 4096 * chunkSize ≤ hbmSize)

/-- The device meets the header's policy. -/
def State.bsetPolicy (s : State) (h : List Byte) : Bool :=
  let p := bytesAt h 8 1
  let fw := (List.range 6).flatMap (fun k => toBytesLE 8 (s.reg (Reg.SEC_FW_HASH k)).toNat)
  (!bitAt p 0 || bytesAt h 9 1 == s.domain) && (!bitAt p 1 || bytesAt h 10 1 == s.slice)
    && (!bitAt p 2 || (h.drop 24).take 48 == fw)

/-- The IV of chunk `k` (R362). -/
def chunkIv (header : List Byte) (k : Nat) : List Byte := (header.drop 168).take 4 ++ toBytesLE 8 k

/-- A wrapped content key unwrapped under the key-encryption key, with a zero IV and the header as additional data (R362,
R363): none where its tag is wrong. -/
def unwrapKey (header wrapped : List Byte) : Option (BitVec 256) :=
  (gcmOpen (kekOf ((header.drop 72).take 96) ((header.drop 168).take 4)) (List.replicate 12 0) (natBytes header)
    (natBytes (wrapped.take 32)) (natBytes ((wrapped.drop 32).take 16))).map
    (fun k => BitVec.ofNat 256 (ofBytesLE (byteList k)))

/-- Chunk `k` of content at HBM offset `off`, read whole and decrypted: whether it holds a poisoned granule, its plaintext
(none where its tag is wrong), and the state after. -/
def State.readChunk (s : State) (b : BoundKey) (off k : Nat) : Bool × Option (List Byte) × State :=
  let (d, p, s1) := State.hbmLoads 129 s (off / 32 + 129 * k)
  if p then (true, none, s1)
  else (false, (gcmOpen (natBytes (toBytesLE 32 b.key.toNat)) (natBytes (chunkIv b.header k)) (natBytes b.header)
    (natBytes (d.take 4096)) (natBytes ((d.drop 4096).take 16))).map byteList, s1)

/-- Chunks `[k, k + n)` checked in order: their plaintext, none after the first that fails. -/
def State.readChunks : Nat → State → BoundKey → Nat → Nat → Option (List Byte) × State
  | 0, s, _, _, _ => (some [], s)
  | n + 1, s, b, off, k =>
    match s.readChunk b off k with
    | (_, some d, s1) =>
      let (r, s2) := State.readChunks n s1 b off (k + 1)
      (r.map (d ++ ·), s2)
    | (_, none, s1) => (none, s1)

/-- The image at `base` checked in the order of Table 16-4: its result, with the key and the hash where it is LOADED. A
poisoned header or identity entry authenticates nothing. -/
def State.bsetCheck (s : State) (base : Nat) : Nat × Option (BoundKey × BitVec 384) × State :=
  if hbmSize < base + 256 then (2, none, s)
  else
    let (h, p, s1) := s.hbmFetch base 256
    if p then (5, none, s1)
    else if !bsetFormat base h then (2, none, s1)
    else
      let ndev := bytesAt h 6 2
      let (ids, ip, s2) := s1.hbmFetch (base + 256) (96 * ndev)
      let mine := (chunks 96 ids).find? (fun e => e.take 48 == hashBytes 48 identityHash)
      match mine with
      | none => (3, none, s2)
      | some e =>
        if !s2.bsetPolicy h then (4, none, s2)
        else if ip then (5, none, s2)
        else match unwrapKey h (e.drop 48) with
          | none => (5, none, s2)
          | some key =>
            let b : BoundKey := { key := key, header := h }
            match State.readChunks (bytesAt h 16 8 / 4096) s2 b (base + bsetContent ndev) 0 with
            | (none, s3) => (5, none, s3)
            | (some plain, s3) => (1, some (b, sha384 (h ++ plain)), s3)

/-! ### Entries (R365, R369) -/

/-- The key of entry `e`. -/
def State.boundKey (s : State) (e : Nat) : Option BoundKey := (s.sec.sets.find? (fun x => x.1 == e)).map (·.2)

/-- `s` with entry `e` EMPTY and its key erased. -/
def State.eraseSet (s : State) (e : Nat) : State :=
  { s with sec := { s.sec with sets := s.sec.sets.filter (fun x => x.1 != e) } }.put (F.SEC_BS_ENT_A_STATE e) 0

/-- `s` with the checks of the image that entry `e` is loading done; HBM is read once it is open (R305). -/
def State.bsetLoadDone (s : State) (e : Nat) : State :=
  match s.sec.loading.find? (fun x => x.1 == e && s.hbmOpen) with
  | none => s
  | some (_, base) =>
    let s1 := { s with sec := { s.sec with loading := s.sec.loading.filter (fun x => x.1 != e) } }
    match s1.bsetCheck base with
    | (r, some (b, hash), s2) =>
      let s3 := { s2 with sec := { s2.sec with sets := s2.sec.sets ++ [(e, b)] } }
      let s4 := (List.range 6).foldl (fun s k =>
        s.setReg (Reg.SEC_BS_HASH e k) (BitVec.ofNat 64 (hash.toNat / 2 ^ (64 * k)))) s3
      let h := b.header
      ((((((s4.put (F.SEC_BS_ENT_A_STATE e) 2).put (F.SEC_BS_ENT_A_RESULT e) r).put (F.SEC_BS_ENT_A_SLICE e) s4.slice).put
        (F.SEC_BS_ENT_A_OPS e) (bytesAt h 12 4)).put (F.SEC_BS_ENT_A_USERS e) 0).put
        (F.SEC_BS_ENT_B_CHUNKS e) (bytesAt h 16 8 / 4096)).put
        (F.SEC_BS_ENT_B_BASE e) ((base + bsetContent (bytesAt h 6 2)) / 4096)
    | (r, none, s2) => (s2.put (F.SEC_BS_ENT_A_STATE e) 0).put (F.SEC_BS_ENT_A_RESULT e) r

/-- The write rule of SEC_BS_CMD: LOAD and UNLOAD of an entry. UNLOAD of an entry that is not LOADED does nothing. -/
def hookBsCmd (s : State) (w : RegWrite) : State :=
  let e := w.actF F.SEC_BS_CMD_ENTRY
  let st := s.get (F.SEC_BS_ENT_A_STATE e)
  if w.actF F.SEC_BS_CMD_OP = 1 then
    if st ≠ 0 then s.put (F.SEC_BS_ENT_A_RESULT e) 6
    else
      let s1 := { s with sec := { s.sec with
        loading := s.sec.loading ++ [(e, s.get F.SEC_BS_SRC_BASE * 4096)] } }
      s1.put (F.SEC_BS_ENT_A_STATE e) 1
  else if w.actF F.SEC_BS_CMD_OP = 2 ∧ st = 2 then
    if s.get (F.SEC_BS_ENT_A_USERS e) = 0 then s.eraseSet e else s.put (F.SEC_BS_ENT_A_STATE e) 3
  else s

/-- `s` with one more fetched operation using entry `e`. -/
def State.useSet (s : State) (e : Nat) : State := s.put (F.SEC_BS_ENT_A_USERS e) (min 255 (s.get (F.SEC_BS_ENT_A_USERS e) + 1))

/-- `s` with one operation that used entry `e` retired: an entry that is UNLOADING and has no user left is erased. -/
def State.freeSet (s : State) (e : Nat) : State :=
  let s1 := s.put (F.SEC_BS_ENT_A_USERS e) (s.get (F.SEC_BS_ENT_A_USERS e) - 1)
  if s1.get (F.SEC_BS_ENT_A_STATE e) = 3 ∧ s1.get (F.SEC_BS_ENT_A_USERS e) = 0 then s1.eraseSet e else s1

/-- The HBM offset of entry `e`'s content. -/
def State.bsetBase (s : State) (e : Nat) : Nat := s.get (F.SEC_BS_ENT_B_BASE e) * 4096

/-- The LOADED entry whose plaintext view holds the range of `n` granules at HBM offset `off`: its first plaintext granule
too. -/
def State.bsetFind (s : State) (off n : Nat) : Option (Nat × Nat) :=
  (List.range 8).findSome? (fun e =>
    let b := s.bsetBase e
    if s.get (F.SEC_BS_ENT_A_STATE e) = 2 ∧ b ≤ off ∧ (off - b) / 32 + n ≤ 128 * s.get (F.SEC_BS_ENT_B_CHUNKS e) then
      some (e, (off - b) / 32)
    else none)

end Sys2Proof.Machine
end

