-- ==== Sys2Proof/Machine/AttachBar.lean ====
section
/-!
DEFINITION. What the host does to an attach port (spec/14_host_attach.md R313-R323, R332-R336, spec/03_fabric_addressing.md
R72, R73, spec/16_security_and_isolation.md R361): BAR2 requests, fence and DMA doorbells, the link, configuration, SPDM.
-/
namespace Sys2Proof.Machine

/-! ### BAR2 (R72, R73, R318, R319) -/

/-- PCIe completion statuses. -/
def cplSc : Nat := 0
def cplUr : Nat := 1
def cplRrs : Nat := 2
def cplCa : Nat := 4

/-- What a BAR2 offset of port `a` maps to: the fabric address and the queue, where the slot is usable. -/
def State.bar2Slot (s : State) (a off : Nat) : Option (Nat × Nat) :=
  let sh := (s.attach a).slotShift
  let slot := off / 2 ^ sh
  if slot < 256 ∧ s.flag (F.ATT_B2_WIN_VALID a slot) = true ∧ s.portOwns a (s.get (F.ATT_B2_WIN_QUEUE a slot)) = true then
    some (s.get (F.ATT_B2_WIN_BASE a slot) * 2 ^ 21 / 2 ^ sh * 2 ^ sh + off % 2 ^ sh, s.get (F.ATT_B2_WIN_QUEUE a slot))
  else none

/-- Memory requests to port `a`: `none` where its link is down, `some false` where they are turned away with Completer
Abort or discarded (R334, R335; R427 with both firmware slots failed). -/
def State.barOpen (s : State) (a : Nat) : Option Bool :=
  if !s.portOn a then none
  else some (!s.flag (F.ATT_SEC_RRS a) && s.get (F.ATT_SEC_TDI_STATE a) != 3 && s.get F.MGT_STAT_BOOT != 2)

/-- Configuration requests get Request Retry Status: in burnish (R335), and until firmware has been tried (Table 19-1). -/
def State.cfgWaits (s : State) (a : Nat) : Bool := s.flag (F.ATT_SEC_RRS a) || !s.up.attachOpen

/-- `s` with a BAR2 read or atomic completed, once every piece has a final status (R319). -/
def State.bar2Finish (s : State) (a : Nat) (b : Bar2Access) : State :=
  let total := b.got.foldl (fun n (x : Nat × List Byte × Bool) => n + x.2.1.length) 0
  if total < b.len then s
  else
    let x := s.attach a
    let s1 := s.setAttach a { x with bar2 := x.bar2.filter (fun y => y.id != b.id) }
    if b.fail then s1.emit (.completion a b.tag cplCa [] false)
    else
      let parts := b.got.mergeSort (fun p q => decide (p.1 ≤ q.1))
      parts.foldl (fun s (p : Nat × List Byte × Bool) =>
        let (gs, s2) := s.attCheck a ((b.addr + p.1) / 32 * 32) ((toGranules (b.addr + p.1) p.2.1).map (fun d => { data := d, poison := p.2.2 }))
        s2.emit (.completion a b.tag cplSc (ofGranules (b.addr + p.1) p.2.1.length gs) (gs.any (·.poison)))) s1

/-- `s` with a piece of a BAR2 access ended. -/
def State.bar2Done (s : State) (a id : Nat) (d : Done) : State :=
  match (s.attach a).bar2.find? (fun b => b.id == id) with
  | none => s
  | some b =>
    let ok := isSuccess d.status || (d.status == 0x30 && !b.atomic)
    let n := if b.atomic then 8 else d.frame.bytes
    let b1 := { b with got := b.got ++ [(d.frame.addr - b.addr, sliceD 0 d.data 0 n, d.poison)], fail := b.fail || !ok }
    let x := s.attach a
    (s.setAttach a { x with bar2 := x.bar2.map (fun y => if y.id = id then b1 else y) }).bar2Finish a b1

/-- `s` with a BAR2 access begun. -/
def State.bar2Begin (s : State) (a tag addr len : Nat) (atomic : Bool) : State :=
  let x := s.attach a
  s.setAttach a { x with
    nextId := x.nextId + 1,
    bar2 := x.bar2 ++ [{ id := x.nextId, tag := tag, addr := addr, len := len, atomic := atomic }] }

/-- BAR2_READ. -/
def State.bar2Read (s : State) (a : Nat) (tag : BitVec 14) (off : BitVec 42) (len : Nat) : State :=
  match s.barOpen a with
  | none => s
  | some false => s.emit (.completion a tag.toNat cplCa [] false)
  | some true => match s.bar2Slot a off.toNat with
    | none => (s.count (F.ATT_B2_CTL_MISS a) 1).emit (.completion a tag.toNat cplCa [] false)
    | some (addr, q) =>
      let id := (s.attach a).nextId
      (s.bar2Begin a tag.toNat addr len false).issueMemory q opLoad addr len [] 0 (.bar2 a id)

/-- BAR2_READ of the port that serves the one named (R314). -/
def State.doBar2Read (s : State) (a : Fin 16) (tag : BitVec 14) (off : BitVec 42) (len : Nat) : State :=
  s.bar2Read (s.servingPort a) tag off len

/-- BAR2_WRITE. -/
def State.bar2Write (s : State) (a : Nat) (off : BitVec 42) (data : List Byte) (poison : Bool) : State :=
  match s.barOpen a with
  | none => s
  | some false => s
  | some true => match s.bar2Slot a off.toNat with
    | none => s.count (F.ATT_B2_CTL_MISS a) 1
    | some (addr, q) =>
      s.issueData q opStore addr data.length data 0 poison .none

/-- BAR2_WRITE of the port that serves the one named (R314). -/
def State.doBar2Write (s : State) (a : Fin 16) (off : BitVec 42) (data : List Byte) (poison : Bool) : State :=
  s.bar2Write (s.servingPort a) off data poison

/-- BAR2_ATOMIC: a 64-bit FetchAdd, Swap or CAS; every other request type is completed with Unsupported Request (R318). -/
def State.bar2Atomic (s : State) (a : Nat) (tag : BitVec 14) (off : BitVec 42) (op : Bar2Op) : State :=
  let go := fun (code : Nat) (data : List Byte) =>
    match s.bar2Slot a off.toNat with
    | none => (s.count (F.ATT_B2_CTL_MISS a) 1).emit (.completion a tag.toNat cplCa [] false)
    | some (addr, q) =>
      let id := (s.attach a).nextId
      (s.bar2Begin a tag.toNat addr 8 true).issueMemory q code addr 8 data 0 (.bar2 a id)
  match s.barOpen a with
  | none => s
  | some false => s.emit (.completion a tag.toNat cplCa [] false)
  | some true => match op with
    | .fetchAdd x => go 0x10 (toBytesLE 8 x.toNat)
    | .swap x => go 0x15 (toBytesLE 8 x.toNat)
    | .cas c x => go 0x16 (toBytesLE 8 x.toNat ++ toBytesLE 8 c.toNat)
    | .other => (s.count (F.ATT_DB_STAT_REJ a) 1).emit (.completion a tag.toNat cplUr [] false)

/-- BAR2_ATOMIC of the port that serves the one named (R314). -/
def State.doBar2Atomic (s : State) (a : Fin 16) (tag : BitVec 14) (off : BitVec 42) (op : Bar2Op) : State :=
  s.bar2Atomic (s.servingPort a) tag off op

/-! ### Doorbells (R320, R322-R324) -/

/-- The ATT_FQ entry of port `a` that accepts a fence or DMA doorbell of queue `q` with a PASID (R322). -/
def State.fqEntry (s : State) (a q : Nat) (pasid : Option (BitVec 20)) : Option Nat :=
  if s.portOwns a q then
    (List.range 32).find? (fun j => s.flag (F.ATT_FQ_A_VALID a j) && s.get (F.ATT_FQ_A_QUEUE a j) == q
      && (pasid.map (·.toNat)) == some (s.get (F.ATT_FQ_B_PASID a j)))
  else none

/-- DB_FENCE. The doorbell's reserved bits [15:4] are read by nothing (R7; notes/assumptions/67). -/
def State.dbFence (s : State) (a : Nat) (q : Fin 512) (pasid : Option (BitVec 20)) (data : Word) : State :=
  match s.barOpen a with
  | none => s
  | some false => s
  | some true => match s.fqEntry a q pasid with
    | none => s.count (F.ATT_DB_STAT_REJ a) 1
    | some j => s.placeFence q (fieldGet data 1 0) (fieldGet data 3 2) (.bar4 a j (fieldGet data 63 16))

/-- DB_FENCE of the port that serves the one named (R314). -/
def State.doDbFence (s : State) (a : Fin 16) (q : Fin 512) (pasid : Option (BitVec 20)) (data : Word) : State :=
  s.dbFence (s.servingPort a) q pasid data

/-- `s` with the TAIL of entry `j` of port `a` written. Of a TAIL that puts more entries in the ring than it holds, a host
error, what TAIL then holds is a free value (R131; notes/assumptions/67). -/
def State.setFqTail (s : State) (a j tail : Nat) : State :=
  if tailOver (s.fqN a j) (s.get (F.ATT_FQ_D_HEAD a j)) tail then s.freeNext.put (F.ATT_FQ_D_TAIL a j) (s.free 17)
  else s.put (F.ATT_FQ_D_TAIL a j) tail

/-- DB_DMA. The doorbell's reserved bits [63:17] are read by nothing (R7; notes/assumptions/67). -/
def State.dbDma (s : State) (a : Nat) (q : Fin 512) (pasid : Option (BitVec 20)) (data : Word) : State :=
  match s.barOpen a with
  | none => s
  | some false => s
  | some true => match s.fqEntry a q pasid with
    | none => s.count (F.ATT_DB_STAT_REJ a) 1
    | some j =>
      s.setFqTail a j (fieldGet data 16 0)

/-- DB_DMA of the port that serves the one named (R314). -/
def State.doDbDma (s : State) (a : Fin 16) (q : Fin 512) (pasid : Option (BitVec 20)) (data : Word) : State :=
  s.dbDma (s.servingPort a) q pasid data

/-- The write rule of ATT_FQ_A: VALID needs a queue that this port's EP owns (Table 14-11). -/
def hookFqA (a j : Nat) (s : State) (w : RegWrite) : State :=
  if w.newF (F.ATT_FQ_A_VALID a j) = 1 ∧ s.portOwns a (w.newF (F.ATT_FQ_A_QUEUE a j)) = false then s.rejected 7 a
  else s.takeWrite w

/-- The write rule of ATT_FQ_D. -/
def hookFqD (a j : Nat) (s : State) (w : RegWrite) : State :=
  (s.takeWrite w).setFqTail a j (w.newF (F.ATT_FQ_D_TAIL a j))

/-- `s` with a completed fence reported to the port that rang it (R323): Table 14-4, on its way to the host. -/
def State.reportFence (s : State) (f : Fence) : State :=
  match f.origin with
  | .bar4 a j token =>
    let bytes := s.qsbRead f.queue ++ toBytesLE 8 token ++ toBytesLE 8 s.now ++ List.replicate 8 0 ++
      toBytesLE 1 f.status ++ toBytesLE 1 (f.kind + 4 * f.scope) ++ List.replicate 6 0
    (s.addAccess a (s.get (F.ATT_FQ_B_PASID a j)) (s.get (F.ATT_FQ_A_REPORT a j) * 4096 + 64 * (token % 64)) 64 true
      (.report token bytes)).attPump a
  | .none => s
  | .core _ => s

/-! ### The link and configuration (R72, R313, R332, R335) -/

/-- ATTACH_LINK_UP: a port trains once the PLL has locked (Table 19-1); a partner that cannot enter Flit mode leaves the link
down. -/
def State.doAttachLinkUp (s : State) (a : Fin 16) (flit : Bool) (speed : Byte) (width : Fin 17) : State :=
  let bonded := s.flag (F.ATT_LINK_BONDED a)
  if s.up.pllLocked && s.flag (F.ATT_CTL_EN a) && flit && !(bonded && a.val % 2 == 1) && !s.flag (F.ATT_LINK_UP a) then
    let s1 := ((s.putFlag (F.ATT_LINK_UP a) true).putFlag (F.ATT_LINK_FLIT a) true).put (F.ATT_LINK_SPEED a) speed.toNat
    (s1.put (F.ATT_LINK_WIDTH a) (min width.val (if bonded then 16 else 8))).attPump a
  else s

/-- PCIE_CONVENTIONAL_RESET: SLOT_SHIFT takes effect (R72); what PCIe keeps in the function goes back to its reset state. -/
def State.doPcieConventionalReset (s : State) (a : Fin 16) : State :=
  let s1 := s.endAccesses a
  let sh := s1.get (F.ATT_B2_CTL_SLOT_SHIFT a)
  let x := s1.attach a
  let y : AttachState := { x with
    slotShift := if 21 ≤ sh ∧ sh ≤ 34 then sh else 21, bar2Base := 0, atc := [], atsOut := [], atsEnabled := false, priEnabled := false,
    priAlloc := 0, bar0Base := 0, bar4Base := 0, pageOut := [], bar2 := [], faults := [], invals := [], spdmStep := 0, session := 0, keyUpdates := 0,
    ide := [0, 0, 0, 0, 0], ideKeys := [], ideRanges := [], tdiNonce := none }
  let s2 : State := { s1.setAttach a y with msix := Sparse.set (fun _ => {}) s1.msix a {} }
  let s3 := if s2.get (F.ATT_SEC_TDI_STATE a) = 2 then s2.emit (.trustedDma a false) else s2
  (((s3.put (F.ATT_SEC_TDI_STATE a) 0).put (F.ATT_SEC_SEL_STREAMS a) 0).putFlag (F.ATT_SEC_LINK_IDE a) false).putFlag
    (F.ATT_SEC_SPDM a) false

/-- `s` with the pending vectors of port `a` put out that are no longer masked. -/
def State.flushVectors (s : State) (a : Nat) : State :=
  let m := Sparse.get (fun _ => ({} : MsixState)) s.msix a
  if m.enabled && !m.functionMask then
    let go := (setBitsList m.pending 66).filter (fun v => !bitAt m.masked v)
    let m1 := { m with pending := go.foldl (fun p v => setBitAt p v false) m.pending }
    go.foldl (fun s v => s.emit (m.message a v)) { s with msix := Sparse.set (fun _ => {}) s.msix a m1 }
  else s

/-- What BAR2 of port `a` reads as: the base written, with every bit below the size 0, and the type bits of a 64-bit memory BAR;
whether it says prefetchable is the implementation's (R72). -/
def State.bar2Reg (s : State) (a : Nat) : Nat :=
  let x := s.attach a
  x.bar2Base / 2 ^ (x.slotShift + 8) * 2 ^ (x.slotShift + 8) + 4 + (if Config.bar2Prefetchable a then 8 else 0)

/-- Sizes of BAR0 and BAR4 (R316, R317). -/
def bar0Size : Nat := 0x4000000
def bar4Size : Nat := 0x400000

/-- What BAR0 or BAR4 reads as: the base written, with every bit below the size 0, and the type bits of a 64-bit memory BAR. -/
def barReg (base size : Nat) : Nat := base / size * size + 4

/-- 8-byte word `k` of BAR4 as a read returns it: zero of a doorbell page and where the layout is reserved; an MSI-X table
entry's address, its data with the mask bit above; the pending bits (Table 14-2, R317). -/
def MsixState.bar4Word (m : MsixState) (k : Nat) : Nat :=
  let t := k - 0x40000
  if k < 0x40000 then 0
  else if t < 132 then
    (if t % 2 = 0 then (m.entry (t / 2)).1 else (m.entry (t / 2)).2 + b2n (bitAt m.masked (t / 2)) * 2 ^ 32)
  else if t = 0x200 then m.pending % 2 ^ 64
  else if t = 0x201 then m.pending / 2 ^ 64
  else 0

/-- The MSI-X state with word `k` of BAR4 written: only the table is writable (Table 14-2). -/
def MsixState.write4 (m : MsixState) (k : Nat) (data : Word) : MsixState :=
  let t := k - 0x40000
  if k < 0x40000 ∨ 132 ≤ t then m
  else if t % 2 = 0 then
    { m with table := Sparse.set (fun _ => (0, 0)) m.table (t / 2) (data.toNat / 4 * 4, (m.entry (t / 2)).2) }
  else { m with
    table := Sparse.set (fun _ => (0, 0)) m.table (t / 2) ((m.entry (t / 2)).1, fieldGet data 31 0)
    masked := setBitAt m.masked (t / 2) (data.getLsbD 32) }

/-- The MSI-X state of port `a`. -/
def State.msixAt (s : State) (a : Nat) : MsixState := Sparse.get (fun _ => {}) s.msix a

/-- `s` with a memory access to BAR4 of port `a` that is no doorbell write (R317, R334, R335): `none` where the request is of the
configuration space. -/
def State.mem4 (s : State) (a : Nat) (req : ConfigReq) : Option State :=
  match req with
  | .mem4Read tag k => some (match s.barOpen a with
    | none => s
    | some false => s.emit (.completion a tag.toNat cplCa [] false)
    | some true => s.emit (.completion a tag.toNat cplSc (toBytesLE 8 ((s.msixAt a).bar4Word k.toNat)) false))
  | .mem4Write k data => some (match s.barOpen a with
    | none => s
    | some false => s
    | some true => { s with msix := Sparse.set (fun _ => {}) s.msix a ((s.msixAt a).write4 k.toNat data) }.flushVectors a)
  | .msixMask v on => some (match s.barOpen a with
    | none => s
    | some false => s
    | some true =>
      let m := s.msixAt a
      { s with msix := Sparse.set (fun _ => {}) s.msix a { m with masked := setBitAt m.masked v on } }.flushVectors a)
  | .read _ | .ideBind _ _ _ _ | .other | .bar2Read | .bar2Write _ | .bar0Read | .bar0Write _ | .bar4Read | .bar4Write _ | .atsEnable _ | .priEnable _ _
  | .msixControl _ _ => none

/-- The function has a capability: those of Table 14-1, and no other (R313). -/
def cfgPresent : CfgCap → Bool
  | .msix | .pasid | .ats | .pri | .doe | .ide => true
  | .sriov | .ari | .tph | .ptm | .ln | .deferrableWrite => false

/-- What a configuration read of a field of port `a` returns: the feature or limit that Table 14-1 gives, the control bit as it was
written; zero of what is not listed (R313). -/
def State.cfgField (s : State) (a : Nat) (f : CfgField) : Nat :=
  let x := s.attach a
  let m := s.msixAt a
  match f with
  | .classCode => 0x120000
  | .flitMode | .tag14Requester | .tag14Completer | .atsPageAligned | .atomic64 | .tdisp | .ideLinkStreams => 1
  | .multiFunction | .pasidExecute | .pasidPrivileged | .priStopMarker | .atomic32 | .atomic128 | .atomicRequester | .other => 0
  | .maxPayload => 512
  | .maxReadRequest => 4096
  | .pasidWidth => 20
  | .atsEnabled => b2n x.atsEnabled
  | .atsUnit => 4096
  | .atsQueueDepth => 32
  | .priEnabled => b2n x.priEnabled
  | .priCapacity => 1024
  | .ideSelectiveStreams => 4
  | .msixVectors => 66
  | .msixEnabled => b2n m.enabled
  | .msixMask => b2n m.functionMask
  | .capability c => b2n (cfgPresent c)

/-- CONFIGURATION_REQUEST: Request Retry Status in burnish (R335). Disabling ATS drops the translation cache. -/
def State.doConfigurationRequest (s : State) (a : Fin 16) (req : ConfigReq) : State :=
  if (s.mem4 a req).isSome then (s.mem4 a req).getD s
  else if !s.portOn a then s
  else if s.cfgWaits a then s.emit (.cfgCompletion a cplRrs)
  else
    let x := s.attach a
    let s1 : State := match req with
      | .read f => s.emit (.cfgData a (toBytesLE 4 (s.cfgField a f)))
      | .ideBind i sp base limit => s.setAttach a { x with ideRanges := x.ideRanges ++
          [{ stream := i.val + 1, space := sp, base := base.toNat, limit := limit.toNat }] }
      | .other => s
      | .bar2Read => s.emit (.cfgData a (toBytesLE 8 (s.bar2Reg a)))
      | .bar2Write v => s.setAttach a { x with bar2Base := v.toNat }
      | .bar0Read => s.emit (.cfgData a (toBytesLE 8 (barReg x.bar0Base bar0Size)))
      | .bar0Write v => s.setAttach a { x with bar0Base := v.toNat }
      | .bar4Read => s.emit (.cfgData a (toBytesLE 8 (barReg x.bar4Base bar4Size)))
      | .bar4Write v => s.setAttach a { x with bar4Base := v.toNat }
      | .mem4Read _ _ => s
      | .mem4Write _ _ => s
      | .atsEnable on => ((s.setAttach a { x with atsEnabled := on }).dropAtc a none).attPump a
      | .priEnable on alloc => s.setAttach a { x with priEnabled := on, priAlloc := alloc }
      | .msixControl en mask =>
        let m := Sparse.get (fun _ => ({} : MsixState)) s.msix a
        { s with msix := Sparse.set (fun _ => {}) s.msix a { m with enabled := en, functionMask := mask } }.flushVectors a
      | .msixMask _ _ => s
    s1.emit (.cfgCompletion a cplSc)

/-! ### IDE (R333) -/

/-- `s` with IDE stream `i` of port `a` in a state; ATT_SEC follows. -/
def State.setIde (s : State) (a i st : Nat) : State :=
  let x := s.attach a
  let l := listSet x.ide i st
  let s1 := s.setAttach a { x with ide := l }
  (s1.put (F.ATT_SEC_SEL_STREAMS a) ((l.drop 1).filter (· == 2)).length).putFlag (F.ATT_SEC_LINK_IDE a) (l.head? == some 2)

/-- `s` with a key of stream `k.stream` programmed in place of the one that key set, direction and sub-stream had. A secure stream stays
so: it takes the new set with KEY_SET_GO (R333). -/
def State.progKey (s : State) (a : Nat) (k : IdeKey) : State :=
  let x := s.attach a
  let same := fun (y : IdeKey) => y.stream == k.stream && y.keySet == k.keySet && y.transmit == k.transmit && y.sub == k.sub
  let s1 := s.setAttach a { x with ideKeys := x.ideKeys.filter (fun y => !same y) ++ [k] }
  if x.ide.getD k.stream 0 = 2 then s1 else s1.setIde a k.stream 1

/-- `s` with IDE stream `i` of port `a` stopped, its keys erased. -/
def State.stopIde (s : State) (a i : Nat) : State :=
  let x := s.attach a
  (s.setAttach a { x with ideKeys := x.ideKeys.filter (fun y => y.stream != i) }).setIde a i 0

/-- IDE_INTEGRITY_FAIL: the TLP is discarded and a secure stream goes to Insecure. -/
def State.doIdeIntegrityFail (s : State) (a : Fin 16) (stream : Fin 5) : State :=
  if (s.attach a).ide.getD stream 0 = 2 then s.setIde a stream 3 else s

/-! ### SPDM (R336, R361) -/

/-- Response codes of SPDM 1.3 (PRESUMED: the standard's). -/
def spdmVersion : Nat := 0x04
def spdmCapabilities : Nat := 0x61
def spdmAlgorithms : Nat := 0x63
def spdmDigests : Nat := 0x01
def spdmCertificate : Nat := 0x02
def spdmChallengeAuth : Nat := 0x03
def spdmMeasurements : Nat := 0x60
def spdmKeyExchange : Nat := 0x64
def spdmFinish : Nat := 0x65
def spdmEndSession : Nat := 0x6C
def spdmKeyUpdate : Nat := 0x69
def spdmVendor : Nat := 0x7E
def spdmError : Nat := 0x7F

/-- The answer to a request out of its order (UnexpectedRequest), or with a bad field (InvalidRequest). -/
def spdmUnexpected (a : Nat) : Emission := .spdm a spdmError [0x04]
def spdmInvalid (a : Nat) : Emission := .spdm a spdmError [0x01]

/-- `s` with an SPDM request handled by `f`: through DOE, whose accesses get Request Retry Status in burnish. -/
def State.spdm (s : State) (a : Nat) (f : AttachState → State) : State :=
  if !s.portOn a then s
  else if s.cfgWaits a then s.emit (.cfgCompletion a cplRrs)
  else f (s.attach a)

/-- A request that needs negotiated algorithms. -/
def State.spdmAfter (s : State) (a : Nat) (f : AttachState → State) : State :=
  s.spdm a (fun x => if x.spdmStep = 3 then f x else s.emit (spdmUnexpected a))

/-- GET_VERSION. -/
def State.doGetVersion (s : State) (a : Fin 16) : State :=
  s.spdm a (fun x => (s.setAttach a { x with spdmStep := 1 }).emit (.spdm a spdmVersion [0x00, 0x13]))

/-- GET_CAPABILITIES. -/
def State.doGetCapabilities (s : State) (a : Fin 16) : State :=
  s.spdm a (fun x => if x.spdmStep = 1 then (s.setAttach a { x with spdmStep := 2 }).emit (.spdm a spdmCapabilities [])
    else s.emit (spdmUnexpected a))

/-- NEGOTIATE_ALGORITHMS: the device has one choice of each. -/
def State.doNegotiateAlgorithms (s : State) (a : Fin 16) (offered : Bool) : State :=
  s.spdm a (fun x => if x.spdmStep ≠ 2 then s.emit (spdmUnexpected a)
    else if offered then (s.setAttach a { x with spdmStep := 3 }).emit (.spdm a spdmAlgorithms [])
    else s.emit (spdmInvalid a))

/-- GET_DIGESTS: one chain, in slot 0. -/
def State.doGetDigests (s : State) (a : Fin 16) : State :=
  s.spdmAfter a (fun _ => s.emit (.spdm a spdmDigests (hashBytes 48 (sha384 certChain))))

/-- GET_CERTIFICATE. -/
def State.doGetCertificate (s : State) (a : Fin 16) (slot : Fin 8) (off len : BitVec 16) : State :=
  s.spdmAfter a (fun _ => if slot.val = 0 then
      s.emit (.spdm a spdmCertificate ((certChain.drop off.toNat).take len.toNat))
    else s.emit (spdmInvalid a))

/-- CHALLENGE: signed with the identity key. -/
def State.doChallenge (s : State) (a : Fin 16) (slot : Fin 8) (nonce : BitVec 256) : State :=
  s.spdmAfter a (fun _ => if slot.val = 0 then
      s.emit (.spdm a spdmChallengeAuth (identitySign (toBytesLE 32 nonce.toNat)))
    else s.emit (spdmInvalid a))

/-- The running firmware's hash. -/
def State.fwHash (s : State) : List Byte := (List.range 6).flatMap (fun k => toBytesLE 8 (s.reg (Reg.SEC_FW_HASH k)).toNat)

/-- The hash of bound-set entry `e`, zeros where it is empty. -/
def State.setHash (s : State) (e : Nat) : List Byte :=
  if s.get (F.SEC_BS_ENT_A_STATE e) = 0 then List.replicate 48 0
  else (List.range 6).flatMap (fun k => toBytesLE 8 (s.reg (Reg.SEC_BS_HASH e k)).toNat)

/-- Measurement block `i` (Table 16-2). -/
def State.measurement (s : State) (i : Nat) : List Byte :=
  let r8 := fun (r : Nat) => toBytesLE 8 (s.reg r).toNat
  if i = 1 then hashBytes 48 Config.bootRomHash
  else if i = 2 then s.fwHash
  else if i = 3 then toBytesLE 1 (s.get F.MGT_DEV_ID_STEPPING) ++ r8 Reg.SEC_ID
  else if i = 4 then r8 Reg.SEC_STAT ++ r8 Reg.SEC_BURN ++ r8 Reg.HBM_CTL
  else if i = 5 then r8 Reg.RTE_CTL ++ toBytesLE 1 s.domain ++ toBytesLE 1 s.member
  else (List.range 8).flatMap s.setHash

/-- GET_MEASUREMENTS: one block or all, signed with the identity key over the blocks and the nonce. -/
def State.doGetMeasurements (s : State) (a : Fin 16) (index : Byte) (nonce : BitVec 256) : State :=
  s.spdmAfter a (fun _ =>
    let i := index.toNat
    if i = 0 then s.emit (.spdm a spdmMeasurements [6])
    else if i ≤ 6 ∨ i = 255 then
      let d := if i = 255 then (List.range 6).flatMap (fun k => s.measurement (k + 1)) else s.measurement i
      s.emit (.spdm a spdmMeasurements (d ++ identitySign (d ++ toBytesLE 32 nonce.toNat)))
    else s.emit (spdmInvalid a))

/-- KEY_EXCHANGE: one session per port at a time. -/
def State.doKeyExchange (s : State) (a : Fin 16) (share : List Byte) : State :=
  s.spdmAfter a (fun x => if x.session = 0 then
      (s.setAttach a { x with session := 1, keyUpdates := 0 }).emit (.spdm a spdmKeyExchange (identitySign share))
    else s.emit (spdmUnexpected a))

/-- FINISH: the session is established, or ends where the verify data is wrong. -/
def State.doFinish (s : State) (a : Fin 16) (ok : Bool) : State :=
  s.spdmAfter a (fun x => if x.session ≠ 1 then s.emit (spdmUnexpected a)
    else if ok then ((s.setAttach a { x with session := 2 }).putFlag (F.ATT_SEC_SPDM a) true).emit (.spdm a spdmFinish [])
    else (s.setAttach a { x with session := 0 }).emit (spdmInvalid a))

/-- END_SESSION. -/
def State.doEndSession (s : State) (a : Fin 16) : State :=
  s.spdmAfter a (fun x => if x.session = 2 then
      ((s.setAttach a { x with session := 0 }).putFlag (F.ATT_SEC_SPDM a) false).emit (.spdm a spdmEndSession [])
    else s.emit (spdmUnexpected a))

/-- KEY_UPDATE. -/
def State.doKeyUpdate (s : State) (a : Fin 16) : State :=
  s.spdmAfter a (fun x => if x.session = 2 then
      (s.setAttach a { x with keyUpdates := x.keyUpdates + 1 }).emit (.spdm a spdmKeyUpdate [])
    else s.emit (spdmUnexpected a))

/-- `s` with the TDI of port `a` in a state: DMA into a trusted host is enabled only in RUN (R334). -/
def State.setTdi (s : State) (a st : Nat) : State :=
  let run := s.get (F.ATT_SEC_TDI_STATE a) == 2
  let s1 := s.put (F.ATT_SEC_TDI_STATE a) st
  (if run != (st == 2) then s1.emit (.trustedDma a (st == 2)) else s1).attPump a

/-- A range of the TDISP interface report: BAR `n` at `base`, of `size` bytes, with its attributes, of which bit 0 says that it
holds the MSI-X table, bit 1 the PBA, bit 2 that it is non-TEE memory. -/
def tdiRange (n base size attr : Nat) : List Byte :=
  toBytesLE 8 (base / size * size / 4096) ++ toBytesLE 4 (size / 4096) ++ toBytesLE 4 (attr + n * 2 ^ 16)

/-- The TDISP interface report: the MSI-X control word, and BAR0, marked non-TEE, BAR2 and BAR4 (R334). Its layout is TDISP's
(PRESUMED, notes/assumptions/59). -/
def State.tdiReport (s : State) (a : Nat) : List Byte :=
  let x := s.attach a
  let m := s.msixAt a
  toBytesLE 4 0 ++ toBytesLE 2 (65 + b2n m.functionMask * 2 ^ 14 + b2n m.enabled * 2 ^ 15) ++ toBytesLE 6 0 ++ toBytesLE 4 3 ++
    tdiRange 0 x.bar0Base bar0Size 4 ++ tdiRange 2 x.bar2Base (2 ^ (x.slotShift + 8)) 0 ++ tdiRange 4 x.bar4Base bar4Size 3 ++
    toBytesLE 4 0

/-- VENDOR_DEFINED_REQUEST: IDE_KM and TDISP over the secure session (R333, R334). -/
def State.doVendorDefinedRequest (s : State) (a : Fin 16) (msg : VendorMsg) : State :=
  s.spdmAfter a (fun x =>
    let rsp := fun (d : List Byte) => Emission.spdm a spdmVendor d
    let tdi := s.get (F.ATT_SEC_TDI_STATE a)
    let ideAt := fun (i : Fin 5) => x.ide.getD i 0
    if x.session ≠ 2 then s.emit (spdmUnexpected a)
    else match msg with
      | .ideQuery => s.emit (rsp (x.ide.map (fun n => BitVec.ofNat 8 n)))
      | .ideKeyProg i set tx sub key iv =>
        (s.progKey a { stream := i, keySet := set, transmit := tx, sub := sub, key := key, iv := iv }).emit (rsp [])
      | .ideKeySetGo i =>
        if ideAt i = 1 ∨ ideAt i = 2 then (s.setIde a i 2).emit (rsp []) else s.emit (spdmInvalid a)
      | .ideKeySetStop i => (s.stopIde a i).emit (rsp [])
      | .tdispGetVersion => s.emit (rsp [0x10])
      | .tdispGetCapabilities => s.emit (rsp [])
      | .tdispLock nonce =>
        if tdi = 0 then
          ((s.setAttach a { x with tdiNonce := some nonce }).setTdi a 1).emit (rsp (toBytesLE 32 nonce.toNat))
        else s.emit (spdmInvalid a)
      | .tdispReport => if tdi = 1 ∨ tdi = 2 then s.emit (rsp (s.tdiReport a)) else s.emit (spdmInvalid a)
      | .tdispState => s.emit (rsp (toBytesLE 1 tdi))
      | .tdispStart nonce =>
        if tdi = 1 ∧ x.tdiNonce = some nonce then ((s.setAttach a { x with tdiNonce := none }).setTdi a 2).emit (rsp [])
        else s.emit (spdmInvalid a)
      | .tdispStop => ((s.setAttach a { x with tdiNonce := none }).setTdi a 0).emit (rsp [])
      | .other => s.emit (spdmInvalid a))

end Sys2Proof.Machine
end

