-- ==== Sys2Proof/Machine/Line.lean ====
section
/-!
DEFINITION. The bits of a codeword (spec/12_vangeri_links.md R269-R272, R282): link-control field, granules,
scrambling, RS(544,514) parity, markers, encryption. The field and generator polynomial of IEEE 802.3 Clause 91 and the
form of its scrambler are PRESUMED (notes/assumptions/17).
-/
namespace Sys2Proof.Machine

/-- Multiplication by α in GF(2^10), x^10 + x^3 + 1. -/
def gf10X2 (a : Nat) : Nat := if a < 512 then a * 2 else (a * 2 % 1024) ^^^ 9

def gf10MulAux : Nat → Nat → Nat → Nat
  | 0, _, _ => 0
  | n + 1, a, b => (if b % 2 = 1 then a else 0) ^^^ gf10MulAux n (gf10X2 a) (b / 2)

/-- Multiplication in GF(2^10). -/
def gf10Mul (a b : Nat) : Nat := gf10MulAux 10 a b

/-- A polynomial, highest power first, times (x - r). -/
def polyTimesRoot (p : List Nat) (r : Nat) : List Nat :=
  (p ++ [0]).zipWith (· ^^^ ·) (0 :: p.map (gf10Mul r))

/-- The generator polynomial without its leading 1: roots α^0 to α^29. -/
def rs544Gen : List Nat :=
  ((List.range 30).foldl (fun (a : List Nat × Nat) _ => (polyTimesRoot a.1 a.2, gf10X2 a.2)) ([1], 1)).1.drop 1

/-- The 30 parity symbols of 514 message symbols. -/
def rs544Parity (m : List Nat) : List Nat :=
  let g := rs544Gen
  m.foldl (fun r b =>
    let f := r.headD 0 ^^^ b
    (r.drop 1 ++ [0]).zipWith (fun x c => x ^^^ gf10Mul f c) g) (List.replicate 30 0)

/-- `n` output bits of the generator x^58 + x^39 + 1 from state `st`, first bit lowest, as a number (R270). -/
def prbsBits : Nat → Nat → Nat
  | 0, _ => 0
  | n + 1, st =>
    let b := (st / 2 ^ 57 + st / 2 ^ 38) % 2
    b + 2 * prbsBits n (st * 2 % 2 ^ 58 + b)

/-- The scrambling bits of codeword `n`. -/
def scramble (n : Nat) : Nat := prbsBits 5140 (n % 2 ^ 58 / 2 * 2 + 1)

/-- A granule's 36 bytes as sent: data, then check bytes, XORed with the poison mask where poisoned. -/
def Granule.wire (g : Granule) : List Byte :=
  let d := sliceD 0 g.data 0 32
  let c := if g.poison then (hatchCheck d).zipWith (· ^^^ ·) poisonMask else hatchCheck d
  d ++ c.map (fun (x : Nat) => BitVec.ofNat 8 x)

/-- The link-control field without its TAG (Table 12-3). -/
def linkControl (type lseq ack : Nat) (nak : Bool) (credit : List Nat) (hdr idle : Nat) (got : Bool) : Nat :=
  type * 2 ^ 240 + lseq % 4096 * 2 ^ 228 + ack % 4096 * 2 ^ 216 + b2n (nak || got) * 2 ^ 215 +
  (List.range 8).foldl (fun n v => n + credit.getD v 0 % 1024 * 2 ^ (130 + 10 * v)) 0 + hdr * 2 ^ 113 + idle * 2 ^ 96

/-- The 5,140 message bits of a link-control field and 17 granules given as 36-byte strings (R269). -/
def messageBits (lc : Nat) (g : List (List Byte)) : Nat :=
  lc + (List.range 17).foldl (fun n i => n + ofBytesLE (g.getD i []) * 2 ^ (244 + 288 * i)) 0

/-- The 544 symbols of message bits. -/
def lineSymbols (m : Nat) : List Nat :=
  let msg := (List.range 514).map (fun j => bitsOf m (10 * j + 9) (10 * j))
  msg ++ rs544Parity msg

/-- A lane marker (Table 12-4). -/
def laneMarker (lane port width : Nat) : Nat :=
  let v := width + port % 128 * 4 + lane * 512
  0x5A3C96F0E1 * 2 ^ 20 + v % 2048 * 2 ^ 9 + (511 - v % 512)

/-- The PAM4 level of the two bits of a UI, the first transmitted first: Gray-coded (R266). -/
def pamLevel (first second : Bool) : Int :=
  match first, second with
  | false, false => -3
  | false, true => -1
  | true, true => 1
  | true, false => 3

/-- The five UIs of a symbol, from its bit 0: each carries two bits, the first transmitted being the UI's MSB (R266, R269). -/
def symbolUis (x : Nat) : List Int := (List.range 5).map (fun k => pamLevel (bitAt x (2 * k)) (bitAt x (2 * k + 1)))

/-- What each of `w` transmit lanes sends for the symbols of a codeword: symbol j goes to lane j mod w (R269). -/
def lineUis (w : Nat) (symbols : List Nat) : List (List Int) :=
  (List.range w).map (fun l =>
    (List.range (symbols.length / w)).flatMap (fun k => symbolUis (symbols.getD (k * w + l) 0)))

/-- The symbols of a marker codeword of a port of `w` lanes (R272). -/
def markerSymbols (port width w : Nat) : List Nat :=
  let sym := fun j => bitsOf (laneMarker (j % w) port width) (10 * (j / w % 6) + 9) (10 * (j / w % 6))
  let head := (List.range 24).foldl (fun n j => n + sym j * 2 ^ (10 * j)) 0
  lineSymbols (messageBits (head + 15 * 2 ^ 240) (List.replicate 17 (Granule.wire { data := [] })))

end Sys2Proof.Machine
end

