-- ==== Sys2Proof/Machine/Link.lean ====
section
/-!
DEFINITION. Vangeri links (spec/12_vangeri_links.md R266-R287): bring-up, codewords, credits, replay, Quiet, deep idle,
test loops and link down.
-/
namespace Sys2Proof.Machine

/-! ### Bring-up states -/

/-- The state in which port `p` rests: Detect where it is enabled, and a bad carrier identity memory does not hold it disabled
(R275, R428). -/
def State.restState (s : State) (p : Nat) : Nat := if s.flag (F.VPT_CTL_EN p) && !s.flag F.MGT_STAT_CIM_BAD then 1 else 0

/-- The bring-up state of port `p` (Table 12-6): an enabled port that has not begun is in Detect. -/
def State.bstate (s : State) (p : Nat) : Nat :=
  let b := s.get (F.VPT_STAT_BSTATE p)
  if b = 0 then s.restState p else b

/-- `s` with port `p` in bring-up state `b` from this turn. -/
def State.toState (s : State) (p b : Nat) : State :=
  (s.put (F.VPT_STAT_BSTATE p) b).setPort p { s.port p with enteredAt := s.clk }

/-- The lanes of a width code (Table 12-4). -/
def widthLanes (w : Nat) : Nat := if w = 0 then 1 else if w = 1 then 2 else 4
/-- The widest width port `p` may take (Table 12-13). -/
def State.widest (s : State) (p : Nat) : Nat := min 2 (s.get (F.VPT_CTL_WIDTH p))

/-- The width code and lanes of the widest width up to `most` that the usable lanes allow (R278). -/
def chooseWidth (most usable : Nat) : Option (Nat × Nat) :=
  if 2 ≤ most ∧ usable % 16 = 15 then some (2, 15)
  else if 1 ≤ most ∧ usable % 4 = 3 then some (1, 3)
  else if 1 ≤ most ∧ usable / 4 % 4 = 3 then some (1, 12)
  else match setBitsList usable 4 with
    | l :: _ => some (0, 2 ^ l)
    | [] => none

/-- `s` with bring-up of port `p` failed for `cause`: back to Detect, the next attempt 25,000 turns later (R275). -/
def State.failAttempt (s : State) (p cause : Nat) : State :=
  let s1 := (s.put (F.VPT_STAT_LAST_CAUSE p) cause).put (F.VPT_STAT_ATTEMPTS p) (min 255 (s.get (F.VPT_STAT_ATTEMPTS p) + 1))
  let s2 := (s1.putFlag (F.VPT_STAT_ENC p) false).toState p 1
  s2.setPort p { s2.port p with
    notBefore := s2.clk + 25000, stuck := false, refused := none, peer := none, credGot := false, checkBad := 0, ivTx := 0,
    authRx := 0 }

/-- Frames bound for port `p` in the switch core: on their way, waiting for admission, queued, spilled. -/
def State.boundFor (s : State) (p : Nat) : List SwFrame :=
  (s.sw.crossing ++ s.sw.ready ++ s.sw.queued ++ s.sw.spill).filter (fun x => x.egress == p)

/-- Frames lost with port `p`: bound for it, in its stream, or with a last granule that is not acknowledged. -/
def State.framesAt (s : State) (p : Nat) : Nat :=
  let v := s.port p
  (s.boundFor p).length + v.stream.length + v.unacked.foldl (fun n w => n + w.tails.length) 0

/-- The collectives with a frame at port `p`, by low CSEQ bits (R216). -/
def State.colsAt (s : State) (p : Nat) : List Nat :=
  let v := s.port p
  let fs := (s.boundFor p).map (·.frame) ++ v.stream.map (·.frame)
  ((fs.filter (fun f => isCollective f.opcode)).map (fun f => bitsOf f.addr 63 48) ++ v.unacked.flatMap (·.col)).eraseDups

/-- `s` with port `p`'s link down for `cause` (R287): out of service, its frames discarded, replay state and credits
cleared, back in Detect. -/
def State.portDown (s : State) (p cause : Nat) : State :=
  if s.flag (F.VPT_STAT_UP p) then
    let v := s.port p
    let n := s.framesAt p
    let cols := s.colsAt p
    let drop := fun (l : List SwFrame) => l.filter (fun x => x.egress != p)
    let owe := fun (l : List SwFrame) =>
      (drop l).map (fun x => if x.ingress = some p then { x with ingress := none } else x)
    let s0 := (s.boundFor p).foldl (fun s x => s.giveCredits x.ingress x.frame.vc x.frame.size) s
    let s1 := { s0 with sw := { s0.sw with
      queued := drop s.sw.queued, spill := drop s.sw.spill, ready := owe s.sw.ready, crossing := owe s.sw.crossing
      lostCol := s.sw.lostCol ++ cols.filter (fun c => !s.sw.lostCol.contains c) } }
    let s2 := s1.setPort p { ({} : VPort) with
      enteredAt := s.clk, rxFrames := v.rxFrames, stale := v.rxFrames.length, thr := v.thr, trained := v.trained }
    let s3 := ((((s2.putFlag (F.VPT_STAT_UP p) false).put (F.VPT_STAT_LSTATE p) 0).putFlag (F.VPT_STAT_ENC p) false).put
      (F.VPT_STAT_LAST_CAUSE p) cause).put (F.VPT_STAT_BSTATE p) (s.restState p)
    let s4 := ((s3.putFlag (F.RTE_NBR_SEEN_VALID p) false).nbrCompare p).put (F.SWX_P_SPILL_FILL p) 0
    let s5 := ((s4.count (F.VPT_ERR_DOWN p) 1).count (F.SWX_P_DROP_DOWN p) n).updateThrottle p
    s5.fault 1 0x0010 2 (p / 32) { detail0 := cause + p * 0x100 + n * 0x10000 }
  else
    let s1 := (s.put (F.VPT_STAT_LAST_CAUSE p) cause).toState p (s.restState p)
    s1.setPort p { s1.port p with stuck := false, refused := none, peer := none, credGot := false, checkBad := 0 }

/-- The code of a cause in Table 12-8. -/
def linkCauseCode : LinkCause → Nat
  | .replay => 0x0B | .align => 0x0C | .los => 0x0D | .cmd => 0x0F

/-- LOSS_OF_SIGNAL: on a lane in use, the link goes down or the attempt ends; without any signal the port idles, which
VPT_STAT shows (R285). -/
def State.doLossOfSignal (s : State) (p : Fin 128) (lanes : BitVec 4) : State :=
    let s1 := (setBitsList lanes.toNat 4).foldl (fun s l =>
      (s.putFlag (F.VGL_STAT_SIGNAL p l) false).putFlag (F.VGL_STAT_CDR_LOCK p l) false) s
    let used := (s.port p).lanes &&& lanes.toNat != 0
    if used && s1.flag (F.VPT_STAT_UP p) then s1.portDown p 0x0D
    else if used && decide (2 ≤ s1.bstate p ∧ s1.bstate p ≤ 8) then s1.failAttempt p 0x0D else s1

/-- LINK_DOWN: for a cause of R287 that stands. The last of LIMIT replays has passed once all of it is sent and ACK_TIMEOUT turns
have brought no progress (R281). -/
def State.doLinkDown (s : State) (p : Fin 128) (cause : LinkCause) : State :=
    let v := s.port p
    let stands := match cause with
      | .los => true
      | .replay => decide (s.get (F.VPT_RETRY_LIMIT p) ≤ v.replays) && v.replay.isNone && !v.unacked.isEmpty
          && decide (v.progressAt + s.get (F.VPT_RETRY_ACK_TIMEOUT p) ≤ s.clk)
      | .align => v.misses.any (fun n => decide (4 ≤ n))
      | .cmd => !s.flag (F.VPT_CTL_EN p) || s.get (F.VPT_CTL_STATE_REQ p) == 2 || s.get (F.VPT_CTL_LOOP p) != 0
    if s.flag (F.VPT_STAT_UP p) && stands then s.portDown p (linkCauseCode cause) else s

/-- Every Vangeri port is held: disabled, where the carrier identity memory is bad (R428), or in Detect, where the key family is
not the expected one (R430). -/
def State.portsHeld (s : State) : Bool :=
  s.flag F.MGT_STAT_CIM_BAD || (s.flag F.MGT_STAT_KF_MISMATCH && !s.flag F.MGT_CTL_KF_OVERRIDE)

/-- The cage of port `p` lets it leave Detect: it holds a module, with flat memory or in state ModuleReady, 3 (R436). -/
def State.cageReady (s : State) (p : Nat) : Bool :=
  s.flag (F.MGT_CAGE_PRESENT (p / 2)) && (s.flag (F.MGT_CAGE_FLAT (p / 2)) || s.get (F.MGT_CAGE_MSTATE (p / 2)) == 3)

/-- The lanes an attempt needs signal on: of the widest width, or where narrower is permitted of the widest that the
lanes with signal allow (R275, R278). -/
def State.attempt (s : State) (p signal : Nat) : Option (Nat × Nat) :=
  match chooseWidth (s.widest p) signal with
  | some (w, l) => if w = s.widest p ∨ s.flag (F.VPT_CTL_DEGRADE_EN p) = true then some (w, l) else none
  | none => none

/-- DETECT_SIGNAL. -/
def State.doDetectSignal (s : State) (p : Fin 128) (lanes : BitVec 4) (nonce : BitVec 128) : State :=
  let s1 := (setBitsList lanes.toNat 4).foldl (fun s l =>
    (s.putFlag (F.VGL_STAT_SIGNAL p l) true).putFlag (F.VGL_STAT_CDR_LOCK p l) true) s
  let v := s1.port p
  if s1.flag (F.VPT_CTL_EN p) && s1.bstate p == 1 && v.notBefore == 0 && !s1.portsHeld && s1.cageReady p
      && (s1.flag F.TRN_STAT_LOCKED || s1.flag (F.VPT_CTL_FREE_RUN p))
      && s1.get (F.VPT_CTL_STATE_REQ p) != 2 && s1.get (F.VPT_CTL_LOOP p) == 0 && !v.feWaiting
      && s1.up.detachAt == none then
    match s1.attempt p lanes.toNat with
    | some (_, l) =>
      let s2 := (s1.toState p 2).put (F.VPT_STAT_LSTATE p) 0
      s2.setPort p { s2.port p with lanes := l, nonce := nonce.toNat, stuck := false, refused := none, checkBad := 0 }
    | none => s1
  else s1

/-- A signed six-bit tap held to a range (Table 12-1). -/
def clampTap (lo hi : Int) (x : Nat) : Nat :=
  (BitVec.ofInt 6 (max lo (min hi (BitVec.ofNat 6 x).toInt))).toNat

/-- The five taps of VGL_TX bits [41:12], each held to the range of the transmit FFE (Table 12-1). -/
def clampTaps (x : Nat) : Nat :=
  clampTap (-4) 0 (bitsOf x 5 0) + clampTap (-8) 4 (bitsOf x 11 6) * 2 ^ 6 + clampTap (-24) 0 (bitsOf x 17 12) * 2 ^ 12 +
  clampTap (-16) 0 (bitsOf x 23 18) * 2 ^ 18 + clampTap (-4) 4 (bitsOf x 29 24) * 2 ^ 24

/-- How lane `l` of port `p` drives its output (Tables 12-1, 12-21): the swing in mVppd, and the taps c−3, c−2, c−1, c0, c+1, c+2 in
1/64. Taps set by hand that lie outside their range act as its nearest end (DESIGN CHOICE, notes/assumptions/81). -/
def State.laneDrive (s : State) (p l : Nat) : Nat × List Int :=
  let x := clampTaps (fieldGet (s.reg (Reg.VGL_TX p l)) 41 12)
  let tap := fun (k : Nat) => (BitVec.ofNat 6 (bitsOf x (6 * k + 5) (6 * k))).toInt
  let others := (List.range 5).foldl (fun n k => n + (tap k).natAbs) 0
  (600 + 25 * min 24 (s.get (F.VGL_TX_SWING p l)), [tap 0, tap 1, tap 2, 64 - (others : Int), tap 3, tap 4])

/-- `s` with lane `l` of port `p` showing the taps it uses where they are not set by hand (Table 12-21). -/
def State.showTaps (s : State) (p l : Nat) : State :=
  if s.flag (F.VGL_TX_MANUAL p l) then s
  else s.setReg (Reg.VGL_TX p l) (fieldPut (s.reg (Reg.VGL_TX p l)) 41 12 ((s.port p).trained.getD l 0))

/-- `s` with what lane `l` adapted to (R266, Tables 12-21 and 12-22): its CTLE peaks by 24 dB at most. -/
def State.laneTrained (s : State) (p l : Nat) (x : BitVec 30 × Byte × Byte) : State :=
  let s1 := (s.put (F.VGL_RX_CTLE p l) (min 48 x.2.1.toNat)).put (F.VGL_RX_SNR p l) x.2.2.toNat
  let s2 := s1.putFlag (F.VGL_STAT_TRAINED p l) true
  let v := s2.port p
  let trained := if s2.flag (F.VGL_TX_MANUAL p l) then v.trained else listSet v.trained l (clampTaps x.1.toNat)
  (s2.setPort p { v with trained := trained }).showTaps p l

/-- The write rule of VGL_TX of lane `l`: the taps are written where MANUAL is 1; else reads return the trained ones. -/
def hookVglTx (p l : Nat) (s : State) (w : RegWrite) : State := (s.takeWrite w).showTaps p l

/-- TRAIN_DONE. -/
def State.doTrainDone (s : State) (p : Fin 128) (own peer : BitVec 4) (lanes : List
    (BitVec 30 × Byte × Byte)) : State :=
  if s.bstate p = 2 then
    let usable := own.toNat &&& peer.toNat
    let s1 := (setBitsList own.toNat 4).foldl (fun s l => s.laneTrained p l (lanes.getD l (0, 0, 0))) s
    let s2 := s1.put (F.VPT_STAT_LANES_OK p) usable
    match chooseWidth (s2.widest p) usable with
    | none => s2.failAttempt p 0x0E
    | some (w, l) =>
      if w < s2.widest p ∧ s2.flag (F.VPT_CTL_DEGRADE_EN p) = false then s2.failAttempt p 0x0E
      else
        let s3 := (s2.put (F.VPT_STAT_WIDTH p) w).toState p 3
        s3.setPort p { s3.port p with lanes := l }
  else s

/-- POLARITY_DONE. -/
def State.doPolarityDone (s : State) (p : Fin 128) (inverted : BitVec 4) : State :=
    if s.bstate p = 3 then (s.put (F.VPT_STAT_POL_INV p) (inverted.toNat &&& (s.port p).lanes)).toState p 4 else s

/-- Fields of marker bits [19:0] (Table 12-4). -/
def markerLane (m : Nat) : Nat := bitsOf m 19 18
def markerCheckOk (m : Nat) : Bool := bitsOf m 17 9 + bitsOf m 8 0 == 511

/-- The receive lanes of `used` whose markers fail CHECK, a bitmap. -/
def checkFailed (used ms : List Nat) : Nat :=
  (used.zip ms).foldl (fun n x => if markerCheckOk x.2 then n else n + 2 ^ x.1) 0

/-- LANE_ORDER_DONE: the lanes agree in PORT and WIDTH and repeat no LANE, or the attempt fails. A lane whose marker fails CHECK
is looked at again; a second failure fails the attempt (R276). -/
def State.doLaneOrderDone (s : State) (p : Fin 128) (markers : List (BitVec 20)) : State :=
    if s.bstate p = 4 then
      let v := s.port p
      let used := setBitsList v.lanes 4
      let ms := markers.map (·.toNat)
      let lanes := ms.map markerLane
      let bad := checkFailed used ms
      if bad ≠ 0 then
        if bad &&& v.checkBad ≠ 0 then s.failAttempt p 0x03 else s.setPort p { v with checkBad := v.checkBad ||| bad }
      else if ms.length = used.length ∧ lanes.eraseDups.length = lanes.length
          ∧ ms.all (fun m => bitsOf m 17 9 == bitsOf (ms.headD 0) 17 9) = true then
        let map := (used.zip lanes).foldl (fun v x => setBitsOf v (2 * x.1 + 1) (2 * x.1) x.2) (s.get (F.VPT_STAT_LANE_MAP p))
        (s.put (F.VPT_STAT_LANE_MAP p) map).toState p 5
      else s.failAttempt p 0x03
    else s

/-- DESKEW_DONE. -/
def State.doDeskewDone (s : State) (p : Fin 128) (skew : Nat) : State :=
  if s.bstate p = 5 then
    let s1 := s.put (F.VPT_STAT_SKEW p) (min 1023 skew)
    if skew ≤ 512 then (s1.setPort p { s1.port p with fecRun := 0 }).toState p 6 else s1.failAttempt p 0x04
  else s

/-- FEC_LOCK_DONE: after 64 consecutive codewords without an uncorrectable one (Table 12-6). -/
def State.doFecLockDone (s : State) (p : Fin 128) : State :=
  if s.bstate p = 6 ∧ 64 ≤ (s.port p).fecRun then s.toState p 7 else s

/-- `s` with bring-up stopped in Ident for a cause that is not retried (R277); what change lets the port try again, its next attempt
starts no earlier than after any failure (R275). -/
def State.refuseLink (s : State) (p cause : Nat) (i : LinkIdent) : State :=
  let s1 := (s.put (F.VPT_STAT_LAST_CAUSE p) cause).put (F.VPT_STAT_ATTEMPTS p) (min 255 (s.get (F.VPT_STAT_ATTEMPTS p) + 1))
  (s1.setPort p { s1.port p with stuck := true, refused := some i, notBefore := s.clk + 25000 }).fault 4 0x0011 2 (p / 32)
    { peer := devicePeer i.domain.toNat i.member.toNat, detail0 := cause + p * 0x100, detail1 := i.keyFamily.toNat }

/-- IDENT_CODEWORD_RECEIVE: the neighbour is recorded and compared, encryption and key family are checked. The IDENT that
stopped bring-up, received again, shows no change of the peer. -/
def State.doIdentCodewordReceive (s : State) (p : Fin 128) (ident : LinkIdent) : State :=
    if s.bstate p = 7 ∧ (s.port p).refused ≠ some ident then
      let s1 := ((s.put (F.RTE_NBR_SEEN_DOMAIN p) ident.domain.toNat).put (F.RTE_NBR_SEEN_MEMBER p) ident.member.toNat).put
        (F.RTE_NBR_SEEN_PORT p) ident.port.toNat
      let s2 := (s1.putFlag (F.RTE_NBR_SEEN_VALID p) true).nbrCompare p
      let own := s2.flag (F.VPT_CTL_ENC_REQ p)
      if own != ident.encReq then s2.refuseLink p 0x08 ident
      else if own && (ident.keyFamily.toNat != s2.get F.SEC_ID_KEY_FAMILY
          || ident.keySlot.val != s2.get (F.VPT_CTL_KEY_SLOT p)) then s2.refuseLink p 0x07 ident
      else
        let s3 := (s2.putFlag (F.VPT_STAT_ENC p) own).toState p 8
        s3.setPort p { s3.port p with
          stuck := false, refused := none, ivTx := 2 ^ 63, authRx := 0, keySlot := s3.get (F.VPT_CTL_KEY_SLOT p)
          peer := some (ident.domain.toNat, ident.member.toNat, ident.port.toNat, ident.nonce.toNat) }
    else s

/-- The credit limits of VPT_CRED0 and VPT_CRED1, VC0 first. -/
def State.creditLimits (s : State) (p : Nat) : List Nat :=
  [s.get (F.VPT_CRED0_VC0 p), s.get (F.VPT_CRED0_VC1 p), s.get (F.VPT_CRED0_VC2 p), s.get (F.VPT_CRED0_VC3 p),
   s.get (F.VPT_CRED1_VC4 p), s.get (F.VPT_CRED1_VC5 p), s.get (F.VPT_CRED1_VC6 p), s.get (F.VPT_CRED1_VC7 p)]

/-- A credit limit in range (R279). -/
def creditOk (n : Nat) : Bool := decide (18 ≤ n ∧ n ≤ 1023)

/-- `s` with port `p` Up: fresh link state, the buffer thresholds adopted (R234), counters of Table 12-19. -/
def State.portUp (s : State) (p : Nat) (limits : List Nat) : State :=
  let v := s.port p
  let s1 := ((((s.putFlag (F.VPT_STAT_UP p) true).put (F.VPT_STAT_BSTATE p) 9).put (F.VPT_STAT_LSTATE p) 1).put
    (F.VPT_STAT_LAST_CAUSE p) 0).put (F.VPT_STAT_ATTEMPTS p) 0
  let s2 := s1.setPort p { v with
    upAt := s.clk, enteredAt := s.clk, progressAt := s.clk, busyAt := s.clk, thr := s.reg Reg.SWX_BUF_THR,
    limits := limits, txSeq := 0, rxSeq := 0, cwNext := 0, ivTx := 0 }
  if s.get (F.VPT_STAT_WIDTH p) < s.widest p then s2.count (F.VPT_ERR_DEGRADED p) 1 else s2

/-- CREDIT_INIT_RECEIVE: the port comes Up once the peer has echoed this port's CREDIT_INIT and R267 is met. -/
def State.doCreditInitReceive (s : State) (p : Fin 128) (limits : List Nat) (echoed : Bool) : State :=
  if s.bstate p = 8 then
    let own := s.creditLimits p
    if own.all creditOk && decide (own.foldl (· + ·) 0 ≤ s.get F.SWX_BUF_THR_RX_RES) && limits.length == 8
        && limits.all creditOk then
      let s1 := s.setPort p { s.port p with credGot := true, limits := limits }
      if echoed && (s1.flag F.TRN_STAT_ALIGNED || s1.flag (F.VPT_CTL_FREE_RUN p)) then s1.portUp p limits else s1
    else s.failAttempt p 0x09
  else s

/-- The timeout of a bring-up state and the cause it fails with (Tables 12-6, 12-8). -/
def bringupLimit (b : Nat) : Option (Nat × Nat) :=
  if b = 2 then some (125000, 0x01) else if b = 3 then some (2500, 0x02) else if b = 4 then some (2500, 0x03)
  else if b = 5 then some (2500, 0x04) else if b = 6 then some (2500, 0x05) else if b = 7 then some (2500, 0x06)
  else if b = 8 then some (2500, 0x09) else none

/-- BRINGUP_TIMEOUT. -/
def State.doBringupTimeout (s : State) (p : Fin 128) : State :=
  match bringupLimit (s.bstate p) with
  | some (n, cause) =>
    let v := s.port p
    if v.enteredAt + n < s.clk ∧ v.stuck = false then s.failAttempt p cause else s
  | none => s

/-- BRINGUP_RETRY: the wait after a failure is over, and Detect may be left again. -/
def State.doBringupRetry (s : State) (p : Fin 128) : State :=
  let v := s.port p
  if s.bstate p = 1 ∧ v.notBefore ≤ s.clk then s.setPort p { v with notBefore := 0 } else s

/-! ### Transmission (R268-R272, R280, R282) -/

/-- The codeword of port `p` that begins in this turn (R268): numbered from turn 0 of the counter, or from the port's own
Up where it runs free. -/
def State.codewordNow (s : State) (p : Nat) : Option Nat :=
  let ui := 680 * 4 / widthLanes (s.get (F.VPT_STAT_WIDTH p))
  let t := if s.flag (F.VPT_CTL_FREE_RUN p) then s.clk - (s.port p).upAt else s.now
  let n := ceilDiv (t * 448) ui
  if n * ui < (t + 1) * 448 then some n else none

/-- The start of codeword `n` of port `p`, sent in this turn, in UI of turn time. -/
def State.wordStart (s : State) (p n : Nat) : Nat :=
  let ui := 680 * 4 / widthLanes (s.get (F.VPT_STAT_WIDTH p))
  let t := if s.flag (F.VPT_CTL_FREE_RUN p) then s.clk - (s.port p).upAt else s.now
  s.now * 448 + (n * ui - t * 448)

/-- The number of the codeword of port `p` that a frame listed for turn `t` enters: the first that begins at or after turn t + 2,
and the one after it where that is a marker codeword (R244, R268, R271). -/
def State.listedWord (s : State) (p t : Nat) : Nat :=
  let n := ceilDiv ((t + 2) * 448) (680 * 4 / widthLanes (s.get (F.VPT_STAT_WIDTH p)))
  if n % 8192 = 0 then n + 1 else n

/-- One granule of a port's stream: itself, whether it is a header or its frame's last, its frame's class, area and edition, its
collective, and of a header the turn listed for a listed frame and the frame's data granules. -/
structure StreamItem where
  gran : Granule
  head : Bool
  last : Bool
  cls : Nat
  area : Nat
  edition : Nat
  col : Option Nat
  listed : Option Nat
  body : List Granule

/-- The granules of a stream, in order. -/
def streamItems (l : List TxFrame) : List StreamItem :=
  l.flatMap (fun t =>
    let c := if isCollective t.frame.opcode then some (bitsOf t.frame.addr 63 48) else none
    let item := fun (g : Granule) (h z : Bool) =>
      (⟨g, h, z, t.frame.cls, t.area, t.frame.edition, c, if h then t.listed else none, if h then t.left else []⟩ : StreamItem)
    let h := if t.atHead then [item { data := toBytesLE 32 t.frame.header } true t.left.isEmpty] else []
    h ++ t.left.mapIdx (fun i g => item g false (i + 1 == t.left.length)))

/-- The frames of a stream whose FEC encode is over by turn `now`, in the order they are sent, and the others: the frame begun is
sent to its end, scheduled frames go before those of other classes (R233, R244). -/
def sendOrder (l : List TxFrame) (now : Nat) : List TxFrame × List TxFrame :=
  let (a, b) := l.partition (fun t => !t.atHead || decide (t.due ≤ now))
  let (begun, new) := a.partition (fun t => !t.atHead)
  let (sched, rest) := new.partition (fun t => t.frame.cls == 0)
  (begun ++ sched ++ rest, b)

/-- A stream without its first `n` granules. -/
def streamDrop : Nat → List TxFrame → List TxFrame
  | _, [] => []
  | n, t :: ts =>
    let size := t.left.length + b2n t.atHead
    if n = 0 then t :: ts
    else if size ≤ n then streamDrop (n - size) ts
    else { t with atHead := false, left := t.left.drop (n - b2n t.atHead) } :: ts

/-- The granules of the codeword that port `v` builds in turn `now`. -/
def VPort.nextItems (v : VPort) (now : Nat) : List StreamItem := (streamItems (sendOrder v.stream now).1).take 17

/-- The stream of port `v` after that codeword. -/
def VPort.afterWord (v : VPort) (now : Nat) : List TxFrame :=
  streamDrop 17 (sendOrder v.stream now).1 ++ (sendOrder v.stream now).2

/-- The next new codeword of a stream in turn `now`. -/
def nextWord (v : VPort) (now : Nat) : TxWord :=
  let items := v.nextItems now
  let n := items.length
  let hdr := (List.range n).foldl (fun m i =>
    match items[i]? with
    | some x => if x.head then m + 2 ^ i else m
    | none => m) 0
  { lseq := v.txSeq, request := v.stateOut, hdrMap := hdr, idleMap := (2 ^ 17 - 1) - (2 ^ n - 1)
    gran := sliceD { data := List.replicate 32 0 } (items.map (·.gran)) 0 17
    col := (items.filterMap (·.col)).eraseDups, slots := items.map (fun x => (x.cls, x.area, 1))
    tails := (items.filter (·.last)).map (·.edition) }

/-- The KDF context of a link's session key (R282): both IDENT blocks, the lower identity first. -/
def State.linkContext (s : State) (p : Nat) : List Byte :=
  let blk := fun (d m q n : Nat) => toBytesLE 1 d ++ toBytesLE 1 m ++ toBytesLE 1 q ++ toBytesLE 16 n
  let own := (s.domain, s.member, p, (s.port p).nonce)
  match (s.port p).peer with
  | none => []
  | some (d, m, q, n) =>
    let a := blk own.1 own.2.1 own.2.2.1 own.2.2.2
    let b := blk d m q n
    if own.1 * 16384 + own.2.1 * 128 + p < d * 16384 + m * 128 + q then a ++ b else b ++ a

/-- This side has the lower identity of the link. -/
def State.lowerEnd (s : State) (p : Nat) : Bool :=
  match (s.port p).peer with
  | none => false
  | some (d, m, q, _) => decide (s.domain * 16384 + s.member * 128 + p < d * 16384 + m * 128 + q)

/-- The symbols of a codeword that is no marker: sealed where the link is encrypted, scrambled (R270, R282). The IV's bit 95
comes first among its bits, the additional data's and the tag's lowest byte first (DESIGN CHOICE, notes/assumptions/64). -/
def State.wordSymbols (s : State) (p n lc : Nat) (g : List Granule) : List Nat :=
  let wire := g.map Granule.wire
  let (tag, body) :=
    if s.flag (F.VPT_STAT_ENC p) then
      let iv := toBytesBE 12 (b2n (s.lowerEnd p) * 2 ^ 95 + (s.port p).ivTx % 2 ^ 64)
      let (c, t) := gcmSeal (linkSessionKey (s.port p).keySlot (s.linkContext p)) iv
        (natBytes (toBytesLE 19 (lc / 2 ^ 96))) (natBytes wire.flatten)
      (ofBytesLE (byteList (t.take 12)), chunks 36 (byteList c))
    else (0, wire)
  lineSymbols (messageBits (lc + tag) body ^^^ scramble n)

/-- `s` with the symbols of codeword `n` sent on the lanes of port `p`. -/
def State.sendSymbols (s : State) (p n : Nat) (symbols : List Nat) : State :=
  s.emit (.codeword p n (lineUis (widthLanes (s.get (F.VPT_STAT_WIDTH p))) symbols)
    ((setBitsList (s.port p).lanes 4).map (s.laneDrive p)))

/-- `s` with word `w` sent on port `p` as codeword `n`, with this moment's acknowledgement, NAK and credits. -/
def State.sendWord (s : State) (p n : Nat) (w : TxWord) : State :=
  let v := s.port p
  let type := if w.request ≠ 0 then 3 else 0
  let lseq := if w.request ≠ 0 then w.request * 256 + w.lseq % 256 else w.lseq
  let lc := linkControl type lseq ((v.rxSeq + 4095) % 4096) v.nakDue v.given w.hdrMap w.idleMap false
  let s1 := s.sendSymbols p n (s.wordSymbols p n lc w.gran)
  s1.setPort p { v with
    nakDue := false, ackDue := false, ivTx := v.ivTx + 1, busyAt := if w.idleMap = 2 ^ 17 - 1 then v.busyAt else s.clk }

/-- The IDENT field of port `p` (Table 12-7). -/
def State.identField (s : State) (p : Nat) : Nat :=
  2 ^ 240 + s.domain % 256 * 2 ^ 232 + s.member % 128 * 2 ^ 225 + p % 128 * 2 ^ 218 +
  s.get (F.VPT_STAT_WIDTH p) * 2 ^ 216 + s.get F.SEC_ID_KEY_FAMILY * 2 ^ 200 + s.get (F.VPT_CTL_KEY_SLOT p) * 2 ^ 198 +
  s.get (F.VPT_CTL_ENC_REQ p) * 2 ^ 197 + s.get (F.VPT_CTL_FREE_RUN p) * 2 ^ 196 + (s.port p).nonce % 2 ^ 128 * 2 ^ 64

/-- Seventeen idle granules. -/
def idleGranules : List Granule := List.replicate 17 { data := List.replicate 32 0 }

/-- `s` with every listed frame counted late that begins in codeword `n` of port `p` and had an earlier one listed: whatever made
it miss that one (R244, R385; notes/assumptions/80). -/
def State.missedWords (s : State) (p n : Nat) (items : List StreamItem) : State :=
  (items.filterMap (·.listed)).foldl (fun s t => if s.listedWord p t < n then s.countLate else s) s

/-- `s` with codeword `n` of an Up port sent: a replayed word, or the next new one while fewer than 256 are
unacknowledged. -/
def State.transmitUp (s : State) (p n : Nat) : State :=
  let v := s.port p
  match v.replay with
  | some i =>
    match v.unacked[i]? with
    | some w =>
      let s1 := s.sendWord p n w
      s1.setPort p { s1.port p with replay := if i + 1 < v.unacked.length then some (i + 1) else none }
    | none => s.setPort p { v with replay := none }
  | none =>
    if v.unacked.length < 256 then
      let w := nextWord v s.clk
      let sched := (v.nextItems s.clk).filter (fun x => x.head && x.cls == 0)
      let s1 := ((s.sendWord p n w).twnSched p (s.wordStart p n) (sched.map (·.body))).missedWords p n (v.nextItems s.clk)
      let v1 := s1.port p
      s1.setPort p { v1 with
        unacked := v1.unacked ++ [w], txSeq := (v1.txSeq + 1) % 4096, stream := v.afterWord s.clk, stateOut := 0
        progressAt := if v.unacked.isEmpty then s.clk else v1.progressAt }
    else s

/-- The symbols of a codeword without a frame that is not sealed: link-control bits `lc` and idle granules, scrambled. -/
def idleSymbols (n lc : Nat) : List Nat := lineSymbols (messageBits lc (idleGranules.map Granule.wire) ^^^ scramble n)

/-- `s` with marker codeword `n` sent on port `p`. -/
def State.sendMarker (s : State) (p n : Nat) : State :=
  let w := s.get (F.VPT_STAT_WIDTH p)
  (s.setPort p { s.port p with markNext := false }).sendSymbols p n (markerSymbols p w (widthLanes w))

/-- Codeword `n` of a port in bring-up state `b` is a marker codeword (R272, R284); those of a loop are those of a port that is
Up (Table 12-11). -/
def VPort.markerAt (v : VPort) (b n : Nat) : Bool := n % 8192 == 0 || (decide (b < 9) && n % 64 == 0) || v.markNext

/-- `s` with codeword `n` of a port in a test loop sent: where PATTERN is 2, scrambled idle codewords with markers; another pattern
goes out by its name. A port that repeats what it receives sends nothing of its own (R286, Table 12-11). What a reserved PATTERN
sends is not stated: nothing (DESIGN CHOICE, notes/assumptions/72). -/
def State.transmitLoop (s : State) (p n : Nat) : State :=
  let k := s.get (F.VPT_CTL_PATTERN p)
  if (s.port p).feGranted ∨ 2 < k then s
  else if k = 2 then s.sendSymbols p n (idleSymbols n 0)
  else s.emit (.pattern p k)

/-- CODEWORD_TRANSMIT: the codeword that begins in this turn, once. A port that Ident refused sends no IDENT any more (R277). -/
def State.doCodewordTransmit (s : State) (p : Fin 128) : State :=
  let b := s.bstate p
  let v := s.port p
  match s.codewordNow p with
  | none => s
  | some n =>
    if b < 3 ∨ n < v.cwNext ∨ v.quietTx = true then s
    else
      let s0 := s.setPort p { v with cwNext := n + 1 }
      if v.markerAt b n ∧ (b < 10 ∨ (v.feGranted = false ∧ s.get (F.VPT_CTL_PATTERN p) = 2)) then s0.sendMarker p n
      else if b = 7 ∧ v.stuck = false then s0.sendSymbols p n (idleSymbols n (s0.identField p))
      else if b = 8 then
        let lc := linkControl 2 0 0 false (s0.creditLimits p) 0 (2 ^ 17 - 1) v.credGot
        let s1 := s0.sendSymbols p n (s0.wordSymbols p n lc idleGranules)
        s1.setPort p { s1.port p with ivTx := (s1.port p).ivTx + 1 }
      else if b = 9 then (s0.transmitUp p n).updateThrottle p
      else if b = 10 then s0.transmitLoop p n
      else s0.sendSymbols p n (idleSymbols n 0)

/-! ### Reception (R273, R279-R282) -/

/-- `s` with port `p`'s transmit direction out of Quiet: the first codeword is a marker (R284). -/
def State.leaveQuiet (s : State) (p : Nat) : State :=
  let v := s.port p
  if v.quietTx then
    (s.setPort p { v with quietTx := false, wake := false, markNext := true, busyAt := s.clk }).put (F.VPT_STAT_LSTATE p) 1
  else s

/-- `s` with a replay begun on port `p`, or the link down where LIMIT replays in a row have brought no progress (R280,
R281). A second cause in the turn in which one began starts no other (Table 12-12). -/
def State.startReplay (s : State) (p : Nat) : State :=
  let v := s.port p
  if v.unacked.isEmpty ∨ v.replayAt = some s.clk then s
  else if s.get (F.VPT_RETRY_LIMIT p) ≤ v.replays then s.portDown p 0x0B
  else
    ((s.setPort p { v with
      replay := some 0, replayAt := some s.clk, replays := v.replays + 1, progressAt := s.clk }).leaveQuiet p).count
      (F.VPT_FEC_REPLAYS p) 1

/-- A port with the words up to LSEQ `a` acknowledged. -/
def VPort.acked (v : VPort) (a now : Nat) : VPort :=
  match v.unacked.findIdx? (fun w => w.lseq == a) with
  | none => v
  | some i =>
    { v with
      unacked := v.unacked.drop (i + 1), progressAt := now, replays := 0
      replay := match v.replay with
        | some r => if r ≤ i + 1 then (if v.unacked.length ≤ i + 1 then none else some 0) else some (r - (i + 1))
        | none => none }

/-- `v` with a frame cut short by its sender dropped: its receive slots are free again (R279). -/
def VPort.dropPart (v : VPort) : VPort :=
  match v.rxPart with
  | [] => v
  | h :: _ =>
    let vc := bitsOf (ofBytesLE h.data) 10 8
    { v with rxPart := [], given := listSet v.given vc ((v.given.getD vc 0 + v.rxPart.length) % 1024), ackDue := true }

/-- A port with one granule of an accepted codeword taken (R271): a whole frame joins `rxFrames`, its FEC decode and Hatch check
over in turn `due`. -/
def VPort.takeGranule (v0 : VPort) (due : Nat) (head : Bool) (g : Granule) : VPort :=
  let v := if head then v0.dropPart else v0
  let part := if head then [g] else if v.rxPart.isEmpty then [] else v.rxPart ++ [g]
  match part with
  | [] => v
  | h :: _ =>
    if part.length = min 8 (headerNgr (ofBytesLE h.data)) + 1 then
      { v with rxPart := [], rxFrames := v.rxFrames ++ [(due, part)] }
    else { v with rxPart := part }

/-- `s` with a codeword discarded: FEC could not correct it, or it failed authentication (R280, R282). -/
def State.badWord (s : State) (p : Nat) : State :=
  let v := s.port p
  if s.bstate p = 9 ∧ v.rxBad = false then s.setPort p { v with rxBad := true, nakDue := true } else s

/-- `s` with symbols corrected on port `p` counted per lane and in all, and a warning where they pass the threshold in a
window of 2^20 codewords (Table 12-20). -/
def State.countCorrected (s : State) (p : Nat) (corrected : List Nat) : State :=
  let total := corrected.foldl (· + ·) 0
  let s1 := (List.range 4).foldl (fun s l =>
    if corrected.getD l 0 = 0 then s else s.count (F.VGL_STAT_SYM_ERR p l) (corrected.getD l 0)) s
  let s2 := if total = 0 then s1 else s1.count (F.VPT_FEC_CORR_SYM p) total
  let v := s2.port p
  let t := s2.get (F.VPT_FEC_WARN_THRESH p)
  let s3 := if v.winCw + 1 < 2 ^ 20 then s2.setPort p { v with winSym := v.winSym + total, winCw := v.winCw + 1 }
    else s2.setPort p { v with winSym := 0, winCw := 0 }
  if t ≠ 0 ∧ v.winSym ≤ t ∧ t < v.winSym + total then s3.pageEvent 2 (p / 32) 4 0x8006 else s3

/-- `s` with an accepted codeword's granules taken, in the turn in which its reception ends. -/
def State.acceptWord (s : State) (p : Nat) (cw : LinkCodeword) : State :=
  let v := s.port p
  let v1 := (List.range 17).foldl (fun (v : VPort) i =>
    if cw.idleMap.getLsbD i then v
    else match cw.granules[i]? with
      | some g => v.takeGranule (s.clk + decodeTurns) (cw.hdrMap.getLsbD i) { data := sliceD 0 g.data 0 32, poison := g.poison }
      | none => v) v
  s.setPort p { v1 with
    rxSeq := (v.rxSeq + 1) % 4096, rxBad := false, ackDue := true
    stateIn := if cw.type = 3 then v.stateIn ++ [cw.request.val] else v.stateIn }

/-- `s` with the acknowledgement, credits and NAK of a codeword acted on (R279, R280). -/
def State.takeControl (s : State) (p : Nat) (cw : LinkCodeword) : State :=
  let v1 := (s.port p).acked cw.ackSeq.toNat s.clk
  let v2 := { v1 with returned := (List.range 8).map (fun i => cw.credit.getD i 0 % 1024), quietRx := false,
                      wake := v1.wake || v1.quietRx }
  let s1 := (s.setPort p v2).updateThrottle p
  if cw.nak then s1.startReplay p else s1

/-- `s` after a codeword with a good tag and type on an Up port (R280): one with the expected LSEQ is accepted; one from further
on is discarded, with all that is in it, up to the replay; of one that has been accepted before, which a replay sends again,
what it says of this side's codewords is acted on, and its granules are not taken (DEDUCED, notes/assumptions/19). -/
def State.goodWord (s : State) (p : Nat) (cw : LinkCodeword) : State :=
  let s0 := s.setPort p { s.port p with authRx := (s.port p).authRx + 1 }
  let want := (s0.port p).rxSeq
  let hit := if cw.type = 3 then cw.lseq.toNat % 256 == want % 256 else cw.lseq.toNat == want
  let ahead := if cw.type = 3 then decide (0 < (cw.lseq.toNat + 256 - want % 256) % 256 ∧
      (cw.lseq.toNat + 256 - want % 256) % 256 < 128) else decide ((cw.lseq.toNat + 4096 - want) % 4096 < 2048)
  if hit then
    let s1 := s0.takeControl p cw
    if s1.flag (F.VPT_STAT_UP p) then s1.acceptWord p cw else s1
  else if ahead then s0.badWord p
  else s0.takeControl p cw

/-- `s` with what a port in a test loop receives: a port that runs the loop for its peer sends it back undecoded; another counts
the errors of each lane, and those of FEC where codewords are the pattern (R286, Table 12-11). -/
def State.loopReceive (s : State) (p : Nat) (line : LineIn) (corrected : List Nat) : State :=
  if (s.port p).feGranted then s.emit (.repeated p line)
  else if s.get (F.VPT_CTL_PATTERN p) = 2 then
    let s1 := s.countCorrected p corrected
    if line = .uncorrectable then s1.count (F.VPT_FEC_UNCORR p) 1 else s1
  else (List.range 4).foldl (fun s l =>
    if corrected.getD l 0 = 0 then s else s.count (F.VGL_STAT_SYM_ERR p l) (corrected.getD l 0)) s

/-- `s` with a marker codeword received as codeword `n`: at every n mod 8,192 = 0 an Up port checks each lane in use (R273). -/
def State.markerReceive (s : State) (p n : Nat) (good : BitVec 4) : State :=
  let v := s.port p
  let s1 := s.setPort p { v with quietRx := false, wake := v.wake || v.quietRx }
  if n % 8192 ≠ 0 then s1
  else
    let lanes := setBitsList v.lanes 4
    let misses := (List.range 4).map (fun l => if lanes.contains l && !good.getLsbD l then v.misses.getD l 0 + 1 else 0)
    let k := (lanes.filter (fun l => !good.getLsbD l)).length
    let s2 := s1.setPort p { s1.port p with misses := misses }
    let s3 := if k = 0 then s2 else s2.count (F.VPT_ERR_MARKER_MISS p) k
    if misses.any (fun m => decide (4 ≤ m)) then s3.portDown p 0x0C else s3

/-- The type of a codeword is one of Table 12-2: one of another is treated as uncorrectable (R271). -/
def lineCorrect : LineIn → Bool
  | .uncorrectable => false
  | .marker _ _ => true
  | .codeword cw _ => decide (cw.type ≤ 3)

/-- CODEWORD_RECEIVE. -/
def State.doCodewordReceive (s : State) (p : Fin 128) (line : LineIn) (corrected : List Nat) : State :=
  let b := s.bstate p
  if b < 6 then s
  else if b = 10 then s.loopReceive p line corrected
  else
    let s1 := s.countCorrected p corrected
    let v1 := s1.port p
    let s0 := if b = 6 then s1.setPort p { v1 with fecRun := if lineCorrect line then v1.fecRun + 1 else 0 } else s1
    match line with
    | .uncorrectable => (s0.count (F.VPT_FEC_UNCORR p) 1).badWord p
    | .marker n good => if b = 9 then s0.markerReceive p n good else s0
    | .codeword cw authentic =>
      let v := s0.port p
      if s0.flag (F.VPT_STAT_ENC p) && !authentic then
        let s1 := s0.count (F.VPT_ERR_AUTH_FAIL p) 1
        if v.authRx < 64 then (if b = 9 then s1.portDown p 0x0A else if b = 8 then s1.failAttempt p 0x0A else s1)
        else s1.badWord p
      else if cw.type = 0 ∨ cw.type = 3 then
        if b = 9 then s0.goodWord p cw
        else if v.feWaiting ∧ cw.type = 3 then s0.setPort p { v with stateIn := v.stateIn ++ [cw.request.val] }
        else if b = 8 then s0.setPort p { v with authRx := v.authRx + 1 }
        else s0
      else if cw.type = 1 ∨ cw.type = 2 then s0.setPort p { v with authRx := v.authRx + b2n (cw.type == 2) }
      else (s0.count (F.VPT_FEC_UNCORR p) 1).badWord p

/-- ACK_TIMEOUT. -/
def State.doAckTimeout (s : State) (p : Fin 128) : State :=
  let v := s.port p
  if s.bstate p = 9 ∧ v.unacked ≠ [] ∧ v.progressAt + s.get (F.VPT_RETRY_ACK_TIMEOUT p) ≤ s.clk then
    s.startReplay p
  else s

/-! ### Quiet, deep idle and loops (R284-R286) -/

/-- The oldest STATE request received on port `p`, taken off. -/
def State.takeState (s : State) (p r : Nat) : Option State :=
  let v := s.port p
  match v.stateIn with
  | x :: rest => if x = r then some (s.setPort p { v with stateIn := rest }) else none
  | [] => none

/-- A listed injection stands on port `p` within 64 turns: an entry read ahead (R284). -/
def State.listedSoon (s : State) (p : Nat) : Bool :=
  s.sw.lists.any (fun l => l.ahead.any (fun e =>
    bytesAt e.bytes 5 1 % 128 == p && decide (l.start + bytesAt e.bytes 0 5 ≤ s.now + 64)))

/-- QUIET: the peer's direction enters Quiet. -/
def State.doQuiet (s : State) (p : Fin 128) : State :=
  match s.takeState p 1 with
  | some t => t.setPort p { t.port p with quietRx := true, wake := false }
  | none => s

/-- Something waits to be sent on port `p`. -/
def State.txWaits (s : State) (p : Nat) : Bool :=
  let v := s.port p
  !v.stream.isEmpty || v.ackDue || v.nakDue || s.sw.queued.any (fun x => x.egress == p) || v.replay.isSome

/-- QUIET_ENTER: announced in a STATE codeword, the last before the maintenance pattern PRBS13Q (R283, R284). -/
def State.doQuietEnter (s : State) (p : Fin 128) : State :=
  let v := s.port p
  let idle := s.get (F.VPT_CTL_QUIET_IDLE p)
  if s.bstate p = 9 ∧ v.quietTx = false ∧ idle ≠ 0 ∧ v.busyAt + idle ≤ s.clk ∧ v.unacked = []
      ∧ s.txWaits p = false ∧ s.listedSoon p = false then
    match s.codewordNow p with
    | some n =>
      if n < v.cwNext ∨ v.markerAt 9 n then s
      else
        let s0 := s.setPort p { v with stateOut := 1, cwNext := n + 1 }
        let s1 := s0.transmitUp p n
        ((s1.setPort p { s1.port p with quietTx := true, wake := false }).put (F.VPT_STAT_LSTATE p) 2).emit (.pattern p 1)
    | none => s
  else s

/-- QUIET_EXIT: the first codeword after is a marker. -/
def State.doQuietExit (s : State) (p : Fin 128) : State :=
  let v := s.port p
  if s.bstate p = 9 ∧ v.quietTx = true ∧ (s.txWaits p = true ∨ v.wake = true ∨ s.listedSoon p = true) then
    s.leaveQuiet p
  else s

/-- The number of the next codeword of port `p`. -/
def State.nextNumber (s : State) (p : Nat) : Nat :=
  let v := s.port p
  let t := if s.flag (F.VPT_CTL_FREE_RUN p) then s.clk - v.upAt else s.now
  max v.cwNext (ceilDiv (t * 448) (680 * 4 / widthLanes (s.get (F.VPT_STAT_WIDTH p))))

/-- The first number from `n` on of a codeword that carries frames (R272). -/
def noMarker (n : Nat) : Nat := if n % 8192 = 0 then n + 1 else n

/-- `s` with STATE request `r` announced by an Up port whose link then goes down: in its next codeword, which carries no frame any
more (R285, R286). A port in Quiet sends a marker codeword before it (R284). -/
def State.announce (s : State) (p r : Nat) : State :=
  if s.flag (F.VPT_STAT_UP p) then
    let quiet := (s.port p).quietTx
    let n := s.nextNumber p
    let s1 := if quiet then (s.leaveQuiet p).sendMarker p n else s
    s1.sendWord p (noMarker (if quiet then n + 1 else n))
      { lseq := (s.port p).txSeq, request := r, hdrMap := 0, idleMap := 2 ^ 17 - 1, gran := idleGranules, col := [], slots := [] }
  else s

/-- DEEP_IDLE: the peer's request takes the port to Detect until signal returns. -/
def State.doDeepIdle (s : State) (p : Fin 128) : State :=
  match s.takeState p 2 with
  | some t =>
    let t1 := (List.range 4).foldl (fun s l => s.putFlag (F.VGL_STAT_SIGNAL p l) false) (t.portDown p 0x0F)
    t1.put (F.VPT_STAT_LSTATE p) 3
  | none => s

/-- FE_LOOP_REQ: granted where FE_ALLOW is 1, and the port then repeats what it receives; else denied. -/
def State.doFeLoopReq (s : State) (p : Fin 128) : State :=
  match s.takeState p 3 with
  | some t =>
    if t.flag (F.VPT_CTL_FE_ALLOW p) then
      let t1 := (t.announce p 4).portDown p 0x0F
      (t1.setPort p { t1.port p with feGranted := true }).put (F.VPT_STAT_BSTATE p) 10
    else t.setPort p { t.port p with stateOut := 5 }
  | none => s

/-- FE_LOOP_GRANT: the requesting port runs the loop. -/
def State.doFeLoopGrant (s : State) (p : Fin 128) : State :=
  let v := s.port p
  if v.feWaiting = true ∧ s.get (F.VPT_CTL_LOOP p) = 3 then
    (s.setPort p { v with feWaiting := false }).put (F.VPT_STAT_BSTATE p) 10
  else s

/-- FE_LOOP_DENY: the requesting port stays in Detect. -/
def State.doFeLoopDeny (s : State) (p : Fin 128) : State :=
  let v := s.port p
  if v.feWaiting = true then (s.setPort p { v with feWaiting := false }).put (F.VPT_STAT_BSTATE p) 1 else s

/-- `s` with port `p` in deep idle, announced to the peer where the link is up (R285). -/
def State.portDeepIdle (s : State) (p : Nat) : State :=
  ((s.announce p 2).portDown p 0x0F).put (F.VPT_STAT_LSTATE p) 3

/-- `s` with port `p` in the loop `loop` of Table 12-10 (R286); a port that is held stays where it is (R428, R430). -/
def State.enterLoop (s : State) (p loop : Nat) : State :=
  if loop = 3 then
    let s1 := (s.announce p 3).portDown p 0x0F
    s1.setPort p { s1.port p with feWaiting := true }
  else if s.portsHeld then s.portDown p 0x0F
  else (s.portDown p 0x0F).put (F.VPT_STAT_BSTATE p) 10

/-- `s` with every Vangeri port that has left Detect taken back there, since the ports are held from now on (R428, R430). The cause
that VPT_STAT then shows is not stated: CMD (DESIGN CHOICE, notes/assumptions/81). -/
def State.holdPorts (s : State) : State :=
  (List.range 128).foldl (fun s p => if 2 ≤ s.get (F.VPT_STAT_BSTATE p) then s.portDown p 0x0F else s.put (F.VPT_STAT_BSTATE p) 0) s

/-- `s` with the enabled ports that are no longer held in the loops that VPT_CTL selects (R286, R430). -/
def State.releasePorts (s : State) : State :=
  (List.range 128).foldl (fun s p =>
    let loop := s.get (F.VPT_CTL_LOOP p)
    if s.bstate p = 1 ∧ loop ≠ 0 ∧ loop ≠ 3 then s.enterLoop p loop else s) s

/-- The write rule of VPT_CTL of port `p`: EN cleared, deep idle requested or left, a loop selected or left (R285-R287); a change
lets a port that Ident refused try again (R277). A detached device's ports stay in deep idle (R439). -/
def hookVptCtl (p : Nat) (s : State) (w : RegWrite) : State :=
  let s1 := s.takeWrite w
  let loop := w.newF (F.VPT_CTL_LOOP p)
  let s2 := if (s1.port p).stuck ∧ w.new ≠ w.old then
      (s1.setPort p { s1.port p with stuck := false, refused := none, peer := none }).toState p 1 else s1
  let idle := w.newF (F.VPT_CTL_STATE_REQ p) = 2
  let idled := w.oldF (F.VPT_CTL_EN p) = 1 ∧ w.oldF (F.VPT_CTL_STATE_REQ p) = 2 ∧ w.oldF (F.VPT_CTL_LOOP p) = 0
  if s.up.detachAt.isSome then s1
  else if w.newF (F.VPT_CTL_EN p) = 0 then
    if w.oldF (F.VPT_CTL_EN p) = 1 then (s2.portDown p 0x0F).put (F.VPT_STAT_LSTATE p) 0 else s2
  else if loop ≠ 0 ∧ (loop ≠ w.oldF (F.VPT_CTL_LOOP p) ∨ w.oldF (F.VPT_CTL_EN p) = 0) then s2.enterLoop p loop
  else
    let s3 := if w.oldF (F.VPT_CTL_LOOP p) ≠ 0 ∧ loop = 0 then
        (s2.setPort p { s2.port p with feWaiting := false, feGranted := false }).toState p (s2.restState p) else s2
    let s4 := if w.oldF (F.VPT_CTL_EN p) = 0 then s3.toState p (s3.restState p) else s3
    if idle ∧ loop = 0 then (if idled then s4 else s4.portDeepIdle p)
    else if w.oldF (F.VPT_CTL_STATE_REQ p) = 2 ∧ s4.flag (F.VPT_STAT_UP p) = false then s4.put (F.VPT_STAT_LSTATE p) 0
    else s4

/-- Signal stands on none of port `p`'s lanes. -/
def State.noSignal (s : State) (p : Nat) : Bool := (List.range 4).all (fun l => !s.flag (F.VGL_STAT_SIGNAL p l))

/-- VPT_STAT of port `p` as a read shows it: the bring-up state it is in, and deep idle where it sits in Detect without signal
(R275, R285). Right at reset, before the first turn, the value of Table 12-14 stands. -/
def State.vptStat (s : State) (p : Nat) (v : Word) : Word :=
  if s.clk = 0 then v
  else
    let v1 := fieldPut v (F.VPT_STAT_BSTATE p).hi (F.VPT_STAT_BSTATE p).lo (s.bstate p)
    if s.bstate p = 1 ∧ s.noSignal p = true then fieldPut v1 (F.VPT_STAT_LSTATE p).hi (F.VPT_STAT_LSTATE p).lo 3 else v1

end Sys2Proof.Machine
end

