-- ==== Sys2Proof/Machine/LineCode.lean ====
section
/-!
DEFINITION. The line code of a pip lane: 8b/10b with the code groups, running disparity and comma alignment of IEEE 802.3
clause 36, to which spec/02_turns_and_pip_lanes.md R42 refers (the tables themselves are that standard's: PRESUMED,
notes/assumptions/73). A symbol is its byte, plus 256 for a control code group. A code group is written abcdei fghj, bit a,
which leaves first, as its most significant bit. Running disparity is `true` where positive.
-/
namespace Sys2Proof.Machine

/-- The six bits abcdei of D.0 to D.31 at negative running disparity. -/
def sixTable : List Nat :=
  [0b100111, 0b011101, 0b101101, 0b110001, 0b110101, 0b101001, 0b011001, 0b111000,
   0b111001, 0b100101, 0b010101, 0b110100, 0b001101, 0b101100, 0b011100, 0b010111] ++
  [0b011011, 0b100011, 0b010011, 0b110010, 0b001011, 0b101010, 0b011010, 0b111010,
   0b110011, 0b100110, 0b010110, 0b110110, 0b001110, 0b101110, 0b011110, 0b101011]

/-- The four bits fghj of D.x.0 to D.x.7 at negative running disparity, with D.x.P7. -/
def fourTable : List Nat := [0b1011, 0b1001, 0b0101, 0b1100, 0b1101, 0b1010, 0b0110, 0b1110]

/-- The four bits fghj of K.x.0 to K.x.7 at negative running disparity. -/
def fourControl : List Nat := [0b1011, 0b0110, 0b1010, 0b1100, 0b1101, 0b0101, 0b1001, 0b0111]

/-- Bits abcdei of a symbol. -/
def sixBits (rd control : Bool) (x : Nat) : Nat :=
  let v := if control && x == 28 then 0b001111 else sixTable.getD x 0
  if rd && (popCount v 6 != 3 || x == 7 || (control && x == 28)) then 63 - v else v

/-- Bits fghj of a symbol; `rd` is the disparity after its first six bits. -/
def fourBits (rd control : Bool) (x y : Nat) : Nat :=
  if control then
    let v := fourControl.getD y 0
    if rd then 15 - v else v
  else if y == 7 && (if rd then x == 11 || x == 13 || x == 14 else x == 17 || x == 18 || x == 20) then
    if rd then 0b1000 else 0b0111
  else
    let v := fourTable.getD y 0
    if rd && (popCount v 4 != 2 || y == 3) then 15 - v else v

/-- Running disparity after six bits. -/
def rdSix (rd : Bool) (v : Nat) : Bool :=
  if 3 < popCount v 6 ∨ v = 0b000111 then true else if popCount v 6 < 3 ∨ v = 0b111000 then false else rd

/-- Running disparity after four bits. -/
def rdFour (rd : Bool) (v : Nat) : Bool :=
  if 2 < popCount v 4 ∨ v = 0b0011 then true else if popCount v 4 < 2 ∨ v = 0b1100 then false else rd

/-- Running disparity after a code group, valid or not. -/
def rdAfter (rd : Bool) (g : BitVec 10) : Bool := rdFour (rdSix rd (g.toNat / 16)) (g.toNat % 16)

/-- The code group of a symbol. -/
def encodeSymbol (rd : Bool) (sym : Nat) : BitVec 10 :=
  let control := decide (256 ≤ sym)
  let x := sym % 32
  let y := sym / 32 % 8
  let six := sixBits rd control x
  BitVec.ofNat 10 (16 * six + fourBits (rdSix rd six) control x y)

/-- The code groups of symbols, and the running disparity after them. -/
def encodeSymbols : Bool → List Nat → List (BitVec 10) × Bool
  | rd, [] => ([], rd)
  | rd, x :: xs =>
    let g := encodeSymbol rd x
    let r := encodeSymbols (rdAfter rd g) xs
    (g :: r.1, r.2)

/-- The twelve control code groups of Table 2-3. -/
def controlSymbols : List Nat :=
  [0x11C, 0x13C, 0x15C, 0x17C, 0x19C, 0x1BC, 0x1DC, 0x1FC, 0x1F7, 0x1FB, 0x1FD, 0x1FE]

/-- The symbol that a code group stands for at a running disparity; none where it is no valid group. -/
def decodeGroup (rd : Bool) (g : BitVec 10) : Option Nat :=
  match controlSymbols.find? (fun c => encodeSymbol rd c == g) with
  | some c => some c
  | none =>
    match (List.range 32).find? (fun x => sixBits rd false x == g.toNat / 16) with
    | none => none
    | some x =>
      ((List.range 8).map (fun y => 32 * y + x)).find? (fun v => encodeSymbol rd v == g)

/-- Symbols of received code groups, and the running disparity after them. -/
def decodeGroups : Bool → List (BitVec 10) → List (Option Nat) × Bool
  | rd, [] => ([], rd)
  | rd, g :: gs =>
    let r := decodeGroups (rdAfter rd g) gs
    (decodeGroup rd g :: r.1, r.2)

/-- A received symbol is a code violation (Table 2-3): an invalid group, ERR (K30.7), or K28.7, which is not used. -/
def isViolation (x : Option Nat) : Bool := x == none || x == some 0x1FE || x == some 0x1FC

/-- Consecutive valid idle ordered sets, /I1/ (K28.5 D5.6) or /I2/ (K28.5 D16.2), `n` before and with the symbols received. -/
def idleRun : Nat → List (Option Nat) → Nat
  | n, some a :: some b :: r => if a = 0x1BC ∧ (b = 0xC5 ∨ b = 0x50) then idleRun (n + 1) r else idleRun 0 (some b :: r)
  | _, _ :: r => idleRun 0 r
  | n, [] => n

/-- The idle set sent at a running disparity: /I1/ where it is positive, so that it is negative afterwards, else /I2/. -/
def idleSet (rd : Bool) : List Nat := [0x1BC, if rd then 0xC5 else 0x50]

/-- The bits from the first comma on, and the running disparity before its code group (comma alignment). -/
def fromComma : List Bool → Option (Bool × List Bool)
  | [] => none
  | b :: bs =>
    if (b :: bs).take 7 = [false, false, true, true, true, true, true] then some (false, b :: bs)
    else if (b :: bs).take 7 = [true, true, false, false, false, false, false] then some (true, b :: bs)
    else fromComma bs

/-- Code groups of an aligned bit stream, first bit first. -/
def groupsOfBits (bits : List Bool) : List (BitVec 10) :=
  ((chunks 10 bits).filter (fun c => c.length == 10)).map
    (fun c => BitVec.ofNat 10 (c.foldl (fun n b => 2 * n + (if b then 1 else 0)) 0))

/-- The symbols of turn `t`: 256 symbols are exactly 25 turns, and a symbol boundary coincides with every turn boundary whose
counter value is a multiple of 25 (R34). -/
def symbolsIn (t : Nat) : Nat := 256 * (t + 1) / 25 - 256 * t / 25

end Sys2Proof.Machine
end

