-- ==== Sys2Proof/Machine/Pip.lean ====
section
/-!
DEFINITION. Pip lanes and the pip trees (spec/02_turns_and_pip_lanes.md R42-R55, R476): frames, link retry, routing,
combining, resign memory and presence. What a delivered frame does to the collective engine and to the transaction
layer is added by Settle.lean.
-/
namespace Sys2Proof.Machine

/-! ### Lanes -/

/-- Lane `n`. -/
def State.lane (s : State) (n : Nat) : PipLane := Sparse.get (fun _ => {}) s.pip.lanes n

/-- `s` with lane `n` set. -/
def State.setLane (s : State) (n : Nat) (l : PipLane) : State :=
  { s with pip := { s.pip with lanes := Sparse.set (fun _ => {}) s.pip.lanes n l } }

/-- The lane is up (R43). -/
def State.laneIsUp (s : State) (n : Nat) : Bool := s.flag (F.PIP_STAT_UP n)

/-- The primary upstream lane, if one is named (R39). -/
def State.priUp (s : State) : Option Nat :=
  if s.get F.TRN_CTL_PRI_UP < 16 then some (s.get F.TRN_CTL_PRI_UP) else none
/-- The alternate upstream lane, if one is named (R39). -/
def State.altUp (s : State) : Option Nat :=
  if s.get F.TRN_CTL_ALT_UP < 16 then some (s.get F.TRN_CTL_ALT_UP) else none

/-- The upstream lane in use. -/
def State.upLane (s : State) : Option Nat := if s.flag F.TRN_STAT_ALT_IN_USE then s.altUp else s.priUp

/-- The lane is one of the device's upstream lanes. -/
def State.isUpstream (s : State) (n : Nat) : Bool := s.priUp == some n || s.altUp == some n

/-- Some upstream lane is up (R40). -/
def State.hasUpstream (s : State) : Bool :=
  (match s.priUp with | some n => s.laneIsUp n | none => false) ||
  (match s.altUp with | some n => s.laneIsUp n | none => false)

/-- The lane's tree: 0 unused, 1 domain, 2 system (R57). -/
def State.laneUse (s : State) (n : Nat) : Nat := s.get (F.PIP_CTL_USE n)

/-- The lane is in the far-end loop: it sends back what it receives, and nothing of its own (PIP_CTL.LOOP). -/
def State.farLoop (s : State) (n : Nat) : Bool := s.get (F.PIP_CTL_LOOP n) == 2

/-- The lane is in the near-end parallel loop: its receiver takes what its own transmitter sends, and nothing from its pins
(PIP_CTL.LOOP). That the transmitter still drives the pins, and that the loop takes one turn, is the model's choice
(DESIGN CHOICE, notes/assumptions/77). -/
def State.nearLoop (s : State) (n : Nat) : Bool := s.get (F.PIP_CTL_LOOP n) == 1

/-- All lanes. -/
def lanes16 : List Nat := List.range 16

/-- The lanes down which the device is a parent: up, in a tree, not upstream. -/
def State.downLanes (s : State) : List Nat :=
  lanes16.filter (fun n => s.laneIsUp n && !s.isUpstream n && s.laneUse n != 0)

/-- The lanes down which the device is a parent, up or not: what SUBTREE last reported on them stands (R48). -/
def State.subtreeLanes (s : State) : List Nat := lanes16.filter (fun n => !s.isUpstream n && s.laneUse n != 0)

/-- The downstream lanes that carry frames: a child has made itself known on them. A lane that serves a child as
alternate upstream carries only RESIGN until the child switches to it (R39). -/
def State.treeLanes (s : State) : List Nat :=
  s.downLanes.filter (fun n => !(s.lane n).subtree.isEmpty || !(s.lane n).kids.isEmpty)

/-- The device follows time (TRN_CTL.ROLE 1). -/
def State.follower (s : State) : Bool := s.get F.TRN_CTL_ROLE == 1
/-- The device is the time root (TRN_CTL.ROLE 2), the root of the system tree. -/
def State.timeRoot (s : State) : Bool := s.get F.TRN_CTL_ROLE == 2
/-- The device is the root of a scope: the domain root, or the system root (R48). -/
def State.scopeRoot (s : State) (system : Bool) : Bool := if system then s.timeRoot else s.flag F.TRN_CTL_DOM_ROOT

/-! ### Frames (Table 2-4) -/

/-- The LEN code of a number of data bytes. -/
def pipLenCode (n : Nat) : Nat := if n ≤ 8 then n else if n = 16 then 9 else if n = 32 then 10 else 11

/-- The number of data bytes of a LEN code; none where it is reserved. -/
def pipLenBytes (c : Nat) : Option Nat :=
  if c ≤ 8 then some c else if c = 9 then some 16 else if c = 10 then some 32 else if c = 11 then some 64 else none

/-- The bytes of a frame with a SEQ, CRC included. -/
def PipFrame.bytes (f : PipFrame) (seq : Nat) : List Byte :=
  let body := toBytesLE 1 f.type ++ toBytesLE 1 seq ++ toBytesLE 1 (f.op * 16 + pipLenCode f.data.length) ++
    toBytesLE 1 ((if f.system then 128 else 0) + (if f.mismatch then 64 else 0)) ++ toBytesLE 1 f.slice ++
    toBytesLE 2 f.tag ++ toBytesLE 1 f.srcDomain ++ toBytesLE 1 (f.srcMember % 128) ++ toBytesLE 1 f.dstDomain ++
    toBytesLE 1 (f.dstMember % 128) ++ toBytesLE 2 f.count ++ f.data
  body ++ toBytesLE 2 (crc16 body)

/-- A frame read from bytes whose CRC is good: its SEQ and its fields. -/
def pipParse (bs : List Byte) : Option (Nat × PipFrame) :=
  if bs.length < 15 then none
  else
    let body := bs.take (bs.length - 2)
    if crc16 body ≠ bytesAt bs (bs.length - 2) 2 then none
    else match pipLenBytes (bytesAt bs 2 1 % 16) with
      | none => none
      | some n =>
        if body.length ≠ 13 + n then none
        else some (bytesAt bs 1 1,
          { type := bytesAt bs 0 1, op := bytesAt bs 2 1 / 16, system := bitAt (bytesAt bs 3 1) 7,
            mismatch := bitAt (bytesAt bs 3 1) 6, slice := bytesAt bs 4 1, tag := bytesAt bs 5 2,
            srcDomain := bytesAt bs 7 1, srcMember := bytesAt bs 8 1 % 128, dstDomain := bytesAt bs 9 1,
            dstMember := bytesAt bs 10 1 % 128, count := bytesAt bs 11 2, data := (bs.drop 13).take n })

/-- The frame types of Table 2-5. -/
def pipTypes : List Nat := [0x01, 0x02, 0x03, 0x10, 0x11, 0x20, 0x21, 0x22, 0x23, 0x30]

/-- RESIGN and PRESENCE are urgent (R44). -/
def PipFrame.urgent (f : PipFrame) : Bool := f.type == 0x02 || f.type == 0x23

/-! ### The transmitter (R42, R44, R45) -/

/-- The bytes of an ordered set, ACK, NAK or frame as symbols, control symbol first (Table 2-3). -/
def Emission.pipSymbols : Emission → List Nat
  | .turnMark _ b => 0x13C :: b.map (·.toNat)
  | .echoReq _ b => 0x15C :: b.map (·.toNat)
  | .echoRsp _ b => 0x17C :: b.map (·.toNat)
  | .heartbeat _ b => 0x19C :: b.map (·.toNat)
  | .pipAck _ q => [0x1FB, q % 256]
  | .pipNak _ q => [0x1F7, q % 256]
  | .pipFrame _ u b => (if u then 0x1DC else 0x11C) :: (b.map (·.toNat) ++ [0x1FD])
  | _ => []

/-- The frame's SOF has left. -/
def PipTx.leaving (f : PipTx) : Bool := f.left.head? != some (if f.urgent then 0x1DC else 0x11C)

/-- The frame with an ordered set, ACK or NAK inserted, where it may still take it: a normal frame takes one turn mark, one
echo set, one heartbeat and four ACK or NAK, an urgent frame none (R45). What goes ahead of its SOF is not inserted into
it. -/
def PipTx.insert (f : PipTx) (e : Emission) : Option PipTx :=
  if !f.leaving then some f
  else if f.urgent then none
  else match e with
    | .turnMark _ _ => if f.marks = 0 then some { f with marks := 1 } else none
    | .echoReq _ _ | .echoRsp _ _ => if f.echoes = 0 then some { f with echoes := 1 } else none
    | .heartbeat _ _ => if f.beats = 0 then some { f with beats := 1 } else none
    | .pipAck _ _ | .pipNak _ _ => if f.acks < 4 then some { f with acks := f.acks + 1 } else none
    | _ => none

/-- The emission is a turn mark. -/
def Emission.isMark : Emission → Bool
  | .turnMark _ _ => true
  | _ => false

/-- The symbols `sets` that leave lane `n` next with those of `e`: behind them, but a turn mark, whose first bit leaves at the
turn's boundary, ahead of them (R33). That what such a mark cuts goes on behind it is the model's choice (DESIGN CHOICE,
notes/assumptions/77). -/
def Emission.joinSets (e : Emission) (sets : List Nat) : List Nat :=
  if e.isMark then e.pipSymbols ++ sets else sets ++ e.pipSymbols

/-- `s` with `e` put out on lane `n`, and for the lane's own receiver where the near-end loop is closed. -/
def State.laneOut (s : State) (n : Nat) (e : Emission) : State :=
  if s.nearLoop n then (s.setLane n { s.lane n with back := (s.lane n).back ++ [e] }).emit e else s.emit e

/-- `s` with an ordered set, ACK or NAK sent on lane `n`: between two symbols of the frame that is leaving where it may be
inserted, else behind its EOF (R45). -/
def State.pipEmit (s : State) (n : Nat) (e : Emission) : State :=
  let l := s.lane n
  if s.farLoop n then s
  else match l.frame with
    | none => (s.setLane n { l with sets := e.joinSets l.sets }).laneOut n e
    | some f => match f.insert e with
      | some g => (s.setLane n { l with sets := e.joinSets l.sets, frame := some g }).laneOut n e
      | none => s.setLane n { l with held := l.held ++ [e] }

/-- `s` with what lane `n` received sent back, where it is in the far-end loop. -/
def State.pipRepeat (s : State) (n : Nat) (e : Emission) : State :=
  if s.farLoop n then
    (s.setLane n { s.lane n with sets := (s.lane n).sets ++ e.pipSymbols }).emit e
  else s

/-- `s` with a frame begun on lane `n`. -/
def State.pipBegin (s : State) (n : Nat) (u : PipUnacked) : State :=
  let e := Emission.pipFrame n u.urgent u.bytes
  (s.setLane n { s.lane n with frame := some { urgent := u.urgent, left := e.pipSymbols } }).laneOut n e

/-! ### Link retry (R46) -/

/-- `s` with frame `f` begun on lane `n` under the next SEQ and kept for retransmission. -/
def State.pipTransmit (s : State) (n : Nat) (f : PipFrame) : State :=
  let l := s.lane n
  let u : PipUnacked := { seq := l.txSeq, urgent := f.urgent, bytes := f.bytes l.txSeq }
  (s.setLane n { l with
    txSeq := (l.txSeq + 1) % 256, unacked := l.unacked ++ [u],
    timer := if l.unacked.isEmpty then s.clk else l.timer }).pipBegin n u

/-- `s` with frame `u` begun again on lane `n`: its retransmissions are counted. -/
def State.pipAgain (s : State) (n : Nat) (u : PipUnacked) : State :=
  let l := s.lane n
  ((s.setLane n { l with
    unacked := l.unacked.map (fun x => if x.seq = u.seq then { x with retries := x.retries + 1 } else x),
    timer := s.clk }).pipBegin n u).count (F.PIP_ERRCNT_RETX n) 1

/-- The device sends turn marks (R33): it is aligned, or is the time root and counts. -/
def State.marksTime (s : State) : Bool := s.flag F.TRN_STAT_ALIGNED || (s.timeRoot && s.counting)

/-- An urgent frame of `k` symbols begun on lane `n` in this turn would still be leaving when a turn mark is due: it waits for
the mark, which may not be inserted into it and leaves at its boundary (R33, R45). -/
def State.markFirst (s : State) (n k : Nat) : Bool :=
  s.marksTime && s.downLanes.contains n &&
    decide (256 * (s.now / 1000 * 1000 + 1000) / 25 - 256 * s.now / 25 < (s.lane n).sets.length + k)

/-- `s` with the next frame of lane `n` begun, where no frame is leaving: one to be sent again, whose SEQ comes before every
new one, else the first that waits, while fewer than 16 frames are unacknowledged (R46). -/
def State.pipPump (s : State) (n : Nat) : State :=
  let l := s.lane n
  if l.frame.isSome || s.farLoop n then s
  else match l.again with
    | u :: us => if u.urgent && s.markFirst n (u.bytes.length + 2) then s else (s.setLane n { l with again := us }).pipAgain n u
    | [] => match l.waiting with
      | [] => s
      | f :: fs =>
        if f.urgent && s.markFirst n (f.data.length + 17) then s
        else if l.unacked.length < 16 then (s.setLane n { l with waiting := fs }).pipTransmit n f else s

/-- `s` with frame `f` to be sent on lane `n`, an urgent one ahead of every normal frame that waits, never inside one that
has begun (R45). -/
def State.pipSend (s : State) (n : Nat) (f : PipFrame) : State :=
  let l := s.lane n
  let w := if f.urgent then l.waiting.takeWhile (·.urgent) ++ [f] ++ l.waiting.dropWhile (·.urgent) else l.waiting ++ [f]
  (s.setLane n { l with waiting := w }).pipPump n

/-- `s` with the frame of lane `n` ended: what waited for its EOF goes out, and the next frame begins. -/
def State.pipEof (s : State) (n : Nat) : State :=
  let l := s.lane n
  (l.held.foldl (fun s e => s.pipEmit n e) (s.setLane n { l with frame := none, held := [] })).pipPump n

/-- The lane with t1 of its echo request, where that is among the symbols `x` that leave from time `t` on, in 1/1,024 turn: a
symbol takes 100 such units (R35). -/
def PipLane.echoLeft (l : PipLane) (x : List Nat) (t : Nat) : PipLane :=
  match x.findIdx? (· == 0x15C) with
  | some j => { l with echo := l.echo.map (fun e => (e.1, t + 100 * j)) }
  | none => l

/-- `s` with the next symbols of lane `n`, at most `k`, off the line from time `t` on, and their code groups: sets before the
frame goes on, idle sets where there is neither. -/
def State.pipLeave (s : State) (n k t : Nat) : State × List (BitVec 10) :=
  let l := s.lane n
  let send := fun (l : PipLane) (x : List Nat) =>
    let r := encodeSymbols l.rdTx x
    (s.setLane n { l.echoLeft x t with rdTx := r.2 }, r.1)
  if l.sets ≠ [] then send { l with sets := l.sets.drop k } (l.sets.take k)
  else match l.frame with
    | some f =>
      let r := send { l with frame := some { f with left := f.left.drop k } } (f.left.take k)
      if f.left.length ≤ k then (r.1.pipEof n, r.2) else r
    | none => send { l with sets := (idleSet l.rdTx).drop k } ((idleSet l.rdTx).take k)

/-- `s` with `k` symbols of lane `n` off the line from time `t` on, in 1/1,024 turn; `fuel` bounds the pieces. -/
def State.pipLine : Nat → State → Nat → Nat → Nat → State × List (BitVec 10)
  | 0, s, _, _, _ => (s, [])
  | fuel + 1, s, n, k, t =>
    if k = 0 then (s, [])
    else
      let r := s.pipLeave n k t
      let q := State.pipLine fuel r.1 n (k - r.2.length) (t + 100 * r.2.length)
      (q.1, r.2 ++ q.2)

/-- `s` with `f` sent on each of `ns`. -/
def State.pipSendAll (s : State) (ns : List Nat) (f : PipFrame) : State := ns.foldl (fun s n => s.pipSend n f) s

/-- `s` with `f` sent upstream, where the upstream lane in use is up. Where it is not, the frame is lost: what becomes of it
the spec does not say (DESIGN CHOICE, notes/assumptions/74). -/
def State.pipSendUp (s : State) (f : PipFrame) : State :=
  match s.upLane with
  | some n => if s.laneIsUp n then s.pipSend n f else s
  | none => s

/-- The frame with this device as its source. -/
def State.mine (s : State) (f : PipFrame) : PipFrame := { f with srcDomain := s.domain, srcMember := s.member }

/-- `s` with an IDENT sent on lane `n` (R43): after comma alignment and 64 consecutive valid idle ordered sets, once the
member number is valid (Table 19-1). -/
def State.sendIdent (s : State) (n : Nat) : State :=
  let l := s.lane n
  if s.flag (F.PIP_STAT_ALIGNED n) && decide (64 ≤ l.idles) && !l.identSent && s.flag F.MGT_ID_VALID then
    let f := s.mine { type := 0x01, data := toBytesLE 1 s.domain ++ toBytesLE 1 s.member ++ toBytesLE 1 n }
    (s.setLane n { l with identSent := true, identSeq := l.txSeq }).pipSend n f
  else s

/-! ### Subtrees (R48) -/

/-- The members of `domain` at or below this device, by what SUBTREE last reported on each lane below. -/
def State.ownSubtree (s : State) (domain : Nat) : Nat :=
  let me := if domain = s.domain ∧ s.flag F.MGT_ID_VALID = true then 2 ^ s.member else 0
  s.subtreeLanes.foldl (fun m n => ((s.lane n).subtree.filter (fun e => e.1 = domain)).foldl (fun m e => m ||| e.2) m) me

/-- `s` with this device's SUBTREE of `domain` sent upstream. -/
def State.sendSubtree (s : State) (domain : Nat) : State :=
  s.pipSendUp { s.mine { type := 0x03, data := toBytesLE 16 (s.ownSubtree domain) } with srcDomain := domain }

/-- The domains this device has members of at or below it. -/
def State.subtreeDomains (s : State) : List Nat :=
  s.subtreeLanes.foldl (fun ds n => (s.lane n).subtree.foldl (fun ds e => if ds.contains e.1 then ds else ds ++ [e.1]) ds)
    [s.domain]

/-- `s` with every SUBTREE sent upstream again. -/
def State.sendSubtrees (s : State) : State := s.subtreeDomains.foldl State.sendSubtree s

/-- `s` with the present frames a parent sends upstream for the children it holds present (R476). The domain root has no
parent. -/
def State.sendKids (s : State) : State :=
  if s.flag F.TRN_CTL_DOM_ROOT then s
  else s.downLanes.foldl (fun s n => (s.lane n).kids.foldl (fun s k =>
    if k.absent then s
    else s.pipSendUp (s.mine { type := 0x02, data := [BitVec.ofNat 8 k.member, 1] })) s) s

/-- `s` once lane `n` may be up: an IDENT received and one acknowledged (R43). -/
def State.laneCheckUp (s : State) (n : Nat) : State :=
  let l := s.lane n
  if l.identRcvd && l.identAcked && !s.laneIsUp n then
    let s1 := ((s.putFlag (F.PIP_STAT_UP n) true).putFlag (F.PIP_STAT_FAILED n) false).setLane n
      { l with upAt := s.clk, lastMark := s.clk }
    if s1.upLane = some n then s1.sendKids.sendSubtrees else s1
  else s

/-! ### Lane down and holdover (R39, R40, R43) -/

/-- `s` in holdover where a follower whose counter has been loaded has no working upstream lane (R40): it is no longer
locked to one (Table 2-12). -/
def State.checkHoldover (s : State) : State :=
  if s.follower && !s.hasUpstream then
    let s1 := s.putFlag F.TRN_STAT_LOCKED false
    if s1.pip.loaded then s1.putFlag F.TRN_STAT_HOLDOVER true else s1
  else s

/-- `s` with lane `n` down: its link state starts anew from comma alignment, SEQ at 0, and what was unacknowledged, waiting or
received and not acted on is dropped (the spec does not say: DESIGN CHOICE, notes/assumptions/74). What it knows of the child
stays: its heartbeats, so that absence is still judged (R53), and its last SUBTREE, so that a combine still waits for the
present members below (R48). -/
def State.laneDown (s : State) (n : Nat) : State :=
  let l := s.lane n
  let s1 := (s.putFlag (F.PIP_STAT_UP n) false).putFlag (F.PIP_STAT_ALIGNED n) false
  (s1.setLane n { ({} : PipLane) with kids := l.kids, upAt := l.upAt, subtree := l.subtree, rdTx := l.rdTx }).checkHoldover

/-- `s` with lane `n` failed: a frame was retransmitted four times (R46). -/
def State.laneFail (s : State) (n seq : Nat) : State :=
  let s1 := (s.laneDown n).putFlag (F.PIP_STAT_FAILED n) true
  s1.fault 4 0x0013 3 n
    { peer := devicePeer (s.get (F.PIP_STAT_PEER_DOMAIN n)) (s.get (F.PIP_STAT_PEER_MEMBER n)),
      detail0 := n + seq * 0x100 }

/-- `s` with every unacknowledged frame of lane `n` to be sent again, or the lane failed where one has been sent again four
times already (R46). -/
def State.pipResend (s : State) (n : Nat) : State :=
  let l := s.lane n
  match l.unacked.find? (fun u => decide (4 ≤ u.retries)) with
  | some u => s.laneFail n u.seq
  | none => (s.setLane n { l with again := l.unacked, timer := s.clk }).pipPump n

/-- The frames of `us` sent before the one with SEQ `seq`, and those from it on. -/
def splitAtSeq (us : List PipUnacked) (seq : Nat) : List PipUnacked × List PipUnacked :=
  (us.takeWhile (fun u => u.seq ≠ seq), us.dropWhile (fun u => u.seq ≠ seq))

/-- `s` with the frames `gone` of lane `n` released and `kept` still held. -/
def State.pipRelease (s : State) (n : Nat) (gone kept : List PipUnacked) : State :=
  let l := s.lane n
  let l1 := { l with unacked := kept, timer := s.clk, again := l.again.filter (fun u => kept.any (fun k => k.seq == u.seq)),
                     identAcked := l.identAcked || (l.identSent && gone.any (fun u => u.seq == l.identSeq)) }
  ((s.setLane n l1).pipPump n).laneCheckUp n

/-! ### Slices and presence below a lane (R48, R49) -/

/-- Member `m` of the own domain belongs to `slice`: this device itself by RTE_CTL, any other by its near entry of the
current edition, which names the slice of the member it reaches (R253). -/
def State.inSlice (s : State) (m slice : Nat) : Bool :=
  if m = s.member then s.slice == slice
  else s.flag (F.RTE_NEAR_A_VALID s.edition m) && s.get (F.RTE_NEAR_A_SLICE s.edition m) == slice

/-- Some of `bitmap`, members of `domain`, is a member of `slice`: of another domain, the domain's far entry names its slice
(DEDUCED, notes/assumptions/13). -/
def State.holdsSlice (s : State) (domain bitmap slice : Nat) : Bool :=
  if domain = s.domain then (setBitsList bitmap 128).any (fun m => s.inSlice m slice)
  else
    bitmap != 0 && s.flag (F.RTE_FAR_A_VALID s.edition domain) && s.get (F.RTE_FAR_A_SLICE s.edition domain) == slice

/-- The members of `bitmap` that are present; of another domain, presence is not known here (DEDUCED,
notes/assumptions/13). -/
def State.presentOf (s : State) (domain bitmap : Nat) : Nat := if domain = s.domain then bitmap &&& s.present else bitmap

/-- The lane is in the trees of the scope. -/
def State.inScope (s : State) (n : Nat) (system : Bool) : Bool := s.laneUse n == 1 || system

/-- The lanes that a result travels down: those whose subtree holds a member of `slice` (R48). -/
def State.sliceLanes (s : State) (slice : Nat) (system : Bool) : List Nat :=
  s.treeLanes.filter (fun n => s.inScope n system && (s.lane n).subtree.any (fun e => s.holdsSlice e.1 e.2 slice))

/-- The lanes that a combine waits for: those whose subtree, as last reported, holds a present member of `slice` (R48). -/
def State.waitLanes (s : State) (slice : Nat) (system : Bool) : List Nat :=
  s.subtreeLanes.filter (fun n => s.inScope n system &&
    (s.lane n).subtree.any (fun e => s.holdsSlice e.1 (s.presentOf e.1 e.2) slice))

/-! ### Combining (R48, Table 2-6) -/

/-- The lowest (domain, member) of two frames. -/
def lowerSrc (a b : PipFrame) : PipFrame :=
  if a.srcDomain * 128 + a.srcMember ≤ b.srcDomain * 128 + b.srcMember then a else b

/-- Two contributions combined by OP. The spec does not say what SRC a combined frame has: it is the lowest contributor's for
every OP (DESIGN CHOICE, notes/assumptions/74). Nor does it say what becomes of contributions of one (SLICE, TAG) whose OP or
LEN differ: they are combined by the OP and the length of the one that arrived first (DESIGN CHOICE,
notes/assumptions/77). -/
def combine2 (a b : PipFrame) : PipFrame :=
  let n := a.data.length
  let x := ofBytesLE a.data
  let y := ofBytesLE b.data
  let lo := lowerSrc a b
  let base := { lo with count := a.count + b.count, mismatch := a.mismatch || b.mismatch }
  let num := fun v => { base with data := toBytesLE n v }
  match a.op with
  | 0x1 => num (x + y)
  | 0x2 => num (if signedOf (8 * n) x ≤ signedOf (8 * n) y then x else y)
  | 0x3 => num (if signedOf (8 * n) x ≤ signedOf (8 * n) y then y else x)
  | 0x4 => num (min x y)
  | 0x5 => num (max x y)
  | 0x6 => num (x &&& y)
  | 0x7 => num (x ||| y)
  | 0x8 => num (x ^^^ y)
  | 0x9 => { base with data := lo.data, mismatch := a.mismatch || b.mismatch || a.data != b.data }
  | _ => { base with data := [] }

/-- The combination of all parts. -/
def combineParts : List PipFrame → Option PipFrame
  | [] => none
  | f :: fs => some (fs.foldl combine2 f)

/-- Whether an OP is one of Table 2-6 with a LEN permitted for it. -/
def pipOpOk (op n : Nat) : Bool :=
  if op = 0 then n == 0
  else if op ≤ 5 then n == 1 || n == 2 || n == 4 || n == 8
  else if op ≤ 8 then decide (1 ≤ n ∧ n ≤ 8)
  else op == 9

/-- `s` with a contribution added to the combine of its (type, SLICE, TAG): `src` is its lane, none for this device's
own. A second frame from one source is dropped. -/
def State.addPart (s : State) (src : Option Nat) (f : PipFrame) : State :=
  let commit := f.type == 0x20
  let same := fun (c : Combine) => c.commit == commit && c.slice == f.slice && c.tag == f.tag
  match s.pip.combines.find? same with
  | none =>
    let c : Combine := { commit := commit, slice := f.slice, tag := f.tag, system := f.system, parts := [(src, f)] }
    { s with pip := { s.pip with combines := s.pip.combines ++ [c] } }
  | some c =>
    if c.parts.any (fun p => p.1 == src) then s
    else
      let c' := { c with parts := c.parts ++ [(src, f)] }
      { s with pip := { s.pip with combines := s.pip.combines.map (fun x => if same x then c' else x) } }

/-- A combine waits for nothing more: this device's own part where it belongs to the slice, and one from each lane that
holds a present member of the slice (R48, R49). -/
def State.combineDone (s : State) (c : Combine) : Bool :=
  (s.slice != c.slice || c.parts.any (fun p => p.1 == none)) &&
  (s.waitLanes c.slice c.system).all (fun n => c.parts.any (fun p => p.1 == some n))

/-- `s` with a result sent down every lane of the scope whose subtree holds a member of the slice, and delivered to this
device where it belongs to the slice (R48, R49). -/
def State.sendDown (s : State) (f : PipFrame) : State :=
  let s1 := s.pipSendAll (s.sliceLanes f.slice f.system) f
  if s1.slice = f.slice then { s1 with pip := { s1.pip with turned := s1.pip.turned ++ [f] } } else s1

/-- The vote block's fields that the root writes (Table 9-10): DECISION, CAUSE and RESIGNER. -/
def decideBlock (data : List Byte) (decision cause resigner : Nat) : List Byte :=
  let d := sliceD 0 data 0 32
  d.take 24 ++ toBytesLE 1 decision ++ toBytesLE 1 cause ++ toBytesLE 2 resigner ++ d.drop 28

/-- The decision of a combined COMMIT_UP: DECISION and CAUSE (R220). A COUNT above EXPECT without MISMATCH comes from
topologies that disagree and is taken as MISMATCH (DEDUCED, notes/assumptions/14). -/
def commitDecision (f : PipFrame) : Nat × Nat :=
  let expect := bytesAt f.data 28 2
  let vote := bytesAt f.data 20 4
  if f.count < expect then (2, 0x0A)
  else if f.mismatch || decide (expect < f.count) then (2, 0x0B)
  else if vote = 1 then (1, 0)
  else (2, 0x0C)

/-- `s` with a finished combine sent upstream, or turned around where this device is the scope's root (R48, R220). -/
def State.finishCombine (s : State) (c : Combine) : State :=
  let s1 := { s with pip := { s.pip with combines := s.pip.combines.filter (· != c) } }
  match combineParts (c.parts.map (·.2)) with
  | none => s1
  | some f =>
    if s1.scopeRoot c.system then
      if c.commit then
        let (d, cause) := commitDecision f
        let s2 := { s1 with pip := { s1.pip with decided := s1.pip.decided ++ [(c.slice, c.tag, s1.clk)] } }
        s2.sendDown { f with type := 0x21, data := decideBlock f.data d cause 0 }
      else s1.sendDown { f with type := 0x11 }
    else s1.pipSendUp f

/-- `s` with every finished combine finished; `fuel` bounds their number. -/
def State.settleCombines : Nat → State → State
  | 0, s => s
  | k + 1, s =>
    match s.pip.combines.find? s.combineDone with
    | none => s
    | some c => State.settleCombines k (s.finishCombine c)

/-! ### Resign (R52, R220, R223) -/

/-- The turns a RESIGN is remembered (R52). -/
def resignMemory : Nat := 20000

/-- A copy of this RESIGN has been seen within its memory. -/
def State.resignSeen (s : State) (slice tag : Nat) : Bool :=
  s.pip.resigns.any (fun r => r.1 == slice && r.2.1 == tag && decide (s.clk < r.2.2 + resignMemory))

/-- `s` with a RESIGN taken for the first time: remembered, its COMMIT_UP combine dropped, sent on every up lane but the
one it came on, decided by the scope's root, delivered where the device belongs to the slice. A lane whose PIP_CTL.USE is 0
belongs to no tree and gets none (DESIGN CHOICE, notes/assumptions/74). -/
def State.floodResign (s : State) (from? : Option Nat) (f : PipFrame) : State :=
  let s1 := { s with pip := { s.pip with
    resigns := s.pip.resigns.filter (fun (r : Nat × Nat × Nat) => !(r.1 == f.slice && r.2.1 == f.tag)) ++ [(f.slice, f.tag, s.clk)],
    combines := s.pip.combines.filter (fun c => !(c.commit && c.slice == f.slice && c.tag == f.tag)) } }
  let outLanes := lanes16.filter (fun n => s.laneIsUp n && s.laneUse n != 0 && from? != some n)
  let s2 := s1.pipSendAll outLanes f
  let s3 := if s2.slice = f.slice then { s2 with pip := { s2.pip with turned := s2.pip.turned ++ [f] } } else s2
  if s3.scopeRoot f.system && !s3.pip.decided.any (fun d => d.1 == f.slice && d.2.1 == f.tag) then
    let s4 := { s3 with pip := { s3.pip with decided := s3.pip.decided ++ [(f.slice, f.tag, s3.clk)] } }
    s4.sendDown { f with
      type := 0x21, op := 0x9, count := 0, mismatch := false,
      data := decideBlock [] 2 (bytesAt f.data 0 1) (0x8000 + f.srcDomain * 128 + f.srcMember) }
  else s3

/-! ### Presence (R53-R55, R416, R476) -/

/-- `s` with a flooded presence decision applied here: it readmits a member that an earlier one marked absent (R55, R416). -/
def State.takePresence (s : State) (m : Nat) (p : Bool) : State :=
  { s.setPresent (setBitAt s.present m p) with
      pip := { s.pip with presNews := s.pip.presNews ++ [(m, p, p && bitAt s.pip.sticky m)],
                          sticky := setBitAt s.pip.sticky m (!p) } }

/-- `s` with a presence change applied here and sent down the domain tree. -/
def State.floodPresence (s : State) (m : Nat) (p : Bool) : State :=
  let f := s.mine { type := 0x02, data := [BitVec.ofNat 8 m, if p then 1 else 0] }
  (s.pipSendAll (s.treeLanes.filter (fun n => s.laneUse n == 1)) f).takePresence m p

/-- `s` with member `m` marked absent by the domain root: its reports as a parent are discarded, and any member that no
other parent reports present goes with it (R54); the root itself is never marked (R476). -/
def State.markAbsent : Nat → State → Nat → State
  | 0, s, _ => s
  | k + 1, s, m =>
    if m = s.member then s
    else
      let lost := (s.pip.reports.filter (fun r => r.1 = m)).map (·.2)
      let s1 := { s with pip := { s.pip with
        reports := s.pip.reports.filter (fun r => r.1 ≠ m ∧ r.2 ≠ m),
        claims := s.pip.claims.filter (fun r => r.1 ≠ m ∧ r.2 ≠ m) } }
      let s2 := s1.floodPresence m false
      lost.foldl (fun s c =>
        if s.pip.reports.any (fun r => r.2 == c) || !bitAt s.present c then s else State.markAbsent k s c) s2

/-- The turns a STANDIN or REJOIN notice opens (R416). -/
def noticeWindow : Nat := 131072

/-- A parent's report at the domain root (R54, R55, R416, R476). -/
def State.rootReport (s : State) (parent m : Nat) (p : Bool) : State :=
  if p then
    let s0 := { s with pip := { s.pip with reportedSince := setBitAt s.pip.reportedSince m true } }
    let add := fun (s : State) =>
      if s.pip.reports.contains (parent, m) then s
      else { s with pip := { s.pip with reports := s.pip.reports ++ [(parent, m)] } }
    if bitAt s0.pip.sticky m then
      if s0.pip.notices.any (fun n => n.1 == m && decide (s0.clk ≤ n.2 + noticeWindow)) then
        let s1 := { s0 with pip := { s0.pip with
          notices := s0.pip.notices.filter (fun n => n.1 ≠ m), claims := s0.pip.claims.filter (fun r => r.2 ≠ m),
          reports := s0.pip.reports ++ s0.pip.claims.filter (fun r => r.2 = m) } }
        (add s1).floodPresence m true
      else { s0 with pip := { s0.pip with claims := s0.pip.claims.filter (· ≠ (parent, m)) ++ [(parent, m)] } }.fault 6 0x0033 12 0 { peer := devicePeer s0.domain m, detail0 := m }
    else
      let s1 := add s0
      if bitAt s1.present m then s1 else s1.floodPresence m true
  else
    let s1 := { s with pip := { s.pip with
      reports := s.pip.reports.filter (fun r => r ≠ (parent, m)), claims := s.pip.claims.filter (fun r => r ≠ (parent, m)) } }
    if s1.pip.reports.any (fun r => r.2 == m) || !bitAt s1.present m then s1
    else State.markAbsent 128 s1 m

/-- `s` with this device's own report of a child: decided here at the domain root, sent upstream elsewhere (R53). -/
def State.reportKid (s : State) (m : Nat) (p : Bool) : State :=
  if s.flag F.TRN_CTL_DOM_ROOT then s.rootReport s.member m p
  else s.pipSendUp (s.mine { type := 0x02, data := [BitVec.ofNat 8 m, if p then 1 else 0] })

/-- `s` with the domain root's own bit set and its presence flooded, where it is aligned and has its number (R476): parents
then send their children's presence again. -/
def State.rootSelf (s : State) : State :=
  if s.flag F.TRN_CTL_DOM_ROOT && s.flag F.TRN_STAT_ALIGNED && s.flag F.MGT_ID_VALID then
    s.floodPresence s.member true
  else s

/-! ### Routed frames (R50) -/

/-- The downstream lane whose subtree holds a member. -/
def State.laneToward (s : State) (domain m : Nat) : Option Nat :=
  s.treeLanes.find? (fun n => (s.lane n).subtree.any (fun e => e.1 == domain && bitAt e.2 m))

/-- A fault notice that travels to the domain root: STANDIN or REJOIN (Table 18-4). -/
def PipFrame.toRoot (f : PipFrame) : Bool :=
  f.type == 0x30 && f.data.length == 8 && (bytesAt f.data 0 1 == 2 || bytesAt f.data 0 1 == 3)

/-- `s` with a P2P or COUNTS frame moved on: delivered here, sent toward its destination below, or upstream. The COUNTS of another
slice's collective is never delivered (R355). -/
def State.routePip (s : State) (f : PipFrame) : State :=
  let deliver :=
    if f.type = 0x22 then (if f.slice = s.slice then { s with pip := { s.pip with turned := s.pip.turned ++ [f] } } else s)
    else { s with pip := { s.pip with notes := s.pip.notes ++ [f] } }
  if f.toRoot then (if s.flag F.TRN_CTL_DOM_ROOT then deliver else s.pipSendUp f)
  else if f.dstDomain = s.domain ∧ f.dstMember = s.member then deliver
  else match s.laneToward f.dstDomain f.dstMember with
    | some n => s.pipSend n f
    | none => s.pipSendUp f

end Sys2Proof.Machine
end

