-- ==== Sys2Proof/Machine/Faults.lean ====
section
/-!
DEFINITION. The fault procedures (spec/18_faults_and_resilience.md R405-R409, R413-R422): parked records and held
vectors, fences, notices, stand-in and rejoin.
-/
namespace Sys2Proof.Machine

/-! ### The fault queue (R405, R407) -/

/-- PARK_DRAIN: one parked record enters the ring in a turn, where it has room. -/
def State.doParkDrain (s : State) : State :=
  if s.flt.park.isEmpty || s.fltFull || s.flt.parkedAt == some s.clk then s
  else { s with flt := { s.flt with parkedAt := some s.clk } }.parkStep

/-- VECTOR_COALESCE_EXPIRE: a held raise takes place where HEAD_H still differs from TAIL. -/
def State.doVectorCoalesceExpire (s : State) : State :=
  match s.flt.lastRaise with
  | some t =>
    if s.flt.raiseHeld && decide (t + s.get F.FLT_Q_CFG_COAL ≤ s.clk) then
      let s1 := { s with flt := { s.flt with raiseHeld := false } }
      let n2 := 2 * s.fltN
      if s.get F.FLT_Q_IDX_HEAD_H % n2 = s.get F.FLT_Q_IDX_TAIL % n2 then s1 else s1.fltRaise
    else s
  | none => s

/-! ### Time lost (R409) -/

/-- `s` with time lost: heartbeats stop and ADMIT is cleared. -/
def State.loseTime (s : State) : State :=
  let s1 := (s.putFlag F.TRN_STAT_SYNC_LOST true).clearAdmit
  { s1 with pip := { s1.pip with hbStopped := true } }

/-- `s` out of service for lost time, with the reason of Table 18-2: 1 not aligned in time, 2 offset, 3 holdover ended. -/
def State.syncLost (s : State) (reason : Nat) : State :=
  let s2 := s.loseTime
  s2.fault 5 0x0030 12 0 { detail0 := reason, detail1 := (s2.reg Reg.TRN_STAT).toNat }

/-! ### Notices (Table 18-4) -/

/-- A fault notice of this device: its kind and two members. -/
def State.notice (s : State) (kind a b dst : Nat) : PipFrame :=
  s.mine { type := 0x30, dstDomain := if kind = 1 then s.domain else 0, dstMember := dst,
           data := toBytesLE 1 kind ++ toBytesLE 1 a ++ toBytesLE 1 b ++ toBytesLE 5 0 }

/-- A fault notice of a kind. -/
def PipFrame.isNotice (f : PipFrame) (kind : Nat) : Bool := f.type == 0x30 && f.data.length == 8 && bytesAt f.data 0 1 == kind

/-- A P2P frame of LEN 8 whose first byte names no notice: discarded and counted as CRC_ERR. -/
def PipFrame.isReservedNotice (f : PipFrame) : Bool :=
  f.type == 0x30 && f.data.length == 8 && !(decide (1 ≤ bytesAt f.data 0 1 ∧ bytesAt f.data 0 1 ≤ 3))

/-- The oldest notice of a kind delivered to this device, and `s` without it. -/
def State.takeNotice (s : State) (kind : Nat) : Option (PipFrame × State) :=
  (s.pip.notes.find? (fun f => f.isNotice kind)).map (fun f => (f, { s with pip := { s.pip with notes := s.pip.notes.erase f } }))

/-! ### Fences (R413, R414) -/

/-- Member `m` is fenced by this device. -/
def State.fences (s : State) (m : Nat) : Bool := bitAt (s.reg (Reg.FLT_FENCE (m / 64))).toNat (m % 64)

/-- This device may fence member `m`: another member, whose near entry in the current edition is VALID and names the
device's slice. -/
def State.mayFence (s : State) (m : Nat) : Bool := m != s.member && s.flag (F.RTE_NEAR_A_VALID s.edition m) &&
  s.get (F.RTE_NEAR_A_SLICE s.edition m) == s.slice

/-- `s` with a fence of member `m` new in this turn: this device's own, or its peer's. -/
def State.noteFence (s : State) (own : Bool) (m : Nat) : State :=
  { s with flt := { s.flt with newFences := s.flt.newFences.filter (fun e => e.2.2 == s.clk) ++ [(own, m, s.clk)] } }

/-- The write rule of FLT_FENCE word `k`: each bit is checked on its own; a notice goes to each member newly fenced. -/
def hookFltFence (k : Nat) (s : State) (w : RegWrite) : State :=
  let ms := (setBitsList w.act.toNat 64).map (64 * k + ·)
  let good := ms.filter s.mayFence
  let s1 := if good.length < ms.length then s.rejected 14 0 else s
  good.foldl (fun s m =>
    if s.fences m then s
    else
      let t := (s.noteFence true m).setReg (Reg.FLT_FENCE k) (BitVec.ofNat 64 (setBitAt (s.reg (Reg.FLT_FENCE k)).toNat (m % 64) true))
      t.routePip (t.notice 1 m 0 m)) s1

/-- FENCE_NOTICE_RECEIVE. -/
def State.doFenceNoticeReceive (s : State) : State :=
  match s.takeNotice 1 with
  | none => s
  | some (f, s1) =>
    let r := Reg.FLT_FENCED_BY (f.srcMember / 64)
    let s2 := if bitAt (s1.reg r).toNat (f.srcMember % 64) then s1 else s1.noteFence false f.srcMember
    (s2.setReg r (BitVec.ofNat 64 (setBitAt (s2.reg r).toNat (f.srcMember % 64) true))).fault 6 0x0062 14 0
      { peer := devicePeer f.srcDomain f.srcMember, detail0 := f.srcMember }

/-- `s` with both fence bits of member `m` cleared: a present flood has readmitted it (R413, R416). -/
def State.clearFence (s : State) (m : Nat) : State :=
  let clr := fun (s : State) (r : Nat) => s.setReg r (BitVec.ofNat 64 (setBitAt (s.reg r).toNat (m % 64) false))
  clr (clr s (Reg.FLT_FENCE (m / 64))) (Reg.FLT_FENCED_BY (m / 64))

/-! ### Notices at the domain root (R416, R418) -/

/-- `s` with the window for member `m`'s return opened or begun anew. -/
def State.openReturn (s : State) (m : Nat) : State :=
  { s with pip := { s.pip with notices := s.pip.notices.filter (fun (n : Nat × Nat) => n.1 != m) ++ [(m, s.clk)] } }

/-- STANDIN_NOTICE_RECEIVE: the expulsion of the member, or a refresh. -/
def State.doStandinNoticeReceive (s : State) : State :=
  match s.takeNotice 2 with
  | none => s
  | some (f, s1) =>
    let m := bytesAt f.data 1 1 % 128
    let s2 := s1.openReturn m
    if bytesAt f.data 1 1 != bytesAt f.data 2 1 && bitAt s2.present m then State.markAbsent 128 s2 m else s2

/-- REJOIN_NOTICE_RECEIVE: the window opens, and a parent's report that the member's heartbeats have returned, which was not
accepted before, is accepted now: the parent does not make it twice (R53, R422; DEDUCED, notes/assumptions/78). -/
def State.doRejoinNoticeReceive (s : State) : State :=
  match s.takeNotice 3 with
  | none => s
  | some (f, s1) =>
    let m := bytesAt f.data 1 1 % 128
    let s2 := s1.openReturn m
    match s2.pip.claims.find? (fun r => r.2 == m) with
    | some r => s2.rootReport r.1 m true
    | none => s2

/-! ### Spares and stand-in (R417, R418, R420) -/

/-- FLT_SPARE.READY. A device whose carrier identity memory is bad takes no spare role (R428). -/
def State.spareReady (s : State) : Bool :=
  s.flag F.FLT_SPARE_ROLE && s.flag F.FLT_SPARE_ARM && s.flag F.TRN_STAT_ALIGNED && s.flag F.HBM_STAT_INIT_DONE &&
    s.flag F.SEC_STAT_BURNISHED && !s.admitted && !s.flag F.MGT_STAT_CIM_BAD

/-- Most tokens held: CAP 0 acts as 1. -/
def State.tokenCap (s : State) : Nat := max 1 (s.get F.FLT_BUDGET_CAP)

/-- The write rule of FLT_BUDGET: the bucket holds at most CAP tokens. -/
def hookBudget (s : State) (w : RegWrite) : State :=
  let t := s.takeWrite w
  t.put F.FLT_BUDGET_TOKENS (min t.tokenCap (t.get F.FLT_BUDGET_TOKENS))

/-- BUDGET_REFILL. -/
def State.doBudgetRefill (s : State) : State :=
  let due := s.flt.lastRefill + s.get F.FLT_BUDGET_REFILL
  if due ≤ s.clk then
    { s.put F.FLT_BUDGET_TOKENS (min s.tokenCap (s.get F.FLT_BUDGET_TOKENS + 1)) with
        flt := { s.flt with lastRefill := due } }
  else s

/-- A STANDIN record: accepted or completed. -/
def State.standinRecord (s : State) (m prev : Nat) (done : Bool) : State :=
  s.fault 6 0x0063 14 0 { detail0 := m + prev * 0x100 + (if done then 0x10000 else 0) }

/-- `s` with a stand-in for member `m` checked and, where every check passes, begun. -/
def State.orderStandin (s : State) (m : Nat) : State :=
  if !s.spareReady || s.flag F.FLT_STANDIN_BUSY then s.put F.FLT_STANDIN_RESULT 0x42
  else if !bitAt (s.reg (Reg.FLT_GROUP (m / 64))).toNat (m % 64) then s.put F.FLT_STANDIN_RESULT 0x23
  else if s.get F.FLT_BUDGET_TOKENS = 0 then s.put F.FLT_STANDIN_RESULT 0x10
  else
    let prev := s.member
    let s1 := (s.put F.FLT_BUDGET_TOKENS (s.get F.FLT_BUDGET_TOKENS - 1)).putFlag F.FLT_STANDIN_BUSY true
    let s2 := (s1.standinRecord m prev false).routePip (s1.notice 2 m prev 0)
    { s2 with pip := { s2.pip with hbStopped := true }, flt := { s2.flt with standin := .expelling m prev } }

/-- The write rule of FLT_STANDIN. -/
def hookStandin (s : State) (w : RegWrite) : State :=
  let t := s.takeWrite (w.setNew F.FLT_STANDIN_GO 0)
  if w.newF F.FLT_STANDIN_GO = 1 then t.orderStandin (w.newF F.FLT_STANDIN_MEMBER) else t

/-- `s` with every near port that is up or coming up taken down with cause CMD. -/
def State.retrainNear (s : State) : State :=
  (List.range 128).foldl (fun s p =>
    if !s.isFar p && decide (2 ≤ s.bstate p) then s.portDown p 0x0F else s) s

/-- The carrier identity memory with LAST_MEMBER, LAST_DOMAIN, LAST_SERIAL and its CRC as they should be (R433). -/
def State.stickyCim (s : State) : List Byte :=
  let c := sliceD 0 s.up.cimNow 0 512
  let b := c.take 56 ++ toBytesLE 1 (128 + s.member) ++ toBytesLE 1 s.domain ++ (c.drop 58).take 6 ++
    toBytesLE 8 (s.get F.MGT_DEV_SN_SERIAL) ++ (c.drop 72).take 436
  b ++ toBytesLE 4 (crc32 b)

/-- `s` with the sticky fields due to be written where the stored values differ, and CIM_BUSY set while they are (R433). -/
def State.dueSticky (s : State) : State :=
  let due := s.flag F.MGT_STAT_CIM_OK && s.stickyCim != s.up.cimNow
  { s with up := { s.up with writeBackDue := due } }.putFlag F.MGT_STAT_CIM_BUSY due

/-- STANDIN_TAKE_NUMBER: once the member shows absent, the spare takes its number, which it holds in its carrier's memory too. -/
def State.doStandinTakeNumber (s : State) : State :=
  match s.flt.standin with
  | .expelling m prev =>
    if bitAt s.present m then s
    else
      let s1 := (s.put F.MGT_ID_MEMBER m).dueSticky.retrainNear
      { s1.sendSubtree s1.domain with flt := { s1.flt with standin := .admitting m prev } }
  | .idle => s
  | .admitting _ _ => s
  | .refreshing _ _ => s

/-- STANDIN_REFRESH: after ADMIT, the refresh notice; heartbeats go on under the new number, unless time is lost (R409) or the
device detached (R439). -/
def State.doStandinRefresh (s : State) : State :=
  match s.flt.standin with
  | .admitting m prev =>
    if s.admitted then
      let s1 := s.routePip (s.notice 2 m m 0)
      { s1 with pip := { s1.pip with hbStopped := s1.flag F.TRN_STAT_SYNC_LOST || s1.up.detachAt.isSome }, flt := { s1.flt with standin := .refreshing m prev } }
    else s
  | .idle => s
  | .expelling _ _ => s
  | .refreshing _ _ => s

/-- `s` with a stand-in that burnish meets lost (R370). -/
def State.loseStandin (s : State) : State :=
  if s.flag F.FLT_STANDIN_BUSY then
    { (s.putFlag F.FLT_STANDIN_BUSY false).put F.FLT_STANDIN_RESULT 0x14 with flt := { s.flt with standin := .idle } }
  else s

/-- `s` with a stand-in completed, where the present flood names the member it awaits. -/
def State.finishStandin (s : State) (m : Nat) : State :=
  match s.flt.standin with
  | .refreshing m' prev =>
    if m = m' then
      let s1 := ((s.put F.FLT_STANDIN_RESULT 1).putFlag F.FLT_STANDIN_BUSY false).putFlag F.FLT_SPARE_ROLE false
      { s1 with flt := { s1.flt with standin := .idle } }.standinRecord m prev true
    else s
  | .idle => s
  | .expelling _ _ => s
  | .admitting _ _ => s

/-! ### Rejoin (R422) -/

/-- The turns within which the present flood must come. -/
def rejoinLimit : Nat := 131072

/-- The write rule of FLT_REJOIN. -/
def hookRejoin (s : State) (w : RegWrite) : State :=
  if w.newF F.FLT_REJOIN_GO = 0 then s
  else if !s.flag F.TRN_STAT_ALIGNED || s.admitted
      || !s.flag (if s.edition = 1 then F.RTE_ED_READY1 else F.RTE_ED_READY0) || bitAt s.present s.member then
    s.put F.FLT_REJOIN_RESULT 0x23
  else
    let s1 := s.routePip (s.notice 3 s.member 0 0)
    { s1 with flt := { s1.flt with rejoinAt := some s1.clk } }

/-- A write of ADMIT = 1 would be accepted (R375). -/
def State.mayAdmit (s : State) : Bool :=
  !s.flag F.SEC_BURN_ACTIVE && s.get F.SEC_BURN_RESULT != 2 &&
    (match s.sec.burnStart with
     | some t => decide (t + s.ageLimit + 64 ≤ s.clk)
     | none => true)

/-- `s` with rejoin complete, where the present flood names this device. -/
def State.finishRejoin (s : State) (m : Nat) : State :=
  if s.flt.rejoinAt.isSome && m == s.member then
    let s1 := { s with flt := { s.flt with rejoinAt := none } }
    let s2 := if s1.mayAdmit then { s1.putFlag F.RTE_CTL_ADMIT true with sec := { s1.sec with sliceFree := false } }
      else s1.rteRejected
    (s2.put F.FLT_REJOIN_RESULT 1).fault 6 0x0064 14 0 { detail0 := m }
  else s

/-- REJOIN_TIMEOUT. -/
def State.doRejoinTimeout (s : State) : State :=
  match s.flt.rejoinAt with
  | some t =>
    if t + rejoinLimit ≤ s.clk then
      { s.put F.FLT_REJOIN_RESULT 0x14 with flt := { s.flt with rejoinAt := none } }
    else s
  | none => s

end Sys2Proof.Machine
end

