-- ==== Sys2Proof/Machine/Bringup.lean ====
section
/-!
DEFINITION. Bring-up and identity (spec/19_bringup_and_identity.md R424-R439): reset, firmware, the carrier identity memory,
enumeration on the management chain, module identity, detaching.
-/
namespace Sys2Proof.Machine

/-! ### Reset (R424, R425) -/

/-- RESET_N_ASSERT: the device stops and its bypass pin is low. -/
def State.doResetNAssert (s : State) : State := { s with up := { s.up with resetLow := true, bypassHigh := false } }

/-- The SPI flash pins are in high impedance, so that the carrier can program the flash (R424). -/
def State.flashReleased (s : State) : Bool := s.up.resetLow

/-- `t`, the device just reset, with the pairs of attach ports bonded whose BOND was set before (R314). -/
def State.bondPorts (s t : State) : State :=
  (List.range 8).foldl (fun t k =>
    if s.flag (F.ATT_CTL_BOND (2 * k)) then
      (t.putFlag (F.ATT_LINK_BONDED (2 * k)) true).putFlag (F.ATT_LINK_BONDED (2 * k + 1)) true
    else t) t

/-- RESET_N_RELEASE after `lowTurns` turns low: a fundamental reset from 2,500 turns on. Commands that wait and the model's
own count of free values are no state of the device. A shorter pulse is no reset (DEDUCED, notes/assumptions/33). After THERMTRIP the
clocks stay stopped whatever RESET_N does: only the removal of VSTBY ends that (R453), and the machine then is State.reset. -/
def State.doResetNRelease (s : State) (lowTurns : Nat) : State :=
  if !s.up.resetLow then s
  else if s.up.tripped then { s with up := { s.up with resetLow := false } }
  else if 2500 ≤ lowTurns then s.bondPorts { State.reset with pending := s.pending, freeIx := s.freeIx }
  else { s with up := { s.up with resetLow := false, bypassHigh := s.up.pllLocked && s.up.detachAt.isNone } }

/-- PLL_LOCK: the chain passes through the device; fuses are read and the memory slots' salts drawn (R303, R470). -/
def State.doPllLock (s : State) : State :=
  if s.up.pllLocked then s
  else
    let s1 := ((s.put F.MGT_DEV_ID_STEPPING Config.fusedStepping.toNat).put F.MGT_DEV_SN_SERIAL
      Config.fusedSerial.toNat).put F.SEC_ID_KEY_FAMILY (Config.fusedKeyFamily.toNat % 10000)
    let s2 := State.newSalts 16 s1
    { s2 with up := { s2.up with pllLocked := true, bypassHigh := true } }

/-! ### Firmware (R426, R427) -/

/-- The bytes of an image slot that its header names: a missing byte reads as erased flash. -/
def slotBytes (slot : List Byte) (off n : Nat) : List Byte := sliceD 0xFF slot off n

/-- The firmware hash of a slot: over header bytes 0 to 15 and the body. -/
def slotHash (slot : List Byte) : BitVec 384 :=
  sha384 (slotBytes slot 0 16 ++ slotBytes slot 256 (ofBytesLE (slotBytes slot 4 4)))

/-- A slot passes. -/
def slotPasses (slot : List Byte) : Bool :=
  let n := ofBytesLE (slotBytes slot 4 4)
  ofBytesLE (slotBytes slot 0 4) == 0x57465854 && decide (n ≤ 0x300000)
    && sha384 (slotBytes slot 112 97) == Config.firmwareKeyHash
    && ecVerify (natBytes (slotBytes slot 112 97)) (natBytes (slotBytes slot 0 16 ++ slotBytes slot 256 n)) (natBytes (slotBytes slot 16 96))

/-- `s` with the image of a slot running. -/
def State.bootSlot (s : State) (slot : List Byte) (b : Bool) : State :=
  let h := (slotHash slot).toNat
  let s1 := (List.range 6).foldl (fun s k => s.setReg (Reg.SEC_FW_HASH k) (BitVec.ofNat 64 (h / 2 ^ (64 * k)))) s
  let s2 := ((s1.putFlag F.SEC_STAT_FW_OK true).putFlag F.MGT_STAT_FW_SLOT b).put F.MGT_STAT_BOOT 1
  { s2 with
      up := { s2.up with firmwareVersion := ofBytesLE (slotBytes slot 8 8) },
      ilx := { s2.ilx with wdogAt := s2.clk } }

/-- The cores are held in reset: burnish discards (R370). -/
def State.coresHeld (s : State) : Bool := s.flag F.SEC_BURN_ACTIVE && s.sec.burnStep == 1

/-- FIRMWARE_VERIFY: slot A, then slot B. -/
def State.doFirmwareVerify (s : State) (slotA slotB : List Byte) : State :=
  if !s.up.pllLocked || s.up.firmwareTried || s.coresHeld then s
  else
    let s1 := { s with up := { s.up with firmwareTried := true, attachOpen := true } }
    if slotPasses slotA then s1.bootSlot slotA false
    else if slotPasses slotB then s1.bootSlot slotB true
    else (s1.putFlag F.SEC_STAT_FW_OK false).put F.MGT_STAT_BOOT 2

/-! ### Chain frames (R431) -/

/-- A chain frame's body, TYPE to the byte before the CRC; none where its CRC is bad or it is too short to have one. -/
def chainBody (bytes : List Byte) : Option (List Byte) :=
  if bytes.length < 7 then none
  else
    let b := bytes.take (bytes.length - 2)
    if crc16 b = bytesAt bytes (bytes.length - 2) 2 then some b else none

/-- The code groups of a chain frame: K28.0, its bytes, their CRC-16, K29.7, and the idle set that follows, which leaves the
running disparity negative. -/
def chainGroups (body : List Byte) : List (BitVec 10) :=
  let r := encodeSymbols false ([0x11C] ++ (body ++ toBytesLE 2 (crc16 body)).map (·.toNat) ++ [0x1FD])
  r.1 ++ (encodeSymbols r.2 (idleSet r.2)).1

/-- `s` with a chain frame put out, its CRC made. -/
def State.chainSend (s : State) (body : List Byte) : State := s.emit (.chain (chainGroups body))

/-- `s` with a frame of the chain handled by `f` where the device is on the chain and the CRC is good; a bad one is dropped
and counted. -/
def State.onChain (s : State) (bytes : List Byte) (f : List Byte → State → State) : State :=
  if !s.up.bypassHigh then s
  else match chainBody bytes with
    | none => s.count F.MGT_STAT_CHAIN_ERR 1
    | some b => f b s

/-- A body of `n` bytes with the 16-byte bitmap at byte `i` replaced. -/
def setBitmap (body : List Byte) (i v : Nat) : List Byte := body.take i ++ toBytesLE 16 v ++ body.drop (i + 16)

/-! ### Enumeration (R432, R433) -/

/-- A byte of the carrier identity memory. -/
def State.cimByte (s : State) (i : Nat) : Nat := bytesAt s.up.cim i 1
/-- The fixed number, where FIXED_ID is set. -/
def State.fixedId (s : State) : Option Nat :=
  if bitAt (s.cimByte 13) 7 then some (s.cimByte 13 % 128) else none
/-- The sticky number, where the memory holds one of this device for its domain. -/
def State.stickyId (s : State) : Option Nat :=
  if bitAt (s.cimByte 56) 7 && s.cimByte 57 == s.domain && bytesAt s.up.cim 64 8 == s.get F.MGT_DEV_SN_SERIAL then
    some (s.cimByte 56 % 128)
  else none

/-- The device takes part in the enumeration that a frame's body names. -/
def State.enumerates (s : State) (body : List Byte) : Bool := s.flag F.MGT_STAT_CIM_OK && bytesAt body 5 1 == s.domain

/-- `s` with a CLAIM whose CRC is good acted on and forwarded. -/
def State.claimFrame (s : State) (body : List Byte) : State :=
  if !s.enumerates body then s.chainSend body
  else
    let mark := fun (i m : Nat) => setBitmap body i (setBitAt (bytesAt body i 16) m true)
    if s.flag F.MGT_ID_VALID then s.chainSend (mark 6 s.member)
    else match s.fixedId with
      | some m =>
        { s with up := { s.up with fixedTaken := bitAt (bytesAt body 22 16) m } }.chainSend (mark 22 m)
      | none => match s.stickyId with
        | some m => s.chainSend (mark 38 m)
        | none => s.chainSend body

/-- The number a device without one takes, and its SOURCE (Table 19-6): 4 where its fixed number is refused or none is
left. -/
def State.chooseNumber (s : State) (taken held fixed : Nat) : Option Nat × Nat :=
  let lowest := (List.range 128).find? (fun m => !bitAt taken m)
  match s.fixedId with
  | some m => if bitAt held m || s.up.fixedTaken then (none, 4) else (some m, 1)
  | none =>
    match s.stickyId.filter (fun m => !bitAt held m && !bitAt fixed m) with
    | some m => (some m, 2)
    | none => if lowest.isSome then (lowest, 3) else (none, 4)

/-- `s` with a REPORT sent. Its SEQ is the device's own choice. -/
def State.report (s : State) (source : Nat) : State :=
  s.freeNext.chainSend (toBytesLE 1 0x03 ++ toBytesLE 1 (s.free 8) ++ toBytesLE 1 0 ++ toBytesLE 1 s.domain ++
    toBytesLE 1 s.member ++ toBytesLE 1 s.domain ++ toBytesLE 1 s.member ++ toBytesLE 1 source ++
    toBytesLE 2 (s.get F.MGT_CIM_INFO_RACK) ++ toBytesLE 1 (s.get F.MGT_CIM_INFO_ROW) ++
    toBytesLE 1 (s.get F.MGT_CIM_INFO_SLOT) ++ toBytesLE 8 (s.get F.MGT_DEV_SN_SERIAL))

/-- `s` with its number valid: pip lanes send IDENT (Table 19-1), and the sticky fields are to be written where they
differ. -/
def State.takeNumber (s : State) (m : Nat) : State :=
  let s2 := ((s.put F.MGT_ID_MEMBER m).putFlag F.MGT_ID_VALID true).dueSticky
  (lanes16.foldl State.sendIdent s2).rootSelf

/-- `s` with an ASSIGN whose CRC is good acted on, forwarded and reported. -/
def State.assignFrame (s : State) (body : List Byte) (held fixed : Nat) : State :=
  if !s.enumerates body then s.chainSend body
  else if s.flag F.MGT_ID_VALID then (s.chainSend body).report 0
  else
    let taken := bytesAt body 6 16
    match s.chooseNumber taken held fixed with
    | (some m, src) => ((s.takeNumber m).chainSend (setBitmap body 6 (setBitAt taken m true))).report src
    | (none, src) => ((s.putFlag F.MGT_STAT_ID_CONFLICT true).chainSend body).report src

/-- `s` with a CLAIM or an ASSIGN acted on. -/
def State.enumFrame (s : State) (body : List Byte) (held fixed : Nat) : State :=
  if bytesAt body 0 1 = 1 then s.claimFrame body else s.assignFrame body held fixed

/-- `s` with a CLAIM or an ASSIGN of type `ty` acted on, or held until the carrier identity memory has been read. -/
def State.enumReceive (s : State) (ty n : Nat) (bytes : List Byte) (held fixed : Nat) : State :=
  s.onChain bytes (fun body s =>
    if bytesAt body 0 1 ≠ ty ∨ body.length < n then s.chainSend body
    else if !s.up.cimRead then
      { s with up := { s.up with heldChain := s.up.heldChain ++ [(body, held, fixed)] } }
    else s.enumFrame body held fixed)

/-- CLAIM. -/
def State.doClaim (s : State) (bytes : List Byte) : State := s.enumReceive 1 54 bytes 0 0

/-- ASSIGN; `held` and `fixed` are the bitmaps with which the domain's claim ended (DEDUCED, notes/assumptions/32). -/
def State.doAssign (s : State) (bytes : List Byte) (held fixed : BitVec 128) : State :=
  s.enumReceive 2 22 bytes held.toNat fixed.toNat

/-- RSP of another device: forwarded. -/
def State.doRsp (s : State) (bytes : List Byte) : State := s.onChain bytes (fun body s => s.chainSend body)

/-- CIM_WRITE_BACK: the sticky fields and the CRC are written. -/
def State.doCimWriteBack (s : State) : State :=
  if !s.up.writeBackDue then s
  else
    let c := s.stickyCim
    let old := s.up.cimNow
    let s1 := { s with up := { s.up with cimNow := c, writeBackDue := false } }.putFlag F.MGT_STAT_CIM_BUSY false
    ((List.range 512).filter (fun i => List.getD c i 0 != List.getD old i 0 || decide (old.length ≤ i))).foldl (fun s i => s.emit (.cimWrite i (c.getD i 0))) s1

/-! ### The carrier identity memory (R428-R430, R443, R451) -/

/-- The memory is valid. -/
def cimValid (b : List Byte) : Bool :=
  b.length == 512 && bytesAt b 0 4 == 0x49435854 && bytesAt b 4 1 == 1 && crc32 (b.take 508) == bytesAt b 508 4

/-- DUTY_ON of a cooling class (Table 20-3). -/
def classDutyOn (c : Nat) : Nat := if c = 2 then 99 else if c = 3 then 101 else 97

/-- `s` with what a valid memory gives loaded. -/
def State.loadCim (s : State) (b : List Byte) : State :=
  let s1 := ((((s.put F.MGT_CIM_INFO_RACK (bytesAt b 8 2)).put F.MGT_CIM_INFO_ROW (bytesAt b 10 1)).put
    F.MGT_CIM_INFO_SLOT (bytesAt b 11 1)).put F.MGT_CIM_INFO_BOARD_REV (bytesAt b 16 2)).put
    F.MGT_CIM_INFO_COOLING (bytesAt b 20 1)
  let s2 := ((s1.put F.MGT_ID_DOMAIN (bytesAt b 12 1)).putFlag F.FLT_SPARE_ROLE (bitAt (bytesAt b 14 1) 0)).put
    F.FLT_SPARE_GROUP (bytesAt b 15 1)
  let s3 := (List.range 16).foldl (fun s r =>
    let lim := bytesAt b (24 + 2 * r) 2
    (s.put (F.PWR_LIM_LIMIT r) lim).putFlag (F.PWR_RAIL_POLLED r) (lim != 0)) s2
  let duty := classDutyOn (bytesAt b 20 1)
  let s4 := { s3 with pwr := { s3.pwr with classDuty := duty } }.put F.PWR_THERM_DUTY_ON duty
  let fam := bytesAt b 18 2
  s4.putFlag F.MGT_STAT_KF_MISMATCH (fam != 0xFFFF && fam != s4.get F.SEC_ID_KEY_FAMILY)

/-- CIM_READ_DONE: valid or bad, its values loaded, the Vangeri ports held where it says so (R428, R430), and the frames held for
it acted on in order. -/
def State.doCimReadDone (s : State) (bytes : Option (List Byte)) : State :=
  if !s.up.pllLocked || s.up.cimRead then s
  else
    let good := bytes.filter cimValid
    let s1 := { s with up := { s.up with cimRead := true, cim := good.getD [], cimNow := good.getD [], heldChain := [] } }
    let s2 := match good with
      | some b => (s1.loadCim b).putFlag F.MGT_STAT_CIM_OK true
      | none => s1.putFlag F.MGT_STAT_CIM_BAD true
    let s3 := if s2.portsHeld then s2.holdPorts else s2
    s.up.heldChain.foldl (fun s f => s.enumFrame f.1 f.2.1 f.2.2) s3

/-- The write rule of MGT_CIM_ACC: an access through it is complete at once; `byte` is what the memory answers. -/
def hookCimAcc (byte : Nat) (s : State) (w : RegWrite) : State :=
  let t := (s.takeWrite w).putFlag F.MGT_CIM_ACC_DONE true
  let op := w.newF F.MGT_CIM_ACC_OP
  if op = 1 then t.put F.MGT_CIM_ACC_DATA byte
  else if op = 2 then
    let i := t.get F.MGT_CIM_ADDR_ADDR
    let b := BitVec.ofNat 8 (w.newF F.MGT_CIM_ACC_DATA)
    { t with up := { t.up with cimNow := listSet t.up.cimNow i b } }.emit (.cimWrite i b)
  else t

/-! ### Modules (R436) -/

/-- `s` with a module's identity read: lower page bytes 0 to 3 and upper page 00h bytes 129 to 181. -/
def State.moduleRead (s : State) (c : Nat) (lower upper : List Byte) : State :=
  let flat := bitAt (bytesAt lower 2 1) 7
  let crc := if flat then 0 else crc32 (sliceD 0 upper 0 53)
  let changed := bitAt s.up.cageSeen c && crc != s.get (F.MGT_CAGE_ID_CRC c)
  let s1 := ((((s.put (F.MGT_CAGE_IDENT c) (bytesAt lower 0 1)).putFlag (F.MGT_CAGE_FLAT c) flat).put
    (F.MGT_CAGE_MSTATE c) (bitsOf (bytesAt lower 3 1) 3 1)).putFlag (F.MGT_CAGE_READ_ERR c) false).put (F.MGT_CAGE_ID_CRC c) crc
  let s2 := { s1 with up := { s1.up with cageSeen := setBitAt s1.up.cageSeen c true } }
  if changed then s2.putFlag (F.MGT_CAGE_CHANGED c) true else s2

/-- `s` with cage `c` read now. -/
def State.noteCage (s : State) (c : Nat) : State :=
  { s with up := { s.up with cageAt := s.up.cageAt.filter (fun (x : Nat × Nat) => x.1 != c) ++ [(c, s.clk)] } }

/-- MODULE_INSERT. -/
def State.doModuleInsert (s : State) (cage : Fin 64) (lower upper : List Byte) : State :=
  ((s.putFlag (F.MGT_CAGE_PRESENT cage) true).moduleRead cage lower upper).noteCage cage

/-- MODULE_IDENTITY_READ: every 250,000 turns while the cage holds a module; a cage found empty is empty from then on, and
what was last read stays to compare the next module with. -/
def State.doModuleIdentityRead (s : State) (cage : Fin 64) (read : ModuleRead) : State :=
  let at' := ((s.up.cageAt.find? (fun x => x.1 == cage.val)).map (·.2)).getD 0
  if s.flag (F.MGT_CAGE_PRESENT cage) && decide (at' + 250000 ≤ s.clk) then
    let s1 := s.noteCage cage
    match read with
    | .bytes lower upper => s1.moduleRead cage lower upper
    | .failed => s1.putFlag (F.MGT_CAGE_READ_ERR cage) true
    | .absent => s1.putFlag (F.MGT_CAGE_PRESENT cage) false
  else s

/-- The write rule of MGT_CAGE_ACC: an access is complete at once; `byte` is what the module answers. -/
def hookCageAcc (byte : Nat) (s : State) (w : RegWrite) : State :=
  let t := (s.takeWrite w).putFlag F.MGT_CAGE_ACC_DONE true
  let op := w.newF F.MGT_CAGE_ACC_OP
  if op = 1 then t.put F.MGT_CAGE_ACC_DATA byte
  else if op = 2 then
    t.emit (.cageWrite (w.newF F.MGT_CAGE_ACC_CAGE) (w.newF F.MGT_CAGE_ACC_PAGE) (w.newF F.MGT_CAGE_ACC_BYTE)
      (BitVec.ofNat 8 (w.newF F.MGT_CAGE_ACC_DATA)))
  else t

/-! ### Detaching (R439) -/

/-- `s` detaching: ports to deep idle, heartbeats stopped, the bypass pin low. -/
def State.startDetach (s : State) : State :=
  if s.up.detachAt.isSome then s
  else
    let s1 := { s with
      up := { s.up with detachAt := some s.clk, bypassHigh := false }, pip := { s.pip with hbStopped := true } }
    (List.range 128).foldl State.portDeepIdle s1

/-- The write rule of MGT_CTL: KF_OVERRIDE, which releases the ports (R430), and DETACH are written 1 to set. -/
def hookMgtCtl (s : State) (w : RegWrite) : State :=
  let s1 := if w.actF F.MGT_CTL_KF_OVERRIDE = 1 then
      let t := s.putFlag F.MGT_CTL_KF_OVERRIDE true
      if s.portsHeld && !t.portsHeld then t.releasePorts else t
    else s
  if w.actF F.MGT_CTL_DETACH = 1 then (s1.putFlag F.MGT_CTL_DETACH true).startDetach else s1

/-- The turns a carrier relay takes to bridge the chain: 2 ms (R434). -/
def relayTurns : Nat := 500000

/-- DETACHED: the relay time has passed. -/
def State.doDetached (s : State) : State :=
  match s.up.detachAt with
  | some t => if t + relayTurns ≤ s.clk then s.putFlag F.MGT_STAT_DETACHED true else s
  | none => s

end Sys2Proof.Machine
end

