-- ==== Sys2Proof/Machine/Msg.lean ====
section
/-!
DEFINITION. The message engine (spec/04_ronpel_transactions.md R95-R98, spec/05_memory_model.md R120,
spec/14_host_attach.md R321): pools, receive records, sends.
-/
namespace Sys2Proof.Machine

/-! ### Pools (R95, R96) -/

/-- Bytes of a buffer of pool `n`. -/
def State.bufSize (s : State) (n : Nat) : Nat := 256 * 2 ^ s.get (F.MSG_POOL_CFG_SIZE n)

/-- The state of a buffer: 0 free, 1 in delivery, 2 delivered. -/
def State.bufState (s : State) (n i : Nat) : Nat := ((s.msg.bufs.find? (fun b => b.1 == (n, i))).map (·.2)).getD 0

/-- `s` with a buffer's state set. -/
def State.setBuf (s : State) (n i v : Nat) : State :=
  let rest := s.msg.bufs.filter (fun b => b.1 != (n, i))
  { s with msg := { s.msg with bufs := if v = 0 then rest else rest ++ [((n, i), v)] } }

/-- Buffers of pool `n` in use. -/
def State.bufsUsed (s : State) (n : Nat) : Nat := (s.msg.bufs.filter (fun b => b.1.1 == n)).length

/-- The lowest-numbered free buffer of pool `n`: among the first `used + 1` one is free. -/
def State.freeBuf (s : State) (n : Nat) : Option Nat :=
  (List.range (min (s.get (F.MSG_POOL_CFG_COUNT n)) (s.bufsUsed n + 1))).find? (fun i => s.bufState n i == 0)

/-- A buffer for a message that names pool `n`, along the fallback chain; `fuel` bounds the pools visited. -/
def State.allocate (s : State) : Nat → Nat → Option (Nat × Nat)
  | 0, _ => none
  | fuel + 1, n =>
    if !s.flag (F.MSG_POOL_CFG_EN n) then none
    else match s.freeBuf n with
      | some i => some (n, i)
      | none => if s.flag (F.MSG_POOL_CFG_FALLBACK_EN n) then s.allocate fuel (s.get (F.MSG_POOL_CFG_FALLBACK n)) else none

/-- MSG_STAT.CFG_REJ set for a rejected write (R95). -/
def State.cfgRejected (s : State) : State := (s.putFlag F.MSG_STAT_CFG_REJ true).rejected 11 0

/-- A pool's configuration as a write would leave it is not allowed: SIZE, the ring's size, or a fallback link to buffers
that are no larger, of this pool or of another. An RSIZE outside 6 to 24 is taken as written: the spec gives the range, and
rejects for COUNT only (DESIGN CHOICE, notes/assumptions/79). -/
def State.poolBad (s : State) (n : Nat) : Bool :=
  decide (8 < s.get (F.MSG_POOL_CFG_SIZE n)) ||
  decide (2 ^ s.get (F.MSG_POOL_RING_RSIZE n) < s.get (F.MSG_POOL_CFG_COUNT n)) ||
  (List.range 64).any (fun k => (k == n || s.get (F.MSG_POOL_CFG_FALLBACK k) == n) && s.flag (F.MSG_POOL_CFG_FALLBACK_EN k) &&
    decide (s.bufSize (s.get (F.MSG_POOL_CFG_FALLBACK k)) ≤ s.bufSize k))

/-- The write rule of MSG_POOL_CFG. -/
def hookMsgPoolCfg (n : Nat) (s : State) (w : RegWrite) : State :=
  let s1 := s.takeWrite w
  if s1.poolBad n then s.cfgRejected else s1

/-- The write rule of MSG_POOL_RING: the ring's laps begin anew (R97). -/
def hookMsgPoolRing (n : Nat) (s : State) (w : RegWrite) : State :=
  let s1 := s.takeWrite w
  if s1.poolBad n then s.cfgRejected
  else { s1 with msg := { s1.msg with rings := s1.msg.rings.filter (fun r => r.1 != n) } }

/-- The write rule of MSG_POOL_FREE (R98). -/
def hookMsgPoolFree (s : State) (w : RegWrite) : State :=
  let n := w.actF F.MSG_POOL_FREE_POOL
  let i := w.actF F.MSG_POOL_FREE_INDEX
  if s.bufState n i = 2 then s.setBuf n i 0
  else (s.count F.MSG_STAT_DOUBLE_FREE 1).fault 1 0x0022 11 0 { detail0 := n + i * 256 }

/-! ### Reception (R96, R97) -/

/-- The fields of MSG_FRAG (Table 4-3). -/
def msgId (f : Frame) : Nat := bitsOf f.addr 63 48
def msgFrag (f : Frame) : Nat := bitsOf f.addr 47 32
def msgBytes (f : Frame) : Nat := bitsOf f.addr 31 16 + 1
def msgPool (f : Frame) : Nat := bitsOf f.addr 5 0

/-- The message being received that a fragment belongs to. -/
def State.recv (s : State) (f : Frame) : Option MsgRecv :=
  s.msg.recvs.find? (fun r => r.src == f.src && r.vc == f.vc && r.id == msgId f)

/-- `s` with a message no longer being received. -/
def State.dropRecv (s : State) (r : MsgRecv) : State :=
  { s with msg := { s.msg with recvs := s.msg.recvs.filter (fun x => !(x.src == r.src && x.vc == r.vc && x.id == r.id)) } }

/-- `s` with a message's state set. -/
def State.setRecv (s : State) (r : MsgRecv) : State :=
  let s1 := s.dropRecv r
  { s1 with msg := { s1.msg with recvs := s1.msg.recvs ++ [r] } }

/-- The fragment is its message's last. -/
def lastFrag (f : Frame) : Bool := msgFrag f == (msgBytes f - 1) / 256

/-- Fragment 0 taken: a buffer in delivery, or the status that answers every fragment of the message. -/
def State.openMessage (s : State) (f : Frame) : MsgRecv × State :=
  let n := msgPool f
  let r : MsgRecv :=
    { src := f.src, vc := f.vc, id := msgId f, pool := n, buf := 0, reqPool := n, bytes := msgBytes f, firstAt := s.clk }
  if !s.flag (F.MSG_POOL_CFG_EN n) || decide (s.bufSize n < msgBytes f) then ({ r with refused := some 0x23 }, s)
  else match s.allocate 10 n with
    | some (p, i) => ({ r with pool := p, buf := i }, s.setBuf p i 1)
    | none => ({ r with refused := some 0x11 }, s.count F.MSG_STAT_REFUSED_EMPTY 1)

/-- A fragment carries poisoned data: its status at the target is Poisoned (R99). -/
def Frame.carriesPoison (f : Frame) : Bool := f.poison || f.gran.any (·.poison)

/-- A request taken at the message end-point: a fragment waits to be written, or is answered at once. A fragment of a
message that is not being received, abandoned perhaps, is answered PermissionDenied. One whose outcome needs a log entry is
not taken where none is free (R87). Fragment 0 that was taken before, and is no longer (State.refuseTaken), keeps its buffer. -/
def State.acceptMsg (s : State) (f : Frame) : Option State :=
  let queued := fun (s : State) =>
    let s1 := s.noteTaken 19 f
    let e := s1.ep 19
    some (s1.setEp 19 { e with service := e.service ++ [f] })
  let closed := fun (s : State) (r : MsgRecv) => if lastFrag f then s.dropRecv r else s
  if f.opcode ≠ opMsg then s.takeFailed 19 f 0x23
  else if f.carriesPoison && !s.logRoom 19 then none
  else if msgFrag f = 0 && !((s.recv f).map (fun r => r.refused.isNone && r.got.isEmpty)).getD false then
    let (r, s1) := s.openMessage f
    match r.refused with
    | none => queued (s1.setRecv r)
    | some st => (closed (s1.setRecv r) r).takeFailed 19 f st
  else match s.recv f with
    | none => s.takeFailed 19 f 0x23
    | some r => match r.refused with
      | none => queued s
      | some st => (s.takeFailed 19 f st).map (fun s => closed s r)

/-- The receive record (Table 4-8). -/
def MsgRecv.record (r : MsgRecv) (phase now : Nat) : List Byte :=
  toBytesLE 1 (if r.poison then 0x30 else 1) ++ toBytesLE 1 phase ++ toBytesLE 1 r.pool ++ toBytesLE 1 r.reqPool ++
  toBytesLE 4 r.src ++ toBytesLE 4 r.bytes ++ toBytesLE 4 r.buf ++ toBytesLE 8 now ++ toBytesLE 2 r.id ++ List.replicate 6 0

/-- `s` with a message's receive record written and its buffer delivered. -/
def State.deliver (s : State) (r : MsgRecv) : State :=
  let n := r.pool
  let k := ((s.msg.rings.find? (fun x => x.1 == n)).map (·.2)).getD 0
  let size := 2 ^ s.get (F.MSG_POOL_RING_RSIZE n)
  let off := s.get (F.MSG_POOL_RING_RING n) * 4096 + 32 * (k % size)
  let b := r.record ((k / size + 1) % 2) s.now
  let s1 := if off + 32 ≤ hbmSize then s.hbmStore off b false else s
  ({ s1 with msg := { s1.msg with rings := s1.msg.rings.filter (fun (x : Nat × Nat) => x.1 != n) ++ [(n, k + 1)] } }.setBuf n r.buf 2).dropRecv r

/-- Every fragment of the message has been written to its buffer. -/
def MsgRecv.whole (r : MsgRecv) : Bool := (List.range ((r.bytes - 1) / 256 + 1)).all (fun i => r.got.contains i)

/-- `s` with a message given up: its buffer freed, no record written, and counted (R97). A refused message holds no buffer and
is not counted. -/
def State.abandon (s : State) (r : MsgRecv) : State :=
  match r.refused with
  | some _ => s.dropRecv r
  | none => ((s.setBuf r.pool r.buf 0).dropRecv r).count F.MSG_STAT_ABANDONED 1

/-- `s` with the oldest fragment taken by the message end-point written to its buffer and answered; after the last one the
receive record is written first. Where a fragment before the last never came, its hole having been skipped (R112), no record
may say that the message is in the buffer (R120): the message is given up, and the last fragment answered as one of a message
that is not being received (DESIGN CHOICE, notes/assumptions/69). -/
def State.serveMsg (s : State) : State :=
  let e := s.ep 19
  match e.service with
  | [] => s
  | f :: rest =>
    if !s.memSlot then s
    else
      let s1 := s.setEp 19 { e with service := rest }
      match s1.recv f with
      | none => s1.answer 19 f 0x23 id
      | some r =>
        let bad := f.carriesPoison
        if bad && ((s1.ep 19).logged f).isNone && !s1.logRoom 19 then s1.refuseTaken 19 f
        else
        let n := min 256 (r.bytes - 256 * msgFrag f)
        let off := s1.get (F.MSG_POOL_BASE_BASE r.pool) * 256 + s1.bufSize r.pool * r.buf + 256 * msgFrag f
        let s2 := (f.gran.zipIdx).foldl (fun s (g, i) =>
          let k := min 32 (n - 32 * i)
          if 32 * i < n ∧ off + 32 * i + k ≤ hbmSize then s.hbmStore (off + 32 * i) (g.data.take k) g.poison else s) s1
        let r1 := { r with poison := r.poison || bad, got := r.got ++ [msgFrag f] }
        if !lastFrag f then (s2.setRecv r1).answer 19 f (if bad then 0x30 else 1) id
        else if r1.whole then (s2.deliver r1).answer 19 f (if bad then 0x30 else 1) id
        else (s2.abandon r1).answer 19 f 0x23 id

/-- The last fragment of message `r` has arrived and waits to be taken or written. -/
def State.lastArrived (s : State) (r : MsgRecv) : Bool :=
  let e := s.ep 19
  (e.service ++ e.arrived ++ e.chans.flatMap (·.held)).any (fun f =>
    f.opcode == opMsg && f.src == r.src && f.vc == r.vc && msgId f == r.id && lastFrag f)

/-- MESSAGE_ABANDON: one age limit after fragment 0, the last fragment not having arrived (R97). -/
def State.doMessageAbandon (s : State) (src : BitVec 20) (id : BitVec 16) : State :=
  match s.msg.recvs.find? (fun r => r.src == src.toNat && r.id == id.toNat && decide (r.firstAt + s.ageLimit ≤ s.clk)
      && !s.lastArrived r) with
  | none => s
  | some r => s.abandon r

/-- `s` with messages from an absent member given up like abandoned ones, and their fragments not written (R90). -/
def State.absentMessages (s : State) (m : Nat) : State :=
  (s.msg.recvs.filter (fun r => epDomain r.src == s.domain && epMember r.src == m)).foldl State.abandon s

/-! ### Sends (R97, R120, R321) -/

/-- N of send queue `q`'s ring. -/
def State.msgN (s : State) (q : Nat) : Nat := ringSize (s.get (F.MSG_Q_RING_LOG2N q))

/-- The HBM offset of send descriptor `i`. -/
def State.sendAt (s : State) (q i : Nat) : Nat := s.get (F.MSG_Q_RING_BASE q) * 4096 + 32 * (i % s.msgN q)

/-- The write rule of MSG_Q_IDX, and a doorbell's effect (R131, R321). A TAIL that puts more entries in the ring than it holds
is a host error, and what TAIL then holds a free value (notes/assumptions/67). -/
def State.advanceMsg (s : State) (q tail : Nat) : State :=
  if tailOver (s.msgN q) (s.get (F.MSG_Q_IDX_HEAD q)) tail then
    s.freeNext.put (F.MSG_Q_IDX_TAIL q) (s.free 17 % (2 * s.msgN q))
  else s.put (F.MSG_Q_IDX_TAIL q) (tail % (2 * s.msgN q))

/-- The write rule of MSG_Q_IDX. -/
def hookMsgQIdx (q : Nat) (s : State) (w : RegWrite) : State := s.advanceMsg q (w.newF (F.MSG_Q_IDX_TAIL q))

/-- `s` with the STATUS byte of a send descriptor to be written once HBM has a slot for it (R16). -/
def State.sendStatus (s : State) (q ix st : Nat) : State :=
  let off := s.sendAt q ix + 6
  if off < hbmSize then { s with msg := { s.msg with statusDue := s.msg.statusDue ++ [(off, st)] } } else s

/-- `s` with the STATUS bytes written that wait for a slot, where HBM has one. -/
def State.writeStatus (s : State) : State :=
  if s.memSlot then
    s.msg.statusDue.foldl (fun s x => s.hbmStore x.1 (toBytesLE 1 x.2) false) { s with msg := { s.msg with statusDue := [] } }
  else s

/-- BYTES of a send descriptor is a length that Table 4-7 allows. Its reserved bits are read by nothing (R7;
notes/assumptions/67). -/
def sendFormed (d : List Byte) : Bool := decide (1 ≤ bytesAt d 8 4 ∧ bytesAt d 8 4 ≤ 65536)

/-- The message's data as granules of fragment bytes, read from HBM or plate store granule by granule. -/
def State.readMessage (s : State) (a n : Nat) : List (List Byte × Bool) × State :=
  let off := addrOffset a
  let g0 := off / 32
  let (gs, s1) := (List.range ((off + n + 31) / 32 - g0)).foldl (fun (acc : List Granule × State) i =>
    if addrKind a = 0 then
      let (d, p, t) := (acc.2.activate (32 * (g0 + i))).memLoad (g0 + i)
      (acc.1 ++ [{ data := d, poison := p }], t)
    else
      (acc.1 ++ [acc.2.plateGranule (g0 + i)], acc.2)) ([], s)
  let bytes := gs.flatMap (fun g => g.data.map (fun b => (b, g.poison)))
  ((chunks 32 ((bytes.drop (off % 32)).take n)).map (fun c => (c.map (·.1), c.any (·.2))), s1)

/-- The final status codes of Table 4-9. -/
def statusCodes : List Nat :=
  [0x01, 0x02, 0x03, 0x10, 0x11, 0x12, 0x13, 0x14, 0x20, 0x21, 0x22, 0x23, 0x30, 0x31, 0x32, 0x33, 0x34, 0x40, 0x41, 0x42]

/-- A status code that the spec does not state: some code of Table 4-9 (R99), by the free value `v`. -/
def openStatus (v : Nat) : Nat := statusCodes.getD (v % 20) 0x01

/-- MSG_SEND_FETCH: the next descriptor of send queue `q`, a queue of the message end-point, once every earlier request of the
queue has ended and no supply warning holds sends (R454). A BYTES outside 1 to 65,536 sends nothing, and which of the codes of
Table 4-9 is the STATUS written is a free value (notes/assumptions/67). -/
def State.doMsgSendFetch (s : State) (q : Fin 512) : State :=
  let q := q.val
  let n := s.msgN q
  let head := s.get (F.MSG_Q_IDX_HEAD q)
  let busy := s.rep.trackers.any (fun t => t.queue == q) || s.rep.waiting.any (fun w => w.queue == q)
  if s.owner q ≠ some 19 ∨ s.flag (F.MSG_Q_CFG_EN q) = false ∨ ringUsed n head (s.get (F.MSG_Q_IDX_TAIL q)) = 0 ∨ busy = true
      ∨ s.slotFor (s.sendAt q head) 32 = false ∨ s.flag F.PWR_STAT_WARN = true then s
  else
    let (d, bad, s1) := s.hbmFetch (s.sendAt q head) 32
    let s2 := s1.put (F.MSG_Q_IDX_HEAD q) ((head + 1) % (2 * n))
    let a := bytesAt d 16 8
    let len := bytesAt d 8 4
    let dst := bytesAt d 0 4 % 2 ^ 20
    if bad then s2.sendStatus q head 0x30
    else if !sendFormed d then s2.freeNext.sendStatus q head (openStatus (s2.free 8))
    else if addrMember a ≠ s.member ∨ 1 < addrKind a ∨ offsetExists (addrKind a) (addrOffset a) len = false then
      s2.sendStatus q head 0x23
    else
      let id := ((s2.msg.nextId.find? (fun x => x.1 == dst)).map (·.2)).getD 0
      let (data, s3) := s2.readMessage a len
      let frs := chunks 8 data
      let s4 := { s3 with msg := { s3.msg with
        nextId := s3.msg.nextId.filter (fun x => x.1 != dst) ++ [(dst, (id + 1) % 65536)],
        sends := s3.msg.sends ++ [{ queue := q, ix := head, status := List.replicate frs.length 0 }] } }
      (frs.zipIdx).foldl (fun s (fr, i) =>
        let gran := fr.map (fun x => ({ data := sliceD 0 x.1 0 32, poison := x.2 } : Granule))
        let f : Frame :=
          { opcode := opMsg, vc := requestVc opMsg (epDomain dst != s.domain) (bitAt (bytesAt d 5 1) 0), edition := s.edition,
            slice := s.slice, src := s.ownEp 19, dst := dst,
            addr := id * 2 ^ 48 + i * 2 ^ 32 + (len - 1) * 2 ^ 16 + bytesAt d 4 1 % 64,
            bytes := min 256 (len - 256 * i), poison := gran.any (·.poison), gran := gran }
        s.issueOne 19 q f (.message q head i)) s4

/-- `s` told how a fragment ended; when all have, the descriptor's STATUS is the first that did not succeed, or Completed. -/
def State.messageDone (s : State) (q ix i : Nat) (d : Done) : State :=
  match s.msg.sends.find? (fun x => x.queue == q && x.ix == ix) with
  | none => s
  | some m =>
    let m1 := { m with status := listSet m.status i d.status }
    let rest := s.msg.sends.filter (fun x => !(x.queue == q && x.ix == ix))
    if m1.status.any (· == 0) then { s with msg := { s.msg with sends := rest ++ [m1] } }
    else
      { s with msg := { s.msg with sends := rest } }.sendStatus q ix ((m1.status.find? (fun st => !isSuccess st)).getD 1)

/-- MSG_POOL_AVAIL of pool `n` as read (Table 4-24). -/
def State.poolFree (s : State) (n : Nat) : Nat := s.get (F.MSG_POOL_CFG_COUNT n) - s.bufsUsed n

end Sys2Proof.Machine
end

