-- ==== Sys2Proof/Machine/PlateFmt.lean ====
section
/-!
DEFINITION. Plate descriptors and operand layouts (spec/06_plate_array.md R137, spec/07_arithmetic.md R150, R151,
spec/08_plate_operations.md R174, R175): the descriptor's fields, elements in granules, and elements packed into granules.
-/
namespace Sys2Proof.Machine

/-! ### The descriptor (Tables 6-1, 6-2) -/

/-- Plate operations (Table 6-4). -/
def plReduce : Nat := 0x01
def plScan : Nat := 0x02
def plGather : Nat := 0x03
def plScatter : Nat := 0x04
def plSpmm : Nat := 0x05
def plFrontier : Nat := 0x06
def plIntersect : Nat := 0x07
def plUnion : Nat := 0x08
def plDiff : Nat := 0x09
def plSort : Nat := 0x0A
def plBuild : Nat := 0x0B
def plProbe : Nat := 0x0C
def plHist : Nat := 0x0D
def plGemm : Nat := 0x0E
def plGGemm : Nat := 0x0F
def plConvert : Nat := 0x10
def plCopy : Nat := 0x11

/-- Header fields of a descriptor. -/
def dOp (d : List Byte) : Nat := bytesAt d 0 1
def dLink (d : List Byte) : Bool := bitAt (bytesAt d 1 1) 0
def dNotify (d : List Byte) : Bool := bitAt (bytesAt d 1 1) 1
def dMode (d : List Byte) : Nat := bytesAt d 2 1 % 8
def dSat (d : List Byte) : Bool := bitAt (bytesAt d 2 1) 3
def dExact (d : List Byte) : Bool := bitAt (bytesAt d 2 1) 4
def dId (d : List Byte) : Nat := bytesAt d 4 2
def dSeed (d : List Byte) : Nat := bytesAt d 8 8
def dEvid (d : List Byte) : Nat := bytesAt d 16 8

/-- An operand slot. -/
structure PSlot where
  addr : Nat
  extent : Nat
  fmt : Nat
  role : Nat
  bset : Bool
  deriving DecidableEq, Repr

/-- Slot `k` of a descriptor. -/
def dSlot (d : List Byte) (k : Nat) : PSlot :=
  let o := 24 + 16 * k
  { addr := bytesAt d o 8, extent := bytesAt d (o + 8) 4, fmt := bytesAt d (o + 12) 1, role := bytesAt d (o + 13) 1 % 16,
    bset := bitAt (bytesAt d (o + 13) 1) 4 }

/-- The five slots. -/
def dSlots (d : List Byte) : List PSlot := (List.range 5).map (dSlot d)

/-- Role kinds (Table 6-3). -/
def PSlot.used (p : PSlot) : Bool := p.role != 0
def PSlot.isIn (p : PSlot) : Bool := p.role == 1 || p.role == 5
def PSlot.isChain (p : PSlot) : Bool := p.role == 4 || p.role == 5
def PSlot.writes (p : PSlot) : Bool := p.role == 2 || p.role == 3 || p.role == 4
def PSlot.reads (p : PSlot) : Bool := p.role == 1 || p.role == 3 || p.role == 5
/-- The slot names memory: neither unused nor a chain buffer. -/
def PSlot.memory (p : PSlot) : Bool := p.used && !p.isChain

/-- Slot `k`'s format, FP32 where the code is reserved (such a descriptor is refused). -/
def dFmt (d : List Byte) (k : Nat) : Fmt := (Fmt.ofCode (dSlot d k).fmt).getD (.float .fp32)

/-- How output element `idx` is rounded (R155, R158). -/
def dRnd (d : List Byte) (idx : Nat) : Rnd :=
  { mode := (Mode.ofCode (dMode d)).getD .rne, sat := dSat d, sr := srBits (dSeed d) idx }

/-! ### Granules (R150, R151, R174) -/

/-- Bytes of a scalar element; 0 for the other formats. -/
def Fmt.bytes : Fmt → Nat
  | .float k => k.bits / 8
  | .int _ b => b
  | .raw => 1
  | .mx _ | .xa320 | .xa640 | .bitmap | .htable => 0

/-- Granules that `n` elements occupy: g(n, f). -/
def gran (n : Nat) (f : Fmt) : Nat :=
  match f with
  | .mx k =>
    let nb := ceilDiv n 32
    let r := nb % 32
    nb / 32 * (4 * k.bits + 1) + (if r = 0 then 0 else ceilDiv (4 * k.bits * r) 32 + 1)
  | .xa320 => 2 * n
  | .xa640 => 4 * n
  | .bitmap => ceilDiv n 256
  | .htable => 2 * n
  | .float _ | .int _ _ | .raw => ceilDiv (n * f.bytes) 32

/-- Granules before element `j` of a vector, `j` a multiple of 1,024. -/
def granAt (j : Nat) (f : Fmt) : Nat := gran j f

/-- A byte of a granule sequence. -/
def granByte (rd : Nat → Granule) (i : Nat) : Nat := bytesAt (rd (i / 32)).data (i % 32) 1

/-- Element `j` of a vector or row of `c` elements whose granule `i` is `rd i`. -/
def elemAt (f : Fmt) (c : Nat) (rd : Nat → Granule) (j : Nat) : Elem :=
  match f with
  | .mx k =>
    let w := k.bits
    let t := j / 1024
    let tb := t * (4 * w + 1)
    let r := min 32 (ceilDiv c 32 - 32 * t)
    let sg := tb + ceilDiv (4 * w * r) 32
    let bb := j % 1024 / 32
    let bit := 32 * w * bb + w * (j % 32)
    let b0 := 32 * tb + bit / 8
    let b1 := 32 * tb + (bit + w - 1) / 8
    { bits := (granByte rd b0 + 256 * granByte rd (b0 + 1)) / 2 ^ (bit % 8) % 2 ^ w, scale := granByte rd (32 * sg + bb),
      poison := (rd (b0 / 32)).poison || (rd (b1 / 32)).poison || (rd sg).poison }
  | .xa320 =>
    { bits := ofBytesLE (((rd (2 * j)).data ++ (rd (2 * j + 1)).data).take 40),
      poison := (rd (2 * j)).poison || (rd (2 * j + 1)).poison }
  | .xa640 =>
    { bits := ofBytesLE (((rd (4 * j)).data ++ (rd (4 * j + 1)).data ++ (rd (4 * j + 2)).data).take 80),
      poison := (rd (4 * j)).poison || (rd (4 * j + 1)).poison || (rd (4 * j + 2)).poison }
  | .bitmap =>
    let g := rd (j / 256)
    { bits := bytesAt g.data (j % 256 / 8) 1 / 2 ^ (j % 8) % 2, poison := g.poison }
  | .htable => {}
  | .float _ | .int _ _ | .raw =>
    let g := rd (j * f.bytes / 32)
    { bits := bytesAt g.data (j * f.bytes % 32) f.bytes, poison := g.poison }

/-- Elements `[j, j + n)`. -/
def elemsAt (f : Fmt) (c : Nat) (rd : Nat → Granule) (j n : Nat) : List Elem := (List.range n).map (fun i => elemAt f c rd (j + i))

/-- The granules of a row that elements `[j, j + n)` of it lie in, whole tiles for MX: first and count. -/
def granSpan (f : Fmt) (c j n : Nat) : Nat × Nat :=
  if n = 0 then (0, 0)
  else match f with
    | .mx k =>
      let t0 := j / 1024
      let t1 := (j + n - 1) / 1024
      let a := t0 * (4 * k.bits + 1)
      (a, min (gran c f) ((t1 + 1) * (4 * k.bits + 1)) - a)
    | .xa320 => (2 * j, 2 * n)
    | .xa640 => (4 * j, 4 * n)
    | .bitmap => (j / 256, (j + n - 1) / 256 + 1 - j / 256)
    | .htable => (2 * j, 2 * n)
    | .float _ | .int _ _ | .raw =>
      let a := j * f.bytes / 32
      (a, ((j + n) * f.bytes - 1) / 32 + 1 - a)

/-! ### Packing -/

/-- Granules of bytes, each poisoned where one of its bytes is. -/
def packBytes (bs : List (Byte × Bool)) : List Granule :=
  (chunks 32 bs).map (fun c => { data := sliceD 0 (c.map (·.1)) 0 32, poison := c.any (·.2) })

/-- A number's bytes, all of them with one poison. -/
def poisonBytes (n v : Nat) (p : Bool) : List (Byte × Bool) := (toBytesLE n v).map (fun b => (b, p))

/-- Bits of width `w`, lowest first, packed to a number. -/
def packBits (w : Nat) (l : List Nat) : Nat := l.foldr (fun x acc => x % 2 ^ w + 2 ^ w * acc) 0

/-- One tile of at most 32 blocks: element data in block order, then the scales (R150). A block with a poisoned element
is poisoned whole, and so is the tile's scale granule. -/
def packTile (k : MxKind) (blocks : List (Nat × List Nat × Bool)) : List Granule :=
  let data := blocks.flatMap (fun (_, codes, p) => poisonBytes (4 * k.bits) (packBits k.bits codes) p)
  packBytes data ++
    [{ data := sliceD 0 (blocks.map (fun b => BitVec.ofNat 8 b.1)) 0 32, poison := blocks.any (·.2.2) }]

/-- A vector or row of output values packed in format `f`; `rnd i` rounds element `i` (R160, R162, R174). -/
def packVals (f : Fmt) (rnd : Nat → Rnd) (vs : List OutVal) : List Granule :=
  match f with
  | .mx k =>
    let blocks := ((chunks 32 vs).zipIdx).map (fun (b, i) =>
      let (sc, codes) := mxBlock k (fun e => rnd (32 * i + e)) (b.map (fun v => if v.poison then .fin false 0 0 else v.num))
      (sc, codes, b.any (·.poison)))
    (chunks 32 blocks).flatMap (packTile k)
  | .xa320 => packBytes (vs.flatMap (fun v => poisonBytes 64 (v.bits % 2 ^ 320) v.poison))
  | .xa640 => packBytes (vs.flatMap (fun v => poisonBytes 128 (v.bits % 2 ^ 640) v.poison))
  | .bitmap =>
    packBytes ((chunks 8 vs).flatMap (fun c => poisonBytes 1 (packBits 1 (c.map (·.bits))) (c.any (·.poison))))
  | .htable => []
  | .float _ | .int _ _ | .raw => packBytes (vs.flatMap (fun v => poisonBytes f.bytes v.bits v.poison))

/-- A count granule (R175). -/
def countGranule (n : Nat) (p : Bool) : Granule := { data := toBytesLE 32 (n % 2 ^ 64), poison := p }

end Sys2Proof.Machine
end

