-- ==== Sys2Proof/Machine/PlatePlan.lean ====
section
/-!
DEFINITION. The static plan of a plate operation (spec/06_plate_array.md R128, R129, R136, R138, R140,
spec/08_plate_operations.md R172-R203): which descriptors are refused, the strokes and their shares, the cycle count of
every stroke, and the carry size. Everything here is a function of the descriptor and of the device's own member number.
-/
namespace Sys2Proof.Machine

/-! ### Parameters (bytes 104 to 127) -/

/-- Parameter bytes `[o, o + n)`. -/
def dP (d : List Byte) (o n : Nat) : Nat := bytesAt d o n

/-- FUNC (Table 8-5), where the operation has one. -/
def dFunc (d : List Byte) : Nat :=
  let op := dOp d
  if op = plReduce then dP d 108 1 else if op = plScan then dP d 112 1 else dP d 120 1

/-- Bytes that a format of unsigned keys, indices or pointers has. -/
def isU32 (f : Fmt) : Bool := f == .int false 4
def isU64 (f : Fmt) : Bool := f == .int false 8
def isIndex (f : Fmt) : Bool := isU32 f || isU64 f

/-- The operation computes an ordered or exact sum. -/
def dSums (d : List Byte) : Bool :=
  let op := dOp d
  if op = plSpmm ∨ op = plGemm ∨ op = plGGemm then true
  else if op = plReduce ∨ op = plScan ∨ op = plGather ∨ op = plScatter then dFunc d == 0
  else false

/-- GEMM-like parameters: M, N, K, P and TRANS. -/
def gmM (d : List Byte) : Nat := dP d 104 4
def gmN (d : List Byte) : Nat := dP d 108 4
def gmK (d : List Byte) : Nat := dP d 112 4
def gmP (d : List Byte) : Nat := if dOp d = plGGemm then dP d 116 1 else 1
def gmTrans (d : List Byte) : Nat := if dOp d = plGGemm then dP d 117 1 else dP d 116 1
def gmTA (d : List Byte) : Bool := bitAt (gmTrans d) 0
def gmTB (d : List Byte) : Bool := bitAt (gmTrans d) 1
/-- Slot of C. -/
def gmSlotC (d : List Byte) : Nat := if dOp d = plGGemm then 3 else 2

/-- Granules of A, of one piece of B, and of C. -/
def gmGA (d : List Byte) : Nat :=
  let f := dFmt d 0
  if gmTA d then gmK d * gran (gmM d) f else gmM d * gran (gmK d) f
def gmGPiece (d : List Byte) : Nat :=
  let f := dFmt d 1
  let kp := gmK d / max 1 (gmP d)
  if gmTB d then gmN d * gran kp f else kp * gran (gmN d) f
def gmGC (d : List Byte) : Nat := gmM d * gran (gmN d) (dFmt d (gmSlotC d))

/-- Set sizes, and the worst-case length of the result (R191). -/
def setNA (d : List Byte) : Nat := dP d 104 8
def setNB (d : List Byte) : Nat := dP d 112 8
def setWorst (d : List Byte) : Nat :=
  if dOp d = plIntersect then min (setNA d) (setNB d) else if dOp d = plUnion then setNA d + setNB d else setNA d

/-- Rows of a table of `c`-element rows in slot `k`. -/
def slotRows (d : List Byte) (k c : Nat) : Nat := (dSlot d k).extent / max 1 (gran c (dFmt d k))

/-! ### Permitted descriptors (R138, R148, R155, R172, R173, R178, R478) -/

/-- What a slot may be (Table 8-1). -/
inductive SlotUse where
  | none | inp | inMem | optIn | out | outOrInout | inoutMem | ready
  deriving DecidableEq, Repr

/-- The roles that a slot use permits. -/
def SlotUse.allows (u : SlotUse) (role : Nat) : Bool :=
  match u with
  | .none => role == 0
  | .inp => role == 1 || role == 5
  | .inMem => role == 1
  | .optIn => role == 0 || role == 1 || role == 5
  | .out => role == 2 || role == 4
  | .outOrInout => role == 2 || role == 4 || role == 3
  | .inoutMem => role == 3
  | .ready => role == 6

/-- Table 8-1. -/
def slotUses (d : List Byte) : List SlotUse :=
  let op := dOp d
  if op = plReduce ∨ op = plScan ∨ op = plConvert ∨ op = plCopy then [.inp, .out, .none, .none, .none]
  else if op = plGather then [.inp, .inp, .inp, .out, .optIn]
  else if op = plScatter then [.inp, .inp, .inoutMem, .none, .none]
  else if op = plSpmm then [.inp, .inp, .inp, .inp, .outOrInout]
  else if op = plFrontier then [.inp, .inp, .inp, .inoutMem, .out]
  else if op = plSort then [.inp, .optIn, .out, if (dSlot d 1).used then .out else .none, .none]
  else if op = plHist then [.inp, .outOrInout, .none, .none, .none]
  else if op = plGemm then [.inp, .inp, .outOrInout, .none, .none]
  else if op = plGGemm then [.inp, .inMem, .ready, .outOrInout, .none]
  else [.inp, .inp, .out, .none, .none]

/-- OP is one of Table 6-4. -/
def opValid (op : Nat) : Bool := decide (1 ≤ op ∧ op ≤ 0x11)

/-- Bytes `[a, b]` of a descriptor are zero. -/
def zeroBytes (d : List Byte) (a b : Nat) : Bool := ((d.drop a).take (b + 1 - a)).all (· == 0)

/-- A slot's own fields are well formed: an unused slot names nothing; a used one has granules, a known format, and an
aligned address or a bare buffer number. -/
def PSlot.formed (p : PSlot) : Bool :=
  if p.role = 0 then p.addr == 0 && p.extent == 0 && !p.bset
  else decide (1 ≤ p.extent) && (Fmt.ofCode p.fmt).isSome &&
    (if p.isChain then decide (p.addr < 8) else p.addr % 32 == 0) && (!p.bset || p.role == 1)

/-- Limits of the parameters (R180-R202). -/
def limitsOk (d : List Byte) : Bool :=
  let op := dOp d
  let between := fun (a x b : Nat) => decide (a ≤ x ∧ x ≤ b)
  let two36 := 2 ^ 36
  if op = plReduce then between 2 (dP d 104 4) 65536 && between 0 (dFunc d) 5 && between 1 (dP d 112 8) two36
  else if op = plScan then between 1 (dP d 104 8) two36 && between 0 (dFunc d) 5 && between 0 (dP d 113 1) 1
  else if op = plGather then
    between 1 (dP d 104 4) 65536 && between 1 (dP d 108 4) (2 ^ 31) && between 0 (dP d 112 8) two36 &&
    between 0 (dFunc d) 2 && (!(dSlot d 4).used || dFunc d == 0)
  else if op = plScatter then between 1 (dP d 104 4) 65536 && between 1 (dP d 112 8) two36 && between 0 (dFunc d) 2
  else if op = plSpmm then
    between 1 (dP d 104 4) (2 ^ 31) && between 1 (dP d 108 4) (2 ^ 31) && between 1 (dP d 112 4) (2 ^ 31) && between 0 (dP d 120 1) 1
  else if op = plFrontier then between 1 (dP d 104 8) (2 ^ 32 - 1) && between 0 (dP d 112 8) two36
  else if op = plIntersect ∨ op = plUnion ∨ op = plDiff then between 0 (setNA d) two36 && between 0 (setNB d) two36
  else if op = plSort then
    let w := 8 * (dFmt d 0).bytes
    between 1 (dP d 104 8) two36 && between 1 (dP d 112 1) w && between 0 (dP d 113 1) 1 &&
    (isIndex (dFmt d 0) || dP d 112 1 == w)
  else if op = plBuild then between 4 (dP d 108 1) 22 && between 1 (dP d 109 1) 16
  else if op = plProbe then between 4 (dP d 108 1) 22 && between 1 (dP d 109 1) 16 && between 0 (dP d 110 1) 1
  else if op = plHist then between 0 (dP d 120 1) 63 && between 1 (dP d 124 4) (2 ^ 24)
  else if op = plGemm then
    between 1 (gmM d) (2 ^ 24) && between 1 (gmN d) (2 ^ 24) && between 1 (gmK d) (2 ^ 24)
  else if op = plGGemm then
    let p := gmP d
    let kp := gmK d / max 1 p
    between 1 (gmM d) (2 ^ 24) && between 1 (gmN d) (2 ^ 24) && between 1 (gmK d) (2 ^ 24) && between 2 p 64 && gmK d % p == 0
      && dP d 120 8 != 0 && decide (addrMember (dSlot d 1).addr + p - 1 ≤ 127)
      && (addrKind (dSlot d 1).addr == 0 || addrKind (dSlot d 1).addr == 1)
      && (dExact d || (p == 2 ^ Nat.log2 p && kp == 2 ^ Nat.log2 kp))
  else if op = plConvert then between 1 (dP d 104 8) two36
  else true

/-- Formats of the inputs that are summed or compared. -/
def inputFmts (d : List Byte) : List Fmt :=
  let op := dOp d
  if op = plGather then dFmt d 0 :: (if (dSlot d 4).used then [dFmt d 4] else [])
  else if op = plSpmm then [dFmt d 2, dFmt d 3]
  else if op = plGemm ∨ op = plGGemm then [dFmt d 0, dFmt d 1]
  else [dFmt d 0]

/-- The terms are products. -/
def dProducts (d : List Byte) : Bool :=
  let op := dOp d
  op == plSpmm || op == plGemm || op == plGGemm || (op == plGather && (dSlot d 4).used)

/-- The slot of the numeric output. -/
def outSlot (d : List Byte) : Nat :=
  let op := dOp d
  if op = plGather ∨ op = plGGemm then 3 else if op = plScatter ∨ op = plGemm then 2 else if op = plSpmm then 4 else 1

/-- The accumulation of a sum (R178). -/
def dAcc (d : List Byte) : AccKind := accKind (dExact d) (inputFmts d)

/-- A format whose every value is an XA-320 addend (R164, R178). -/
def xa320Addend (f : Fmt) : Bool := (f.isFloat && !f.isFp64) || f.isMx || f.isInt || f == .xa320

/-- The output format of a sum, minimum or maximum is permitted (Table 7-4, R178): FP64 goes to no XA or MX format; in
exact mode XA320 takes XA-320 addends only. -/
def outFmtOk (d : List Byte) : Bool :=
  let fo := dFmt d (outSlot d)
  let ins := inputFmts d
  fo.isNumeric && !(ins.any (·.isFp64) && (fo.isXa || fo.isMx)) &&
    !(dExact d && fo == .xa320 && (dProducts d || ins.any (fun f => !xa320Addend f)))

/-- The formats of the slots are permitted. An exact GATHER_REDUCE with weights takes no XA row: no product with an accumulator
is an addend of Table 7-8 (R165). -/
def fmtsOk (d : List Byte) : Bool :=
  let op := dOp d
  let f := dFmt d
  let fn := dFunc d
  let bit := decide (3 ≤ fn)
  let mulFmt := fun (x : Fmt) => (x.isFloat || x.isMx || x == .int true 1)
  let spFmt := fun (x : Fmt) => x.isFloat || x == .int true 1
  if op = plReduce ∨ op = plScan then
    if bit then f 0 == f 1 && (f 0).isMx == false && f 0 != .raw && f 0 != .htable
    else (f 0).isNumeric && outFmtOk d
  else if op = plGather then
    (f 0).isNumeric && isIndex (f 1) && isIndex (f 2) && outFmtOk d &&
      (!(dSlot d 4).used || (((f 4).isFloat || (f 4).isMx) && !(f 4).isFp64 && !(dExact d && (f 0).isXa)))
  else if op = plScatter then (f 0).isNumeric && isIndex (f 1) && outFmtOk d && !(f 2).isMx
  else if op = plSpmm then isIndex (f 0) && isU32 (f 1) && spFmt (f 2) && spFmt (f 3) && outFmtOk d
  else if op = plFrontier then
    isU64 (f 0) && isU32 (f 1) && f 2 == .bitmap && f 3 == .bitmap && f 4 == .bitmap
  else if op = plIntersect ∨ op = plUnion ∨ op = plDiff then isIndex (f 0) && f 0 == f 1 && f 0 == f 2
  else if op = plSort then
    let key := isIndex (f 0) || f 0 == .int true 4 || f 0 == .int true 8
    key && f 0 == f 2 && (!(dSlot d 1).used || (((f 1).isFloat || (f 1).isInt) && f 1 == f 3))
  else if op = plBuild then
    isIndex (f 0) && ((f 1).isFloat || (f 1).isInt) && ((f 1).bytes == 4 || (f 1).bytes == 8) && f 2 == .htable
  else if op = plProbe then isIndex (f 0) && f 1 == .htable && isU64 (f 2)
  else if op = plHist then (f 0).isInt && f 1 == .int true 8
  else if op = plGemm ∨ op = plGGemm then
    let fo := f (gmSlotC d)
    mulFmt (f 0) && mulFmt (f 1) && ((f 0).isFp64 == (f 1).isFp64) && outFmtOk d &&
      (!((f 0).isInt && (f 1).isInt) || fo == .int true 4 || fo == .int true 8 || (fo.isFloat && !fo.isFp64) || fo.isMx) &&
      (fo != .xa640 || dExact d) && (!(f 0).isMx || !gmTA d) && (!(f 1).isMx || gmTB d)
  else if op = plConvert then (f 0).isNumeric && (f 1).isNumeric && !((f 0).isFp64 && ((f 1).isXa || (f 1).isMx))
  else f 0 == f 1

/-- EXACT is offered and asks for no FP64 operand; RMODE is not reserved (R155, R178). -/
def arithOk (d : List Byte) : Bool :=
  (Mode.ofCode (dMode d)).isSome && (!dExact d || (dSums d &&
    (List.range 5).all (fun k => !(dSlot d k).used || !(dFmt d k).isFp64)))

/-! ### Granules the fields imply (R174) -/

/-- The granules that slot `k` must have at least. -/
def slotNeed (d : List Byte) (k : Nat) : Nat :=
  let op := dOp d
  let g := fun (n i : Nat) => gran n (dFmt d i)
  let at' := fun (l : List Nat) => l.getD k 0
  if op = plReduce then at' [dP d 104 4 * g (dP d 112 8) 0, g (dP d 112 8) 1]
  else if op = plScan ∨ op = plConvert then at' [g (dP d 104 8) 0, g (dP d 104 8) 1]
  else if op = plGather then
    let b := dP d 108 4
    let n := dP d 112 8
    at' [0, g (b + 1) 1, g n 2, b * g (dP d 104 4) 3, if (dSlot d 4).used then g n 4 else 0]
  else if op = plScatter then at' [dP d 112 8 * g (dP d 104 4) 0, g (dP d 112 8) 1, 0]
  else if op = plSpmm then
    let m := dP d 104 4
    let n := dP d 108 4
    let kk := dP d 112 4
    let nnz := dP d 116 4
    at' [g ((if dP d 120 1 = 0 then m else kk) + 1) 0, g nnz 1, g nnz 2, kk * g n 3, m * g n 4]
  else if op = plFrontier then
    let v := dP d 104 8
    at' [g (v + 1) 0, g (dP d 112 8) 1, g v 2, g v 3, 1 + g v 4]
  else if op = plIntersect ∨ op = plUnion ∨ op = plDiff then at' [g (setNA d) 0, g (setNB d) 1, 1 + g (setWorst d) 2]
  else if op = plSort then
    let n := dP d 104 8
    at' [g n 0, if (dSlot d 1).used then g n 1 else 0, g n 2, if (dSlot d 1).used then g n 3 else 0]
  else if op = plBuild then at' [g (dP d 104 4) 0, g (dP d 104 4) 1, 2 ^ (dP d 108 1 + 1)]
  else if op = plProbe then at' [g (dP d 104 4) 0, 2 ^ (dP d 108 1 + 1), g (dP d 104 4) 2]
  else if op = plHist then at' [g (dP d 104 8) 0, g (dP d 124 4 + 2) 1]
  else if op = plGemm then at' [gmGA d, gmGPiece d, gmGC d]
  else if op = plGGemm then at' [gmGA d, gmGPiece d, ceilDiv (gmP d) 4, gmGC d]
  else at' [(dSlot d 0).extent, (dSlot d 0).extent]

/-- Every used slot is large enough; HASH_BUILD's table has its exact size (R194). -/
def extentsOk (d : List Byte) : Bool :=
  (List.range 5).all (fun k => !(dSlot d k).used || decide (slotNeed d k ≤ (dSlot d k).extent)) &&
  (dOp d != plBuild || (dSlot d 2).extent == slotNeed d 2)

/-! ### Strokes (R179) -/

/-- Granules of plate store available to operations. -/
def plZ : Nat := 12451840

/-- The smallest stroke count from `s` on whose working set fits; none within `fuel`. -/
def leastStrokes (fits : Nat → Bool) : Nat → Nat → Option Nat
  | 0, _ => none
  | fuel + 1, s => if fits s then some s else leastStrokes fits fuel (s + 1)

/-- S, where the operation has one; 65,536 stands for more than 65,535 strokes. -/
def dStrokes (d : List Byte) : Nat :=
  let op := dOp d
  let g := fun (n i : Nat) => gran n (dFmt d i)
  let by' := fun (x : Nat) => max 1 (min 65536 (ceilDiv x plZ))
  if op = plReduce then by' (dP d 104 4 * g (dP d 112 8) 0 + g (dP d 112 8) 1)
  else if op = plScan ∨ op = plConvert then by' (g (dP d 104 8) 0 + g (dP d 104 8) 1)
  else if op = plGather then
    let n := dP d 112 8
    by' (slotNeed d 1 + slotNeed d 2 + slotNeed d 4 + n * g (dP d 104 4) 0 + slotNeed d 3)
  else if op = plScatter then by' (slotNeed d 0 + slotNeed d 1 + 2 * dP d 112 8 * g (dP d 104 4) 2)
  else if op = plSpmm then
    by' (slotNeed d 0 + slotNeed d 1 + slotNeed d 2 + dP d 116 4 * g (dP d 108 4) 3 + slotNeed d 4)
  else if op = plFrontier then max 1 (ceilDiv (dP d 104 8) (2 ^ 29))
  else if op = plIntersect ∨ op = plUnion ∨ op = plDiff then by' (slotNeed d 0 + slotNeed d 1 + slotNeed d 2)
  else if op = plBuild then
    max 1 (min 65536 (ceilDiv (slotNeed d 0 + slotNeed d 1) (plZ - slotNeed d 2)))
  else if op = plProbe then
    let t := slotNeed d 1
    (leastStrokes (fun s => decide (slotNeed d 0 * s ≤ (s * plZ - s * t - slotNeed d 2) * s)) 65535 1).getD 65536
  else if op = plHist then max 1 (min 65536 (ceilDiv (slotNeed d 0) (plZ - slotNeed d 1)))
  else if op = plGemm then
    (leastStrokes (fun s => decide (ceilDiv (gmGA d) s + gmGPiece d + ceilDiv (gmGC d) s ≤ plZ)) 65535 1).getD 65536
  else if op = plCopy then by' (2 * (dSlot d 0).extent)
  else 1

/-- Stroke `s`'s share of `x` elements in `n` strokes: first and count. -/
def share (x n s : Nat) : Nat × Nat :=
  let q := roundUp (ceilDiv x n) 1024
  let a := min x (q * s)
  (a, if s + 1 = n then x - a else min q (x - a))

/-- COPY's share (R203). -/
def copyShare (x n s : Nat) : Nat × Nat :=
  let q := ceilDiv x n
  let a := min x (q * s)
  (a, if s + 1 = n then x - a else min q (x - a))

/-- The dimension that the strokes share. -/
def dShared (d : List Byte) : Nat :=
  let op := dOp d
  if op = plReduce ∨ op = plGather ∨ op = plScatter then dP d 112 8
  else if op = plSpmm then dP d 116 4
  else if op = plIntersect ∨ op = plUnion ∨ op = plDiff then setNA d + setNB d
  else if op = plBuild ∨ op = plProbe ∨ op = plGemm ∨ op = plGGemm then dP d 104 4
  else dP d 104 8

/-- The share of stroke `s`. FRONTIER_EXPAND's strokes own 2^29 vertices each (R190). -/
def dShare (d : List Byte) (s : Nat) : Nat × Nat :=
  let op := dOp d
  if op = plCopy then copyShare (dSlot d 0).extent (dStrokes d) s
  else if op = plFrontier then (s * 2 ^ 29, min (2 ^ 29) (dP d 104 8 - s * 2 ^ 29))
  else share (dShared d) (dStrokes d) s

/-- Working sets that no stroke count makes fit (R188, R192, R198, R199). -/
def fitsOk (d : List Byte) : Bool :=
  let op := dOp d
  let accG := fun (n : Nat) => match dAcc d with
    | .exact => gran n .xa640
    | .ordered k => gran n (.float k)
    | .integer _ _ => gran n (.int true 8)
  if op = plSort then decide (2 * (slotNeed d 0 + slotNeed d 1) ≤ plZ)
  else if op = plSpmm then dP d 120 1 == 0 || decide (dP d 104 4 * accG (dP d 108 4) ≤ plZ / 2)
  else if op = plGemm then decide (gmGPiece d ≤ plZ / 2)
  else if op = plGGemm then
    decide (gmGA d + gmP d * gmGPiece d + gmGC d
      + (if dExact d then 0 else gmP d * gran (gmM d * gmN d) (.float .fp32)) ≤ plZ)
  else true

/-! ### Cycle counts (R179, Tables 8-3, 8-4) -/

/-- Where a slot's granules are booked: 0 nowhere (remote, PEER or READY), 1 local HBM, 2 the plate store. -/
def placeOf (member : Nat) (p : PSlot) : Nat :=
  if p.isChain then 2
  else if p.role = 6 ∨ p.role = 0 then 0
  else if addrMember p.addr = member then
    (if addrKind p.addr = 0 then 1 else if addrKind p.addr = 1 then 2 else 0)
  else 0

/-- rd and wr over granules of slots. -/
def streamCost (member : Nat) (d : List Byte) (l : List (Nat × Nat)) : Nat :=
  let sum := fun (w : Nat) => (l.filter (fun x => placeOf member (dSlot d x.1) == w)).foldl (fun n x => n + x.2) 0
  max (ceilDiv (sum 1) 600) (ceilDiv (sum 1 + sum 2) 960)

/-- gh or gp: `n` rows of `k` granules at data-dependent addresses of a slot. -/
def gatherCost (member : Nat) (d : List Byte) (slot n k : Nat) : Nat :=
  let p := placeOf member (dSlot d slot)
  if p = 1 then ceilDiv (n * k) 25 else if p = 2 then ceilDiv (n * k) 60 else 0

/-- Element rate r (Table 8-4). -/
def rateR (f : Fmt) : Nat :=
  if f.isXa then 2048 else if f.isFp64 || f == .int true 8 || f == .int false 8 then 16384 else 65536

/-- Ordered multiply-add rate m. -/
def rateM (f : Fmt) : Nat :=
  match f with
  | .float .fp64 => 16384
  | .float .fp32 => 65536
  | .float .fp16 | .float .bf16 => 262144
  | .float .e4m3 | .float .e5m2 => 524288
  | .mx .e4m3 | .mx .e5m2 | .mx .int8 => 524288
  | .mx .e3m2 | .mx .e2m3 | .mx .e2m1 | .float .e3m2 | .float .e2m3 | .float .e2m1 => 1048576
  | .int _ 1 => 524288
  | .int _ 4 => 65536
  | .int _ _ => 16384
  | .xa320 | .xa640 | .bitmap | .raw | .htable => 2048

/-- The least rate of the inputs. -/
def leastRate (rate : Fmt → Nat) (l : List Fmt) : Nat := (l.map rate).foldl min (2 ^ 20)

/-- Cell-step cycles of element work and of multiply-adds over `n` steps: exact where EXACT is in use. -/
def stepCost (d : List Byte) (n : Nat) : Nat :=
  if dAcc d = .exact ∧ dSums d = true then ceilDiv n 2048 else ceilDiv n (leastRate rateR (inputFmts d))
def macCost (d : List Byte) (n : Nat) : Nat :=
  let m := leastRate rateM (inputFmts d)
  if dAcc d = .exact then ceilDiv n (m / 2) else ceilDiv n m

/-- Stored granules of a BSET range of plaintext granules `[i, i + n)`: 129 per chunk touched (R367). -/
def chunkGranules (i n : Nat) : Nat := if n = 0 then 0 else 129 * ((i + n - 1) / 128 - i / 128 + 1)

/-- Granules booked for `n` granules of slot `k` from granule `i` of it; `base` is the slot's first plaintext granule. -/
def booked (d : List Byte) (base : Nat → Nat) (k i n : Nat) : Nat :=
  if (dSlot d k).bset then chunkGranules (base k + i) n else n

/-- Granules booked for a row of `n` granules at a data-dependent place of slot `k`. -/
def bookedRow (d : List Byte) (k n : Nat) : Nat :=
  if (dSlot d k).bset then (if n = 0 then 0 else 129 * ((n + 126) / 128 + 1)) else n

/-- RD_s, K_s and WR_s of a stroke (R179-R203). `base` gives the first plaintext granule of each BSET slot. A GATHER_GEMM's
pieces are READY-gated, and no cycle is booked for reading them (R140). -/
def dParts (member : Nat) (base : Nat → Nat) (d : List Byte) (s : Nat) : Nat × Nat × Nat :=
  let op := dOp d
  let (a, n) := dShare d s
  let last := s + 1 == dStrokes d
  let rd := fun (l : List (Nat × Nat × Nat)) => streamCost member d (l.map (fun x => (x.1, booked d base x.1 x.2.1 x.2.2)))
  let wr := fun (l : List (Nat × Nat)) => streamCost member d l
  let span := fun (k c : Nat) => (k, granSpan (dFmt d k) c a n)
  let whole := fun (k : Nat) => (k, (0, slotNeed d k))
  let rows := fun (k c m : Nat) => gatherCost member d k m (bookedRow d k (gran c (dFmt d k)))
  let g := fun (m k : Nat) => gran m (dFmt d k)
  if op = plReduce then
    let (nv, l) := (dP d 104 4, dP d 112 8)
    (rd ((List.range nv).map (fun v => let (x, y) := granSpan (dFmt d 0) l a n; (0, v * g l 0 + x, y))),
      stepCost d (nv * n), wr [(1, g n 1)])
  else if op = plScan then
    let k := if dSums d && dAcc d == .exact then ceilDiv n 2048
      else if dSums d && ((dFmt d 0).isFloat || (dFmt d 0).isMx) then ceilDiv (8 * n) (rateR (dFmt d 0)) else ceilDiv n (rateR (dFmt d 0))
    (rd [span 0 (dP d 104 8)], k, wr [(1, g n 1)])
  else if op = plGather then
    let dd := dP d 104 4
    (rd ([whole 1, span 2 (dP d 112 8)] ++ (if (dSlot d 4).used then [span 4 (dP d 112 8)] else [])) + rows 0 dd n,
      stepCost d (n * dd), wr [(3, min (dP d 108 4) (n + 1) * g dd 3)])
  else if op = plScatter then
    let dd := dP d 104 4
    (rd [(0, a * g dd 0, n * g dd 0), span 1 (dP d 112 8)] + rows 2 dd n, stepCost d (n * dd), rows 2 dd n)
  else if op = plSpmm then
    let (m, nn, kk, nnz) := (dP d 104 4, dP d 108 4, dP d 112 4, dP d 116 4)
    let csr := dP d 120 1 == 0
    let old := if (dSlot d 4).role != 3 then []
      else if csr then [(4, 0, min m (n + 1) * g nn 4)] else if last then [whole 4] else []
    (rd ([whole 0, span 1 nnz, span 2 nnz] ++ old) + (if csr then rows 3 nn n else rd [(3, 0, kk * g nn 3)]),
      macCost d (4 * n * nn),
      wr [(4, if csr then min m (n + 1) * g nn 4 else if last then m * g nn 4 else 0)])
  else if op = plFrontier then
    let v := dP d 104 8
    (rd [whole 0, whole 1, whole 2, (3, granSpan .bitmap v a n)], ceilDiv (dP d 112 8) 1024,
      wr [(3, g n 3), (4, g n 4 + (if s = 0 then 1 else 0))])
  else if op = plIntersect ∨ op = plUnion ∨ op = plDiff then
    let tot := max 1 (setNA d + setNB d)
    let part := fun (x : Nat) => (if last then x else x * (a + n) / tot) - x * a / tot
    (rd [(0, slotNeed d 0 * a / tot, part (slotNeed d 0)), (1, slotNeed d 1 * a / tot, part (slotNeed d 1))],
      ceilDiv n 1024, wr [(2, part (slotNeed d 2))])
  else if op = plSort then
    (rd [whole 0, whole 1], ceilDiv (dP d 112 1) 8 * ceilDiv (dP d 104 8) 512, wr [(2, slotNeed d 2), (3, slotNeed d 3)])
  else if op = plBuild then
    (rd [span 0 (dP d 104 4), span 1 (dP d 104 4)], ceilDiv (n * dP d 109 1) 256, wr [(2, if last then slotNeed d 2 else 0)])
  else if op = plProbe then
    (rd [span 0 (dP d 104 4), whole 1], ceilDiv (n * dP d 109 1) 256, wr [(2, g n 2)])
  else if op = plHist then
    (rd ([span 0 (dP d 104 8)] ++ (if s = 0 ∧ (dSlot d 1).role = 3 then [whole 1] else [])), ceilDiv n 2048,
      wr [(1, if last then slotNeed d 1 else 0)])
  else if op = plGemm ∨ op = plGGemm then
    let (nn, kk, c) := (gmN d, gmK d, gmSlotC d)
    let rowsA : Nat × Nat × Nat :=
      if gmTA d then
        let (x, y) := granSpan (dFmt d 0) (gmM d) a n
        (0, x, kk * y)
      else (0, a * g kk 0, n * g kk 0)
    let rc := n * g nn c
    (rd ([rowsA] ++ (if op = plGemm then [whole 1] else []) ++ (if (dSlot d c).role = 3 then [(c, a * g nn c, rc)] else [])),
      macCost d (n * nn * kk), wr [(c, rc)])
  else if op = plConvert then (rd [span 0 (dP d 104 8)], ceilDiv n 65536, wr [(1, g n 1)])
  else (rd [(0, a, n)], 0, wr [(1, n)])

/-- The fixed part F_s of a stroke (R179). -/
def strokeFixed : Nat := 256

/-- Cycles of a stroke before its write-out phase. -/
def dBefore (member : Nat) (base : Nat → Nat) (d : List Byte) (s : Nat) : Nat :=
  let (rd, k, _) := dParts member base d s
  strokeFixed + max rd k

/-- K_s: the cycles of a stroke's cell steps (R179). -/
def dCells (member : Nat) (base : Nat → Nat) (d : List Byte) (s : Nat) : Nat := (dParts member base d s).2.1

/-- Cycles of a stroke's write-out phase. -/
def dAfter (member : Nat) (base : Nat → Nat) (d : List Byte) (s : Nat) : Nat := (dParts member base d s).2.2

/-- C_s of a Fixed operation. -/
def dCycles (member : Nat) (base : Nat → Nat) (d : List Byte) (s : Nat) : Nat :=
  dBefore member base d s + dAfter member base d s

/-- Turns of stroke `s` of a Fixed operation. -/
def dStrokeTurns (member : Nat) (base : Nat → Nat) (d : List Byte) (s : Nat) : Nat :=
  16 * ceilDiv (dCycles member base d s) 128

/-! ### Carry (R136) -/

/-- Bytes of carried state beyond the 8 MiB at a stroke boundary inside the operation. R136 gives a GATHER_REDUCE row, or a row of CSR
SPMM, 128 bytes an element in exact mode and 296 in ordered mode: one in neither mode, an integer sum or a MIN or MAX, is taken at
296 (DESIGN CHOICE, notes/assumptions/79). -/
def dCarried (d : List Byte) : Nat :=
  let op := dOp d
  let exact := dAcc d == .exact
  if op = plGather then (if exact then 128 else 296) * dP d 104 4
  else if op = plSpmm then
    if dP d 120 1 = 0 then (if exact then 128 else 296) * dP d 108 4
    else 32 * (dP d 104 4 * match dAcc d with
      | .exact => gran (dP d 108 4) .xa640
      | .ordered k => gran (dP d 108 4) (.float k)
      | .integer _ _ => gran (dP d 108 4) (.int true 8))
  else if op = plBuild then 64 * 2 ^ dP d 108 1
  else if op = plHist then 32 * slotNeed d 1
  else 0

/-- Chain buffers that a member writes: buffer and granules. -/
def dChainOuts (d : List Byte) : List (Nat × Nat) :=
  ((dSlots d).filter (fun p => p.role == 4)).map (fun p => (p.addr % 8, p.extent))

/-- Each buffer's granules over members: a buffer written twice counts once, at the larger extent (R139). -/
def bufGranules (l : List (Nat × Nat)) : Nat :=
  (List.range 8).foldl (fun n b => n + ((l.filter (fun x => x.1 == b)).map (·.2)).foldl max 0) 0

/-- The carry size of a chain, or of an operation outside a chain, in bytes (R136). -/
def carrySize (chain : List (List Byte)) : Nat :=
  let many := decide (1 < chain.length)
  let at' := fun (i : Nat) =>
    let live := 32 * bufGranules ((chain.take (i + 1)).flatMap dChainOuts)
    match chain[i]? with
    | none => 0
    | some d =>
      let inside := if 1 < dStrokes d then 0x800000 + live + dCarried d else 0
      let after := if many && decide (i + 1 < chain.length) then 0x800000 + live else 0
      max inside after
  let b := (List.range chain.length).foldl (fun m i => max m (at' i)) 0
  roundUp b 0x200000

/-! ### Chains (R139) -/

/-- A CHAIN_IN of member `i` names a buffer that no earlier member wrote. -/
def chainInBad (chain : List (List Byte)) : Bool :=
  (chain.zipIdx).any (fun (d, i) => (dSlots d).any (fun p => p.role == 5 &&
    !((chain.take i).any (fun e => (dChainOuts e).any (fun x => x.1 == p.addr % 8)))))

/-- A chain (or a lone descriptor) is malformed. -/
def chainBad (chain : List (List Byte)) : Bool :=
  decide (8 < chain.length) || chainInBad chain || decide (8388608 < bufGranules (chain.flatMap dChainOuts))

/-! ### The rest of the checks of R138, R176 -/

/-- The byte ranges that a slot names: of GATHER_GEMM's slot 1, one per piece. -/
def slotRanges (d : List Byte) (k : Nat) : List (Nat × Nat) :=
  let p := dSlot d k
  if !p.memory then []
  else if dOp d = plGGemm ∧ k = 1 then (List.range (gmP d)).map (fun j => (p.addr + j * 2 ^ 57, 32 * p.extent))
  else [(p.addr, 32 * p.extent)]

/-- An OUT or INOUT slot overlaps another slot. -/
def overlaps (d : List Byte) : Bool :=
  (List.range 5).any (fun k => (dSlot d k).writes && (List.range 5).any (fun j => j != k &&
    (slotRanges d k).any (fun x => (slotRanges d j).any (fun y => decide (x.1 < y.1 + y.2) && decide (y.1 < x.1 + x.2)))))

/-- The kinds of address that each slot may have (R176); a plate-store operand stays out of the hot-line area (R17, R125). -/
def kindsOk (member : Nat) (d : List Byte) : Bool :=
  let op := dOp d
  let peerOp := op == plReduce || op == plScan || op == plGemm || op == plConvert || op == plCopy
  (List.range 5).all (fun k =>
    let p := dSlot d k
    !p.memory || (decide (addrKind p.addr ≤ 2) &&
      (addrKind p.addr != 2 || (peerOp && (p.role == 1 || p.role == 2))) &&
      (addrKind p.addr != 1 || plateRange (addrOffset p.addr) (32 * p.extent)) &&
      (p.role != 6 || (addrMember p.addr == member && decide (addrKind p.addr ≤ 1)))))

/-- SCATTER_COMBINE has a remote target (R185). -/
def scatterRemote (member : Nat) (d : List Byte) : Bool := dOp d == plScatter && addrMember (dSlot d 2).addr != member

/-- The fabric atomic of a remote SCATTER_COMBINE, where Table 8-7 allows it. -/
def scatterAtomic (d : List Byte) : Option Nat :=
  let (fv, ft, fn) := (dFmt d 0, dFmt d 2, dFunc d)
  if ft = .int true 8 ∧ dExact d = false ∧ (fv = .int true 1 ∨ fv = .int true 4 ∨ fv = .int true 8) then
    some (if fn = 0 then 0x10 else if fn = 1 then 0x11 else 0x12)
  else if ft = .int false 8 ∧ dExact d = false ∧ (fv = .int false 4 ∨ fv = .int false 8) ∧ fn ≠ 0 then
    some (if fn = 1 then 0x13 else 0x14)
  else if ft = .xa640 ∧ dExact d = true ∧ fn = 0 ∧ (fv = .float .fp32 ∨ fv = .float .bf16 ∨ fv = .float .fp16) then some 0x1A
  else none

/-- The right that slot `k` needs over its range, as the bit of REP_WIN_A (R138, R185). -/
def slotRight (member : Nat) (d : List Byte) (k : Nat) : Nat :=
  let p := dSlot d k
  if scatterRemote member d ∧ k = 2 then (if scatterAtomic d = some 0x1A then 4 else 3)
  else if p.role = 1 then 0 else 1

/-- The descriptor is permitted, apart from windows, chains, carry and bound sets. -/
def descOk (member : Nat) (d : List Byte) : Bool :=
  opValid (dOp d) && (dSlots d).all PSlot.formed &&
  (List.range 5).all (fun k => ((slotUses d).getD k .none).allows (dSlot d k).role) &&
  limitsOk d && fmtsOk d && arithOk d && extentsOk d && fitsOk d && decide (dStrokes d ≤ 65535) &&
  !overlaps d && kindsOk member d && (!scatterRemote member d || (scatterAtomic d).isSome) &&
  (dEvid d != 0 || !(dSlots d).any (·.bset))

/-- The operation is Fixed (R140). -/
def dFixed (member : Nat) (d : List Byte) : Bool :=
  dOp d != plGGemm && (List.range 5).all (fun k =>
    let p := dSlot d k
    !p.memory || (addrMember p.addr == member && decide (addrKind p.addr ≤ 1)))

end Sys2Proof.Machine
end

