-- ==== Sys2Proof/Machine/PlateRun.lean ====
section
/-!
DEFINITION. What each stroke of a plate operation computes (spec/08_plate_operations.md R177-R203, R478, R479): the
granules it reads, and from them the granules it writes, the values it carries on, and whether it meets a data fault.
-/
namespace Sys2Proof.Machine

/-- Granules by slot and index in the slot. -/
abbrev GranRead := Nat → Nat → Granule

/-- A run of granules of a slot: slot, first, count. -/
abbrev GranRef := Nat × Nat × Nat

/-- The key of granule `i` of slot `k`. -/
def gkey (k i : Nat) : Nat := k * 2 ^ 40 + i

/-- A fabric atomic that a remote SCATTER_COMBINE issues: address, opcode, XFMT, value, poisoned. -/
structure ScatterOp where
  addr : Nat
  op : Nat
  xfmt : Nat
  data : Nat
  poison : Bool
  deriving DecidableEq, Repr

/-- What a stroke comes to. -/
structure StrokeOut where
  outs : List (Nat × Granule) := []
  atomics : List ScatterOp := []
  carry : List (List Elem) := []
  fault : Bool := false
  deriving DecidableEq, Repr

/-- Granules placed in slot `k` from index `i`. -/
def placeAt (k i : Nat) (gs : List Granule) : List (Nat × Granule) := (gs.zipIdx).map (fun (g, j) => (gkey k (i + j), g))

/-- Elements `[j, j + n)` of a vector of `c` elements in slot `k`. -/
def slotElems (d : List Byte) (rd : GranRead) (k c j n : Nat) : List Elem := elemsAt (dFmt d k) c (rd k) j n

/-- Row `i` of a matrix of `c`-element rows in slot `k`. -/
def slotRow (d : List Byte) (rd : GranRead) (k c i : Nat) : List Elem :=
  let f := dFmt d k
  let b := i * gran c f
  elemsAt f c (fun x => rd k (b + x)) 0 c

/-- A poisoned output value. -/
def poisonVal : OutVal := { poison := true }

/-! ### Element functions (R153, R154, R178, Table 8-5) -/

/-- Bitwise FUNC. -/
def bitFunc (fn : Nat) (a b : Nat) : Nat := if fn = 3 then a &&& b else if fn = 4 then a ||| b else a ^^^ b

/-- FUNC over elements of format `fi`, with no old value, as an output of format `fo`; sums accumulate in `acc`. With `conv`, an
integer sum is formed in 64 bits and converted by Table 7-4. -/
def funcVal (acc : AccKind) (fn : Nat) (fi fo : Fmt) (r : Rnd) (es : List Elem) (conv : Bool := false) : OutVal :=
  if es.any (·.poison) then poisonVal
  else if fn = 0 then sumOut acc conv fo r (es.map fi.toNum) none false
  else match es with
    | [] => {}
    | e :: rest =>
      if fn ≤ 2 then
        OutVal.ofNum fo r (rest.foldl (fun (m : Num) x => Num.minMax (fn == 2) m (fi.toNum x)) (fi.toNum e)) false
      else { bits := rest.foldl (fun b x => bitFunc fn b x.bits) e.bits }

/-- `funcVal` with the accumulation of a plate descriptor. -/
def funcOut (d : List Byte) (fn : Nat) (fi fo : Fmt) (r : Rnd) (es : List Elem) : OutVal := funcVal (dAcc d) fn fi fo r es

/-- Bits of an element of a format, for the all-ones pattern. -/
def Fmt.width : Fmt → Nat
  | .xa320 => 320
  | .xa640 => 640
  | .bitmap => 1
  | .mx k => k.bits
  | .htable => 512
  | .float k => k.bits
  | .int _ b => 8 * b
  | .raw => 8

/-- The largest value of a format that has no infinity, +Inf of one that has; negated for MAX (R181). -/
def extremeNum (f : Fmt) (neg : Bool) : Num :=
  match f with
  | .float k => if k.ieee then .inf neg else .fin neg k.maxFinite.1 k.maxFinite.2
  | .mx .int8 => .fin neg 127 121
  | .mx k => .fin neg k.float.maxFinite.1 (k.float.maxFinite.2 + 127)
  | .int sg b =>
    if neg then (if sg then .ofInt (-(2 ^ (8 * b - 1) : Int)) else .fin false 0 0)
    else (if sg then .ofInt (2 ^ (8 * b - 1) - 1 : Int) else .ofInt (2 ^ (8 * b) - 1 : Int))
  | .xa320 | .xa640 => .inf neg
  | .bitmap | .raw | .htable => .fin false 0 0

/-- SCAN's identity, in the output format (R181). -/
def scanIdentity (fn : Nat) (fo : Fmt) (r : Rnd) : OutVal :=
  if fn = 1 ∨ fn = 2 then OutVal.ofNum fo r (extremeNum fo (fn == 2)) false
  else if fn = 3 then { bits := 2 ^ fo.width - 1 }
  else {}

/-! ### REDUCE, SCAN, CONVERT, COPY -/

/-- REDUCE (R180). -/
def runReduce (d : List Byte) (s : Nat) (rd : GranRead) : StrokeOut :=
  let (a, n) := dShare d s
  let l := dP d 112 8
  let gl := gran l (dFmt d 0)
  let vecs := (List.range (dP d 104 4)).map (fun v => elemsAt (dFmt d 0) l (fun x => rd 0 (v * gl + x)) a n)
  let vals := (List.range n).map (fun i =>
    funcOut d (dFunc d) (dFmt d 0) (dFmt d 1) (dRnd d (a + i)) (vecs.map (fun v => v.getD i {})))
  { outs := placeAt 1 (granAt a (dFmt d 1)) (packVals (dFmt d 1) (fun i => dRnd d (a + i)) vals) }

/-- SCAN (R181): the elements read so far are carried. -/
def runScan (d : List Byte) (s : Nat) (rd : GranRead) (carry : List (List Elem)) : StrokeOut :=
  let (a, n) := dShare d s
  let all := carry.headD [] ++ slotElems d rd 0 (dP d 104 8) a n
  let incl := dP d 113 1
  let vals := (List.range n).map (fun i =>
    let r := dRnd d (a + i)
    if a + i + incl = 0 then scanIdentity (dFunc d) (dFmt d 1) r
    else funcOut d (dFunc d) (dFmt d 0) (dFmt d 1) r (all.take (a + i + incl)))
  { outs := placeAt 1 (granAt a (dFmt d 1)) (packVals (dFmt d 1) (fun i => dRnd d (a + i)) vals), carry := [all] }

/-- CONVERT (R202). -/
def runConvert (d : List Byte) (s : Nat) (rd : GranRead) : StrokeOut :=
  let (a, n) := dShare d s
  let vals := ((slotElems d rd 0 (dP d 104 8) a n).zipIdx).map (fun (e, i) =>
    if e.poison then poisonVal else OutVal.ofNum (dFmt d 1) (dRnd d (a + i)) ((dFmt d 0).toNum e) false)
  { outs := placeAt 1 (granAt a (dFmt d 1)) (packVals (dFmt d 1) (fun i => dRnd d (a + i)) vals) }

/-- COPY (R203). -/
def runCopy (d : List Byte) (s : Nat) (rd : GranRead) : StrokeOut :=
  let (a, n) := dShare d s
  { outs := placeAt 1 a ((List.range n).map (fun i => rd 0 (a + i))) }

/-! ### Bags: GATHER_REDUCE, and SPMM in CSR form (R182, R187, R479) -/

/-- Offsets with a poisoned one standing for the nearest unpoisoned one before it. -/
def effOffsets (es : List Elem) (limit : Nat) : List Nat :=
  (es.foldl (fun (acc : List Nat × Nat) e =>
    let v := if e.poison then acc.2 else min limit e.bits
    (acc.1 ++ [v], v)) ([], 0)).1

/-- A list of numbers decreases somewhere. -/
def decreases : List Nat → Bool
  | x :: y :: l => decide (y < x) || decreases (y :: l)
  | _ => false

/-- Offsets or pointers hold a data fault; poisoned ones are not checked. -/
def offsetsFault (es : List Elem) (total : Nat) : Bool :=
  let ok := es.filter (fun e => !e.poison)
  let bad := fun (o : Option Elem) (v : Nat) => match o with
    | none => false
    | some e => !e.poison && e.bits != v
  bad es.head? 0 || bad es.getLast? total || decreases (ok.map (·.bits))

/-- The shape of an operation over bags of rows. -/
structure BagShape where
  bags : Nat
  len : Nat
  nidx : Nat
  /-- Slots of the rows, offsets, indices, outputs; and of the weights, with their format. -/
  rowSlot : Nat
  offSlot : Nat
  idxSlot : Nat
  outSlot : Nat
  weight : Option Nat
  limit : Nat
  deriving DecidableEq, Repr

/-- The shape of GATHER_REDUCE or of a CSR SPMM. -/
def bagShape (d : List Byte) : BagShape :=
  if dOp d = plGather then
    { bags := dP d 108 4, len := dP d 104 4, nidx := dP d 112 8, rowSlot := 0, offSlot := 1, idxSlot := 2, outSlot := 3,
      weight := if (dSlot d 4).used then some 4 else none, limit := slotRows d 0 (dP d 104 4) }
  else
    { bags := dP d 104 4, len := dP d 108 4, nidx := dP d 116 4, rowSlot := 3, offSlot := 0, idxSlot := 1, outSlot := 4,
      weight := some 2, limit := dP d 112 4 }

/-- The bags that a stroke with positions `[a, a + n)` finishes: number, start, end. -/
def bagsDone (offs : List Nat) (s a n : Nat) : List (Nat × Nat × Nat) :=
  (((offs.zip (offs.drop 1)).zipIdx).map (fun (p, j) => (j, p.1, p.2))).filter
    (fun x => decide (x.2.2 ≤ a + n) && (s == 0 || decide (a < x.2.2)))

/-- The output element `c` of a bag: its terms are weight and row (R178, R182, R187). -/
def bagElem (d : List Byte) (b : BagShape) (r : Rnd) (terms : List (List Elem)) (c : Nat) (old : Option Elem) : OutVal :=
  let fi := dFmt d b.rowSlot
  let fo := dFmt d b.outSlot
  let els := terms.map (fun t => (t.headD {}, (t.drop 1).getD c {}))
  if els.any (fun e => e.1.poison || e.2.poison) || (old.map (·.poison)).getD false then poisonVal
  else match b.weight with
    | some w => sumOut (dAcc d) true fo r (els.map (fun e => ((dFmt d w).toNum e.1).mul (fi.toNum e.2))) (old.map fo.toNum) false
    | none => if terms = [] then {} else funcOut d (dFunc d) fi fo r (els.map (·.2))

/-- The rows that a stroke's indices name, and the rows of an INOUT output that it finishes. -/
def bagDeps (d : List Byte) (s : Nat) (rd : GranRead) : List GranRef :=
  let b := bagShape d
  let (a, n) := dShare d s
  let idx := slotElems d rd b.idxSlot b.nidx a n
  let g := gran b.len (dFmt d b.rowSlot)
  let rows := (idx.filter (fun e => !e.poison && decide (e.bits < b.limit))).map (fun e => (b.rowSlot, e.bits * g, g))
  let go := gran b.len (dFmt d b.outSlot)
  let offs := effOffsets (slotElems d rd b.offSlot (b.bags + 1) 0 (b.bags + 1)) b.nidx
  rows ++ (if (dSlot d b.outSlot).role = 3 then (bagsDone offs s a n).map (fun x => (b.outSlot, x.1 * go, go)) else [])

/-- A stroke over bags: the terms of the bag left open are carried, each a weight and a row. -/
def runBags (d : List Byte) (s : Nat) (rd : GranRead) (carry : List (List Elem)) : StrokeOut :=
  let b := bagShape d
  let (a, n) := dShare d s
  let offE := slotElems d rd b.offSlot (b.bags + 1) 0 (b.bags + 1)
  let idx := slotElems d rd b.idxSlot b.nidx a n
  let w := match b.weight with
    | some k => slotElems d rd k b.nidx a n
    | none => List.replicate n {}
  let terms := (idx.zip w).map (fun (i, x) =>
    if i.poison then { x with poison := true } :: List.replicate b.len {}
    else x :: slotRow d rd b.rowSlot b.len (if i.bits < b.limit then i.bits else 0))
  let all := carry ++ terms
  let first := a - carry.length
  let offs := effOffsets offE b.nidx
  let g := gran b.len (dFmt d b.outSlot)
  let outs := (bagsDone offs s a n).flatMap (fun (j, lo, hi) =>
    let bad := (offE.getD j {}).poison || (offE.getD (j + 1) {}).poison
    let ts := (all.drop (lo - first)).take (hi - lo)
    let old := if (dSlot d b.outSlot).role = 3 then some (slotRow d rd b.outSlot b.len j) else none
    let vals := (List.range b.len).map (fun c =>
      if bad then poisonVal else bagElem d b (dRnd d (j * b.len + c)) ts c (old.map (·.getD c {})))
    placeAt b.outSlot (j * g) (packVals (dFmt d b.outSlot) (fun c => dRnd d (j * b.len + c)) vals))
  let openAt := (offs.filter (fun o => decide (o ≤ a + n))).foldl max 0
  { outs := outs, carry := all.drop (openAt - first),
    fault := offsetsFault offE b.nidx || idx.any (fun e => !e.poison && decide (b.limit ≤ e.bits)) }

/-! ### SPMM in CSC form (R187, R188) -/

/-- The column that position `q` lies in. -/
def columnOf (offs : List Nat) (q : Nat) : Nat := (offs.filter (fun o => decide (o ≤ q))).length - 1

/-- A stroke of a CSC SPMM: entries (row number, value, row of B) are carried, and C is formed in the last stroke. -/
def runCsc (d : List Byte) (s : Nat) (rd : GranRead) (carry : List (List Elem)) : StrokeOut :=
  let (m, nn, kk, nnz) := (dP d 104 4, dP d 108 4, dP d 112 4, dP d 116 4)
  let (a, n) := dShare d s
  let ptr := slotElems d rd 0 (kk + 1) 0 (kk + 1)
  let idx := slotElems d rd 1 nnz a n
  let val := slotElems d rd 2 nnz a n
  let offs := effOffsets ptr nnz
  let here := ((idx.zip val).zipIdx).map (fun ((i, v), q) =>
    i :: v :: slotRow d rd 3 nn (min (kk - 1) (columnOf offs (a + q))))
  let all := carry ++ here
  let fault := offsetsFault ptr nnz || idx.any (fun e => !e.poison && decide (m ≤ e.bits))
  if s + 1 = dStrokes d then
    let bad := ptr.any (·.poison) || all.any (fun t => (t.headD {}).poison)
    let f := dFmt d 4
    let g := gran nn f
    let outs := (List.range m).flatMap (fun i =>
      let ts := (all.filter (fun t => (t.headD {}).bits == i)).map (·.drop 1)
      let old := if (dSlot d 4).role = 3 then some (slotRow d rd 4 nn i) else none
      let vals := (List.range nn).map (fun c => if bad then poisonVal
        else bagElem d (bagShape d) (dRnd d (i * nn + c)) ts c (old.map (·.getD c {})))
      placeAt 4 (i * g) (packVals f (fun c => dRnd d (i * nn + c)) vals))
    { outs := outs, fault := fault }
  else { carry := all, fault := fault }

/-! ### SCATTER_COMBINE (R184, R185, R479) -/

/-- The distinct numbers of a list, ascending. -/
def ascending (l : List Nat) : List Nat := (l.foldl (fun acc x => if acc.contains x then acc else acc ++ [x]) []).mergeSort (· ≤ ·)

/-- The target rows that a stroke touches. -/
def scatterRows (d : List Byte) (s : Nat) (rd : GranRead) : List Nat :=
  let (a, n) := dShare d s
  let idx := slotElems d rd 1 (dP d 112 8) a n
  let rows := slotRows d 2 (dP d 104 4)
  ascending ((idx.filter (fun e => !e.poison && decide (e.bits < rows))).map (·.bits))

/-- A stroke with a local target. A poisoned index poisons every row. -/
def runScatter (d : List Byte) (s : Nat) (rd : GranRead) : StrokeOut :=
  let (a, n) := dShare d s
  let dd := dP d 104 4
  let rows := slotRows d 2 dd
  let idx := slotElems d rd 1 (dP d 112 8) a n
  let f := dFmt d 2
  let g := gran dd f
  let fv := dFmt d 0
  let vals := (List.range n).map (fun i => (idx.getD i {}, slotRow d rd 0 dd (a + i)))
  let fault := idx.any (fun e => !e.poison && decide (rows ≤ e.bits))
  if idx.any (·.poison) then
    { outs := (List.range rows).flatMap (fun t => placeAt 2 (t * g)
        (packVals f (fun c => dRnd d (t * dd + c)) (List.replicate dd poisonVal))), fault := fault }
  else
    { outs := (scatterRows d s rd).flatMap (fun t =>
        let mine := (vals.filter (fun v => v.1.bits == t)).map (·.2)
        let old := slotRow d rd 2 dd t
        let out := (List.range dd).map (fun c =>
          let es := mine.map (fun r => r.getD c {})
          let o := old.getD c {}
          let r := dRnd d (t * dd + c)
          if o.poison || es.any (·.poison) then poisonVal
          else if dFunc d = 0 then sumOut (dAcc d) false f r (es.map fv.toNum) (some (f.toNum o)) false
          else OutVal.ofNum f r (es.foldl (fun (m : Num) x => Num.minMax (dFunc d == 2) m (fv.toNum x)) (f.toNum o)) false)
        placeAt 2 (t * g) (packVals f (fun c => dRnd d (t * dd + c)) out)),
      fault := fault }

/-- A stroke with a remote target: one atomic per element, in index order. A poisoned index poisons every row: the stroke then
stores poisoned granules over the whole target in place of its atomics, under the right that the plan asked for (DESIGN CHOICE,
notes/assumptions/58). -/
def runScatterRemote (d : List Byte) (s : Nat) (rd : GranRead) : StrokeOut :=
  let (a, n) := dShare d s
  let dd := dP d 104 4
  let rows := slotRows d 2 dd
  let idx := slotElems d rd 1 (dP d 112 8) a n
  let op := (scatterAtomic d).getD 0
  let fv := dFmt d 0
  let xf := if fv = .float .fp32 then 0 else if fv = .float .bf16 then 1 else 2
  let g := gran dd (dFmt d 2)
  let stride := if op = 0x1A then 128 else 8
  let fault := idx.any (fun e => !e.poison && decide (rows ≤ e.bits))
  if idx.any (·.poison) then
    { outs := placeAt 2 0 (List.replicate (rows * g) { data := List.replicate 32 0, poison := true }), fault := fault }
  else
    { atomics := (idx.zipIdx).flatMap (fun (i, q) => ((slotRow d rd 0 dd (a + q)).zipIdx).map (fun (e, c) =>
        { addr := (dSlot d 2).addr + 32 * g * i.bits + stride * c, op := op, xfmt := xf,
          data := if op = 0x1A then e.bits else twosOf 64 (fv.toInt e), poison := e.poison })),
      fault := fault }

/-! ### FRONTIER_EXPAND (R189, R190, R479) -/

/-- A stroke over the destination vertices it owns; stroke 0 writes the count. -/
def runFrontier (d : List Byte) (s : Nat) (rd : GranRead) : StrokeOut :=
  let (v, e) := (dP d 104 8, dP d 112 8)
  let (a, n) := dShare d s
  let ptr := slotElems d rd 0 (v + 1) 0 (v + 1)
  let adj := slotElems d rd 1 e 0 e
  let fr := slotElems d rd 2 v 0 v
  let offs := effOffsets ptr e
  let hits := ((fr.zip (offs.zip (offs.drop 1)))).flatMap (fun (b, (lo, hi)) =>
    if b.bits = 1 then ((adj.drop lo).take (hi - lo)).map (·.bits) else [])
  let bad := ptr.any (·.poison) || adj.any (·.poison) || fr.any (·.poison)
  let next := fun (u : Nat) (o : Elem) => b2n (hits.contains u && o.bits == 0)
  let old := slotElems d rd 3 v a n
  let nx := (old.zipIdx).map (fun (o, i) => ({ bits := next (a + i) o, poison := bad || o.poison } : OutVal))
  let vis := (old.zipIdx).map (fun (o, i) =>
    ({ bits := if o.bits = 1 then 1 else next (a + i) o, poison := bad || o.poison } : OutVal))
  let r := dRnd d
  let count := if s = 0 then
      let whole := slotElems d rd 3 v 0 v
      [(gkey 4 0, countGranule (((whole.zipIdx).filter (fun (o, i) => next i o == 1)).length) (bad || whole.any (·.poison)))]
    else []
  { outs := placeAt 3 (a / 256) (packVals .bitmap r vis) ++ count ++ placeAt 4 (1 + a / 256) (packVals .bitmap r nx),
    fault := offsetsFault ptr e || adj.any (fun x => !x.poison && decide (v ≤ x.bits)) }

/-! ### Sets (R191, R479) -/

/-- Two lists merged, A first on ties; `fuel` bounds the steps. -/
def mergeTagged : Nat → List Nat → List Nat → List (Nat × Bool)
  | 0, _, _ => []
  | _ + 1, [], bs => bs.map (·, false)
  | _ + 1, a :: as, [] => (a :: as).map (·, true)
  | k + 1, a :: as, b :: bs => if a ≤ b then (a, true) :: mergeTagged k as (b :: bs) else (b, false) :: mergeTagged k (a :: as) bs

/-- Not strictly ascending. -/
def notAscending : List Nat → Bool
  | x :: y :: l => decide (y ≤ x) || notAscending (y :: l)
  | _ => false

/-- The result keys of the first `m` merged keys. -/
def setResult (op : Nat) (as bs : List Nat) (m : Nat) : List Nat :=
  let mg := (mergeTagged (as.length + bs.length) as bs).take m
  (mg.filter (fun (k, isA) =>
    if op = plIntersect then isA && bs.contains k
    else if op = plUnion then isA || !as.contains k
    else isA && !bs.contains k)).map (·.1)

/-- A stroke over a share of the merge: output granules that it fills are written at its end, the rest, the zeros and
the count at the end of the last. -/
def runSet (d : List Byte) (s : Nat) (rd : GranRead) : StrokeOut :=
  let (a, n) := dShare d s
  let ae := slotElems d rd 0 (setNA d) 0 (setNA d)
  let be := slotElems d rd 1 (setNB d) 0 (setNB d)
  let good := fun (l : List Elem) => (l.filter (fun e => !e.poison)).map (·.bits)
  let (as, bs) := (good ae, good be)
  let bad := ae.any (·.poison) || be.any (·.poison)
  let last := s + 1 == dStrokes d
  let m := if last then as.length + bs.length else a + n
  let mg := (mergeTagged (as.length + bs.length) as bs).take m
  let ca := (mg.filter (·.2)).length
  let fault := notAscending (as.take ca) || notAscending (bs.take (mg.length - ca))
  let f := dFmt d 0
  let per := 32 / max 1 f.bytes
  let w := setWorst d
  let keys := setResult (dOp d) as bs m
  let from' := if s = 0 then 0 else (setResult (dOp d) as bs a).length / per
  let all := packVals f (dRnd d) ((sliceD 0 keys 0 w).map (fun k => { bits := k, poison := bad }))
  let upTo := if last then gran w f else if bad then 0 else keys.length / per
  { outs := (if last then [(gkey 2 0, countGranule keys.length bad)] else []) ++
      placeAt 2 (1 + (if bad then 0 else from')) ((all.take upTo).drop (if bad then 0 else from')),
    fault := fault }

/-! ### SORT (R192, R479) -/

/-- SORT, in its one stroke. -/
def runSort (d : List Byte) (rd : GranRead) : StrokeOut :=
  let n := dP d 104 8
  let f := dFmt d 0
  let ks := slotElems d rd 0 n 0 n
  let vs := if (dSlot d 1).used then slotElems d rd 1 n 0 n else List.replicate n {}
  let bad := ks.any (·.poison)
  let key := fun (e : Elem) => if isIndex f then ((e.bits % 2 ^ dP d 112 1 : Nat) : Int) else f.toInt e
  let le := fun (x y : Elem × Elem) => if dP d 113 1 = 1 then decide (key y.1 ≤ key x.1) else decide (key x.1 ≤ key y.1)
  let out := (ks.zip vs).mergeSort le
  let o := fun (e : Elem) => ({ bits := e.bits, poison := bad || e.poison } : OutVal)
  { outs := placeAt 2 0 (packVals f (dRnd d) (out.map (fun x => o x.1))) ++
      (if (dSlot d 1).used then placeAt 3 0 (packVals (dFmt d 1) (dRnd d) (out.map (fun x => o x.2))) else []) }

/-! ### Hash tables (R193-R195, R479) -/

/-- The home bucket of a key. -/
def hashHome (tbits seed key : Nat) : Nat := (mix64 (BitVec.ofNat 64 key ^^^ BitVec.ofNat 64 seed)).toNat / 2 ^ (64 - tbits)

/-- The buckets of a key's walk. -/
def hashWalk (tbits probes seed key : Nat) : List Nat :=
  (List.range probes).map (fun i => (hashHome tbits seed key + i) % 2 ^ tbits)

/-- A table under construction: entries (key, payload) by bucket. -/
abbrev HashTable := List (Nat × List (Nat × Elem))

/-- A key inserted; none where its walk has no room. -/
def hashInsert (tbits probes seed : Nat) (t : HashTable) (k : Nat) (p : Elem) : Option HashTable :=
  let at' := fun b => Sparse.get (fun _ => ([] : List (Nat × Elem))) t b
  match (hashWalk tbits probes seed k).find? (fun b => decide ((at' b).length < 3)) with
  | some b => some (Sparse.set (fun _ => []) t b (at' b ++ [(k, p)]))
  | none => none

/-- The two granules of a bucket (Table 8-8). -/
def bucketGranules (es : List (Nat × Elem)) (bad : Bool) : List Granule :=
  let key := fun i => toBytesLE 8 ((es[i]?.map (·.1)).getD 0)
  let pay := fun i => toBytesLE 8 ((es[i]?.map (·.2.bits)).getD 0)
  let pp := fun i => (es[i]?.map (·.2.poison)).getD false
  [{ data := toBytesLE 8 es.length ++ key 0 ++ pay 0 ++ key 1, poison := bad || pp 0 },
   { data := pay 1 ++ key 2 ++ pay 2 ++ toBytesLE 8 0, poison := bad || pp 1 || pp 2 }]

/-- HASH_BUILD: keys and payloads read so far are carried; the last stroke writes the table. -/
def runBuild (d : List Byte) (s : Nat) (rd : GranRead) (carry : List (List Elem)) : StrokeOut :=
  let (tb, mp, seed, nk) := (dP d 108 1, dP d 109 1, dP d 112 8, dP d 104 4)
  let (a, n) := dShare d s
  let here := ((slotElems d rd 0 nk a n).zip (slotElems d rd 1 nk a n)).map (fun (k, p) => [k, p])
  let all := carry ++ here
  let bad := all.any (fun e => (e.headD {}).poison)
  let t := (all.filter (fun e => !(e.headD {}).poison)).foldl (fun (t : Option HashTable) e =>
    t.bind (fun t => hashInsert tb mp seed t (e.headD {}).bits (e.getD 1 {}))) (some [])
  match t with
  | none => { carry := all, fault := true }
  | some t =>
    if s + 1 = dStrokes d then
      { outs := placeAt 2 0 ((List.range (2 ^ tb)).flatMap (fun b => bucketGranules (Sparse.get (fun _ => []) t b) bad)) }
    else { carry := all }

/-- What a finished walk answers: the first match or the default, or in COUNT mode how many matched. -/
def probeEnd (d : List Byte) (found : List Nat) (p : Bool) : Nat × Bool :=
  (if dP d 110 1 = 1 then found.length else found.headD (dP d 120 8), p)

/-- A probe: its result, and whether its walk read a poisoned granule. -/
def probeWalk (d : List Byte) (rd : GranRead) (key : Nat) : List Nat → List Nat → Bool → Nat × Bool
  | [], found, p => probeEnd d found p
  | b :: bs, found, p =>
    let g0 := rd 1 (2 * b)
    let g1 := rd 1 (2 * b + 1)
    let bytes := g0.data ++ g1.data
    let used := bytesAt bytes 0 1
    let hit := ((List.range (min 3 used)).filter (fun e => bytesAt bytes (8 + 16 * e) 8 == key)).map
      (fun e => bytesAt bytes (16 + 16 * e) 8)
    let found' := found ++ hit
    let p' := p || g0.poison || g1.poison
    if used < 3 then probeEnd d found' p' else probeWalk d rd key bs found' p'

/-- HASH_PROBE. -/
def runProbe (d : List Byte) (s : Nat) (rd : GranRead) : StrokeOut :=
  let (a, n) := dShare d s
  let vals := (slotElems d rd 0 (dP d 104 4) a n).map (fun k =>
    if k.poison then poisonVal
    else
      let (v, p) := probeWalk d rd k.bits (hashWalk (dP d 108 1) (dP d 109 1) (dP d 112 8) k.bits) [] false
      { bits := v, poison := p })
  { outs := placeAt 2 (granAt a (dFmt d 2)) (packVals (dFmt d 2) (dRnd d) vals) }

/-! ### HISTOGRAM (R196, R479) -/

/-- The bin of a value: NBINS is below, NBINS + 1 above. -/
def histBin (d : List Byte) (e : Elem) : Nat :=
  let nb := dP d 124 4
  let f := dFmt d 0
  let base : Int := if isIndex f then (dP d 112 8 : Nat) else signedOf 64 (dP d 112 8)
  let v := f.toInt e
  if v < base then nb
  else
    let b := (v - base).toNat / 2 ^ dP d 120 1
    if nb ≤ b then nb + 1 else b

/-- HISTOGRAM: the old counts (first) and the values read so far are carried; the last stroke writes the counts. -/
def runHist (d : List Byte) (s : Nat) (rd : GranRead) (carry : List (List Elem)) : StrokeOut :=
  let (a, n) := dShare d s
  let nc := dP d 124 4 + 2
  let old := if s = 0 then (if (dSlot d 1).role = 3 then slotElems d rd 1 nc 0 nc else List.replicate nc {}) else carry.headD []
  let all := carry.getD 1 [] ++ slotElems d rd 0 (dP d 104 8) a n
  if s + 1 = dStrokes d then
    let bad := all.any (·.poison)
    let bins := (all.filter (fun e => !e.poison)).map (histBin d)
    let vals := (List.range nc).map (fun b =>
      let o := old.getD b {}
      ({ bits := (o.bits + (bins.filter (· == b)).length) % 2 ^ 64, poison := bad || o.poison } : OutVal))
    { outs := placeAt 1 0 (packVals (dFmt d 1) (dRnd d) vals) }
  else { carry := [old, all] }

/-! ### GEMM and GATHER_GEMM (R197-R201) -/

/-- Element (i, k) of A. -/
def gemmA (d : List Byte) (rd : GranRead) (i k : Nat) : Elem :=
  let f := dFmt d 0
  if gmTA d then elemAt f (gmM d) (fun x => rd 0 (k * gran (gmM d) f + x)) i
  else elemAt f (gmK d) (fun x => rd 0 (i * gran (gmK d) f + x)) k

/-- Element (k, j) of B, whose rows (columns, stored transposed) lie in P pieces. -/
def gemmB (d : List Byte) (rd : GranRead) (k j : Nat) : Elem :=
  let f := dFmt d 1
  let kp := gmK d / max 1 (gmP d)
  let base := k / max 1 kp * gmGPiece d
  let kk := k % max 1 kp
  if gmTB d then elemAt f kp (fun x => rd 1 (base + j * gran kp f + x)) kk
  else elemAt f (gmN d) (fun x => rd 1 (base + kk * gran (gmN d) f + x)) j

/-- The rows of C that the stroke owns. -/
def runGemm (d : List Byte) (s : Nat) (rd : GranRead) : StrokeOut :=
  let (a, n) := dShare d s
  let c := gmSlotC d
  let f := dFmt d c
  let nn := gmN d
  let g := gran nn f
  { outs := (List.range n).flatMap (fun x =>
      let i := a + x
      let old := if (dSlot d c).role = 3 then some (slotRow d rd c nn i) else none
      let vals := (List.range nn).map (fun j =>
        let ps := (List.range (gmK d)).map (fun k => (gemmA d rd i k, gemmB d rd k j))
        let o := old.map (·.getD j {})
        if ps.any (fun p => p.1.poison || p.2.poison) || (o.map (·.poison)).getD false then poisonVal
        else sumOut (dAcc d) true f (dRnd d (i * nn + j))
          (ps.map (fun p => ((dFmt d 0).toNum p.1).mul ((dFmt d 1).toNum p.2))) (o.map f.toNum) false)
      placeAt c (i * g) (packVals f (fun j => dRnd d (i * nn + j)) vals)) }

/-! ### Every operation -/

/-- The granules that stroke `s` streams in. SET operations, and FRONTIER_EXPAND's stroke 0, need more of an operand than
the share that is booked. -/
def streamRefs (d : List Byte) (s : Nat) : List GranRef :=
  let op := dOp d
  let (a, n) := dShare d s
  let last := s + 1 == dStrokes d
  let span := fun (k c : Nat) => (k, granSpan (dFmt d k) c a n)
  let whole := fun (k : Nat) => (k, 0, slotNeed d k)
  let g := fun (m k : Nat) => gran m (dFmt d k)
  if op = plReduce then
    let l := dP d 112 8
    let (x, y) := granSpan (dFmt d 0) l a n
    (List.range (dP d 104 4)).map (fun v => (0, v * g l 0 + x, y))
  else if op = plScan ∨ op = plConvert then [span 0 (dP d 104 8)]
  else if op = plGather then
    [whole 1, span 2 (dP d 112 8)] ++ (if (dSlot d 4).used then [span 4 (dP d 112 8)] else [])
  else if op = plScatter then
    let gd := g (dP d 104 4) 0
    [(0, a * gd, n * gd), span 1 (dP d 112 8)]
  else if op = plSpmm then
    [whole 0, span 1 (dP d 116 4), span 2 (dP d 116 4)] ++ (if dP d 120 1 = 0 then [] else [whole 3]) ++
      (if dP d 120 1 ≠ 0 ∧ last = true ∧ (dSlot d 4).role = 3 then [whole 4] else [])
  else if op = plFrontier then
    [whole 0, whole 1, whole 2, if s = 0 then whole 3 else span 3 (dP d 104 8)]
  else if op = plIntersect ∨ op = plUnion ∨ op = plDiff then [whole 0, whole 1]
  else if op = plSort then [whole 0] ++ (if (dSlot d 1).used then [whole 1] else [])
  else if op = plBuild then [span 0 (dP d 104 4), span 1 (dP d 104 4)]
  else if op = plProbe then [span 0 (dP d 104 4), whole 1]
  else if op = plHist then [span 0 (dP d 104 8)] ++ (if s = 0 ∧ (dSlot d 1).role = 3 then [whole 1] else [])
  else if op = plGemm ∨ op = plGGemm then
    let c := gmSlotC d
    let rowsA : List GranRef :=
      if gmTA d then
        let (x, y) := granSpan (dFmt d 0) (gmM d) a n
        (List.range (gmK d)).map (fun k => (0, k * g (gmM d) 0 + x, y))
      else [(0, a * g (gmK d) 0, n * g (gmK d) 0)]
    rowsA ++ [(1, 0, gmP d * gmGPiece d)] ++
      (if (dSlot d c).role = 3 then [(c, a * g (gmN d) c, n * g (gmN d) c)] else [])
  else [(0, a, n)]

/-- The granules at data-dependent addresses, once the streamed ones are there. -/
def dependRefs (member : Nat) (d : List Byte) (s : Nat) (rd : GranRead) : List GranRef :=
  let op := dOp d
  if op = plGather ∨ (op = plSpmm ∧ dP d 120 1 = 0) then bagDeps d s rd
  else if op = plScatter ∧ scatterRemote member d = false then
    let g := gran (dP d 104 4) (dFmt d 2)
    (scatterRows d s rd).map (fun t => (2, t * g, g))
  else []

/-- What stroke `s` computes. -/
def runStroke (member : Nat) (d : List Byte) (s : Nat) (rd : GranRead) (carry : List (List Elem)) : StrokeOut :=
  let op := dOp d
  if op = plReduce then runReduce d s rd
  else if op = plScan then runScan d s rd carry
  else if op = plGather then runBags d s rd carry
  else if op = plScatter then (if scatterRemote member d then runScatterRemote d s rd else runScatter d s rd)
  else if op = plSpmm then (if dP d 120 1 = 0 then runBags d s rd carry else runCsc d s rd carry)
  else if op = plFrontier then runFrontier d s rd
  else if op = plIntersect ∨ op = plUnion ∨ op = plDiff then runSet d s rd
  else if op = plSort then runSort d rd
  else if op = plBuild then runBuild d s rd carry
  else if op = plProbe then runProbe d s rd
  else if op = plHist then runHist d s rd carry
  else if op = plGemm ∨ op = plGGemm then runGemm d s rd
  else if op = plConvert then runConvert d s rd
  else runCopy d s rd

end Sys2Proof.Machine
end

