-- ==== Sys2Proof/Machine/PlateIo.lean ====
section
/-!
DEFINITION. The plate array's operands and windows (spec/06_plate_array.md R126, R138, R142, R144,
spec/16_security_and_isolation.md R366, R367): where each granule of an operand lies, how it is read and written, and
which descriptors the windows and bound sets refuse.
-/
namespace Sys2Proof.Machine

/-! ### Where a granule lies -/

/-- A place: remote, an HBM granule, a plate-store granule, a chain-buffer granule. -/
inductive Place where
  | remote | hbm (g : Nat) | plate (g : Nat) | chain (key : Nat)
  deriving DecidableEq, Repr

/-- The near fabric address of granule `i` of slot `k`; of GATHER_GEMM's B, piece after piece (R199). -/
def granAddr (d : List Byte) (k i : Nat) : Nat :=
  let a := (dSlot d k).addr
  if dOp d = plGGemm ∧ k = 1 then a + i / max 1 (gmGPiece d) * 2 ^ 57 + 32 * (i % max 1 (gmGPiece d)) else a + 32 * i

/-- Where granule `i` of slot `k` lies, as member `member` sees it. -/
def granPlace (member : Nat) (d : List Byte) (k i : Nat) : Place :=
  let p := dSlot d k
  if p.isChain then .chain (gkey (p.addr % 8) i)
  else
    let a := granAddr d k i
    if addrMember a = member ∧ addrKind a = 0 then .hbm (addrOffset a / 32)
    else if addrMember a = member ∧ addrKind a = 1 then .plate (addrOffset a / 32)
    else .remote

/-- Granule `i` of slot `k` must be fetched over the fabric. -/
def granRemote (member : Nat) (d : List Byte) (k i : Nat) : Bool := granPlace member d k i == .remote

/-- Slot and index of a key. -/
def keySlot (x : Nat) : Nat := x / 2 ^ 40
def keyIndex (x : Nat) : Nat := x % 2 ^ 40

/-- The keys of runs. -/
def refKeys (l : List GranRef) : List Nat := l.flatMap (fun (k, a, n) => (List.range n).map (fun i => gkey k (a + i)))

/-- A granule of zeros. -/
def zeroGranule : Granule := { data := List.replicate 32 0 }

/-- Granules in hand. -/
abbrev GranMap := List (Nat × Granule)

/-- Key `x` is in hand. -/
def hasGran (m : GranMap) (x : Nat) : Bool := m.any (fun e => e.1 == x)
/-- `m` with a granule put in. -/
def putGran (m : GranMap) (x : Nat) (g : Granule) : GranMap := Sparse.insert (Sparse.erase m x) x g
/-- The granules in hand as a stroke reads them. -/
def granRead (m : GranMap) : GranRead := fun k i => Sparse.get (fun _ => zeroGranule) m (gkey k i)

/-! ### Local reads and writes -/

/-- A chain-buffer granule. -/
def State.chainGranule (s : State) (key : Nat) : Granule := Sparse.get (fun _ => zeroGranule) s.plate.chainBufs key

/-- A granule read by a stream unit; a remote one reads as zeros here (it is fetched). -/
def State.readPlace (s : State) (p : Place) : Granule × State :=
  match p with
  | .hbm g =>
    let (d, poison, s1) := (s.activate (32 * g)).memLoad g
    ({ data := d, poison := poison }, s1)
  | .plate g => s.plateLoad g
  | .chain key => (s.chainGranule key, s)
  | .remote => (zeroGranule, s)

/-- A granule written by a stream unit. -/
def State.writePlace (s : State) (p : Place) (x : Granule) : State :=
  match p with
  | .hbm g => (s.activate (32 * g)).hbmStoreGranule g 0 x.data x.poison
  | .plate g => s.plateRewrite g x
  | .chain key => { s with plate := { s.plate with chainBufs := Sparse.set (fun _ => zeroGranule) s.plate.chainBufs key x } }
  | .remote => s

/-- The first plaintext granule of slot `k` in bound-set entry `e` (R366). -/
def State.bsetFirst (s : State) (e : Option Nat) (d : List Byte) (k : Nat) : Nat :=
  match e with
  | some e => (addrOffset (dSlot d k).addr - s.bsetBase e) / 32
  | none => 0

/-- The 128 plaintext granules of chunk `c`, all poisoned where the chunk is; none where its tag is wrong (R367). -/
def State.readSetChunk (s : State) (e c : Nat) : Option (List Granule) × State :=
  match s.boundKey e with
  | none => (none, s)
  | some b =>
    match (s.activate (s.bsetBase e + 4128 * c)).readChunk b (s.bsetBase e) c with
    | (true, _, s1) => (some (List.replicate 128 { data := List.replicate 32 0, poison := true }), s1)
    | (false, some plain, s1) => (some ((chunks 32 plain).map (fun x => { data := x })), s1)
    | (false, none, s1) => (none, s1)

/-- What a read of local operands comes to. -/
structure LocalRead where
  got : GranMap
  /-- A bound-set chunk's tag was wrong. -/
  tagBad : Bool := false
  state : State

/-- The local operands among keys `ks` that are not in hand, read in order: plain ones granule by granule, and each chunk
of a bound set once. -/
def State.readKeys (s : State) (d : List Byte) (e : Option Nat) (got : GranMap) (ks : List Nat) : LocalRead :=
  let plain := ks.filter (fun x => !(dSlot d (keySlot x)).bset)
  let r := plain.foldl (fun (r : LocalRead) x =>
    if hasGran r.got x then r
    else match granPlace s.member d (keySlot x) (keyIndex x) with
      | .remote => r
      | p =>
        let (g, s1) := r.state.readPlace p
        { r with got := putGran r.got x g, state := s1 }) { got := got, state := s }
  match e with
  | none => r
  | some e =>
    let sets := ks.filter (fun x => (dSlot d (keySlot x)).bset && !hasGran got x)
    let plainIx := fun x => s.bsetFirst (some e) d (keySlot x) + keyIndex x
    let cs := (sets.map (fun x => plainIx x / 128)).eraseDups
    cs.foldl (fun (r : LocalRead) c =>
      match r.state.readSetChunk e c with
      | (some gs, s1) =>
        { r with
          got := (sets.filter (fun x => plainIx x / 128 == c)).foldl (fun m x =>
            putGran m x (gs.getD (plainIx x % 128) zeroGranule)) r.got
          state := s1 }
      | (none, s1) => { r with tagBad := true, state := s1 }) r

/-! ### Windows and bound sets at plan time (R138, R199, R366) -/

/-- One window grants right `bit` over a range on members `m0` to `m1`: the lowest that covers it on both decides. -/
def State.rangeGrants (s : State) (n q kind m0 m1 off len bit : Nat) : Bool :=
  match (List.range 64).find? (fun e => s.windowCovers n e q kind m0 off len && s.windowCovers n e q kind m1 off len) with
  | some e => bitAt (s.winReg (Reg.REP_WIN_A n e)).toNat bit
  | none => false

/-- The bound-set entry of a descriptor: none where R366 refuses it; some none where no slot has BSET. -/
def State.bsetOf (s : State) (d : List Byte) : Option (Option Nat) :=
  match (dSlots d).filter (·.bset) with
  | [] => some none
  | p :: rest =>
    let find := fun (p : PSlot) =>
      if addrMember p.addr = s.member ∧ addrKind p.addr = 0 ∧ p.role = 1 then
        (s.bsetFind (addrOffset p.addr) p.extent).map (·.1)
      else none
    match find p with
    | none => none
    | some e =>
      if rest.all (fun x => find x == some e) && bitAt (s.get (F.SEC_BS_ENT_A_OPS e)) (dOp d) then some (some e) else none

/-- Slot `k` passes the plate end-point's windows on queue `q`. -/
def State.slotGranted (s : State) (q : Nat) (d : List Byte) (e : Option Nat) (k : Nat) : Bool :=
  let p := dSlot d k
  let bit := slotRight s.member d k
  if !p.memory then true
  else if p.bset then
    match e with
    | none => false
    | some e =>
      let i := s.bsetFirst (some e) d k
      let c0 := i / 128
      let c1 := (i + p.extent - 1) / 128
      s.windowGrants 17 q 0 s.member (s.bsetBase e + 4128 * c0) (4128 * (c1 - c0 + 1)) bit
  else if dOp d = plGGemm ∧ k = 1 then
    s.rangeGrants 17 q (addrKind p.addr) (addrMember p.addr) (addrMember p.addr + gmP d - 1) (addrOffset p.addr)
      (32 * p.extent) bit
  else s.windowGrants 17 q (addrKind p.addr) (addrMember p.addr) (addrOffset p.addr) (32 * p.extent) bit

/-- A descriptor of queue `q` is refused at plan time; `chain` is its chain, `hold` what its bound-set slots were found to name at
its fetch. -/
def State.planRefused (s : State) (q : Nat) (chain : List (List Byte)) (d : List Byte) (hold : Option (Option Nat)) : Bool :=
  !descOk s.member d || decide (s.get (F.PLT_OQ_CARRY_SIZE q) * 0x200000 < carrySize chain) ||
  (match hold with
    | none => true
    | some e => !(List.range 5).all (fun k => s.slotGranted q d e k))

/-! ### The record (R142-R144) -/

/-- The proof digest of granules, in ascending key order; 0 of none. -/
def proofDigest (m : GranMap) : Nat := if m.isEmpty then 0 else crc64Final (m.foldl (fun r e => crc64Update r e.2.signed) crc64Init)

/-- The operation's final status (R143): an abort observed before the retire point stands before all others (R145). -/
def PlateOp.status (o : PlateOp) : Nat :=
  if o.aborted then 0x33
  else match o.fail with
  | some st => st
  | none =>
    if o.tainted then 0x31 else if o.poisoned then 0x30
    else if 0 < o.retries then 3 else if o.delayed then 2 else 1

/-- The descriptor of the current member. -/
def PlateOp.desc (o : PlateOp) : List Byte := o.chain.getD o.member []

/-- ACTIVE (R140, R449). -/
def PlateOp.activeTurns (o : PlateOp) : Nat := min (2 ^ 32 - 1) (96 + o.active + o.frozen)

/-- The completion record (Table 6-5), written at turn `now` by member `member`. -/
def PlateOp.record (o : PlateOp) (member now : Nat) : List Byte :=
  let d := o.desc
  let flags := b2n (o.chain.all (dFixed member)) + 2 * b2n o.stretched + 4 * b2n o.bset.isSome + 8 * b2n (decide (1 < o.chain.length))
  toBytesLE 1 o.status ++ toBytesLE 1 flags ++ toBytesLE 2 (min 65535 o.retries) ++ toBytesLE 2 (dId d) ++
  toBytesLE 2 o.stroke ++ toBytesLE 8 now ++ toBytesLE 4 (min (2 ^ 32 - 1) (now - o.visible.getD o.member now - o.activeTurns)) ++
  toBytesLE 4 o.activeTurns ++ toBytesLE 8 (proofDigest o.written)

/-- The evidence block (R142). -/
def PlateOp.evidence (o : PlateOp) (hash : List Byte) : List Byte :=
  sliceD 0 hash 0 48 ++ toBytesLE 8 (proofDigest o.written) ++ toBytesLE 2 (dId o.desc) ++ List.replicate 6 0

/-- The hash registers of bound-set entry `e` as bytes. -/
def State.bsetHash (s : State) (e : Nat) : List Byte :=
  (List.range 6).flatMap (fun k => toBytesLE 8 (s.reg (Reg.SEC_BS_HASH e k)).toNat)

end Sys2Proof.Machine
end

