-- ==== Sys2Proof/Machine/Plate.lean ====
section
/-!
DEFINITION. The plate array as a machine (spec/06_plate_array.md R127-R146, spec/08_plate_operations.md R177, R200, R201,
spec/09_collectives.md R226, R227, spec/20_power_package_pins.md R445-R447): op queues, selection, rounds, preemption,
plans, strokes, completion, abort.
-/
namespace Sys2Proof.Machine

/-! ### Op queues (R131-R133) -/

/-- N of op queue `q`'s rings. -/
def State.oqN (s : State) (q : Nat) : Nat := ringSize (s.get (F.PLT_OQ_RING_LOG2N q))
/-- HEAD and TAIL modulo 2N. -/
def State.oqHead (s : State) (q : Nat) : Nat := s.get (F.PLT_OQ_IDX_HEAD q) % (2 * s.oqN q)
def State.oqTail (s : State) (q : Nat) : Nat := s.get (F.PLT_OQ_IDX_TAIL q) % (2 * s.oqN q)
/-- Descriptors visible and not fetched. -/
def State.oqWaiting (s : State) (q : Nat) : Nat := ringUsed (s.oqN q) (s.oqHead q) (s.oqTail q)
/-- The collective engine's op queue. -/
def State.colq (s : State) : Nat := s.get F.PLT_CTL_COLQ

/-- The HBM offset of descriptor `i` of queue `q`. -/
def State.descAt (s : State) (q i : Nat) : Nat := s.get (F.PLT_OQ_RING_BASE q) * 4096 + 128 * (i % s.oqN q)
/-- The HBM offset of its completion record. -/
def State.cplAt (s : State) (q i : Nat) : Nat := s.get (F.PLT_OQ_CPL_BASE q) * 4096 + 32 * (i % s.oqN q)

/-- `s` with a new TAIL in effect: the descriptors it makes visible have this turn as their visible turn (R132). -/
def State.setOqTail (s : State) (q tail : Nat) : State :=
  let n2 := 2 * s.oqN q
  let new := ringUsed (s.oqN q) (s.oqTail q) tail
  let add := (List.range new).map (fun k => (q, (s.oqTail q + k) % n2, s.now))
  { s with plate := { s.plate with visible := s.plate.visible ++ add } }.put (F.PLT_OQ_IDX_TAIL q) (tail % n2)

/-- Op queue `q`'s TAILs are held for counterproof (R395). -/
def State.oqGated (s : State) (q : Nat) : Bool := s.flag F.TWN_CTL_EN && bitAt (s.reg (Reg.TWN_GATE (q / 64))).toNat (q % 64)

/-- `s` with TAIL of op queue `q` advanced, or the advance held by a gate (R395). -/
def State.gateTail (s : State) (q tail : Nat) : State :=
  if s.oqGated q then
    { s with plate := { s.plate with gated := s.plate.gated.filter (fun x => x.1 != q) ++ [(q, tail)] } }
  else s.setOqTail q tail

/-- `s` with a TAIL advance of op queue `q` by software: taken, held by a gate, or, of the collective op queue, discarded
and counted (R131-R133, R395). Of a TAIL that puts more entries in the ring than it holds, a host error, what TAIL then holds
is a free value (notes/assumptions/67). -/
def State.advanceOq (s : State) (q tail : Nat) : State :=
  if q = s.colq then s.count F.PLT_CNT_COLQ_REJ 1
  else if tailOver (s.oqN q) (s.oqHead q) tail then
    s.freeNext.put (F.PLT_OQ_IDX_TAIL q) (s.free 17 % (2 * s.oqN q))
  else s.gateTail q tail

/-- The write rule of PLT_OQ_IDX: any write for the collective op queue is discarded and counted (R133). -/
def hookOqIdx (q : Nat) (s : State) (w : RegWrite) : State :=
  if q = s.colq then s.count F.PLT_CNT_COLQ_REJ 1
  else if w.newF (F.PLT_OQ_IDX_TAIL q) = w.oldF (F.PLT_OQ_IDX_TAIL q) then s
  else s.advanceOq q (w.newF (F.PLT_OQ_IDX_TAIL q))

/-- `s` with every gated TAIL visible (R395, R398). -/
def State.releaseGated (s : State) : State :=
  let g := s.plate.gated
  g.foldl (fun s x => s.setOqTail x.1 x.2) { s with plate := { s.plate with gated := [] } }

/-! ### Readiness (R134, R139) -/

/-- Descriptors from `i` on that form one chain, among `n` visible ones: none where its last member is not visible, unless
a ninth linked member already shows it malformed. -/
def chainFrom (rd : Nat → List Byte) : Nat → Nat → List (List Byte) → Option (List (List Byte))
  | 0, _, acc => if 8 < acc.length then some acc else none
  | n + 1, i, acc =>
    let d := rd i
    if dLink d then chainFrom rd n (i + 1) (acc ++ [d]) else some (acc ++ [d])

/-- The chain at the head of queue `q`, all of whose members are visible. -/
def State.chainAt (s : State) (q : Nat) : Option (List (List Byte)) :=
  chainFrom (fun i => s.memBytes (s.descAt q i) 128) (s.oqWaiting q) (s.oqHead q) []

/-- Queue `q` is ready: enabled, owned by the plate end-point, with something to run. -/
def State.oqReady (s : State) (q : Nat) : Bool :=
  s.flag (F.PLT_OQ_CFG_EN q) && s.owner q == some 17 &&
    (s.plate.saved.any (fun o => o.queue == q) ||
      (if q = s.colq then !s.plate.jobs.isEmpty else (s.chainAt q).isSome))

/-- Another queue than `q` is ready. -/
def State.otherReady (s : State) (q : Nat) : Bool := (List.range 512).any (fun x => x != q && s.oqReady x)

/-- The next queue in round-robin order. -/
def State.nextQueue (s : State) : Option Nat :=
  let l := (List.range 512).filter s.oqReady
  match l.find? (fun q => decide (s.plate.last < q)) with
  | some q => some q
  | none => l.head?

/-! ### The array's phase -/

/-- The array does nothing: it is frozen (R448, R452), or stopped by counterproof (R396) or by burnish (R370). -/
def State.arrayHeld (s : State) : Bool := s.flag F.PWR_STAT_FROZEN || s.twnStopped || s.flag F.SEC_BURN_ACTIVE

/-- A slot frame boundary (R130). -/
def State.slotFrame (s : State) : Bool := s.now % 16 == 0

/-- Nothing asked for is outstanding, and every piece of a GATHER_GEMM has been found ready. -/
def PlateOp.allIn (o : PlateOp) : Bool :=
  o.wanted.isEmpty && (dOp o.desc != plGGemm || decide (gmP o.desc ≤ o.ready.length))

/-- PLT_STAT for a phase and an operation (Table 6-9): a stroke waits while an operand or a READY-gated piece is missing. -/
def plateStat (ph : PlatePhase) (o : Option PlateOp) : Word :=
  match o with
  | none => 0
  | some o =>
    let waiting := match ph with
      | .stroke _ => !o.allIn
      | .idle | .planning _ | .writing _ _ | .retiring _ | .saving _ | .restoring _ => false
    let saving := match ph with
      | .saving _ | .restoring _ => true
      | .idle | .planning _ | .writing _ _ | .retiring _ | .stroke _ => false
    BitVec.ofNat 64 (o.stroke % 65536 * 2 ^ 48 + o.queue * 2 ^ 32 + o.index % 65536 * 2 ^ 16 + 4 * b2n saving + 2 * b2n waiting + 1)

/-- A host page that queue `q`'s stroke is about to write has no translation yet. -/
def State.hostPending (s : State) (q : Nat) : Bool :=
  s.att.any (fun x => x.2.accesses.any (fun h => h.use == .plateOut q))

/-- PLT_STAT as it reads: WAITING also while a host page that the stroke is about to write is being translated (R143, R147). -/
def State.plateView (s : State) (v : Word) : Word :=
  match s.plate.phase, s.plate.op with
  | .stroke _, some o => if s.hostPending o.queue then v ||| 2 else v
  | _, _ => v

/-- `s` with the array's phase and operation set, and PLT_STAT showing them. -/
def State.setArray (s : State) (ph : PlatePhase) (o : Option PlateOp) : State :=
  { s with plate := { s.plate with phase := ph, op := o } }.setReg Reg.PLT_STAT (plateStat ph o)

/-- `s` with the operation changed. -/
def State.setOp (s : State) (o : PlateOp) : State := s.setArray s.plate.phase (some o)

/-- An operation with a failing status: the first stands (R143). -/
def PlateOp.failWith (o : PlateOp) (st : Nat) : PlateOp := { o with fail := some (o.fail.getD st) }

/-- The operation ends at its next chance. -/
def PlateOp.ending (o : PlateOp) : Bool := o.fail.isSome || o.aborted

/-- First plaintext granules of the operation's bound-set slots. -/
def State.opBase (s : State) (o : PlateOp) : Nat → Nat := s.bsetFirst o.bset o.desc

/-- The operation is Fixed (R140). -/
def State.opFixed (s : State) (o : PlateOp) : Bool := o.job.isNone && dFixed s.member o.desc

/-- Turns of the current stroke as planned. -/
def State.strokeTurns (s : State) (o : PlateOp) : Nat :=
  match o.job with
  | some (_, t) => t
  | none => dStrokeTurns s.member (s.opBase o) o.desc o.stroke

/-! ### Reads of a stroke (R126, R140, R143, R200) -/

/-- `s` with keys of the current operation requested over the fabric, a granule at a time. -/
def State.fetchKeys (s : State) (o : PlateOp) (ks : List Nat) : State :=
  let s1 := s.setOp { o with wanted := o.wanted ++ ks }
  ks.foldl (fun s x =>
    s.issueMemory o.queue opLoad (granAddr o.desc (keySlot x) (keyIndex x)) 32 [] 0 (.fetch o.queue (keySlot x) (keyIndex x))) s1

/-- The remote keys among `ks`. -/
def State.remoteKeys (s : State) (d : List Byte) (ks : List Nat) : List Nat :=
  ks.filter (fun x => granRemote s.member d (keySlot x) (keyIndex x))

/-- The streamed keys of the current stroke; GATHER_GEMM's pieces wait for their flags. -/
def PlateOp.streamKeys (o : PlateOp) : List Nat :=
  let ks := (refKeys (streamRefs o.desc o.stroke)).eraseDups
  if dOp o.desc = plGGemm then ks.filter (fun x => keySlot x != 1) else ks

/-- `s` with local operands `ks` in hand; a wrong tag fails the operation (R367). -/
def State.takeLocal (s : State) (o : PlateOp) (ks : List Nat) : State × PlateOp :=
  let r := s.readKeys o.desc o.bset o.fetched ks
  let o1 := { o with fetched := r.got }
  (r.state, if r.tagBad then o1.failWith 0x23 else o1)

/-- The PEER pages of this device's own port that the current stroke writes (R143): port, IOVA page. -/
def State.peerPages (s : State) (o : PlateOp) (outs : GranMap) : List (Nat × Nat) :=
  (outs.filterMap (fun (x, _) =>
    let a := granAddr o.desc (keySlot x) (keyIndex x)
    if !(dSlot o.desc (keySlot x)).isChain && addrMember a == s.member && addrKind a == 2 then
      let p := s.servingPort (kindEp 2 (addrOffset a))
      some (p, (s.get (F.ATT_PEER_BASE_BASE p) * 4096 + bitsOf (addrOffset a) 48 0) % 2 ^ 64 / 4096)
    else none)).eraseDups

/-- A PEER output of the current stroke that this device's own aperture refuses: the port is closed, or the range passes its
size (R326). It ends the operation as a failed translation does, before its write-out (R143). -/
def State.peerRefused (s : State) (o : PlateOp) (outs : GranMap) : Bool :=
  outs.any (fun (x, _) =>
    let a := granAddr o.desc (keySlot x) (keyIndex x)
    if !(dSlot o.desc (keySlot x)).isChain && addrMember a == s.member && addrKind a == 2 then
      let p := s.servingPort (kindEp 2 (addrOffset a))
      !s.flag (F.ATT_PEER_CFG_EN p) || !s.portOn p || decide (s.apertureSize p < bitsOf (addrOffset a) 48 0 + 32)
    else false)

/-- The HBM stream units may serve the operation: HBM is open, or none of its operands lies there (R305). -/
def State.streamOpen (s : State) (o : PlateOp) : Bool :=
  s.hbmOpen || !(dSlots o.desc).any (fun p => p.memory && addrMember p.addr == s.member && addrKind p.addr == 0)

/-- What the current stroke computes from what is in hand. -/
def State.opResult (s : State) (o : PlateOp) : StrokeOut := runStroke s.member o.desc o.stroke (granRead o.fetched) o.carry

/-- `s` with the reads of the current stroke carried as far as they can be: streamed operands, then those at
data-dependent addresses, then the host pages it is about to write. While HBM is closed or the array is held, the stream units hold
(R305, R448). -/
def State.gather : Nat → State → State
  | 0, s => s
  | fuel + 1, s =>
    match s.plate.op with
    | none => s
    | some o =>
      if s.arrayHeld || o.ending || o.job.isSome || !o.allIn || decide (2 ≤ o.stage) || !s.streamOpen o then s
      else if o.stage = 0 then
        let (s1, o1) := s.takeLocal o o.streamKeys
        let far := s1.remoteKeys o1.desc (refKeys (dependRefs s1.member o1.desc o1.stroke (granRead o1.fetched))).eraseDups
        State.gather fuel ((s1.setOp { o1 with stage := 1 }).fetchKeys { o1 with stage := 1 } (far.filter (fun x => !hasGran o1.fetched x)))
      else
        let ks := (refKeys (dependRefs s.member o.desc o.stroke (granRead o.fetched))).eraseDups
        let (s1, o1) := s.takeLocal o ks
        let outs := ((s1.setOp o1).opResult o1).outs
        let o2 := { o1 with stage := 2 }
        let s2 := s1.setOp (if s1.peerRefused o1 outs then o2.failWith 0x41 else o2)
        (if s1.peerRefused o1 outs then [] else s2.peerPages o1 outs).foldl (fun s p =>
          (s.addAccess p.1 (s.get (F.ATT_PEER_CFG_PASID p.1)) (4096 * p.2) 32 true (.plateOut o1.queue)).attPump p.1) s2

/-- `s` with the current stroke started. -/
def State.startStroke (s : State) (o : PlateOp) : State :=
  let o1 := { o with
    fetched := [], stage := 0, wanted := [], outs := [], pendingOut := 0, ready := [], progressAt := s.clk
    arrivedAt := 0, pieceAt := [] }
  let s1 := s.setArray (.stroke s.clk) (some o1)
  if s1.opFixed o1 || o1.job.isSome then s1
  else State.gather 3 (s1.fetchKeys o1 (s1.remoteKeys o1.desc o1.streamKeys))

/-- Operation `o` with key `x` arrived in turn `t`: a piece of a GATHER_GEMM is there with its last granule (R140, R200). -/
def PlateOp.arrive (o : PlateOp) (x t : Nat) : PlateOp :=
  let n := max 1 (gmGPiece o.desc)
  if dOp o.desc = plGGemm ∧ keySlot x = 1 then
    if o.wanted.any (fun y => keySlot y == 1 && keyIndex y / n == keyIndex x / n) then o
    else { o with pieceAt := o.pieceAt ++ [t] }
  else { o with arrivedAt := t }

/-- `s` told how the LOAD of a remote operand ended. -/
def State.fetchDone (s : State) (q slot gran : Nat) (d : Done) : State :=
  match s.plate.op with
  | none => s
  | some o =>
    let x := gkey slot gran
    if o.queue ≠ q ∨ ¬ x ∈ o.wanted then s
    else
      let o1 := ({ o with
        wanted := o.wanted.filter (· != x), retries := o.retries + d.frame.tries
        delayed := o.delayed || decide (0 < d.delay) } : PlateOp).arrive x s.clk
      let o2 := if isSuccess d.status || d.status == 0x30 then
          { o1 with fetched := putGran o1.fetched x { data := sliceD 0 d.data 0 32, poison := d.poison || d.status == 0x30 } }
        else o1.failWith d.status
      State.gather 3 (s.setOp o2)

/-- `s` told how an output request ended, or that a host page has no translation (R143). An atomic answered Poisoned has not failed:
the operation ends Poisoned, at its end. -/
def State.plateOutDone (s : State) (q : Nat) (d : Done) : State :=
  match s.plate.op with
  | none => s
  | some o =>
    if o.queue ≠ q then s
    else
      let o1 := { o with
        pendingOut := o.pendingOut - 1, retries := o.retries + d.frame.tries, delayed := o.delayed || decide (0 < d.delay) }
      match s.plate.phase with
      | .stroke _ => s.setOp (o.failWith d.status)
      | .writing _ _ => s.setOp (
          if isSuccess d.status then o1 else if d.status = 0x30 then { o1 with poisoned := true } else o1.failWith d.status)
      | .retiring _ => s.setOp { o with pendingOut := o.pendingOut - 1 }
      | .idle | .planning _ | .saving _ | .restoring _ => s

/-! ### Load shaping (R445-R447) -/

/-- The stagger slot in use. -/
def State.staggerSlot (s : State) : Nat :=
  if s.flag F.TWN_CTL_EN then min s.member (s.get F.TWN_CTL_PEER_MEMBER) % 8 else s.member % 8

/-- The fill step that a ramp has reached. -/
def State.rampNow (s : State) : Nat :=
  let st := (s.clk - s.pwr.rampAt) / 8
  match s.get F.PWR_STAT_ARRAY with
  | 0 => 0
  | 1 => min 8 (s.pwr.rampStep + st)
  | 2 => 8
  | _ => s.pwr.rampStep - st

/-- `s` with the array ramping up or down from its current step. -/
def State.ramp (s : State) (up : Bool) : State :=
  { s with pwr := { s.pwr with rampAt := s.clk, rampStep := s.rampNow } }.put F.PWR_STAT_ARRAY (if up then 1 else 3)

/-- A selection may be made now: from IDLE or RAMP_DOWN only in the stagger slot (R446). -/
def State.staggerOk (s : State) : Bool :=
  let idle := s.get F.PWR_STAT_ARRAY == 0 || s.get F.PWR_STAT_ARRAY == 3
  !(idle && s.flag F.PWR_CTL_STAGGER_EN) || s.now / 16 % 8 == s.staggerSlot

/-! ### Fetch, plan, save and restore (R130, R134-R136) -/

/-- `s` with the current member of an operation fetched: HEAD passes it, it becomes a user of the bound set that it names (R369), and
its plan begins. -/
def State.fetchMember (s : State) (o : PlateOp) : State :=
  let hold := s.bsetOf o.desc
  let s0 := match hold.getD none with
    | some e => s.useSet e
    | none => s
  let s1 := s0.setArray (.planning s0.clk) (some { o with hold := hold, warned := o.warned || s0.flag F.PWR_STAT_WARN })
  { s1 with plate := { s1.plate with visible := s1.plate.visible.filter (fun v => !(v.1 == o.queue && v.2.1 == o.index)) } }.put
    (F.PLT_OQ_IDX_HEAD o.queue) ((o.index + 1) % (2 * s1.oqN o.queue))

/-- The visible turn of descriptor `i` of queue `q`. -/
def State.visibleAt (s : State) (q i : Nat) : Nat :=
  ((s.plate.visible.find? (fun v => v.1 == q && v.2.1 == i)).map (·.2.2)).getD s.now

/-- `s` with the next operation of queue `q` begun: a reduction of the collective engine, or the chain at its head. -/
def State.beginOp (s : State) (q : Nat) : State :=
  if q = s.colq then
    match s.plate.jobs with
    | [] => s
    | j :: js =>
      { s with plate := { s.plate with jobs := js } }.fetchMember
        { queue := q, index := s.oqHead q, chain := [], visible := [s.visibleAt q (s.oqHead q)], strokes := 1, job := some j }
  else match s.chainAt q with
    | none => s
    | some c =>
      let h := s.oqHead q
      let n2 := 2 * s.oqN q
      let (bad, s1) := (List.range c.length).foldl (fun (acc : Bool × State) i =>
        let (_, p, t) := acc.2.hbmFetch (s.descAt q (h + i)) 128
        (acc.1 || p, t)) (false, s)
      s1.fetchMember
        { queue := q, index := h, chain := c, malformed := bad || chainBad c,
          visible := (List.range c.length).map (fun i => s.visibleAt q ((h + i) % n2)) }

/-- Turns of a save or restore of a chain's carried state. -/
def carryTurns (chain : List (List Byte)) : Nat := 16 * ceilDiv (carrySize chain) 0x200000

/-- The HBM granules of queue `q`'s carry area that a chain's carried state fills (R136). -/
def State.carryGranules (s : State) (o : PlateOp) : List Nat :=
  let g0 := s.get (F.PLT_OQ_CARRY_BASE o.queue) * 65536
  ((List.range (carrySize o.chain / 32)).map (g0 + ·)).filter (fun g => decide (32 * (g + 1) ≤ hbmSize))

/-- `s` with the carried state of an operation written to its carry area. The spec gives no layout of it, so what each granule
there holds is a free value; the state itself is kept with the operation (notes/assumptions/58). -/
def State.writeCarry (s : State) (o : PlateOp) : State :=
  (s.carryGranules o).foldl (fun s g => (s.freeNext.activate (32 * g)).hbmStoreGranule g 0 (toBytesLE 32 (s.free 256)) false) s

/-- The carried state read back: whether any of it came poisoned, and the state after. -/
def State.readCarry (s : State) (o : PlateOp) : Bool × State :=
  (s.carryGranules o).foldl (fun (acc : Bool × State) g =>
    let (_, p, t) := (acc.2.activate (32 * g)).memLoad g
    (acc.1 || p, t)) (false, s)

/-- A new round begins now with the length in force. -/
def State.newRound (s : State) : State := { s with plate := { s.plate with roundAt := s.clk, expired := false } }

/-- `s` with the operation left partway: its carried state is being saved. -/
def State.startSave (s : State) (o : PlateOp) : State := s.setArray (.saving (s.clk + carryTurns o.chain)) (some o)

/-- The round has expired and another queue waits. -/
def State.mustYield (s : State) (q : Nat) : Bool := s.plate.expired && s.otherReady q

/-- `s` with the operation's retire begun; a remote evidence block goes out first (R142). -/
def State.startRetire (s : State) (o : PlateOp) : State :=
  let ev := dEvid o.desc
  let far := o.bset.isSome && !(addrMember ev == s.member && decide (addrKind ev ≤ 1))
  if far then
    let n := (pieces ev 64 0 64).length
    let s1 := s.setArray (.retiring s.clk) (some { o with pendingOut := o.pendingOut + n })
    s1.issueMemory o.queue opStore ev 64 (o.evidence (s.bsetHash (o.bset.getD 0))) 0 (.plate o.queue)
  else s.setArray (.retiring s.clk) (some o)

/-- `s` with a queue selected: a saved operation is restored, or, where it was aborted meanwhile, ended (Table 6-6). -/
def State.selectQueue (s : State) (q : Nat) : State :=
  let len := max 256 (s.get F.PLT_CTL_ROUND / 16 * 16)
  let s0 := { s with plate := { s.plate with last := q, roundLen := len } }.newRound
  let s1 := if s0.get F.PWR_STAT_ARRAY = 0 ∨ s0.get F.PWR_STAT_ARRAY = 3 then s0.ramp true else s0
  match s1.plate.saved.find? (fun o => o.queue == q) with
  | some o =>
    let s2 := { s1 with plate := { s1.plate with saved := s1.plate.saved.filter (fun x => x.queue != q) } }
    if o.aborted then s2.startRetire o else s2.setArray (.restoring (s2.clk + carryTurns o.chain)) (some o)
  | none => s1.beginOp q

/-- `s` with an array that has nothing to run ramping down (R445, R454). -/
def State.rampIdle (s : State) : State := if s.get F.PWR_STAT_ARRAY = 1 ∨ s.get F.PWR_STAT_ARRAY = 2 then s.ramp false else s

/-- QUEUE_SELECT: no selection is made under a supply warning, and the array ramps down (R454). -/
def State.doQueueSelect (s : State) : State :=
  if s.plate.phase ≠ .idle ∨ s.arrayHeld = true ∨ s.slotFrame = false then s
  else if s.flag F.PWR_STAT_WARN then s.rampIdle
  else if s.flag F.PLT_CTL_EN = false ∨ s.hbmOpen = false then s
  else match s.nextQueue with
    | some q => if s.staggerOk then s.selectQueue q else s
    | none => s.rampIdle

/-- The active collective that a GATHER_GEMM is bound to (R226). -/
def State.boundColl (s : State) (o : PlateOp) : Option Coll :=
  if o.job.isNone ∧ dOp o.desc = plGGemm then
    s.col.active.find? (fun c => bitAt (bytesAt c.desc 1 1) 2 && bytesAt c.desc 104 8 == (dSlot o.desc 2).addr &&
      bytesAt c.desc 40 8 == dP o.desc 120 8)
  else none

/-- The same, while its outcome is open. -/
def State.boundTo (s : State) (o : PlateOp) : Option Coll := (s.boundColl o).filter (fun c => c.outcome.isNone)

/-- The collective it is bound to has been resigned (R227). -/
def State.boundResigned (s : State) (o : PlateOp) : Bool :=
  ((s.boundColl o).map (fun c => (c.outcome.map (fun x => !x.completed)).getD false)).getD false

/-- PLAN_DONE: 64 turns after the fetch. A descriptor's reserved bytes are read by nothing (R7; notes/assumptions/67). -/
def State.doPlanDone (s : State) : State :=
  match s.plate.phase, s.plate.op with
  | .planning since, some o =>
    if s.arrayHeld ∨ s.slotFrame = false ∨ s.clk < since + 64 then s
    else if o.job.isSome then
      if o.ending ∨ o.warned then s.startRetire { o with aborted := true } else s.startStroke o
    else
      let d := o.desc
      let hit := s.plate.aborts.any (fun a => a.1 == o.queue && a.2 == o.index)
      let s1 := { s with plate := { s.plate with aborts := s.plate.aborts.filter (fun a => !(a.1 == o.queue && a.2 == o.index)) } }
      let o1 := { o with aborted := o.aborted || hit || o.warned }
      if o1.malformed then s1.startRetire (o1.failWith 0x23)
      else if o1.ending then s1.startRetire o1
      else if s1.planRefused o.queue o.chain d o1.hold then s1.startRetire (o1.failWith 0x23)
      else
        let o2 := { o1 with strokes := dStrokes d, bset := o1.hold.getD none }
        if s1.boundResigned o2 then s1.startRetire { o2.failWith 0x31 with tainted := true } else s1.startStroke o2
  | _, _ => s

/-! ### Write-out and stroke end (R129, R143, R177, R226) -/

/-- An output granule as it is written: a poisoned one holds a free value, except that COPY moves it as it is. -/
def State.outGranule (s : State) (d : List Byte) (g : Granule) : Granule × State :=
  if g.poison && dOp d != plCopy then ({ data := toBytesLE 32 (s.free 256), poison := true }, s.freeNext) else (g, s)

/-- `s` with the outputs of a stroke fixed, poisoned ones with free values. -/
def State.fixOuts (s : State) (d : List Byte) (outs : GranMap) : GranMap × State :=
  outs.foldl (fun (acc : GranMap × State) e =>
    let (g, s1) := acc.2.outGranule d e.2
    (putGran acc.1 e.1 g, s1)) ([], s)

/-- Cycles of the cell steps that use one piece of a GATHER_GEMM. -/
def PlateOp.pieceCost (o : PlateOp) : Nat :=
  if dOp o.desc = plGGemm then macCost o.desc (gmM o.desc * gmN o.desc * (gmK o.desc / max 1 (gmP o.desc))) else 0

/-- The cycle in which the cell steps that use operands from outside are done: they wait for its arrival (R140). Those of a
GATHER_GEMM's piece wait for the piece and for the steps of the pieces before it; of any other operand, all of the stroke's steps are
taken to use it (DEDUCED, notes/assumptions/58). -/
def State.cellsDone (s : State) (o : PlateOp) : Nat :=
  if dOp o.desc = plGGemm then o.pieceAt.foldl (fun t a => max t (8 * max a o.arrivedAt) + o.pieceCost) 0
  else 8 * o.arrivedAt + dCells s.member (s.opBase o) o.desc o.stroke

/-- WRITE_OUT_START: every operand is in hand, every cell step done, and no bound collective is open. Outputs that leave
the device go out now. -/
def State.doWriteOutStart (s : State) : State :=
  match s.plate.phase, s.plate.op with
  | .stroke since, some o0 =>
    if s.arrayHeld ∨ o0.ending = true ∨ o0.job.isSome = true ∨ s.clk < since + dBefore s.member (s.opBase o0) o0.desc o0.stroke / 8 ∨
        s.clk < s.cellsDone o0 / 8 then s
    else
      let s1 := State.gather 3 s
      match s1.plate.op with
      | none => s1
      | some o =>
        if o.ending ∨ o.stage < 2 ∨ s1.hostPending o.queue = true ∨ (s1.boundTo o).isSome = true then s1
        else
          let r := s1.opResult o
          if r.fault then s1.setOp (o.failWith 0x23)
          else
            let (outs, s2) := s1.fixOuts o.desc (if o.carryBad then r.outs.map (fun e => (e.1, { e.2 with poison := true })) else r.outs)
            let far := outs.filter (fun e => granRemote s2.member o.desc (keySlot e.1) (keyIndex e.1))
            let o1 := { o with
              outs := outs, carry := r.carry, pendingOut := far.length + r.atomics.length
              poisoned := o.poisoned || o.carryBad || o.fetched.any (fun e => e.2.poison) }
            let s3 := s2.setArray (.writing since s2.clk) (some o1)
            let s4 := far.foldl (fun s e =>
              s.issueGranule o.queue (slotRight s.member o.desc (keySlot e.1)) (granAddr o.desc (keySlot e.1) (keyIndex e.1)) e.2
                (.plate o.queue)) s3
            r.atomics.foldl (fun s a => s.issueData o.queue a.op a.addr 8 (toBytesLE 32 a.data) a.xfmt a.poison (.plate o.queue)) s4
  | _, _ => s

/-- `s` with a stroke done: the next stroke, a save, or the retire follows. -/
def State.afterStroke (s : State) (o : PlateOp) : State :=
  if o.ending || decide (o.strokes ≤ o.stroke) then s.startRetire o
  else if s.mustYield o.queue then s.startSave o
  else (if s.plate.expired then s.newRound else s).startStroke o

/-- The turns that an ended stroke adds to ACTIVE: as planned for a Fixed operation, as measured otherwise. -/
def State.strokeActive (s : State) (o : PlateOp) (since : Nat) : Nat :=
  if s.opFixed o then s.strokeTurns o else s.clk - since

/-- The turn at which a write-out begun at `at'`, of a stroke begun at `since`, is complete as planned. -/
def State.strokeDue (s : State) (o : PlateOp) (since at' : Nat) : Nat :=
  max (since + s.strokeTurns o) (at' + dAfter s.member (s.opBase o) o.desc o.stroke / 8)

/-- STROKE_END: the write-out is complete, or the stroke is given up. -/
def State.doStrokeEnd (s : State) : State :=
  if s.arrayHeld ∨ s.slotFrame = false then s
  else match s.plate.phase, s.plate.op with
    | .writing since at', some o =>
      if s.clk < s.strokeDue o since at' ∨ o.pendingOut ≠ 0 ∨ s.streamOpen o = false then s
      else
        let t := s.strokeActive o since
        if o.fail.isSome then s.startRetire { o with active := o.active + t }
        else
          let s1 := o.outs.foldl (fun s e => (s.writePlace (granPlace s.member o.desc (keySlot e.1) (keyIndex e.1)) e.2).twnPlate e.2) s
          let o1 := { o with
            written := o.outs.foldl (fun m e => putGran m e.1 e.2) o.written, stroke := o.stroke + 1, active := o.active + t
            aborted := o.aborted || o.warned }
          s1.afterStroke o1
    | .stroke since, some o =>
      if o.job.isSome then
        if s.clk < since + s.strokeTurns o then s
        else s.startRetire { o with stroke := 1, active := o.active + (s.clk - since), aborted := o.aborted || o.warned }
      else if o.ending && o.wanted.isEmpty && !s.hostPending o.queue &&
          (o.aborted || !s.opFixed o || decide (since + s.strokeTurns o ≤ s.clk)) then
        s.startRetire { o with active := o.active + (s.clk - since) }
      else s
    | _, _ => s

/-- ROUND_EXPIRE (R135). -/
def State.doRoundExpire (s : State) : State :=
  match s.plate.op with
  | some o =>
    if s.clk < s.plate.roundAt + s.plate.roundLen ∨ s.plate.expired = true then s
    else if s.otherReady o.queue then { s with plate := { s.plate with expired := true } }
    else s.newRound
  | none => s

/-- CARRY_SAVE_DONE (R136): the carried state is in the carry area. -/
def State.doCarrySaveDone (s : State) : State :=
  match s.plate.phase, s.plate.op with
  | .saving due, some o =>
    if s.arrayHeld ∨ s.slotFrame = false ∨ s.clk < due ∨ s.hbmOpen = false then s
    else
      let s1 := s.writeCarry o
      let o1 := { o with bufs := s1.plate.chainBufs }
      ({ s1 with plate := { s1.plate with saved := s1.plate.saved ++ [o1], chainBufs := [] } }.setArray .idle none).count
        F.PLT_CNT_PREEMPT 1
  | _, _ => s

/-- CARRY_RESTORE_DONE (R136): the carried state is read back; where it comes poisoned, everything computed from it is. -/
def State.doCarryRestoreDone (s : State) : State :=
  match s.plate.phase, s.plate.op with
  | .restoring due, some o =>
    if s.arrayHeld ∨ s.slotFrame = false ∨ s.clk < due ∨ s.hbmOpen = false then s
    else
      let (bad, s0) := s.readCarry o
      let o1 := { o with aborted := o.aborted || o.warned, carryBad := o.carryBad || bad, bufs := [] }
      let s1 := { s0 with plate := { s0.plate with
        chainBufs := if bad then o.bufs.map (fun (e : Nat × Granule) => (e.1, ({ e.2 with poison := true } : Granule))) else o.bufs } }
      if o1.aborted then s1.startRetire o1
      else if o1.strokes = 0 then s1.fetchMember o1
      else s1.startStroke o1
  | _, _ => s

/-! ### Retire (R142-R144) -/

/-- `s` with a completion record counted (Table 6-12). -/
def State.countOp (s : State) (o : PlateOp) : State :=
  let s1 := s.count F.PLT_CNT_OPS 1
  if o.stretched then s1.count F.PLT_CNT_STRETCHED 1 else s1

/-- `s` with the record of a REDUCE of the collective engine written (R142, R212). The spec does not give the descriptor that
the engine submits: its DESC_ID and the digest of what it writes are free values (notes/assumptions/30). -/
def State.writeJobRecord (s : State) (o : PlateOp) : State :=
  let now := s.now
  let bytes := toBytesLE 1 o.status ++ toBytesLE 1 (2 * b2n o.stretched) ++ toBytesLE 2 0 ++ toBytesLE 2 (s.free 16) ++
    toBytesLE 2 o.stroke ++ toBytesLE 8 now ++ toBytesLE 4 (min (2 ^ 32 - 1) (now - o.visible.getD 0 now - o.activeTurns)) ++
    toBytesLE 4 o.activeTurns ++ toBytesLE 8 (s.freeNext.free 64)
  let s1 := s.freeNext.freeNext
  let off := s1.cplAt o.queue o.index
  (if off + 32 ≤ hbmSize then s1.hbmStore off bytes false else s1).countOp o

/-- `s` with the record of operation `o` written, and the evidence block before it where it lies on this device; none is
written outside the offsets that plate operations address (R17, R62; notes/assumptions/58). -/
def State.writeRecord (s : State) (o : PlateOp) : State :=
  let ev := dEvid o.desc
  let near := o.bset.isSome && addrMember ev == s.member
  let bytes := o.evidence (s.bsetHash (o.bset.getD 0))
  let s1 := if near && addrKind ev == 0 && decide (addrOffset ev + 64 ≤ hbmSize) then s.hbmStore (addrOffset ev) bytes false
    else if near && addrKind ev == 1 && plateRange (addrOffset ev) 64 then
      ((chunks 32 bytes).zipIdx).foldl (fun s x => s.plateStoreGranule (addrOffset ev / 32 + x.2) 0 x.1 false) s
    else s
  let off := s1.cplAt o.queue o.index
  let s2 := if off + 32 ≤ hbmSize then s1.hbmStore off (o.record s1.member s1.now) false else s1
  let s4 := s2.countOp o
  let s5 := match o.hold.getD none with
    | some e => s4.freeSet e
    | none => s4
  let n := ((s5.plate.retired.find? (fun x => x.1 == o.queue)).map (·.2)).getD 0
  let s6 := { s5 with plate := { s5.plate with retired := s5.plate.retired.filter (fun x => x.1 != o.queue) ++ [(o.queue, n + 1)] } }
  if dNotify o.desc then s6.raiseVector (s6.get (F.PLT_OQ_CFG_PORT o.queue)) (o.queue % 64) else s6

/-- The next member of a chain after one that ended with `st`: not run where `st` is outside 0x01-0x03 and 0x30 (R139,
R146). -/
def PlateOp.nextMember (o : PlateOp) (n2 st : Nat) : PlateOp :=
  { queue := o.queue, index := (o.index + 1) % n2, chain := o.chain, member := o.member + 1, visible := o.visible,
    malformed := o.malformed,
    fail := if isSuccess st || st == 0x30 || o.malformed then none else if st = 0x33 then some 0x33 else some 0x31 }

/-- `s` with the array free of its operation: the queue's next one, or none. -/
def State.afterOp (s : State) (q : Nat) : State :=
  let s1 := { s with plate := { s.plate with chainBufs := [] } }.setArray .idle none
  if s1.flag F.PWR_STAT_WARN || s1.mustYield q || !s1.oqReady q || s1.plate.saved.any (fun o => o.queue == q) then s1
  else (if s1.plate.expired then s1.newRound else s1).beginOp q

/-- OPERATION_RETIRE: 32 turns after the last stroke, every request of the operation ended. -/
def State.doOperationRetire (s : State) : State :=
  match s.plate.phase, s.plate.op with
  | .retiring since, some o =>
    if s.arrayHeld ∨ s.slotFrame = false ∨ s.clk < since + 32 ∨ o.pendingOut ≠ 0 ∨ o.wanted ≠ [] ∨ s.hbmOpen = false then s
    else match o.job with
      | some (cseq, _) =>
        let s1 := s.writeJobRecord o
        { s1 with plate := { s1.plate with jobsDone := s1.plate.jobsDone ++ [(cseq, o.status)] } }.afterOp o.queue
      | none =>
        let s1 := s.writeRecord o
        if o.member + 1 < o.chain.length then
          let o1 := o.nextMember (2 * s1.oqN o.queue) o.status
          if s1.mustYield o.queue then s1.startSave o1 else s1.fetchMember o1
        else s1.afterOp o.queue
  | _, _ => s

/-! ### Abort (R145, R146, Table 6-6) -/

/-- `s` with PLT_ABORT_RES set. -/
def State.abortResult (s : State) (q ix st strokes : Nat) : State :=
  s.setReg Reg.PLT_ABORT_RES (BitVec.ofNat 64 (strokes % 65536 * 2 ^ 48 + ix % 2 ^ 17 * 2 ^ 31 + q % 512 * 256 + st))

/-- A later member of an operation's chain has ring index `ix`. -/
def PlateOp.laterMember (o : PlateOp) (n2 ix : Nat) : Bool :=
  (List.range (o.chain.length - o.member)).any (fun k => decide (0 < k) && (o.index + k) % n2 == ix)

/-- Strokes that an operation aborted now will have completed: one whose write-out has begun counts. -/
def State.abortStrokes (s : State) (o : PlateOp) : Nat :=
  match s.plate.phase with
  | .writing _ _ => if o.fail.isSome then o.stroke else o.stroke + 1
  | .idle | .planning _ | .stroke _ | .retiring _ | .saving _ | .restoring _ => o.stroke

/-- The operation's retire point is in or before this turn: its last output granule has been performed (R145). -/
def State.pastRetire (s : State) (o : PlateOp) : Bool :=
  match s.plate.phase with
  | .retiring _ => true
  | .writing since at' =>
    decide (o.strokes ≤ o.stroke + 1) && o.fail.isNone && o.pendingOut == 0 && !s.arrayHeld && s.streamOpen o &&
      decide (s.strokeDue o since at' ≤ s.clk)
  | .idle | .planning _ | .stroke _ | .saving _ | .restoring _ => false

/-- `s` with an abort of descriptor `ix` of queue `q` observed. -/
def State.abortOp (s : State) (q ix : Nat) : State :=
  let n := s.oqN q
  let later := fun (o : PlateOp) => o.queue == q && o.laterMember (2 * n) ix
  let remember := { s with plate := { s.plate with aborts := s.plate.aborts ++ [(q, ix)] } }.abortResult q ix 0x33 0
  let current := s.plate.op.filter (fun o => o.queue == q && o.index == ix)
  if q = s.colq ∨ 2 * n ≤ ix then s.abortResult q ix 0x23 0
  else match current with
    | some o =>
      if s.pastRetire o then s.abortResult q ix 0x34 0
      else (s.setOp { o with aborted := true }).abortResult q ix 0x33 (s.abortStrokes o)
    | none =>
      match s.plate.saved.find? (fun o => o.queue == q && o.index == ix) with
      | some o =>
        { s with plate := { s.plate with
            saved := s.plate.saved.map (fun (x : PlateOp) => if x.queue = q then { x with aborted := true } else x) } }.abortResult q ix 0x33 o.stroke
      | none =>
        if (s.plate.op.map later).getD false || s.plate.saved.any later ||
            decide (ringUsed n (s.oqHead q) ix < s.oqWaiting q) then remember
        else
          let back := ringUsed n ix (s.oqHead q)
          let done := ((s.plate.retired.find? (fun x => x.1 == q)).map (·.2)).getD 0
          if 1 ≤ back ∧ back ≤ min n done then s.abortResult q ix 0x34 0 else s.abortResult q ix 0x23 0

/-- The write rule of PLT_ABORT. -/
def hookPltAbort (s : State) (w : RegWrite) : State := s.abortOp (w.actF F.PLT_ABORT_QUEUE) (w.actF F.PLT_ABORT_INDEX)

/-! ### Ready flags (R141, R200) -/

/-- The current operation is a GATHER_GEMM that waits for flags. -/
def State.polling (s : State) : Option PlateOp :=
  match s.plate.phase, s.plate.op with
  | .stroke _, some o =>
    if o.job.isNone ∧ dOp o.desc = plGGemm ∧ o.ending = false ∧ o.ready.length < gmP o.desc then some o else none
  | _, _ => none

/-- `s` with piece `j` of the current operation asked for. -/
def State.fetchPiece (s : State) (j : Nat) : State :=
  match s.plate.op with
  | none => s
  | some o =>
    let n := gmGPiece o.desc
    let ks := refKeys [(1, j * n, n)]
    let far := s.remoteKeys o.desc ks
    let o1 := { o with
      ready := o.ready ++ [j], progressAt := s.clk, pieceAt := if far.isEmpty then o.pieceAt ++ [s.clk] else o.pieceAt }
    let (s1, o2) := s.takeLocal o1 ks
    s1.fetchKeys o2 far

/-- READY_FLAG_POLL: at a slot frame boundary all flags are read, and the pieces newly ready are fetched in ascending
order. -/
def State.doReadyFlagPoll (s : State) : State :=
  match s.polling with
  | none => s
  | some o =>
    if s.arrayHeld ∨ s.slotFrame = false ∨ s.streamOpen o = false then s
    else
      let d := o.desc
      let (flags, s1) := (List.range (ceilDiv (gmP d) 4)).foldl (fun (acc : List Granule × State) i =>
        let (g, t) := acc.2.readPlace (granPlace s.member d 2 i)
        (acc.1 ++ [g], t)) ([], s)
      let new := (List.range (gmP d)).filter (fun j =>
        let g := flags.getD (j / 4) zeroGranule
        !o.ready.contains j && !g.poison && bytesAt g.data (8 * (j % 4)) 8 == dP d 120 8)
      State.gather 3 (new.foldl State.fetchPiece s1)

/-- READY_LIMIT_EXPIRE. -/
def State.doReadyLimitExpire (s : State) : State :=
  match s.polling with
  | none => s
  | some o =>
    if s.arrayHeld = false ∧ o.progressAt + s.get F.PLT_LIMIT_READY_LIMIT ≤ s.clk then s.setOp (o.failWith 0x14) else s

/-! ### What other blocks do to the array -/

/-- `s` with the bound operation, running or saved before its stroke, told that its collective ended without completing
(R227). -/
def State.taintBound (s : State) (c : Coll) : State :=
  let hit := fun (o : PlateOp) => ((s.boundColl o).map (·.tag)) == some c.tag
  let taint := fun (o : PlateOp) => if hit o then { o.failWith 0x31 with tainted := true } else o
  let s1 := { s with plate := { s.plate with saved := s.plate.saved.map taint } }
  match s1.plate.op, s1.plate.phase with
  | some o, .stroke _ | some o, .planning _ | some o, .saving _ | some o, .restoring _ => if hit o then s1.setOp (taint o) else s1
  | _, _ => s1

/-- A phase with its times moved by `n` turns. -/
def PlatePhase.shift (n : Nat) : PlatePhase → PlatePhase
  | .idle => .idle
  | .planning t => .planning (t + n)
  | .stroke t => .stroke (t + n)
  | .writing t u => .writing (t + n) (u + n)
  | .retiring t => .retiring (t + n)
  | .saving t => .saving (t + n)
  | .restoring t => .restoring (t + n)

/-- `s` with a freeze of `n` turns ended (R449, R452): the array's work shifts by it, and the operation's ACTIVE takes it
but in a save or restore. -/
def State.thawArray (s : State) (n : Nat) : State :=
  match s.plate.op with
  | none => s
  | some o =>
    match s.plate.phase with
    | .saving _ | .restoring _ | .idle => s.setArray (s.plate.phase.shift n) (some o)
    | .planning _ | .stroke _ | .writing _ _ | .retiring _ =>
      let later := fun (a : Nat) => min (a + n) s.clk
      s.setArray (s.plate.phase.shift n) (some { o with
        frozen := o.frozen + n, stretched := true, progressAt := later o.progressAt, arrivedAt := later o.arrivedAt
        pieceAt := o.pieceAt.map later })

/-- `s`, the array free to go on, with the reads of a Waiting stroke carried on (R448). -/
def State.resumeReads (s : State) : State :=
  match s.plate.phase, s.plate.op with
  | .stroke _, some o => if s.opFixed o || o.job.isSome then s else State.gather 3 s
  | _, _ => s

/-- `s` with the operation that counterproof stopped to end Aborted: no write-out of it goes on, and its record, and those of its
chain's later members, follow once its requests have ended (R398, R146). -/
def State.recordStopped (s : State) : State :=
  match s.plate.op with
  | none => s
  | some o =>
    let o1 := { o with aborted := true }
    match s.plate.phase with
    | .writing _ _ | .saving _ => s.startRetire o1
    | .stroke _ => if o.job.isSome then s.startRetire o1 else s.setOp o1
    | .planning _ | .restoring _ | .retiring _ => s.setOp o1
    | .idle => s

/-- `s` with the operation that runs marked as one that a supply warning met (R454): one whose last output has been performed, or
whose state is being saved, is not running any more. -/
def State.warnOp (s : State) : State :=
  match s.plate.op with
  | none => s
  | some o =>
    match s.plate.phase with
    | .saving _ | .idle => s
    | .planning _ | .stroke _ | .writing _ _ | .retiring _ | .restoring _ =>
      if s.pastRetire o then s else s.setOp { o with warned := true }

/-- `s` with the array stopped and its operations discarded without a record (R370). -/
def State.discardArray (s : State) : State :=
  { s with plate := { s.plate with
      bytes := [], poison := [], chainBufs := [], saved := [], expired := false, visible := [], gated := [], aborts := [],
      jobs := [], jobsDone := [], retired := [], last := 512 } }.setArray .idle none

end Sys2Proof.Machine
end

