-- ==== Sys2Proof/Machine/Ilnyx.lean ====
section
/-!
DEFINITION. The Ilnyx cores as the fabric and the host see them (spec/15_ilnyx_cores.md R338-R351): fabric windows, fences,
the watchdog, mailboxes, control kernels and their calls.
-/
namespace Sys2Proof.Machine

/-- Firmware runs. -/
def State.firmwareRuns (s : State) : Bool := s.get F.MGT_STAT_BOOT == 1

/-! ### Kernels (R347, R348) -/

/-- The kernel with a number, and the running kernel that holds core `n`. -/
def State.kernel (s : State) (num : Nat) : Option Kernel := s.ilx.kernels.find? (fun k => k.num == num)
def State.kernelOn (s : State) (n : Nat) : Option Kernel := s.ilx.kernels.find? (fun k => k.state == 2 && k.cores.contains n)

/-- ILX_CTL.KCORES for a list of kernels. -/
def runningCores (l : List Kernel) : Nat :=
  (l.filter (fun k => k.state == 2)).foldl (fun m k => k.cores.foldl (fun m n => setBitAt m n true) m) 0

/-- `s` with the kernels set, and KCORES showing those that run. -/
def State.setKernels (s : State) (l : List Kernel) : State :=
  { s with ilx := { s.ilx with kernels := l } }.put F.ILX_CTL_KCORES (runningCores l)

/-- `s` with one kernel replaced or added. -/
def State.setKernel (s : State) (k : Kernel) : State :=
  s.setKernels (s.ilx.kernels.filter (fun x => x.num != k.num) ++ [k])

/-- `s` with kernel `k` stopped, with its exit code or cause; `n` is the core whose ILX_C_STAT is kept (R348). -/
def State.stopKernel (s : State) (k : Kernel) (n code : Nat) : State :=
  let s1 := s.setKernel { k with state := 3, exit := code, stat := (s.reg (Reg.ILX_C_STAT n)).toNat }
  { s1 with ilx := { s1.ilx with calls := s1.ilx.calls.filter (fun c => !k.cores.contains c) } }

/-- `s` with an exception on core `n`: its kernel, if it runs one, stops (R348). -/
def State.coreException (s : State) (n cause : Nat) : State :=
  let s1 := s.emit (.coreFault n cause)
  match s1.kernelOn n with
  | some k => s1.stopKernel k n cause
  | none => s1

/-! ### What a core's requests bring back (R341). Exception codes are RISC-V's (PRESUMED, notes/assumptions/31). -/

/-- A granule that the Ilnyx EP checks: data for a core, or the granule of a register request (R294, R295). Symbol errors reach
it only by injection (R469). `addr` is its fabric address. -/
def State.ilxGranule (s : State) (addr : Nat) (g : Granule) : Granule × State :=
  let (inj, s1) := s.takeInjection 17 0
  let (x, _, s2) := s1.checkPoint F.ILX_ECC_CORR F.ILX_ECC_UNCORR 17 0 { addr := addr, detail0 := 5 } g inj
  (x, s2)

/-- Data that the Ilnyx EP checks on its way to a core. -/
def State.ilxCheck (s : State) (addr : Nat) (data : List Byte) (poison : Bool) : List Byte × Bool × State :=
  let (g, s1) := s.ilxGranule addr { data := data.take 32, poison := poison }
  (g.data ++ data.drop 32, g.poison, s1)

/-- `s` with a load access fault on core `n` for a request that failed, and ILX_C_STAT (R341). -/
def State.coreFailed (s : State) (n : Nat) (d : Done) : State :=
  (s.setReg (Reg.ILX_C_STAT n) (BitVec.ofNat 64 (d.status * 2 ^ 56 + d.frame.tag % 2 ^ 18))).coreException n 5

/-- `s` told how an atomic of core `n` ended whose prior value the core has already (R113, R341). -/
def State.coreAcked (s : State) (n : Nat) (d : Done) : State := if isSuccess d.status then s else s.coreFailed n d

/-- `s` told how a request of core `n` ended: data, or a load access fault and ILX_C_STAT (R341). -/
def State.coreDone (s : State) (n : Nat) (d : Done) : State :=
  if d.frame.opcode = opLoad ∨ isAtomic8 d.frame.opcode = true then
    if isSuccess d.status then
      let (data, poison, s1) := s.ilxCheck d.frame.addr d.data d.poison
      s1.emit (.coreData n data poison)
    else s.coreFailed n d
  else s

/-- The write rule of ILX_FWIN_A (Table 15-11). -/
def hookFwinA (w' : Nat) (s : State) (w : RegWrite) : State :=
  if w.newF (F.ILX_FWIN_A_VALID w') = 1 ∧ s.owner (w.newF (F.ILX_FWIN_A_QUEUE w')) ≠ some 20 then s.rejected 17 3 else s.takeWrite w

/-! ### Fences (R342) -/

/-- `s` with core `n`'s fence placed: the register takes it and DONE clears. -/
def State.coreFence (s : State) (n q kind scope : Nat) : State :=
  let s1 := ((s.put (F.ILX_C_FENCE_QUEUE n) (q % 512)).put (F.ILX_C_FENCE_SCOPE n) (scope % 4)).put (F.ILX_C_FENCE_KIND n) (kind % 4)
  let s2 : State := { s1 with ilx := { s1.ilx with lastFence := Sparse.set (fun _ => 0) s1.ilx.lastFence n s1.rep.nextOrder } }
  (s2.putFlag (F.ILX_C_FENCE_DONE n) false).placeFence (q % 512) (kind % 4) (scope % 4) (.core n)

/-- The write rule of ILX_C_FENCE. -/
def hookCoreFence (n : Nat) (s : State) (w : RegWrite) : State :=
  s.coreFence n (w.newF (F.ILX_C_FENCE_QUEUE n)) (w.newF (F.ILX_C_FENCE_KIND n)) (w.newF (F.ILX_C_FENCE_SCOPE n))

/-- `s` with a fence of core `n` complete: DONE and RESULT where it is the core's last, and the return of the FENCE call that waits
for it. -/
def State.coreFenceDone (s : State) (n : Nat) (f : Fence) : State :=
  let s1 := if Sparse.get (fun _ => 0) s.ilx.lastFence n = f.order then
      (s.put (F.ILX_C_FENCE_RESULT n) f.status).putFlag (F.ILX_C_FENCE_DONE n) true
    else s
  if s1.ilx.calls.contains n then
    { s1 with ilx := { s1.ilx with calls := s1.ilx.calls.filter (· != n) } }.emit (.coreReturn n f.status)
  else s1

/-! ### The watchdog (R345) -/

/-- The write rule of ILX_WDOG: the count restarts where firmware writes, for itself or as the fabric-manager agent that executes
the commands of the chain and of out-of-band access (R345, Table 15-2; DEDUCED, notes/assumptions/31). -/
def hookWdog (s : State) (w : RegWrite) : State :=
  let s1 := s.takeWrite w
  if Path.management w.path then { s1 with ilx := { s1.ilx with wdogAt := s1.clk } } else s1

/-- The origin with no core to tell. -/
def Origin.forgetCore (o : Origin) : Origin :=
  match o with
  | .core _ | .coreAck _ => .none
  | .none | .bar2 _ _ | .plate _ | .fetch _ _ _ | .message _ _ _ | .collective _ | .readyFlag _ | .dma _ _ _ => o

/-- `s` with the requests and fences of the cores run on with no core to tell of them. -/
def State.forgetCores (s : State) : State :=
  { s with rep := { s.rep with
    trackers := s.rep.trackers.map (fun t => { t with origin := t.origin.forgetCore })
    waiting := s.rep.waiting.map (fun w => { w with origin := w.origin.forgetCore })
    fences := s.rep.fences.map (fun f => match f.origin with
      | .core _ => { f with origin := .none }
      | .none | .bar4 _ _ _ => f) } }

/-- `s` with the 32 cores reset, ILX_C_STAT and ILX_C_FENCE among them (Table 21-9), and every kernel discarded; the boot ROM starts
again. -/
def State.resetCores (s : State) : State :=
  let s0 := (List.range 32).foldl (fun s n => (s.setReg (Reg.ILX_C_STAT n) 0).setReg (Reg.ILX_C_FENCE n) 0) s
  let s1 := (s0.forgetCores.setKernels []).put F.MGT_STAT_BOOT 0
  { s1 with ilx := { s1.ilx with calls := [], lastFence := [], answers := [], ring := none, written := 0, reserved := [] }, up := { s1.up with firmwareTried := false } }

/-- `s` with every mailbox request that was BUSY answered Lost (R346). -/
def State.loseMailboxes (s : State) : State :=
  (List.range 16).foldl (fun s a =>
    if s.flag (F.ILX_MB_CTL_BUSY a) then
      (s.setReg (Reg.ILX_MB_RSP a 0) (BitVec.ofNat 64 (bitsOf (s.reg (Reg.ILX_MB_REQ a 0)).toNat 31 16 * 2 ^ 16 + 0x14 * 2 ^ 8))).putFlag
        (F.ILX_MB_CTL_BUSY a) false
    else s) s

/-- WATCHDOG_EXPIRE. -/
def State.doWatchdogExpire (s : State) : State :=
  if s.firmwareRuns = false ∨ s.clk < s.ilx.wdogAt + s.get F.ILX_WDOG_PERIOD then s
  else
    let s1 := s.loseMailboxes.resetCores.count F.ILX_WDOG_RESETS 1
    s1.fault 4 0x0042 17 0 { detail0 := (s1.reg Reg.ILX_WDOG).toNat }

/-! ### Mailboxes (R346, Table 15-3) -/

/-- The write rule of ILX_MB_REQ `k` of port `a`: from BAR0 of that port alone; REQ0 makes the mailbox BUSY. -/
def hookMbReq (a k : Nat) (s : State) (w : RegWrite) : State :=
  let own := match w.path with
    | .bar0 x => x.val == a
    | .chain | .oob | .firmware | .fabric => false
  if !own then s.rejected 17 (1 + a / 8)
  else if k ≠ 0 then s.takeWrite w
  else if s.flag (F.ILX_MB_CTL_BUSY a) then s.count (F.ILX_MB_CTL_DISCARDS a) 1
  else (s.takeWrite w).putFlag (F.ILX_MB_CTL_BUSY a) true

/-- REQ `k` of port `a`. -/
def State.mbReq (s : State) (a k : Nat) : Nat := (s.reg (Reg.ILX_MB_REQ a k)).toNat

/-- CMD of the request. -/
def State.mbCmd (s : State) (a : Nat) : Nat := s.mbReq a 0 % 256

/-- The mailbox of port `a` holds a request that firmware has not carried out. -/
def State.mbWaits (s : State) (a : Nat) : Bool :=
  s.firmwareRuns && s.flag (F.ILX_MB_CTL_BUSY a) && !s.ilx.answers.any (fun x => x.1 == a)

/-- `s` with the request of port `a` carried out with a status. -/
def State.mbAnswer (s : State) (a st : Nat) : State :=
  { s with ilx := { s.ilx with answers := s.ilx.answers ++ [(a, st)] } }

/-- RSP `k` set. -/
def State.setRsp (s : State) (a k v : Nat) : State := s.setReg (Reg.ILX_MB_RSP a k) (BitVec.ofNat 64 v)

/-- Firmware carries out a request with command `cmd`. -/
def State.mbRun (s : State) (a cmd : Nat) (f : State → State) : State :=
  if s.mbWaits a ∧ s.mbCmd a = cmd then f s else s

/-- INFO: RSP1 holds the stepping in bits [63:60] and the image version in bits [59:0] (DESIGN CHOICE,
notes/assumptions/31). -/
def State.doInfo (s : State) (a : Fin 16) : State :=
  s.mbRun a 1 (fun s =>
    let s1 := s.setRsp a 1 (s.get F.MGT_DEV_ID_STEPPING * 2 ^ 60 + s.up.firmwareVersion % 2 ^ 60)
    ((List.range 6).foldl (fun s k => s.setReg (Reg.ILX_MB_RSP a (2 + k)) (s.reg (Reg.SEC_FW_HASH k))) s1).mbAnswer a 1)

/-- The cores that kernels can have: all but the firmware cores (R338). -/
def kernelCores : List Nat := (List.range 32).filter (fun n => n % 8 != 0)

/-- Kernel cores that no loaded or running kernel holds. -/
def State.freeCores (s : State) : List Nat :=
  kernelCores.filter (fun n => !s.ilx.kernels.any (fun k => k.state != 3 && k.cores.contains n))

/-- Bytes of private memory: local HBM from ILX_MEM.BASE, so no more than is there (R340). -/
def State.privateSize (s : State) : Nat := min (s.get F.ILX_MEM_SIZE * 2 ^ 30) (hbmSize - s.get F.ILX_MEM_BASE * 2 ^ 30)

/-- Where in private memory `n` bytes are free: the lowest place (DESIGN CHOICE, notes/assumptions/31). -/
def State.freePrivate (s : State) (n : Nat) : Option Nat :=
  let used := (s.ilx.kernels.filter (fun k => k.state != 3)).map (fun k => (k.memAt, k.memSize))
  let places := 0 :: used.map (fun r => r.1 + r.2)
  let ok := places.filter (fun a => decide (a + n ≤ s.privateSize) && used.all (fun r => decide (a + n ≤ r.1) || decide (r.1 + r.2 ≤ a)))
  ok.foldl (fun (m : Option Nat) a => some (min a (m.getD a))) none

/-- A queue that a kernel may be granted (R347). -/
def State.grantable (s : State) (q : Nat) : Bool := (s.owner q == some 17 && q != s.colq) || s.owner q == some 19

/-- `s` with a kernel loaded, or the status that refuses it: KERNEL_LOAD's request in the mailbox of port `a`. The grant
list's count is 2 bytes (DEDUCED, notes/assumptions/31). -/
def State.loadKernel (s : State) (a : Nat) : State :=
  let num := s.mbReq a 1
  let img := s.mbReq a 2
  let len := s.mbReq a 3
  let n := s.mbReq a 4 % 32
  let size := bitsOf (s.mbReq a 4) 47 32 * 2 ^ 20
  let wins := s.mbReq a 5
  let at' := s.mbReq a 6
  let live := ((s.kernel num).map (fun k => k.state != 3)).getD false
  let deny := fun (s : State) => s.mbAnswer a 0x23
  if !s.hbmOpen then s
  else if s.flag F.ILX_CTL_KERNEL_EN = false ∨ 27 < num ∨ live = true ∨ len = 0 ∨ size < len ∨ hbmSize < img + len ∨
      n < 1 ∨ 8 < n ∨ size < 16 * 2 ^ 20 ∨ 1024 * 2 ^ 20 < size ∨ hbmSize < at' + 2 ∨
      (setBitsList wins 64).all (fun w => s.flag (F.ILX_FWIN_A_VALID w)) = false then deny s
  else
    let (c, badCount, s0) := s.hbmFetch at' 2
    let cnt := bytesAt c 0 2
    if badCount || decide (64 < cnt) || decide (hbmSize < at' + 2 + 2 * cnt) then deny s0
    else
    let (g, bad, s1) := s0.hbmFetch (at' + 2) (2 * cnt)
    let qs := (List.range cnt).map (fun i => bytesAt g (2 * i) 2)
    if bad || !qs.all (fun q => decide (q < 512) && s1.grantable q) then deny s1
    else match s1.freePrivate size with
      | none => s1.mbAnswer a 0x10
      | some m =>
        if s1.freeCores.length < n then s1.mbAnswer a 0x10
        else
          let (b, p, s2) := s1.hbmFetch img len
          let s3 := s2.hbmStore (s2.get F.ILX_MEM_BASE * 2 ^ 30 + m) b p
          (s3.setKernel { num := num, cores := s3.freeCores.take n, memAt := m, memSize := size, windows := wins, queues := qs,
                          slice := s3.slice }).mbAnswer a 1

/-- KERNEL_LOAD. -/
def State.doKernelLoad (s : State) (a : Fin 16) : State := s.mbRun a 2 (fun s => s.loadKernel a)

/-- KERNEL_START: a loaded kernel runs. -/
def State.doKernelStart (s : State) (a : Fin 16) : State :=
  s.mbRun a 3 (fun s => match s.kernel (s.mbReq a 1) with
    | some k => if k.state = 1 then (s.setKernel { k with state := 2, arg := s.mbReq a 2 }).mbAnswer a 1 else s.mbAnswer a 0x23
    | none => s.mbAnswer a 0x23)

/-- `s` with PLT_ABORT written for each descriptor of op queue `q` between HEAD and TAIL (R348). -/
def State.abortQueue (s : State) (q : Nat) : State :=
  if s.owner q = some 17 then
    (List.range (s.oqWaiting q)).foldl (fun s' i => s'.abortOp q ((s.oqHead q + i) % (2 * s.oqN q))) s
  else s

/-- KERNEL_STOP: a loaded or running kernel stops, with ABORT after its queues' descriptors are aborted. Its exit code is not stated:
a free value. -/
def State.doKernelStop (s : State) (a : Fin 16) : State :=
  s.mbRun a 4 (fun s => match s.kernel (s.mbReq a 1) with
    | some k =>
      if k.state ≠ 3 then
        let s1 := if bitAt (s.mbReq a 2) 0 then k.queues.foldl State.abortQueue s else s
        (s1.freeNext.stopKernel k (k.cores.headD 0) (s1.free 64)).mbAnswer a 1
      else s.mbAnswer a 0x23
    | none => s.mbAnswer a 0x23)

/-- KERNEL_STATUS: of kernel numbers above 27 PermissionDenied. -/
def State.doKernelStatus (s : State) (a : Fin 16) : State :=
  s.mbRun a 5 (fun s =>
    if 27 < s.mbReq a 1 then s.mbAnswer a 0x23
    else
      let (st, ex, cs) := match s.kernel (s.mbReq a 1) with
        | some k => (k.state, k.exit, k.stat)
        | none => (0, 0, 0)
      (((s.setRsp a 1 st).setRsp a 2 ex).setRsp a 3 cs).mbAnswer a 1)

/-- TEL_CFG: the telemetry ring. -/
def State.doTelCfg (s : State) (a : Fin 16) : State :=
  s.mbRun a 6 (fun s =>
    let l := s.mbReq a 2 % 32
    if l < 6 ∨ 20 < l ∨ hbmSize < s.mbReq a 1 + 64 * 2 ^ l then s.mbAnswer a 0x23
    else { s with ilx := { s.ilx with ring := some (s.mbReq a 1, l), written := 0 } }.mbAnswer a 1)

/-- MB_RESERVED_COMMAND. -/
def State.doMbReservedCommand (s : State) (a : Fin 16) : State :=
  if s.mbWaits a ∧ (s.mbCmd a = 0 ∨ 6 < s.mbCmd a) then s.mbAnswer a 0x23 else s

/-- MB_RSP0_WRITE: RSP0 takes SEQ and STATUS, and BUSY clears. -/
def State.doMbRsp0Write (s : State) (a : Fin 16) : State :=
  match s.ilx.answers.find? (fun x => x.1 == a.val) with
  | none => s
  | some (_, st) =>
    let s1 := (s.setRsp a 0 (bitsOf (s.mbReq a 0) 31 16 * 2 ^ 16 + st * 2 ^ 8)).putFlag (F.ILX_MB_CTL_BUSY a) false
    { s1 with ilx := { s1.ilx with answers := s1.ilx.answers.filter (fun (x : Nat × Nat) => x.1 != a.val) } }

/-! ### Kernel calls (R347, Table 15-4) -/

/-- SUBMIT: firmware writes TAIL of a granted queue. -/
def State.doSubmit (s : State) (n : Fin 32) (queue tail : Word) : State :=
  match s.kernelOn n with
  | none => s
  | some k =>
    let q := queue.toNat
    if !k.queues.contains q then s.emit (.coreReturn n 0x23)
    else
      (if s.owner q = some 19 then s.advanceMsg q (tail.toNat % 2 ^ 17) else s.advanceOq q (tail.toNat % 2 ^ 17)).emit
        (.coreReturn n 1)

/-- FENCE: of a granted queue, or of a granted window's queue. The call returns when the fence completes. -/
def State.doFence (s : State) (n : Fin 32) (queue kind scope : Word) : State :=
  match s.kernelOn n with
  | none => s
  | some k =>
    let q := queue.toNat
    let ok := k.queues.contains q || (setBitsList k.windows 64).any (fun w => s.flag (F.ILX_FWIN_A_VALID w) && s.get (F.ILX_FWIN_A_QUEUE w) == q)
    if !ok || decide (3 < kind.toNat) || decide (3 < scope.toNat) then s.emit (.coreReturn n 0x23)
    else { s with ilx := { s.ilx with calls := s.ilx.calls.filter (· != n.val) ++ [n.val] } }.coreFence n q kind.toNat scope.toNat

/-- LASTSTAT. -/
def State.doLaststat (s : State) (n : Fin 32) : State :=
  match s.kernelOn n with
  | none => s
  | some _ => s.emit (.coreReturn n (s.reg (Reg.ILX_C_STAT n)).toNat)

/-- EXIT. -/
def State.doExit (s : State) (n : Fin 32) (code : Word) : State :=
  match s.kernelOn n with
  | none => s
  | some k => s.stopKernel k n code.toNat

/-- KERNEL_EXCEPTION. The kernel's own ECALL, code 8 from its VU mode, does not stop it: the calls have their own events. -/
def State.doKernelException (s : State) (n : Fin 32) (cause : Word) : State :=
  match s.kernelOn n with
  | none => s
  | some k => if cause = 8 then s else s.stopKernel k n cause.toNat

end Sys2Proof.Machine
end

