-- ==== Sys2Proof/Machine/ColFmt.lean ====
section
/-!
DEFINITION. Collectives as data (spec/09_collectives.md R204-R215): the descriptor, its validity, ranks and members, blocks
and streams, and the arithmetic of each level.
-/
namespace Sys2Proof.Machine

/-! ### The descriptor (Tables 9-1 to 9-4) -/

def cOp (d : List Byte) : Nat := bytesAt d 0 1
def cVar (d : List Byte) : Bool := bitAt (bytesAt d 1 1) 0
def cFix (d : List Byte) : Bool := bitAt (bytesAt d 1 1) 1
def cReady (d : List Byte) : Bool := bitAt (bytesAt d 1 1) 2
def cSys (d : List Byte) : Bool := bitAt (bytesAt d 1 1) 3
def cMode (d : List Byte) : Nat := bytesAt d 2 1 % 8
def cExact (d : List Byte) : Bool := bitAt (bytesAt d 2 1) 4
def cFunc (d : List Byte) : Nat := bytesAt d 3 1
def cUp (d : List Byte) : Nat := bytesAt d 6 1
def cRoot (d : List Byte) : Nat := bytesAt d 12 2
def cSeed (d : List Byte) : Nat := bytesAt d 16 8
def cCount (d : List Byte) : Nat := bytesAt d 24 8
def cCap (d : List Byte) : Nat := bytesAt d 32 8
def cEpoch (d : List Byte) : Nat := bytesAt d 40 8
def cMlist (d : List Byte) : Nat := bytesAt d 48 4
def cStart (d : List Byte) : Nat := bytesAt d 56 8
def cNotify (d : List Byte) : Bool := bitAt (bytesAt d 66 1) 0
def cSrc (d : List Byte) : Nat := bytesAt d 72 8
def cDst (d : List Byte) : Nat := bytesAt d 80 8
def cExtent (d : List Byte) : Nat := bytesAt d 88 4
def cCounts (d : List Byte) : Nat := bytesAt d 96 8
def cFlags (d : List Byte) : Nat := bytesAt d 104 8

/-- The operations of Table 9-3. -/
def coAllReduce : Nat := 1
def coReduceScatter : Nat := 2
def coAllGather : Nat := 3
def coBroadcast : Nat := 4
def coAllToAll : Nat := 5
def coBarrier : Nat := 6
def coSmall : Nat := 7

/-- ALL_REDUCE and REDUCE_SCATTER. -/
def cReduces (d : List Byte) : Bool := cOp d == coAllReduce || cOp d == coReduceScatter
/-- ALL_GATHER, BROADCAST and ALL_TO_ALL. -/
def cMoves (d : List Byte) : Bool := cOp d == coAllGather || cOp d == coBroadcast || cOp d == coAllToAll

/-- A format code, FP32 where it is reserved (such a descriptor is invalid). -/
def fmtOf (c : Nat) : Fmt := (Fmt.ofCode c).getD (.float .fp32)
def cIn (d : List Byte) : Fmt := fmtOf (bytesAt d 4 1)
def cOut (d : List Byte) : Fmt := fmtOf (bytesAt d 5 1)

/-- How element `i` of the whole vector is rounded at last (R212). -/
def cRnd (d : List Byte) (i : Nat) : Rnd :=
  { mode := (Mode.ofCode (cMode d)).getD .rne, sat := bitAt (bytesAt d 2 1) 3, sr := srBits (cSeed d) i }

/-- The accumulation of the sums. -/
def cAcc (d : List Byte) : AccKind := accKind (cExact d) [cIn d]

/-- The format in which domain partials travel, and its FORM (Tables 9-4, 9-6, 9-8): integers in INT64, and exact sums of XA
inputs without an upper form as raw XA-640 (DEDUCED, notes/assumptions/28). -/
def cUpFmt (d : List Byte) : Fmt × Nat :=
  if cFunc d ≠ 0 then (cIn d, 0)
  else if (cIn d).isInt then (.int true 8, 2)
  else if cUp d = 1 then (.xa640, 1)
  else if cUp d = 2 then (.float .fp32, 2)
  else if cUp d = 3 then (.float .bf16, 2)
  else if cUp d = 4 then (.float .e4m3, 2)
  else if cUp d = 5 then (.float .e5m2, 2)
  else (.xa640, 3)

/-! ### Members, ranks, blocks (R205, R211). At scope DOMAIN a collective runs as over one domain. -/

/-- Members of the collective. -/
def Coll.count (c : Coll) : Nat := c.n * c.d
/-- The device's own rank among them. -/
def Coll.g (c : Coll) : Nat := c.dom * c.n + c.rank
/-- The rank of rank `k` in domain `x`. -/
def Coll.at' (c : Coll) (x k : Nat) : Nat := x * c.n + k
/-- SCOPE is SYSTEM. -/
def Coll.sys (c : Coll) : Bool := cSys c.desc

/-- The other members in the own domain, and in the own column. -/
def Coll.domPeers (c : Coll) : List Nat := (List.range c.count).filter (fun h => h / max 1 c.n == c.dom && h != c.g)
def Coll.colPeers (c : Coll) : List Nat := (List.range c.count).filter (fun h => h % max 1 c.n == c.rank && h != c.g)
def Coll.others (c : Coll) : List Nat := (List.range c.count).filter (· != c.g)

/-- The domain and member of rank `h`: with CONSEC the domain's members hold consecutive numbers; else COL_TOPO does not
say, and the map is Config's (notes/assumptions/29). -/
def State.rankMember (s : State) (c : Coll) (h : Nat) : Nat × Nat :=
  let x := h / max 1 c.n
  let k := h % max 1 c.n
  if h = c.g then (s.domain, s.member)
  else if x = c.dom ∧ s.flag F.COL_TOPO_CONSEC = true then (s.domain, (s.get F.COL_TOPO_M0 + k) % 128)
  else
    let m := Config.rankMember s.slice (if c.sys then x else s.get F.COL_TOPO_DOM_INDEX) k
    (if x = c.dom then s.domain else m / 128 % 256, m % 128)

/-- The rank of a member. -/
def State.memberRank (s : State) (c : Coll) (domain member : Nat) : Option Nat :=
  (List.range c.count).find? (fun h => s.rankMember c h == (domain, member))

/-- Elements of a block as laid out, and where block `b` begins and how long it is. -/
def Coll.bk (c : Coll) : Nat := roundUp (ceilDiv (cCount c.desc) (max 1 c.count)) 1024
def Coll.blkStart (c : Coll) (b : Nat) : Nat := min (cCount c.desc) (b * c.bk)
def Coll.blkLen (c : Coll) (b : Nat) : Nat := min (cCount c.desc) ((b + 1) * c.bk) - c.blkStart b

/-- The domain chunk of rank `k`: its blocks, one for each domain. -/
def Coll.chunk (c : Coll) (k : Nat) : List Nat := (List.range c.d).map (fun x => c.at' x k)

/-! ### Sizes of contributions and results (R211-R214) -/

/-- Elements that member `h`'s contribution, or block `h`, holds as it lands. -/
def Coll.landLen (c : Coll) (h : Nat) : Nat :=
  if !cVar c.desc then cCount c.desc
  else if cFix c.desc then cCap c.desc
  else ((c.counts.find? (fun x => x.1 == h)).map (·.2)).getD 0

/-- Granules before it at DST_ADDR. -/
def Coll.landAt (c : Coll) (h : Nat) : Nat := ((List.range h).map (fun k => gran (c.landLen k) (cOut c.desc))).foldl (· + ·) 0

/-- Elements this member sends to `h`, before FIXCAP's limit: of ALL_GATHER send count 0. -/
def Coll.sendLen (c : Coll) (h : Nat) : Nat :=
  if cVar c.desc then c.sendCounts.getD (if cOp c.desc = coAllGather then 0 else h) 0 else cCount c.desc

/-- Where in SRC_ADDR the elements for `h` begin, in granules. -/
def Coll.sendAt (c : Coll) (h : Nat) : Nat :=
  if cOp c.desc = coAllToAll then ((List.range h).map (fun k => gran (c.sendLen k) (cIn c.desc))).foldl (· + ·) 0 else 0

/-- Granules that this member reads at SRC_ADDR. -/
def Coll.srcSize (c : Coll) : Nat :=
  let d := c.desc
  if cReduces d then gran (cCount d) (cIn d)
  else if cOp d = coBroadcast then (if c.g = cRoot d then gran (cCount d) (cIn d) else 0)
  else if cOp d = coAllGather then gran (c.sendLen 0) (cIn d)
  else if cOp d = coAllToAll then c.sendAt c.count
  else 0

/-- Granules of the result; none where they are not known from the descriptor. -/
def Coll.dstSize (c : Coll) : Option Nat :=
  let d := c.desc
  if cOp d = coAllReduce ∨ cOp d = coBroadcast then some (gran (cCount d) (cOut d))
  else if cOp d = coReduceScatter then some (gran (c.blkLen c.g) (cOut d))
  else if cOp d = coAllGather ∨ cOp d = coAllToAll then
    (if cVar d && !cFix d then none else some (c.landAt c.count))
  else some 0

/-! ### SMALL (Table 9-9) -/

/-- Pip OP and LEN of a SMALL; none where no form of the table fits. FUNC 0 with COUNT 0 and no formats is the barrier form. -/
def smallForm (d : List Byte) : Option (Nat × Nat) :=
  let f := Fmt.ofCode (bytesAt d 4 1)
  let fn := cFunc d
  let n := cCount d
  if fn = 0 ∧ n = 0 then (if bytesAt d 4 2 = 0 then some (0, 0) else none)
  else if bytesAt d 4 1 ≠ bytesAt d 5 1 then none
  else match f with
    | some (.int sg b) =>
      if n ≠ 1 ∨ 2 < fn then none
      else if fn = 0 then some (1, b)
      else some ((if sg then 2 else 4) + (fn - 1), b)
    | some .raw => if 3 ≤ fn ∧ fn ≤ 5 ∧ 1 ≤ n ∧ n ≤ 8 then some (fn + 3, n) else none
    | some (.float _) | some (.mx _) | some .xa320 | some .xa640 | some .bitmap | some .htable | none => none

/-! ### Validity (R209) -/

/-- No reserved value and no reserved field that is not zero; a field that is 0 unless a mode uses it counts as reserved
there. -/
def colReserved (d : List Byte) : Bool :=
  let z := fun (a n : Nat) => bytesAt d a n == 0
  decide (1 ≤ cOp d ∧ cOp d ≤ 7) && decide (bytesAt d 1 1 < 16) && decide (bytesAt d 2 1 < 32) && (Mode.ofCode (cMode d)).isSome &&
  decide (cFunc d ≤ 5) && decide (cUp d ≤ 5) && z 7 1 && z 14 2 && z 52 4 && decide (bytesAt d 66 1 < 2) && z 67 5 && z 92 4 &&
  z 112 16 && (cOp d == coBroadcast || z 12 2) && (!cVar d || z 24 8) && (cFix d || z 32 8) && (cReady d != z 40 8) &&
  (cMlist d != 0 || z 56 8) && (cVar d || z 96 8) && (cReady d || z 104 8)

/-- Format rules. -/
def colFmtsOk (d : List Byte) : Bool :=
  let fi := cIn d
  let fo := cOut d
  let known := (Fmt.ofCode (bytesAt d 4 1)).isSome && (Fmt.ofCode (bytesAt d 5 1)).isSome
  if cReduces d then
    let plain := fi != .raw && fi != .htable && fo != .raw && fo != .htable
    known && plain && !fo.isMx && (!fi.isMx || cFunc d == 0) && (!cExact d || (cFunc d == 0 && !fi.isFp64 && !fo.isFp64)) &&
      (if 3 ≤ cFunc d then fi == fo else fi.isNumeric && fo.isNumeric && !(fi.isFp64 && fo.isXa) &&
        !(cExact d && fo == .xa320 && !xa320Addend fi))
  else if cMoves d then
    known && bytesAt d 4 1 == bytesAt d 5 1 && cFunc d == 0 && fi != .raw && fi != .htable && !fi.isMx && !cExact d
  else if cOp d = coSmall then (smallForm d).isSome && !cExact d
  else
    let unused := fun (b : Nat) => b == 0 || (Fmt.ofCode b).isSome
    unused (bytesAt d 4 1) && unused (bytesAt d 5 1) && cFunc d == 0 && !cExact d

/-- Rules on UP_FORM. -/
def colUpOk (d : List Byte) : Bool :=
  let u := cUp d
  if u = 0 then !(cSys d && cReduces d && cFunc d == 0 && ((cIn d).isFloat || (cIn d).isMx))
  else cReduces d && cFunc d == 0 && cSys d && !(cIn d).isInt && (u != 1 || cExact d)

/-- Rules on modes and sizes. -/
def colModesOk (d : List Byte) (consec : Bool) : Bool :=
  (!cVar d || cOp d == coAllGather || cOp d == coAllToAll) && (!cFix d || cVar d) &&
  (!cReady d || (cOp d == coReduceScatter && !cSys d && consec)) &&
  decide (cCount d ≤ 2 ^ 36) && decide (cCap d ≤ 2 ^ 36) &&
  (cMlist d == 0 || ((!cVar d || cFix d) && (cReduces d || cMoves d)))

/-- Two ranges overlap. -/
def rangesMeet (a b : Nat × Nat) : Bool := decide (a.1 < b.1 + b.2) && decide (b.1 < a.1 + a.2)

/-- Some two of the ranges overlap. -/
def anyMeet : List (Nat × Nat) → Bool
  | [] => false
  | r :: rs => rs.any (rangesMeet r) || anyMeet rs

/-- A range is own HBM, of the required alignment, and granted to queue `q` of the collective end-point. -/
def State.colRangeOk (s : State) (q : Nat) (r : Nat × Nat) (align bit : Nat) : Bool :=
  r.2 == 0 || (addrMember r.1 == s.member && addrKind r.1 == 0 && r.1 % align == 0 &&
    decide (addrOffset r.1 + r.2 ≤ hbmSize) && s.windowGrants 18 q 0 s.member (addrOffset r.1) r.2 bit)

/-- The descriptor of collective `c` is valid on this member (R209). Buffers off a granule boundary and places outside the
own HBM are invalid (DEDUCED, notes/assumptions/28). -/
def State.colValid (s : State) (c : Coll) : Bool :=
  let d := c.desc
  let small := cOp d == coSmall
  let len := ((smallForm d).map (·.2)).getD 0
  let src := (cSrc d, if small then len else 32 * c.srcSize)
  let dst := (cDst d, if small then len else 32 * cExtent d)
  let cts := (cCounts d, if cVar d then 16 * c.count else 0)
  let rdy := (cFlags d, if cReady d then 8 * c.n else 0)
  let m0 := s.get F.COL_TOPO_M0
  colReserved d && colFmtsOk d && colUpOk d && colModesOk d (s.flag F.COL_TOPO_CONSEC) &&
  (cOp d != coBroadcast || decide (cRoot d < c.count)) &&
  !(cVar d && !cFix d && decide (256 < c.count)) &&
  (match c.dstSize with
    | some n => decide (n ≤ cExtent d) && (!small || decide (ceilDiv (cDst d % 32 + len) 32 ≤ cExtent d))
    | none => true) &&
  s.colRangeOk c.queue src (if small then 1 else 32) 0 && s.colRangeOk c.queue dst (if small then 1 else 32) 1 &&
  s.colRangeOk c.queue cts 8 1 &&
  (rdy.2 == 0 || (addrMember rdy.1 == s.member && addrKind rdy.1 == 0 && rdy.1 % 8 == 0 &&
    decide (addrOffset rdy.1 + rdy.2 ≤ hbmSize) &&
    s.rangeGrants 18 c.queue 0 m0 (m0 + c.n - 1) (addrOffset rdy.1) rdy.2 1)) &&
  !anyMeet ([src, dst, cts, rdy].filter (fun r => r.2 != 0))

/-! ### Phases and streams (R211, Table 9-5) -/

/-- The streams this member sends: phase and receiver. -/
def Coll.sends (c : Coll) : List (Nat × Nat) :=
  let d := c.desc
  let dest := fun (p : Nat) (l : List Nat) => l.map (fun h => (p, h))
  if cOp d = coAllReduce then dest 0 c.domPeers ++ dest 1 c.colPeers ++ dest 3 c.colPeers ++ dest 2 c.domPeers
  else if cOp d = coReduceScatter then dest 0 c.domPeers ++ dest 1 c.colPeers
  else if cOp d = coAllGather then dest 1 c.colPeers ++ dest 2 c.domPeers
  else if cOp d = coBroadcast then
    (if c.g = cRoot d then dest 1 c.colPeers else []) ++ (if c.rank = cRoot d % max 1 c.n then dest 2 c.domPeers else [])
  else if cOp d = coAllToAll then dest 0 c.others
  else []

/-- The streams it expects: phase and sender. -/
def Coll.expects (c : Coll) : List (Nat × Nat) :=
  let d := c.desc
  if cOp d = coBroadcast then
    (if c.g = cRoot d then []
     else if c.rank = cRoot d % max 1 c.n then [(1, cRoot d)]
     else [(2, c.at' c.dom (cRoot d % max 1 c.n))])
  else c.sends

/-- A stream as received so far. -/
def Coll.stream (c : Coll) (p h : Nat) : ColStream := (c.streams.find? (fun x => x.phase == p && x.sender == h)).getD { phase := p, sender := h }

/-- `c` with a stream set. -/
def Coll.setStream (c : Coll) (x : ColStream) : Coll :=
  { c with streams := c.streams.filter (fun y => !(y.phase == x.phase && y.sender == x.sender)) ++ [x] }

/-- Every expected stream of phase `p` has ended. -/
def Coll.phaseIn (c : Coll) (p : Nat) : Bool := (c.expects.filter (fun e => e.1 == p)).all (fun e => (c.stream e.1 e.2).ended.isSome)

/-- Levels of reduction. -/
def Coll.levels (c : Coll) : Nat := if !cReduces c.desc then 0 else if c.sys then 2 else 1

/-- The own result, all of it that phase 2 passes on, is in place. -/
def Coll.chunkReady (c : Coll) : Bool :=
  if cReduces c.desc then decide (c.levels ≤ c.reduced) && c.phaseIn 3 else c.phaseIn 1

/-- The data of the streams of phase `p` is known. -/
def Coll.phaseReady (c : Coll) (p : Nat) : Bool :=
  if p = 0 then true
  else if p = 1 then !cReduces c.desc || decide (1 ≤ c.reduced)
  else if p = 2 then c.chunkReady
  else decide (c.levels ≤ c.reduced)

/-- Runs of granules, start and length, at DST_ADDR: the places of blocks of ALL_REDUCE. -/
def Coll.blockRuns (c : Coll) (bs : List Nat) : List (Nat × Nat) :=
  bs.map (fun b => (gran (c.blkStart b) (cOut c.desc), gran (c.blkLen b) (cOut c.desc)))

/-- The places at DST_ADDR of a stream from `h` in phase `p`, or of this member's own data; none for a contribution that is
to be reduced. -/
def Coll.place (c : Coll) (p h : Nat) : Option (List (Nat × Nat)) :=
  let d := c.desc
  let one := fun (h : Nat) => (c.landAt h, gran (c.landLen h) (cOut d))
  if cReduces d then
    (if p = 2 then some (c.blockRuns (c.chunk (h % max 1 c.n))) else if p = 3 then some (c.blockRuns [h]) else none)
  else if cOp d = coBroadcast then some [(0, gran (cCount d) (cOut d))]
  else if cOp d = coAllGather ∧ p = 2 then some ((c.chunk (h % max 1 c.n)).map one)
  else some [one h]

/-- Granule `i` of runs laid end to end. -/
def runIndex : List (Nat × Nat) → Nat → Option Nat
  | [], _ => none
  | (a, n) :: rs, i => if i < n then some (a + i) else runIndex rs (i - n)

/-- Granules of runs. -/
def runsSize (l : List (Nat × Nat)) : Nat := (l.map (·.2)).foldl (· + ·) 0

/-- The granules of a contribution from `h` in phase `p` that is to be reduced; none where its length varies (XA-P). -/
def Coll.stagedSize (c : Coll) (p : Nat) : Option Nat :=
  let d := c.desc
  if p = 0 then some (((c.chunk c.rank).map (fun b => gran (c.blkLen b) (cIn d))).foldl (· + ·) 0)
  else if (cUpFmt d).2 = 1 then none
  else some (gran (c.blkLen c.g) (cUpFmt d).1)

/-! ### Elements -/

/-- Elements packed as they are (R174). -/
def packElems (f : Fmt) (es : List Elem) : List Granule :=
  match f with
  | .mx k =>
    let blocks := (chunks 32 es).map (fun b => ((b.headD {}).scale, b.map (·.bits), b.any (·.poison)))
    (chunks 32 blocks).flatMap (packTile k)
  | .float _ | .int _ _ | .xa320 | .xa640 | .bitmap | .raw | .htable =>
    packVals f (fun _ => { mode := .rne, sat := false, sr := 0 }) (es.map (fun e => { bits := e.bits, poison := e.poison }))

/-- A stream's granule map as a reader. -/
def streamRead (l : List (Nat × Granule)) : Nat → Granule := fun i => ((l.find? (fun x => x.1 == i)).map (·.2)).getD zeroGranule

/-- XA-P elements at the head of a byte string (R169). -/
def unpackXap : Nat → List (Byte × Bool) → List Elem
  | 0, _ => []
  | n + 1, b =>
    let (x, k) := Xa.unpack (b.map (·.1))
    { bits := x.bits xa640Bits, poison := (b.take k).any (·.2) } :: unpackXap n (b.drop k)

/-- Elements in XA-P (R169, R215): back to back, a poisoned one as zero. -/
def packXap (es : List Elem) : List Granule :=
  packBytes (es.flatMap (fun e =>
    if e.poison then [(0, true)] else (Xa.pack (Xa.ofBits xa640Bits e.bits)).map (fun b => (b, false))))

/-! ### The levels of a reduction (R212, Table 9-6) -/

/-- One element's domain partial, or final result where there is one level; `i` is its index in the whole vector. -/
def cLevel0 (d : List Byte) (i : Nat) (es : List Elem) : OutVal :=
  if !cSys d then funcVal (cAcc d) (cFunc d) (cIn d) (cOut d) (cRnd d i) es
  else funcVal (cAcc d) (cFunc d) (cIn d) (cUpFmt d).1 (cRnd d i).inner es

/-- One element's final result from the domains' partials: an ordered sum accumulates as R178 gives for values in UP_FORM, an
integer sum in INT64, converted by Table 7-4 (Table 9-6). -/
def cLevel1 (d : List Byte) (i : Nat) (es : List Elem) : OutVal :=
  funcVal (accKind (cExact d) [(cUpFmt d).1]) (cFunc d) (cUpFmt d).1 (cOut d) (cRnd d i) es true

/-- The REDUCE that a level runs as (R180, R212): `v` vectors of `n` elements. -/
def colReduce (member : Nat) (d : List Byte) (level v n : Nat) : List Byte :=
  let (fi, fo) := if level = 0 then (bytesAt d 4 1, if cSys d then 2 else bytesAt d 5 1) else (if (cUpFmt d).2 = 2 then 2 else 0x19, bytesAt d 5 1)
  let slot := fun (fmt role : Nat) => toBytesLE 8 (nearAddr member 0 0) ++ toBytesLE 4 0 ++ [BitVec.ofNat 8 fmt, BitVec.ofNat 8 role, 0, 0]
  [1, 0, BitVec.ofNat 8 (bytesAt d 2 1), 0] ++ List.replicate 20 0 ++ slot fi 1 ++ slot fo 2 ++ List.replicate 48 0 ++
  toBytesLE 4 v ++ toBytesLE 4 (cFunc d) ++ toBytesLE 8 n ++ List.replicate 8 0

/-- Turns of that reduction's stroke. Its operands lie in the engine's staging memory, booked as local HBM (DESIGN CHOICE,
notes/assumptions/30). -/
def colReduceTurns (member : Nat) (d : List Byte) (level v n : Nat) : Nat :=
  dStrokeTurns member (fun _ => 0) (colReduce member d level v n) 0

end Sys2Proof.Machine
end

