-- ==== Sys2Proof/Machine/MoveList.lean ====
section
/-!
DEFINITION. Move lists (spec/10_switch_core.md R242-R245, spec/11_routing_and_slices.md R252): arming, reading ahead, and
the scheduled injections of STORE lists.
-/
namespace Sys2Proof.Machine

/-! ### Arming (R242, R243) -/

/-- The number of a new arm: above those in use. -/
def State.nextArm (s : State) : Nat := s.sw.lists.foldl (fun n m => max n (m.arm + 1)) 0

/-- `s` with list `mlist` armed from `start`, or the arm refused (R243); whether it was armed. A list number without a directory
entry and one whose directory entry was read poisoned have no VALID entry to arm (DEDUCED, notes/assumptions/27). Reserved bits
of the entry, a host error of the host's own making whose result R7 leaves open, are ignored (DESIGN CHOICE,
notes/assumptions/67). -/
def State.armList (s : State) (mlist start : Nat) (collective : Bool) (cseq : Nat) : State × Bool :=
  let refuse := fun (s : State) => (s.listError mlist 1, false)
  let n := 2 ^ min 12 (s.get F.SWX_ML_DIR_LOG2N)
  if s.flag F.SWX_SCHED_ML_EN = false ∨ s.flag F.PWR_STAT_WARN = true ∨ mlist = 0 ∨ n ≤ mlist ∨ start < s.now + 4096
      ∨ 16 ≤ s.sw.lists.length ∨ s.hbmOpen = false then refuse s
  else
    let (d, bad, s1) := s.hbmFetch (s.get F.SWX_ML_DIR_BASE * 4096 + 32 * mlist) 32
    let valid := bitAt (bytesAt d 15 1) 0
    if bad ∨ valid = false ∨ bytesAt d 14 1 ≠ b2n collective ∨ bytesAt d 8 4 = 0 then refuse s1
    else
      (s1.setLists (s1.sw.lists ++
        [{ mlist := mlist, arm := s1.nextArm, collective := collective, queue := bytesAt d 12 2, start := start,
           base := bytesAt d 0 8, entries := bytesAt d 8 4, cseq := cseq }]), true)

/-- The write rule of SWX_ML_ARM: a STORE list is armed. -/
def hookMlArm (s : State) (w : RegWrite) : State :=
  (s.armList (w.actF F.SWX_ML_ARM_MLIST) (s.get F.SWX_ML_TURN_START_TURN) false 0).1

/-! ### Reading ahead -/

/-- The oldest active list with number `n` that `p` holds of. -/
def State.listWith (s : State) (n : Nat) (p : MoveList → Bool) : Option MoveList :=
  s.sw.lists.find? (fun m => m.mlist == n && p m)

/-- MOVE_LIST_READ_AHEAD (R243): the next entry of an active list that has entries to read, through a fabric slot. -/
def State.doMoveListReadAhead (s : State) (mlist : BitVec 32) : State :=
  match s.listWith mlist.toNat (fun m => decide (m.read < m.entries)) with
  | none => s
  | some m =>
    let off := m.base + 32 * m.read
    if s.slotFor off 32 = false then s
    else
      let (d, bad, s1) := (s.activate off).hbmFetch off 32
      s1.setList { m with ahead := m.ahead ++ [{ bytes := d, poison := bad, readAt := s1.now }], read := m.read + 1 }

/-! ### Entries (Table 10-5) -/

def MoveEntry.off (e : MoveEntry) : Nat := bytesAt e.bytes 0 5
def MoveEntry.port (e : MoveEntry) : Nat := bytesAt e.bytes 5 1
def MoveEntry.ngr (e : MoveEntry) : Nat := bytesAt e.bytes 6 1

/-- A reserved field of an entry is not zero, or NGR is out of range. -/
def MoveEntry.bad (e : MoveEntry) (collective : Bool) : Bool :=
  decide (128 ≤ e.port) || !decide (1 ≤ e.ngr ∧ e.ngr ≤ 8) || bytesAt e.bytes 24 8 != 0 ||
  (if collective then decide (3 < bytesAt e.bytes 7 1) || decide (2 ^ 20 ≤ bytesAt e.bytes 8 8) else
    bytesAt e.bytes 7 1 != 0 || bytesAt e.bytes 8 8 % 32 != 0)

/-- `s` with a list's oldest entry done with; the list ends after its last. -/
def State.entryDone (s : State) (m : MoveList) (e : MoveEntry) : State :=
  let m1 := { m with ahead := m.ahead.drop 1, done := m.done + 1, lastOff := e.off }
  if m.entries ≤ m1.done then s.dropList m else s.setList m1

/-! ### Injection (R244) -/

/-- `s` with the frame of an entry given a tracker and a sequence number and injected, where it may have them now, else waiting
for them like any request, with its listed port and turn (DEDUCED, notes/assumptions/27). -/
def State.injectScheduled (s : State) (ep q : Nat) (f : Frame) (l : Listed) (o : Origin) : State :=
  let w : WaitReq := { queue := q, frame := f, origin := o, order := s.rep.nextOrder,
                       gen := s.winGet (F.REP_WIN_STAT_GEN ep), listed := some l }
  (s.orderTaken.takeOrWait w ep).settleQ q

/-- `s` with an entry's request ended with `st` without a tracker, in its place in the order of issue (R83). -/
def State.endEntry (s : State) (ep q st : Nat) (f : Frame) : State :=
  (s.orderTaken.failUntracked ep q s.rep.nextOrder f st .none).settleQ q

/-- Where and when entry `e` of list `m` is listed. -/
def MoveList.listing (m : MoveList) (e : MoveEntry) : Listed :=
  { port := e.port, mlist := m.mlist, arm := m.arm, turn := m.start + e.off, readAt := e.readAt }

/-- The `n` data granules from HBM byte `src`. -/
def State.entryData (s : State) (src n : Nat) : List Granule × State :=
  (List.range n).foldl (fun (acc : List Granule × State) i =>
    let (d, p, t) := (acc.2.activate (src + 32 * i)).hbmFetch (src + 32 * i) 32
    (acc.1 ++ [{ data := d, poison := p }], t)) ([], s)

/-- `s` with the oldest entry of STORE list `m` injected, or ended without being sent. A list whose QUEUE no end-point owns
issues nothing (DESIGN CHOICE, notes/assumptions/27). -/
def State.injectStore (s : State) (m : MoveList) (e : MoveEntry) : State :=
  match s.owner m.queue with
  | none => s.entryDone m e
  | some ep =>
    let src := bytesAt e.bytes 16 8
    let addr := bytesAt e.bytes 8 8
    let f0 := s.memoryFrame ep m.queue opStore addr (32 * e.ngr) [] 0 true false
    if hbmSize < src + 32 * e.ngr then (s.endEntry ep m.queue 0x23 f0).entryDone m e
    else match s.checkRequest ep m.queue f0 with
      | some st =>
        let s1 := if st = 0x23 then s.count (F.REP_WIN_DENY_COUNT ep) 1 else s
        (s1.endEntry ep m.queue st f0).entryDone m e
      | none =>
        if !s.listedPortOk f0 e.port then
          ((s.endEntry ep m.queue 0x20 f0).count F.RTE_CNT_ISOLATED 1).entryDone m e
        else if !s.inBudget e.port (e.ngr + 1) then
          (((s.endEntry ep m.queue 0x10 f0).count F.SWX_ML_CNT_OVER 1).listError m.mlist 3).dropList m
        else
          let (gran, s1) := s.entryData src e.ngr
          let f := { f0 with gran := gran, poison := gran.any (·.poison) }
          (s1.injectScheduled ep m.queue f (m.listing e) .none).entryDone m e

/-- Whether a list's oldest entry is due, and what stops the list there: an error of Table 10-6. -/
def State.entryError (s : State) (m : MoveList) (e : MoveEntry) : Option Nat :=
  if e.poison then some 5
  else if e.off < m.lastOff ∨ e.bad m.collective = true then some 2
  else if s.flag F.TRN_STAT_HOLDOVER then some 4
  else none

/-- The oldest entry of an active list, where its turn has come and counterproof has not stopped injections (R396). A STORE
entry's data is read from HBM, a COLLECTIVE entry's where it is open. -/
def State.dueEntry (s : State) (m : MoveList) : Option MoveEntry :=
  match m.ahead with
  | [] => none
  | e :: _ => if m.start + e.off ≤ s.now ∧ s.twnStopped = false ∧ s.hbmOpen = true then some e else none

end Sys2Proof.Machine
end

