-- ==== Sys2Proof/Machine/Collective.lean ====
section
/-!
DEFINITION. The collective engine (spec/09_collectives.md R204-R229, spec/10_switch_core.md R244, R245): starts, streams,
reductions, votes, resigns, records, ready flags, and the injections of COLLECTIVE move lists.
-/
namespace Sys2Proof.Machine

/-! ### The active collectives -/

/-- The active collective with low CSEQ bits `tag`. -/
def State.coll (s : State) (tag : Nat) : Option Coll := s.col.active.find? (fun c => c.tag == tag)

/-- `s` with an active collective replaced. -/
def State.setColl (s : State) (c : Coll) : State :=
  { s with col := { s.col with active := s.col.active.map (fun x => if x.tag = c.tag then c else x) } }

/-- `s` with the active collectives set, and COL_STAT showing their number. -/
def State.setActive (s : State) (l : List Coll) : State :=
  ({ s with col := { s.col with active := l } }.put F.COL_STAT_ACTIVE l.length).put F.COL_STAT_BIND_USED
    (l.filter (fun (c : Coll) => cReady c.desc)).length

/-- A pip frame of this collective from this device. -/
def State.colPip (s : State) (c : Coll) (type op count : Nat) (data : List Byte) : PipFrame :=
  s.mine { type := type, op := op, system := c.sys, slice := s.slice, tag := c.tag, count := count, data := data }

/-! ### Resign (R223) -/

/-- `s` with the data frames of collective `tag` that have not been sent, and those whose retry has not, given up: they end at
once, and nobody is told (R223; notes/assumptions/30). -/
def State.stopFrames (s : State) (tag : Nat) : State :=
  let ws := s.rep.waiting.filter (fun w => w.origin == Origin.collective tag)
  let ts := s.rep.trackers.filter (fun t => t.origin == Origin.collective tag && (!t.sent || t.due.isSome))
  let s1 := { s with rep := { s.rep with
    waiting := s.rep.waiting.filter (fun w => w.origin != Origin.collective tag)
    trackers := s.rep.trackers.filter (fun t => !(t.origin == Origin.collective tag && (!t.sent || t.due.isSome))) } }
  let s2 := match s1.coll tag with
    | some c => s1.setColl { c with
        unended := c.unended - (ws.length + ts.length), retries := c.retries + (ts.map (·.frame.tries)).foldl (· + ·) 0 }
    | none => s1
  ((ws.map (·.queue) ++ ts.map (·.queue)).eraseDups).foldl State.settleQ s2

/-- `s` with a collective's outcome known here: its move list stops; where it is resigned, its data frames stop (R223), and a
bound operation learns of it (R227). -/
def State.colOutcome (s : State) (c : Coll) (o : ColOutcome) : State :=
  let s1 := s.setColl { c with outcome := some o }
  let s2 := s1.setLists (s1.sw.lists.filter (fun m => !(m.collective && m.cseq == c.tag)))
  if o.completed then s2 else (s2.stopFrames c.tag).taintBound c

/-- RESIGNER naming this device. -/
def State.ownResigner (s : State) : Nat := 0x8000 + s.domain * 128 + s.member

/-- `s` with this member resigning collective `c`, where it has not voted and no outcome is known. -/
def State.colResignFor (s : State) (c : Coll) (cause : Nat) : State :=
  if c.step = .voted ∨ c.outcome.isSome = true then s
  else
    let s1 := s.colOutcome c { completed := false, cause := cause, resigner := s.ownResigner, members := 0 }
    s1.floodResign none (s1.colPip c 0x23 0 0 [BitVec.ofNat 8 cause])

/-- The same of the active collective `tag`. -/
def State.resignTag (s : State) (tag cause : Nat) : State :=
  match s.coll tag with
  | some c => s.colResignFor c cause
  | none => s

/-! ### Landing (R211, R215) -/

/-- Granule `i` of DST_ADDR written. -/
def State.landOne (s : State) (c : Coll) (i : Nat) (g : Granule) : State × Coll :=
  let h := addrOffset (cDst c.desc) / 32 + i
  ((s.activate (32 * h)).hbmStoreGranule h 0 g.data g.poison, { c with wrote := putGran c.wrote i g, poison := c.poison || g.poison })

/-- Granules landed from index `at'` of a place. -/
def State.landRuns (s : State) (c : Coll) (runs : List (Nat × Nat)) (at' : Nat) (gs : List Granule) : State × Coll :=
  (gs.zipIdx).foldl (fun (acc : State × Coll) (g, i) =>
    match runIndex runs (at' + i) with
    | some x => acc.1.landOne acc.2 x g
    | none => acc) (s, c)

/-- Granules of SRC_ADDR read. -/
def State.readSource (s : State) (c : Coll) (a n : Nat) : List Granule × State :=
  let g0 := addrOffset (cSrc c.desc) / 32 + a
  (List.range n).foldl (fun (acc : List Granule × State) i =>
    let (d, p, t) := (acc.2.activate (32 * (g0 + i))).memLoad (g0 + i)
    (acc.1 ++ [{ data := d, poison := p }], t)) ([], s)

/-- A poisoned granule of a reduction holds a free value, as a plate operation's does. -/
def State.fixGranules (s : State) (gs : List Granule) : List Granule × State :=
  gs.foldl (fun (acc : List Granule × State) g =>
    if g.poison then (acc.1 ++ [{ data := toBytesLE 32 (acc.2.free 256), poison := true }], acc.2.freeNext)
    else (acc.1 ++ [g], acc.2)) ([], s)

/-! ### What is sent (R211-R215) -/

/-- What one stream carries. -/
structure StreamData where
  form : Nat := 0
  gran : List Granule
  valid : Nat
  dropped : Nat := 0
  deriving DecidableEq, Repr

/-- The granules that this member contributes to `h`, of a contribution that is moved: FIXCAP truncates and pads (R214). -/
def State.contribution (s : State) (c : Coll) (h : Nat) : StreamData × State :=
  let f := cIn c.desc
  let n := c.sendLen h
  let (gs, s1) := s.readSource c (c.sendAt h) (gran n f)
  if cFix c.desc then
    let m := min n (cCap c.desc)
    let es := elemsAt f n (fun i => gs.getD i zeroGranule) 0 m ++ List.replicate (cCap c.desc - m) { bits := 0, scale := 0 }
    ({ gran := packElems f es, valid := m, dropped := n - m }, s1)
  else ({ gran := gs, valid := n }, s1)

/-- The elements of blocks `bs` of SRC_ADDR, block after block. -/
def State.sourceElems (s : State) (c : Coll) (bs : List Nat) : List Elem × State :=
  bs.foldl (fun (acc : List Elem × State) b =>
    let f := cIn c.desc
    let (gs, t) := acc.2.readSource c (gran (c.blkStart b) f) (gran (c.blkLen b) f)
    (acc.1 ++ elemsAt f (c.blkLen b) (fun i => gs.getD i zeroGranule) 0 (c.blkLen b), t)) ([], s)

/-- Elements of the own chunk before its block `b`. -/
def Coll.chunkOff (c : Coll) (b : Nat) : Nat :=
  ((c.chunk c.rank).takeWhile (· != b)).map c.blkLen |>.foldl (· + ·) 0

/-- Valid elements, and elements dropped, of member `b`'s ALL_GATHER contribution as it landed here: with FIXCAP, of the own
one by its send count, and of another one by the COL_END that closed it (R214). -/
def Coll.validOf (c : Coll) (b : Nat) : Nat :=
  if !cFix c.desc then c.landLen b
  else if b = c.g then min (c.sendLen 0) (cCap c.desc)
  else ((c.stream 1 b).ended.map (·.2.2.1)).getD 0
def Coll.droppedOf (c : Coll) (b : Nat) : Nat :=
  if b = c.g then c.sendLen 0 - cCap c.desc else ((c.stream 1 b).ended.map (·.2.2.2)).getD 0

/-- What the stream of phase `p` to `h` carries, once it is known. A stream that carries several contributions on has one
COL_END: it gives the sum of their valid and of their dropped elements (DESIGN CHOICE, notes/assumptions/28). -/
def State.streamData (s : State) (c : Coll) (p h : Nat) : Option (StreamData × State) :=
  let d := c.desc
  let landed := fun (runs : List (Nat × Nat)) =>
    runs.flatMap (fun (a, n) => (List.range n).map (fun i => streamRead c.wrote (a + i)))
  if !c.phaseReady p then none
  else if cReduces d then
    if p = 0 then
      let (gs, s1) := (c.chunk (h % max 1 c.n)).foldl (fun (acc : List Granule × State) b =>
        let (g, t) := acc.2.readSource c (gran (c.blkStart b) (cIn d)) (gran (c.blkLen b) (cIn d))
        (acc.1 ++ g, t)) ([], s)
      some ({ gran := gs, valid := ((c.chunk (h % max 1 c.n)).map c.blkLen).foldl (· + ·) 0 }, s1)
    else if p = 1 then
      let b := c.at' (h / max 1 c.n) c.rank
      let es := (c.part.drop (c.chunkOff b)).take (c.blkLen b)
      let (f, form) := cUpFmt d
      some ({ form := form, gran := if form = 1 then packXap es else packElems f es, valid := es.length }, s)
    else
      let bs := if p = 2 then c.chunk c.rank else [c.g]
      some ({ gran := landed (c.blockRuns bs), valid := (bs.map c.blkLen).foldl (· + ·) 0 }, s)
  else if cOp d = coBroadcast then
    (if c.g = cRoot d then
      let (gs, s1) := s.readSource c 0 (gran (cCount d) (cIn d))
      some ({ gran := gs, valid := cCount d }, s1)
     else some ({ gran := landed ((c.place p h).getD []), valid := cCount d }, s))
  else if cOp d = coAllGather ∧ p = 2 then
    let sum := fun (f : Nat → Nat) => ((c.chunk c.rank).map f).foldl (· + ·) 0
    some ({ gran := landed ((c.place 2 c.g).getD []), valid := sum c.validOf, dropped := if cFix d then sum c.droppedOf else 0 }, s)
  else
    let (x, s1) := s.contribution c h
    some (x, s1)

/-- Bits [191:128] of a collective frame (Table 9-8). -/
def colAddr (tag phase form goff : Nat) : Nat := tag % 65536 * 2 ^ 48 + phase % 16 * 2 ^ 44 + form % 16 * 2 ^ 40 + goff % 2 ^ 40

/-- A collective frame to rank `h`, not yet stamped: scheduled or bulk, whatever class REP_QCLASS gives its queue (R215). -/
def State.colFrame (s : State) (c : Coll) (op p h form goff : Nat) (gs : List Granule) (sched : Bool) : Frame :=
  let (x, m) := s.rankMember c h
  { opcode := op, vc := if sched then 0 else requestVc op (x != s.domain) false, edition := s.edition, slice := s.slice,
    src := s.ownEp 18, dst := epId x m 18, addr := colAddr c.tag p form goff, poison := gs.any (·.poison), gran := gs }

/-- `s` with `k` more frames of collective `tag` under way. -/
def State.addUnended (s : State) (tag k : Nat) : State :=
  match s.coll tag with
  | some c => s.setColl { c with unended := c.unended + k }
  | none => s

/-- `s` with a COL_END sent: it closes the stream (Table 9-7). -/
def State.sendEnd (s : State) (c : Coll) (p h : Nat) (x : StreamData) : State :=
  let n := x.gran.length
  let data := toBytesLE 8 (crc64Final (x.gran.foldl (fun r g => crc64Update r g.signed) crc64Init)) ++ toBytesLE 8 n ++
    toBytesLE 8 x.valid ++ toBytesLE 8 x.dropped
  (s.addUnended c.tag 1).issueOne 18 c.queue (s.colFrame c opColEnd p h x.form n [{ data := data }] false) (.collective c.tag)

/-- `s` with a whole stream sent in frames of at most eight granules. -/
def State.sendStream (s : State) (c : Coll) (p h : Nat) (x : StreamData) : State :=
  let fs := (chunks 8 x.gran).zipIdx
  let s1 := (s.addUnended c.tag fs.length)
  (fs.foldl (fun s (gs, i) => s.issueOne 18 c.queue (s.colFrame c opColData p h x.form (8 * i) gs false) (.collective c.tag)) s1).sendEnd
    c p h x

/-- The code of a stream in `Coll.sent`. -/
def streamCode (p h : Nat) : Nat := p * 65536 + h

/-- Granules of a stream that a move list has injected. -/
def Coll.injectedOf (c : Coll) (p h : Nat) : Nat := ((c.injected.find? (fun x => x.1 == streamCode p h)).map (·.2)).getD 0

/-- `s` with every stream sent that can be; those of a move list are only closed, once all their granules have been
injected (DEDUCED, notes/assumptions/27). `fuel` bounds their number. -/
def State.sendReady : Nat → State → Nat → State
  | 0, s, _ => s
  | k + 1, s, tag =>
    match s.coll tag with
    | none => s
    | some c =>
      if c.step ≠ .data ∨ c.outcome.isSome = true ∨ s.memSlot = false then s
      else
        let todo := c.sends.filter (fun x => !c.sent.contains (streamCode x.1 x.2) && c.phaseReady x.1)
        let pick := if cMlist c.desc = 0 then todo.head?
          else todo.find? (fun x => match s.streamData c x.1 x.2 with
            | some (y, _) => decide (y.gran.length ≤ c.injectedOf x.1 x.2)
            | none => false)
        match pick with
        | none => s
        | some (p, h) =>
          match s.streamData c p h with
          | none => s
          | some (x, s1) =>
            let c1 := { c with sent := c.sent ++ [streamCode p h], poison := c.poison || x.gran.any (·.poison) }
            let s2 := s1.setColl c1
            State.sendReady k (if cMlist c.desc = 0 then s2.sendStream c1 p h x else s2.sendEnd c1 p h x) tag

/-! ### Data begins (R210, R213, R214) -/

/-- `s` with receive count `h` written. -/
def State.writeCount (s : State) (c : Coll) (h n : Nat) : State :=
  s.hbmStore (addrOffset (cCounts c.desc) + 8 * (c.count + h)) (toBytesLE 8 n) false

/-- `s` with collective `c` in its data phases, which begin with the placing of its own data. -/
def State.beginData (s : State) (c : Coll) (since : Nat) : State := s.setColl { c with step := .placing, since := since }

/-- `s` with the own data of collective `c` placed, and its counts written. -/
def State.placeOwn (s : State) (c : Coll) : State :=
  let d := c.desc
  let c0 := { c with step := .data }
  let own := !cReduces d && (cOp d != coBroadcast || c.g == cRoot d) && cMoves d
  if own then
    let (x, s1) := if cOp d = coBroadcast then
        let (gs, t) := s.readSource c0 0 (gran (cCount d) (cIn d))
        (({ gran := gs, valid := cCount d } : StreamData), t)
      else s.contribution c0 c0.g
    let runs := if cOp d = coBroadcast then [(0, x.gran.length)] else [(c0.landAt c0.g, x.gran.length)]
    let (s2, c2) := s1.landRuns c0 runs 0 x.gran
    let lost := if !cFix d then 0
      else if cOp d = coAllGather then c0.sendLen 0 - cCap d
      else ((List.range c0.count).map (fun h => c0.sendLen h - cCap d)).foldl (· + ·) 0
    let s3 := s2.setColl { c2 with dropped := lost }
    if !cVar d then s3
    else if cFix d then s3.writeCount c0 c0.g x.valid
    else (List.range c0.count).foldl (fun s h => s.writeCount c0 h (c0.landLen h)) s3
  else s.setColl c0

/-- `s` with the counts of `c` exchanged: all are known, or the member resigns for want of space (R213). -/
def State.countsKnown (s : State) (c : Coll) : State :=
  if c.others.all (fun h => c.counts.any (fun x => x.1 == h)) then
    if cExtent c.desc < c.landAt c.count then s.colResignFor c 7 else s.beginData c c.since
  else s

/-- `s` with the start barrier of `c` over (R210, R213). -/
def State.barrierOver (s : State) (c : Coll) : State :=
  if cVar c.desc && !cFix c.desc then
    let c1 := { c with step := .counts, since := s.clk, counts := c.counts ++ [(c.g, c.sendLen c.g)] }
    let s1 := s.setColl c1
    let s2 := c1.others.foldl (fun s h =>
      let (x, m) := s.rankMember c1 h
      s.routePip { s.colPip c1 0x22 0 1 (toBytesLE 8 (c1.sendLen h)) with dstDomain := x, dstMember := m }) s1
    s2.countsKnown c1
  else s.beginData c s.clk

/-! ### Start (R206-R210, R217, R219) -/

/-- N of a collective queue's rings (R131). -/
def State.colN (s : State) (q : Nat) : Nat := ringSize (s.get (F.COL_Q_RING_LOG2N q))

/-- The head descriptor of queue `q`: none where no collective may start from it now (R206, R207, R454). -/
def State.colHead (s : State) (q : Nat) : Option Nat :=
  let n := s.colN q
  let h := s.get (F.COL_Q_IDX_HEAD q) % (2 * n)
  if s.owner q = some 18 ∧ s.flag (F.COL_Q_CFG_EN q) = true ∧ ringUsed n h (s.get (F.COL_Q_IDX_TAIL q)) ≠ 0 ∧
      s.slotFor (s.get (F.COL_Q_RING_BASE q) * 4096 + 128 * (h % n)) 128 = true then
    some (s.get (F.COL_Q_RING_BASE q) * 4096 + 128 * (h % n))
  else none

/-- The engine may start one more collective: none during a burnish (R370). -/
def State.colRoom (s : State) : Bool :=
  let m := s.get F.COL_CTL_MAX_ACTIVE
  s.flag F.COL_CTL_EN && !s.flag F.SEC_BURN_ACTIVE && s.flag F.COL_TOPO_VALID && !s.flag F.PWR_STAT_WARN &&
    decide (s.col.active.length < (if 1 ≤ m ∧ m ≤ 16 then m else 1))

/-- A CSEQ is due (R206). -/
def State.cseqDue (s : State) (n : Nat) : Bool := !s.flag F.COL_STAT_SERIES || n == (s.get F.COL_STAT_LAST_CSEQ + 1) % 2 ^ 32

/-- The vote block (Table 9-10). -/
def State.voteBlock (c : Coll) (digest : Nat) (vote : Bool) : List Byte :=
  toBytesLE 8 digest ++ toBytesLE 8 (crc64 (c.desc.take 64)) ++ toBytesLE 4 (cCseq c.desc) ++ toBytesLE 4 (b2n vote) ++
  toBytesLE 4 0 ++ toBytesLE 2 c.count ++ toBytesLE 2 0

/-- `s` with the vote of `c` sent (R218). -/
def State.sendVote (s : State) (c : Coll) (digest : Nat) (vote : Bool) : State :=
  let c1 := { c with step := .voted, localFail := !vote, since := s.clk }
  let s1 := s.setColl c1
  s1.addPart none (s1.colPip c1 0x20 9 1 (State.voteBlock c1 digest vote))

/-- A RESIGN of this TAG seen while its collective had not started (R52). -/
def State.earlyResign (s : State) (tag : Nat) : Option (Nat × Nat) :=
  (s.col.early.find? (fun e => e.1 == tag && decide (s.clk < e.2.2.2 + resignMemory))).map (fun e => (e.2.1, e.2.2.1))

/-- What a started collective first sends: the combine of a SMALL, a BARRIER's vote, the arm of a move list, the start
barrier. -/
def State.colBegin (s : State) (c : Coll) : State :=
  let d := c.desc
  if cOp d = coSmall then
    let (op, n) := (smallForm d).getD (0, 0)
    let (data, bad, s1) := if n = 0 then ([], false, s) else s.hbmFetch (addrOffset (cSrc d)) n
    let s2 := s1.setColl { c with poison := bad }
    s2.addPart none (s2.colPip c 0x10 op 1 data)
  else if cOp d = coBarrier then s.sendVote c 0 true
  else if cMlist d ≠ 0 then
    match s.armList (cMlist d) (cStart d) true c.tag with
    | (s1, true) => s1.beginData c (s1.clk + (cStart d - s1.now))
    | (s1, false) => s1.colResignFor c 8
  else s.addPart none (s.colPip c 0x10 0 1 [])

/-- `s` with the head descriptor of queue `q` started, where it is due and of the kind the command starts (R209). Of the send
counts an ALL_GATHER reads the first alone (R213). -/
def State.startColl (s : State) (q : Nat) (small : Bool) : State :=
  match s.colHead q with
  | none => s
  | some off =>
    let (d, bad, s1) := s.hbmFetch off 128
    if !s.colRoom || !s.cseqDue (cCseq d) || small != (cOp d == coSmall) then s
    else
      let n := s.colN q
      let h := s.get (F.COL_Q_IDX_HEAD q) % (2 * n)
      let sys := cSys d
      let c0 : Coll :=
        { queue := q, index := h, desc := d, n := s.get F.COL_TOPO_N, d := if sys then s.get F.COL_TOPO_D else 1,
          rank := s.get F.COL_TOPO_RANK, dom := if sys then s.get F.COL_TOPO_DOM_INDEX else 0, step := .barrier, since := s.clk }
      let (cts, badCts, s2) := if cVar d && colReserved d && decide (addrOffset (cCounts d) + 8 * c0.count ≤ hbmSize)
        then s1.hbmFetch (addrOffset (cCounts d)) (if cOp d = coAllGather then 8 else 8 * c0.count) else ([], false, s1)
      let c : Coll := { c0 with sendCounts := (chunks 8 cts).map ofBytesLE }
      let s3 := (s2.setActive (s2.col.active.filter (fun x => x.tag != c.tag) ++ [c])).put (F.COL_Q_IDX_HEAD q) ((h + 1) % (2 * n))
      let s4 := (s3.put F.COL_STAT_LAST_CSEQ (cCseq d)).putFlag F.COL_STAT_SERIES true
      match s4.earlyResign c.tag with
      | some (cause, who) => s4.colOutcome c { completed := false, cause := cause, resigner := who, members := 0 }
      | none =>
        if bad || badCts || !s4.colValid c then s4.colResignFor c 2 else s4.colBegin c

/-- COLLECTIVE_START. -/
def State.doCollectiveStart (s : State) (q : Fin 512) : State := s.startColl q false

/-- SMALL_COLLECTIVE_ISSUE. -/
def State.doSmallCollectiveIssue (s : State) (q : Fin 512) : State := s.startColl q true

/-- `s` with a collective of descriptor `d`, which has not started here, resigned: the RESIGN goes out, and the collective ends
with it once it starts (R52, R223). -/
def State.resignWaiting (s : State) (d : List Byte) (cause : Nat) : State :=
  s.floodResign none (s.mine { type := 0x23, system := cSys d, slice := s.slice, tag := cCseq d % 65536, data := [BitVec.ofNat 8 cause] })

/-- MOVE_LIST_LATE_CHECK: the collective at the head of queue `q` carries a move list whose START_TURN is less than 4,096
turns away, and it has not started: the member resigns it (R228). -/
def State.doMoveListLateCheck (s : State) (q : Fin 512) : State :=
  match s.colHead q with
  | none => s
  | some off =>
    let d := s.memBytes off 128
    let tag := cCseq d % 65536
    if cMlist d = 0 ∨ s.now + 4096 ≤ cStart d ∨ (s.coll tag).isSome = true ∨ (s.earlyResign tag).isSome = true then s
    else s.resignWaiting d 8

/-! ### Receiving (R215) -/

/-- Fields of bits [191:128] of a collective frame. -/
def colTagOf (f : Frame) : Nat := bitsOf f.addr 63 48
def colPhaseOf (f : Frame) : Nat := bitsOf f.addr 47 44
def colFormOf (f : Frame) : Nat := bitsOf f.addr 43 40
def colGoffOf (f : Frame) : Nat := bitsOf f.addr 39 0

/-- The collective and the sender's rank of a frame: a stream that the collective expects. -/
def State.colOf (s : State) (f : Frame) : Option (Coll × Nat) :=
  match s.coll (colTagOf f) with
  | none => none
  | some c => match s.memberRank c (epDomain f.src) (epMember f.src) with
    | some h => if c.expects.contains (colPhaseOf f, h) then some (c, h) else none
    | none => none

/-- The descriptors that wait in the collective queues, not yet started. -/
def State.colWaiting (s : State) : List (List Byte) :=
  (List.range 512).flatMap (fun q =>
    let n := s.colN q
    let h := s.get (F.COL_Q_IDX_HEAD q)
    if s.owner q = some 18 ∧ s.flag (F.COL_Q_CFG_EN q) = true then
      (List.range (ringUsed n h (s.get (F.COL_Q_IDX_TAIL q)))).map (fun k =>
        s.memBytes (s.get (F.COL_Q_RING_BASE q) * 4096 + 128 * ((h + k) % n)) 128)
    else [])

/-- A request taken at the collective end-point: a frame of an active collective from a collective engine waits to be
performed; a frame of a move-list collective that this member has not validated is refused (R228): a scheduled one, or one of a
collective that waits here with a move list; any other is answered PermissionDenied (R215). -/
def State.acceptCol (s : State) (f : Frame) : Option State :=
  if isCollective f.opcode = true ∧ epLocal f.src = 18 ∧ f.slice = s.slice then
    match s.colOf f with
    | some _ =>
      let s1 := s.noteTaken 18 f
      let e := s1.ep 18
      some (s1.setEp 18 { e with service := e.service ++ [f] })
    | none =>
      if (s.coll (colTagOf f)).isNone = true ∧ (f.vc = 0 ∨
          s.colWaiting.any (fun d => cCseq d % 65536 == colTagOf f && cMlist d != 0) = true) then none
      else s.takeFailed 18 f 0x23
  else s.takeFailed 18 f 0x23

/-- The place of a stream is not known yet: counts have not all come. -/
def Coll.placeOpen (c : Coll) : Bool :=
  c.outcome.isNone && cVar c.desc && !cFix c.desc && (match c.step with
    | .barrier | .counts => true
    | .placing | .data | .voted => false)

/-- The bank of a granule of DST_ADDR that frame `f` of collective `c` lands in waits for a mitigation (R309). -/
def State.landHeld (s : State) (c : Coll) (f : Frame) : Bool :=
  !s.hbm.bankHeld.isEmpty && match s.memberRank c (epDomain f.src) (epMember f.src) with
    | none => false
    | some h => match c.place (colPhaseOf f) h with
      | none => false
      | some runs => (List.range f.gran.length).any (fun i => match runIndex runs (colGoffOf f + i) with
        | some x => s.bankHeldAt (32 * (addrOffset (cDst c.desc) / 32 + x))
        | none => false)

/-- The oldest frame of an opcode at the collective end-point that can be performed now. -/
def State.colNext (s : State) (op : Nat) : Option Frame :=
  if !s.memSlot then none
  else ((s.ep 18).service.find? (fun f => match s.coll (colTagOf f) with
    | some c => !c.placeOpen && !s.landHeld c f
    | none => true)).bind (fun f => if f.opcode = op then some f else none)

/-- `s` with a frame of the collective end-point no longer waiting. -/
def State.colTakeOut (s : State) (f : Frame) : State :=
  let e := s.ep 18
  s.setEp 18 { e with service := e.service.erase f }

/-- COL_DATA_RECEIVE: granules written at GOFF of the stream's place, or kept for the reduction; granules past its end are
not taken (DEDUCED, notes/assumptions/28). After the outcome nothing is written. -/
def State.doColDataReceive (s : State) : State :=
  match s.colNext opColData with
  | none => s
  | some f =>
    let s1 := s.colTakeOut f
    match s1.colOf f with
    | none => s1.answer 18 f 0x23 id
    | some (c, h) =>
      let p := colPhaseOf f
      let size := match c.place p h with
        | some runs => some (runsSize runs)
        | none => c.stagedSize p
      if (match size with
          | some n => decide (n < colGoffOf f + f.gran.length)
          | none => false) then s1.answer 18 f 0x23 id
      else if c.outcome.isSome then s1.answer 18 f 1 id
      else
        let x := c.stream p h
        let gs := (f.gran.zipIdx).foldl (fun (m : GranMap) (g, i) => putGran m (colGoffOf f + i) g) x.gran
        let c1 := { c.setStream { x with gran := gs } with poison := c.poison || f.gran.any (·.poison) }
        let (s2, c2) := match c1.place p h with
          | some runs => s1.landRuns c1 runs (colGoffOf f) f.gran
          | none => (s1, c1)
        (s2.setColl c2).answer 18 f 1 id

/-- `s` with the receive counts written that a COL_END of phase `p` from rank `h` gives in fixed-capacity mode (R214). Where the
stream carried the contributions of several domains, one COL_END cannot give each count: they are free values
(notes/assumptions/28). -/
def State.endCounts (s : State) (c : Coll) (h p valid : Nat) : State :=
  if cOp c.desc = coAllGather ∧ p = 2 ∧ 1 < c.d then
    (c.chunk (h % max 1 c.n)).foldl (fun s b => s.freeNext.writeCount c b (s.free 64)) s
  else s.writeCount c h valid

/-- COL_END_RECEIVE: the stream has ended; a CRC or a count that differs fails the member's vote (R218). -/
def State.doColEndReceive (s : State) : State :=
  match s.colNext opColEnd with
  | none => s
  | some f =>
    let s1 := s.colTakeOut f
    match s1.colOf f with
    | none => s1.answer 18 f 0x23 id
    | some (c, h) =>
      if c.outcome.isSome then s1.answer 18 f 1 id
      else
        let x := c.stream (colPhaseOf f) h
        let data := (f.gran.headD zeroGranule).data
        let crc := crc64Final (x.gran.foldl (fun r e => crc64Update r e.2.signed) crc64Init)
        let bad := f.gran.any (·.poison) || bytesAt data 0 8 != crc || bytesAt data 8 8 != x.gran.length
        let c1 := c.setStream { x with ended := some (bytesAt data 0 8, bytesAt data 8 8, bytesAt data 16 8, bytesAt data 24 8) }
        let s2 := s1.setColl { c1 with localFail := c.localFail || bad, poison := c.poison || f.gran.any (·.poison) }
        let s3 := if cFix c.desc then s2.endCounts c h (colPhaseOf f) (bytesAt data 16 8) else s2
        s3.answer 18 f 1 id

/-! ### Reductions (R212) -/

/-- TAIL of op queue `q` as its submitter has it: held by a gate, or visible (R395). -/
def State.lastTail (s : State) (q : Nat) : Nat := ((s.plate.gated.find? (fun x => x.1 == q)).map (·.2)).getD (s.oqTail q)

/-- `s` with a REDUCE submitted to the collective op queue: its descriptor is written at TAIL, and TAIL passes it, or is held
where the queue is gated (R18, R132, R133, R395). The spec does not give the descriptor's bytes, which are free values
(notes/assumptions/30). -/
def State.submitJob (s : State) (tag turns : Nat) : State :=
  let q := s.colq
  let off := s.descAt q (s.lastTail q)
  let s1 := if off + 128 ≤ hbmSize then s.freeNext.hbmStore off (toBytesLE 128 (s.free 1024)) false else s
  { s1 with plate := { s1.plate with jobs := s1.plate.jobs ++ [(tag, turns)] } }.gateTail q ((s1.lastTail q + 1) % (2 * s1.oqN q))

/-- `s` with the next level's REDUCE asked of the collective op queue, once its contributions are all in. -/
def State.reduceNext (s : State) (c : Coll) : State :=
  let ready := cReduces c.desc && c.step == .data && c.outcome.isNone && c.job.isNone && decide (c.reduced < c.levels) &&
    c.phaseIn c.reduced && s.memSlot
  if ready then
    let (v, n) := if c.reduced = 0 then (c.n, ((c.chunk c.rank).map c.blkLen).foldl (· + ·) 0) else (c.d, c.blkLen c.g)
    let t := colReduceTurns s.member c.desc c.reduced v n
    (s.setColl { c with job := some c.reduced }).submitJob c.tag t
  else s

/-- `s` with the own result block landed. -/
def State.landResult (s : State) (c : Coll) (vals : List OutVal) : State :=
  let d := c.desc
  let b := c.g
  let (gs, s1) := s.fixGranules (packVals (cOut d) (fun i => cRnd d (c.blkStart b + i)) vals)
  let runs := if cOp d = coReduceScatter then [(0, gs.length)] else c.blockRuns [b]
  let (s2, c2) := s1.landRuns c runs 0 gs
  s2.setColl c2

/-- `s` with level 0 computed: each element of the own chunk over the domain's ranks in order. -/
def State.reduce0 (s : State) (c : Coll) : State :=
  let d := c.desc
  let bs := c.chunk c.rank
  let (own, s1) := s.sourceElems c bs
  let all := (List.range c.n).map (fun k =>
    if k = c.rank then own
    else
      let rd := streamRead (c.stream 0 (c.at' c.dom k)).gran
      (bs.foldl (fun (acc : List Elem × Nat) b =>
        (acc.1 ++ elemsAt (cIn d) (c.blkLen b) (fun i => rd (acc.2 + i)) 0 (c.blkLen b), acc.2 + gran (c.blkLen b) (cIn d))) ([], 0)).1)
  let idx := bs.flatMap (fun b => (List.range (c.blkLen b)).map (c.blkStart b + ·))
  let vals := (idx.zipIdx).map (fun (i, j) => cLevel0 d i (all.map (fun v => v.getD j {})))
  let c1 := { c with job := none, reduced := 1 }
  if c.sys then s1.setColl { c1 with part := vals.map (fun v => { bits := v.bits, poison := v.poison }) }
  else s1.landResult c1 vals

/-- `s` with level 1 computed: each element of the own block over the domains in order. -/
def State.reduce1 (s : State) (c : Coll) : State :=
  let d := c.desc
  let n := c.blkLen c.g
  let (f, form) := cUpFmt d
  let all := (List.range c.d).map (fun x =>
    if x = c.dom then (c.part.drop (c.chunkOff c.g)).take n
    else
      let rd := streamRead (c.stream 1 (c.at' x c.rank)).gran
      if form = 1 then
        let gs := (c.stream 1 (c.at' x c.rank)).gran
        unpackXap n (gs.flatMap (fun e => e.2.data.map (fun b => (b, e.2.poison))))
      else elemsAt f n rd 0 n)
  let vals := (List.range n).map (fun j => cLevel1 d (c.blkStart c.g + j) (all.map (fun v => v.getD j {})))
  s.landResult { c with job := none, reduced := 2 } vals

/-- `s` told that the REDUCE of collective `tag` has retired with a status (R218, Table 9-13). -/
def State.reduceDone (s : State) (tag st : Nat) : State :=
  match s.coll tag with
  | none => s
  | some c =>
    if c.outcome.isSome then s.setColl { c with job := none }
    else if !isSuccess st then (s.setColl { c with job := none }).resignTag tag 6
    else match c.job with
      | some 0 => s.reduce0 c
      | some _ => s.reduce1 c
      | none => s

/-! ### Ready flags (R225) -/

/-- READY_FLAG_WRITE: block k is reduced and performed here; EPOCH goes into flag k on every member. -/
def State.doReadyFlagWrite (s : State) (tag : BitVec 16) : State :=
  match s.coll tag.toNat with
  | none => s
  | some c =>
    let d := c.desc
    if !cReady d || c.flagsWritten || c.outcome.isSome || decide (c.reduced < c.levels) || !s.memSlot then s
    else
      let off := addrOffset (cFlags d) + 8 * c.rank
      let m0 := s.get F.COL_TOPO_M0
      let ms := (List.range c.n).map (fun k => (m0 + k) % 128)
      let s1 := s.setColl { c with flagsWritten := true, unended := c.unended + (ms.filter (· != s.member)).length }
      ms.foldl (fun s m =>
        if m = s.member then s.hbmStore off (toBytesLE 8 (cEpoch d)) false
        else s.issueMemory c.queue opStore (nearAddr m 0 off) 8 (toBytesLE 8 (cEpoch d)) 0 (.readyFlag c.tag)) s1

/-! ### Vote (R218, R226) -/

/-- The plate operation bound to `c`, once it has fetched every piece. -/
def State.consumer (s : State) (c : Coll) : Option PlateOp :=
  match s.plate.op with
  | none => none
  | some o =>
    if o.job.isNone ∧ dOp o.desc = plGGemm ∧ (dSlot o.desc 2).addr = cFlags c.desc ∧ dP o.desc 120 8 = cEpoch c.desc ∧
        o.ending = false ∧ o.allIn = true then some o else none

/-- This member's part of `c` is done. -/
def State.partDone (s : State) (c : Coll) : Bool :=
  c.step == .data && c.outcome.isNone && c.unended == 0 && c.job.isNone && decide (c.levels ≤ c.reduced) &&
  c.sends.all (fun x => c.sent.contains (streamCode x.1 x.2)) && c.expects.all (fun x => (c.stream x.1 x.2).ended.isSome) &&
  (!cReady c.desc || (c.flagsWritten && (s.consumer c).isSome))

/-- COLLECTIVE_VOTE: digest and vote of Tables 9-10 and 9-11. -/
def State.doCollectiveVote (s : State) (tag : BitVec 16) : State :=
  match s.coll tag.toNat with
  | none => s
  | some c =>
    if !s.partDone c then s
    else
      let pieces := match s.consumer c with
        | some o => o.fetched.filter (fun e => keySlot e.1 == 1)
        | none => []
      let digest := if cReady c.desc then proofDigest pieces
        else if cOp c.desc = coReduceScatter ∨ cOp c.desc = coAllToAll then 0 else proofDigest c.wrote
      let bad := c.localFail || c.wrote.any (fun e => e.2.poison) || (cReady c.desc && pieces.any (fun e => e.2.poison))
      s.sendVote { c with poison := c.poison || (cReady c.desc && pieces.any (fun e => e.2.poison)) } digest (!bad)

/-! ### Lag (R410-R412) -/

/-- `s` with a barrier of `c` over: where its scope is DOMAIN it counts for the lag score. -/
def State.noteBarrier (s : State) (c : Coll) : State :=
  if c.sys then s
  else
    let old := s.get F.FLT_LAG_SCORE
    let last := decide (s.clk - c.since ≤ s.get F.FLT_LAG_LAST_WIN)
    let new := old - old / 1024 + (if last then 1024 else 0)
    let th := s.get F.FLT_LAG_THRESH
    let s1 := s.put F.FLT_LAG_SCORE new
    if !s1.flag F.FLT_LAG_SUSPECT && decide (th ≤ new) then
      (s1.putFlag F.FLT_LAG_SUSPECT true).fault 4 0x0060 14 0 { detail0 := new, detail1 := th }
    else if s1.flag F.FLT_LAG_SUSPECT && decide (2 * new < th) then
      (s1.putFlag F.FLT_LAG_SUSPECT false).fault 6 0x0061 14 0 { detail0 := new, detail1 := th }
    else s1

/-! ### What the pip tree brings (R217, R220-R223) -/

/-- `s` with the result of a SMALL written, once HBM has a slot for it (R16, R217). -/
def State.landSmall (s : State) (c : Coll) : State :=
  let off := addrOffset (cDst c.desc)
  let t := s.hbmStore off c.landing false
  let g0 := off / 32
  t.setColl { c with
    landing := []
    wrote := (List.range ((off + c.landing.length + 31) / 32 - g0)).map (fun i => (i, { data := t.memBytes (32 * (g0 + i)) 32 })) }

/-- `s` with the result of a SMALL kept to be written, and its outcome taken (R217). -/
def State.smallDown (s : State) (c : Coll) (f : PipFrame) : State :=
  let ok := f.count == c.count
  s.colOutcome { c with landing := f.data } { completed := ok, cause := if ok then 0 else 0x0A, resigner := 0, members := f.count }

/-- `s` with a COMMIT_DOWN acted on (R220). -/
def State.commitDown (s : State) (c : Coll) (f : PipFrame) : State :=
  s.colOutcome c { completed := bytesAt f.data 24 1 == 1, cause := bytesAt f.data 25 1, resigner := bytesAt f.data 26 2, members := f.count }

/-- `s` with a RESIGN acted on: by a member that has not voted and knows no outcome; kept where the collective has not
started (R52, R223). -/
def State.resignSeenHere (s : State) (f : PipFrame) : State :=
  let cause := bytesAt f.data 0 1
  let who := 0x8000 + f.srcDomain * 128 + f.srcMember
  match s.coll f.tag with
  | some c =>
    if c.step = .voted ∨ c.outcome.isSome = true then s
    else s.colOutcome c { completed := false, cause := cause, resigner := who, members := 0 }
  | none =>
    { s with col := { s.col with
        early := s.col.early.filter (fun (e : Nat × Nat × Nat × Nat) => e.1 != f.tag && decide (s.clk < e.2.2.2 + resignMemory)) ++
          [(f.tag, cause, who, s.clk)] } }

/-- `s` with one frame that the pip tree delivered to the collective engine acted on. -/
def State.colTurned (s : State) (f : PipFrame) : State :=
  if f.type = 0x23 then s.resignSeenHere f
  else match s.coll f.tag with
    | none => s
    | some c =>
      if c.outcome.isSome then s
      else if f.type = 0x11 then
        (if c.step = .barrier then
          (if cOp c.desc = coSmall then (if f.op = 0 then s.noteBarrier c else s).smallDown c f else (s.noteBarrier c).barrierOver c)
         else s)
      else if f.type = 0x21 then (if cOp c.desc = coBarrier ∧ c.step = .voted then s.noteBarrier c else s).commitDown c f
      else if f.type = 0x22 then
        match s.memberRank c f.srcDomain f.srcMember with
        | some h =>
          let c1 := { c with counts := c.counts.filter (fun x => x.1 != h) ++ [(h, bytesAt f.data 0 8)] }
          let s1 := s.setColl c1
          if c1.step = .counts then s1.countsKnown c1 else s1
        | none => s
      else s

/-- `s` told how a frame or a flag write of collective `tag` ended (R216, R228). The record's RETRIES and its success status are
those of the collective frames alone (R222). A frame of a move-list collective that its receiver refused, or did not know the
collective of, was not validated there: cause LATE (R228); one that was never sent, or ended otherwise, has cause FABRIC. -/
def State.colDone (s : State) (tag : Nat) (d : Done) : State :=
  match s.coll tag with
  | none => s
  | some c =>
    let own := isCollective d.frame.opcode
    let c1 := { c with
      unended := c.unended - 1, retries := c.retries + (if own then d.frame.tries else 0),
      delayed := c.delayed || (own && (d.status == 2 || decide (0 < d.delay))) }
    let s1 := s.setColl c1
    if isSuccess d.status then s1
    else s1.colResignFor c1 (if (d.status = 0x10 ∨ d.status = 0x23) ∧ cMlist c.desc ≠ 0 ∧ d.unsent = false then 8 else 4)

/-- `s` with the member's voted collectives given up where both upstream lanes are lost (R221). -/
def State.colUnknown (s : State) : State :=
  s.col.active.foldl (fun s c =>
    if c.step = .voted ∧ c.outcome.isNone = true ∧ s.scopeRoot c.sys = false ∧ s.hasUpstream = false then
      s.colOutcome c { completed := false, cause := 0, resigner := 0, members := 0, unknown := true }
    else s) s

/-- `s` with every unvoted collective resigned with cause POWER (R454). -/
def State.colWarned (s : State) : State := s.col.active.foldl (fun s c => s.resignTag c.tag 9) s

/-- `s` with every unvoted collective resigned with `cause`. -/
def State.colResignAll (s : State) (cause : Nat) : State := s.col.active.foldl (fun s c => s.resignTag c.tag cause) s

/-- `s` with what waits for a slot of HBM in active collective `tag` done, where HBM has one: its own data placed, or the result of
a SMALL written. -/
def State.colMemory (s : State) (tag : Nat) : State :=
  match s.coll tag with
  | none => s
  | some c =>
    if s.memSlot = false then s
    else if !c.landing.isEmpty then s.landSmall c
    else if c.step = .placing ∧ c.outcome.isNone = true then s.placeOwn c
    else s

/-- `s` with each active collective carried on as far as it can be: its own data placed, streams sent, the next reduction asked
for. -/
def State.colAdvance (s0 : State) : State :=
  s0.col.active.foldl (fun s' c0 =>
    let s := s'.colMemory c0.tag
    let s1 := State.sendReady (3 * c0.count + 1) s c0.tag
    match s1.coll c0.tag with
    | some c => s1.reduceNext c
    | none => s1) s0

/-- COLLECTIVE_TIMEOUT (Table 9-17, R223). -/
def State.doCollectiveTimeout (s : State) (tag : BitVec 16) : State :=
  match s.coll tag.toNat with
  | none => s
  | some c =>
    let lim := match c.step with
      | .barrier => some (s.get F.COL_TIMER_START_LIMIT)
      | .counts | .placing | .data => some (s.get F.COL_TIMER_RUN_LIMIT)
      | .voted => none
    match lim with
    | some l => if c.since + l ≤ s.clk then s.colResignFor c 3 else s
    | none => s

/-! ### The record (R222, Table 9-12) -/

/-- The completion record. -/
def Coll.record (c : Coll) (o : ColOutcome) (now : Nat) : List Byte :=
  let st := if !o.completed then 0x32 else if 0 < c.retries then 3 else if c.delayed then 2 else 1
  let flags := b2n (c.step == .voted && c.localFail) + 2 * b2n c.poison + 4 * b2n o.unknown + 8 * b2n (cMlist c.desc != 0)
  toBytesLE 1 st ++ toBytesLE 1 flags ++ toBytesLE 2 (min 65535 c.retries) ++ toBytesLE 2 (bytesAt c.desc 64 2) ++ toBytesLE 2 o.members ++
  toBytesLE 8 now ++ toBytesLE 4 (min (2 ^ 32 - 1) c.dropped) ++ toBytesLE 1 o.cause ++ toBytesLE 1 0 ++ toBytesLE 2 o.resigner ++
  toBytesLE 8 (proofDigest c.wrote)

/-- COLLECTIVE_RECORD_WRITE: the outcome is known and every frame and plate operation of the collective has ended. -/
def State.doCollectiveRecordWrite (s : State) (tag : BitVec 16) : State :=
  match s.coll tag.toNat with
  | none => s
  | some c => match c.outcome with
    | none => s
    | some o =>
      let off := s.get (F.COL_Q_CPL_BASE c.queue) * 4096 + 32 * (c.index % s.colN c.queue)
      if c.unended ≠ 0 ∨ c.job.isSome = true ∨ c.landing ≠ [] ∨ s.slotFor off 32 = false then s
      else
        let s1 := if off + 32 ≤ hbmSize then s.hbmStore off (c.record o s.now) false else s
        let s2 := s1.setActive (s1.col.active.filter (fun x => x.tag != c.tag))
        let s3 := if o.completed then s2.count F.COL_CNT_COMPLETED 1 else s2.count F.COL_CNT_RESIGNED 1
        if cNotify c.desc then s3.raiseVector (s3.get (F.COL_Q_CFG_PORT c.queue)) (c.queue % 64) else s3

/-! ### Registers -/

/-- The write rule of COL_RESIGN: a collective with this CSEQ, active or waiting in a queue, is resigned (R223); any other number
does nothing (DEDUCED, notes/assumptions/28). -/
def hookColResign (s : State) (w : RegWrite) : State :=
  let n := w.actF F.COL_RESIGN_CSEQ
  match s.col.active.find? (fun c => cCseq c.desc == n) with
  | some c => s.colResignFor c 1
  | none => match s.colWaiting.find? (fun d => cCseq d == n) with
    | some d => s.resignWaiting d 1
    | none => s

/-- The write rule of COL_CTL: RESEQ ends the CSEQ series (R206). -/
def hookColCtl (s : State) (w : RegWrite) : State :=
  let s1 := s.takeWrite (w.setNew F.COL_CTL_RESEQ 0)
  if w.actF F.COL_CTL_RESEQ = 1 then s1.putFlag F.COL_STAT_SERIES false else s1

/-- `s` with the TAIL of collective queue `q` advanced by an accepted doorbell (R131, R207). Of a TAIL that puts more entries in
the ring than it holds, a host error, what TAIL then holds is a free value (notes/assumptions/67). -/
def State.advanceCol (s : State) (q tail : Nat) : State :=
  if tailOver (s.colN q) (s.get (F.COL_Q_IDX_HEAD q)) tail then
    s.freeNext.put (F.COL_Q_IDX_TAIL q) (s.free 17 % (2 * s.colN q))
  else s.put (F.COL_Q_IDX_TAIL q) (tail % (2 * s.colN q))

/-- The write rule of COL_Q_IDX: a doorbell alone advances a collective queue; a register write is discarded and counted
(R207). -/
def hookColQIdx (q : Nat) (s : State) (w : RegWrite) : State :=
  if w.newF (F.COL_Q_IDX_TAIL q) = w.oldF (F.COL_Q_IDX_TAIL q) then s else s.count F.COL_CNT_DOOR_REJ 1

/-! ### Move lists that carry collectives (R228, R244, R245) -/

/-- `s` with the oldest entry of COLLECTIVE list `m` injected for collective `c`, or the collective resigned: its request is then
ended in the queue's status block with what kept it back (R101, R245, R474). -/
def State.injectCollective (s : State) (m : MoveList) (e : MoveEntry) (c : Coll) : State :=
  let p := bytesAt e.bytes 7 1
  let h := bytesAt e.bytes 8 2
  let form := bytesAt e.bytes 10 1 % 16
  let goff := bytesAt e.bytes 16 8
  let stop := fun (s : State) (err : Nat) => (s.listError m.mlist err).dropList m
  if !c.sends.contains (p, h) then stop s 2
  else match s.streamData c p h with
    | none => s.colResignFor c 8
    | some (x, s1) =>
      if x.form ≠ form ∨ x.gran.length < goff + e.ngr then stop s 2
      else
        let f := s1.colFrame c opColData p h form goff ((x.gran.drop goff).take e.ngr) true
        let failed := fun (s : State) (st : Nat) => ((s.endEntry 18 c.queue st f).entryDone m e).colResignFor c 4
        match s1.checkRequest 18 c.queue f with
        | some st => failed s1 st
        | none =>
        if !s1.listedPortOk f e.port then failed (s1.count F.RTE_CNT_ISOLATED 1) 0x20
        else if !s1.inBudget e.port f.size then failed (s1.count F.SWX_ML_CNT_OVER 1) 0x10
        else
          let c1 := { c with
            unended := c.unended + 1
            injected := c.injected.filter (fun y => y.1 != streamCode p h) ++ [(streamCode p h, c.injectedOf p h + e.ngr)] }
          ((s1.setColl c1).injectScheduled 18 c.queue f (m.listing e) (.collective c.tag)).entryDone m e

/-- `s` with the oldest entry of list `m` injected, where its turn has come. -/
def State.injectNext (s : State) (m : MoveList) : State :=
  match s.dueEntry m with
  | none => s
  | some e =>
    match s.entryError m e with
    | some err =>
      if m.collective && err == 4 then
        match s.coll m.cseq with
        | some c => (s.dropList m).colResignFor c 8
        | none => s.dropList m
      else (s.listError m.mlist err).dropList m
    | none =>
      if m.collective then
        match s.coll m.cseq with
        | some c => if c.outcome.isSome then s.dropList m else s.injectCollective m e c
        | none => s.dropList m
      else s.injectStore m e

/-- MOVE_LIST_INJECT (R244): the oldest entry read ahead of an active list, once its turn has come. -/
def State.doMoveListInject (s : State) (mlist : BitVec 32) : State :=
  match s.listWith mlist.toNat (fun m => (s.dueEntry m).isSome) with
  | none => s
  | some m => s.injectNext m

/-- `s` with every entry injected whose turn has come: what the commands of the turn left undone when it ends, so that no listed
turn passes (R244, R383). `fuel` bounds their number. -/
def State.injectDue : Nat → State → State
  | 0, s => s
  | k + 1, s =>
    match s.sw.lists.find? (fun m => (s.dueEntry m).isSome) with
    | none => s
    | some m => State.injectDue k (s.injectNext m)

end Sys2Proof.Machine
end

