-- ==== Sys2Proof/Machine/Twin.lean ====
section
/-!
DEFINITION. Alignment of crossings and counterproof (spec/17_determinism_and_replay.md R388-R398).
-/
namespace Sys2Proof.Machine

/-! ### Crossings (R388-R392, Table 17-3) -/

/-- The accepted raw depths of a crossing. -/
def cdcRange (i : Nat) : Nat × Nat := if i < 12 then (2, 6) else if i < 60 then (3, 8) else (1, 4)

/-- Crossing `i`'s samples pass. -/
def cdcPasses (i : Nat) (d : Option (Fin 16)) : Bool :=
  match d with
  | some x => decide ((cdcRange i).1 ≤ x.val ∧ x.val ≤ (cdcRange i).2)
  | none => false

/-- ALIGNMENT_ATTEMPT: the attempt whose samples have ended pins every crossing and completes alignment (R36), or names the first that fails; the eighth
to fail ends alignment. -/
def State.doAlignmentAttempt (s : State) (depths : List (Option (Fin 16))) : State :=
  match s.pip.alignAt with
  | none => s
  | some a =>
    let k := s.get F.TRN_CDC_STAT_ATTEMPTS
    if s.flag F.TRN_CDC_STAT_DONE || s.flag F.TRN_CDC_STAT_FAILED || decide (8 ≤ k ∨ s.clk < a + 1000 * k + 272) then s
    else
      let d := sliceD none depths 0 204
      let s1 := s.put F.TRN_CDC_STAT_ATTEMPTS (k + 1)
      match (List.range 204).find? (fun i => !cdcPasses i (d.getD i none)) with
      | some i =>
        let s2 := s1.put F.TRN_CDC_STAT_FIRST_BAD i
        if k < 7 then s2
        else
          let s3 := s2.putFlag F.TRN_CDC_STAT_FAILED true
          s3.fault 5 0x0031 12 0 { detail0 := i, detail1 := (s3.reg Reg.TRN_CDC_STAT).toNat }
      | none =>
        let raw := d.map (fun x => match x with | some y => y.val | none => 0)
        let s2 := (List.range 13).foldl (fun s j =>
          let ns := sliceD 0 raw (16 * j) 16
          s.setReg (Reg.TRN_CDC_DEPTH j) (BitVec.ofNat 64 (ns.foldr (fun n v => v * 16 + n) 0))) s1
        let s3 := ((s2.put F.TRN_CDC_STAT_DIGEST (crc32 (raw.map (fun n => BitVec.ofNat 8 n)))).put
          F.TRN_CDC_STAT_FIRST_BAD 0xFF).putFlag F.TRN_CDC_STAT_DONE true
        let s4 := s3.putFlag F.TRN_STAT_ALIGNED true
        { s4 with pip := { s4.pip with badOffsets := 0 } }.rootSelf

/-- Granule `i` of a list poisoned. -/
def poisonGranule (l : List Granule) (i : Nat) : List Granule :=
  match l[i]? with
  | some g => listSet l i { g with poison := true }
  | none => l

/-- `s` with one granule that a slip of a crossing damaged poisoned (R295): a frame's in the switch core, one on its way into an HBM
stack, one that a read in this turn brings out of a stack, which the stack itself holds undamaged, or one of a port's stream
(Table 17-3; notes/assumptions/86). -/
def State.slipDamage (s : State) (crossing : Nat) (d : Nat × Nat) : State :=
  if crossing < 12 then
    match s.sw.crossing[d.1]? with
    | some x =>
      let x1 := { x with frame := { x.frame with gran := poisonGranule x.frame.gran d.2 } }
      { s with sw := { s.sw with crossing := listSet s.sw.crossing d.1 x1 } }
    | none => s
  else if crossing < 60 then
    if hbmStack (32 * d.1) = (crossing - 12) / 2 ∧ d.1 < hbmSize / 32 then
      (if crossing % 2 = 0 then s.hbmRewrite d.1 (s.hbmBytes (32 * d.1) 32) true
       else { s with hbm := { s.hbm with slipped := s.hbm.slipped.filter (fun x => x.2 == s.clk) ++ [(d.1, s.clk)] } })
    else s
  else if crossing < 188 then
    let v := s.port (crossing - 60)
    match v.stream[d.1]? with
    | some x => s.setPort (crossing - 60) { v with stream := listSet v.stream d.1 { x with left := poisonGranule x.left d.2 } }
    | none => s
  else s

/-- CDC_SLIP: damaged granules are poisoned, time is lost; the device returns by rejoin. -/
def State.doCdcSlip (s : State) (crossing : Fin 204) (damaged : List (Nat × Nat)) : State :=
  if !s.flag F.TRN_CDC_STAT_DONE then s
  else
    let s1 := damaged.foldl (fun s d => s.slipDamage crossing d) (s.putFlag F.TRN_CDC_STAT_SLIP true)
    s1.loseTime.fault 5 0x0032 12 0 { detail0 := crossing }

/-! ### Replay (R387) -/

/-- The class of a STATUS: the three successes are one class. -/
def statusClass (st : Nat) : Nat := if 1 ≤ st ∧ st ≤ 3 then 1 else st

/-- Two completion records agree in the class of STATUS and in DIGEST, which is what replay-equal says of collective records. -/
def colReplayEqual (a b : List Byte) : Bool :=
  statusClass (bytesAt a 0 1) == statusClass (bytesAt b 0 1) && bytesAt a 24 8 == bytesAt b 24 8

/-- Two plate completion records are replay-equal: STROKES agree too, the plaintext hashes of the bound sets where the record has
BSET, and ACTIVE where both are Fixed, on one stepping, and not STRETCHED. -/
def plateReplayEqual (sameStepping : Bool) (a b : List Byte) (plainA plainB : Option (BitVec 384)) : Bool :=
  let flag := fun (r : List Byte) (i : Nat) => bitAt (bytesAt r 1 1) i
  colReplayEqual a b && bytesAt a 6 2 == bytesAt b 6 2 && flag a 2 == flag b 2 && (!flag a 2 || plainA == plainB) &&
    (!(sameStepping && flag a 0 && flag b 0 && !flag a 1 && !flag b 1) || bytesAt a 20 4 == bytesAt b 20 4)

/-! ### Pairing (R393, R395, R398) -/

/-- A rejected write of the TWN page. -/
def State.twnRejected (s : State) : State := (s.putFlag F.TWN_STAT_REJ true).rejected 18 0

/-- The write rule of TWN_START: a multiple of 1,024, at least 4,096 turns ahead, before the pairing is enabled. -/
def hookTwnStart (s : State) (w : RegWrite) : State :=
  let t := w.newF F.TWN_START_START_TURN
  if t % 1024 = 0 ∧ s.now + 4096 ≤ t ∧ s.flag F.TWN_CTL_EN = false then s.takeWrite w else s.twnRejected

/-- `s` with a pairing begun: nothing of an earlier one stays in TWN_STAT. -/
def State.twnBegin (s : State) (w : RegWrite) : State :=
  let s1 := ((((s.takeWrite w).put F.TWN_STAT_WINDOW 0).put F.TWN_STAT_CAUSE 0).put F.TWN_STAT_SIG 0).putFlag
    F.TWN_STAT_LOCATED false
  let s2 := ((s1.putFlag F.TWN_STAT_STOPPED false).putFlag F.TWN_STAT_MISMATCH false).put F.TWN_GRAN_GRANULE (2 ^ 40 - 1)
  { s2 with twn := { relArmed := s2.twn.relArmed, next := s2.get F.TWN_START_START_TURN / 1024 } }

/-- `s` with a pairing ended: a stopped operation records Aborted, gated TAILs become visible. -/
def State.twnEnd (s : State) (w : RegWrite) : State :=
  let s1 := if s.twnStopped then s.recordStopped else s
  let s2 := (s1.takeWrite w).releaseGated
  { s2 with twn := {} }

/-- The write rule of TWN_CTL: EN set needs a START_TURN that is still to come. -/
def hookTwnCtl (s : State) (w : RegWrite) : State :=
  let start := s.get F.TWN_START_START_TURN
  match w.oldF F.TWN_CTL_EN, w.newF F.TWN_CTL_EN with
  | 0, 1 => if start % 1024 = 0 ∧ s.now < start then s.twnBegin w else s.twnRejected
  | 1, 0 => s.twnEnd w
  | _, _ => s.takeWrite w

/-- The write rule of TWN_REL: a multiple of 16, at least 4,096 turns ahead. -/
def hookTwnRel (s : State) (w : RegWrite) : State :=
  let t := w.newF F.TWN_REL_TURN
  if t % 16 = 0 ∧ s.now + 4096 ≤ t then { s.takeWrite w with twn := { s.twn with relArmed := true } } else s.twnRejected

/-- GATED_TAIL_RELEASE. -/
def State.doGatedTailRelease (s : State) : State :=
  if s.twn.relArmed && decide (s.get F.TWN_REL_TURN ≤ s.now) then
    { s with twn := { s.twn with relArmed := false } }.releaseGated
  else s

/-! ### Window records (R394, R396, Table 17-4) -/

/-- A count as a record gives it. -/
def satCount (n : Nat) : Nat := min n (2 ^ 32 - 1)

/-- A window's record. -/
def TwnWindow.record (x : TwnWindow) (stop : Bool) (cause : Nat) : List Byte :=
  toBytesLE 8 (crc64Final x.preg) ++ toBytesLE 8 (crc64Final x.sreg) ++ toBytesLE 4 x.w ++ toBytesLE 4 (satCount x.pcount) ++
    toBytesLE 4 (satCount x.scount) ++ toBytesLE 1 (b2n x.brk + 2 * b2n stop) ++ toBytesLE 1 cause ++ toBytesLE 2 0

/-- `s` with `data` sent to the paired device in a P2P frame. -/
def State.twnSend (s : State) (data : List Byte) : State :=
  s.routePip (s.mine { type := 0x30, dstDomain := s.get F.TWN_CTL_PEER_DOMAIN, dstMember := s.get F.TWN_CTL_PEER_MEMBER,
                       data := data })

/-- `s` with a mismatch found in window `x`, unless a stop is agreed already; `cause` 1 becomes TIMING after a break. The
peer's plate count bounds the search for the block. -/
def State.twnMismatch (s : State) (x : TwnWindow) (cause sig peerCount : Nat) : State :=
  if s.twn.stop.isSome then s
  else
    let cause' := if cause = 1 ∧ s.twn.brkSeen = true then 2 else cause
    let last := if x.pcount = peerCount then ceilDiv x.pcount 1024 - 1 else min x.pcount peerCount / 1024
    let loc := if sig = 1 ∨ sig = 3 then some (0, last) else none
    { s with twn := { s.twn with stop := some (x.w, cause', sig), locate := loc } }.twnSend (x.record true cause')

/-- The paired device's record compared with this device's window `x`. -/
def State.twnCompare (s : State) (x : TwnWindow) (r : List Byte) : State :=
  let s1 := { s with twn := { s.twn with
    open' := s.twn.open'.filter (· != x.w), brkSeen := s.twn.brkSeen || bitAt (bytesAt r 28 1) 0 } }
  let own := x.record false 0
  let p := bytesAt r 0 8 != bytesAt own 0 8 || bytesAt r 20 4 != bytesAt own 20 4
  let q := bytesAt r 8 8 != bytesAt own 8 8 || bytesAt r 24 4 != bytesAt own 24 4
  if bytesAt r 16 4 ≠ bytesAt own 16 4 then s1.twnMismatch x 1 0 0
  else if p || q then s1.twnMismatch x 1 (b2n p + 2 * b2n q) (bytesAt r 20 4)
  else s1

/-- `s` with every peer record compared for which this device has sent its own; `fuel` bounds their number. -/
def State.twnCatchUp : Nat → State → State
  | 0, s => s
  | k + 1, s =>
    match s.twn.peer, s.twn.open' with
    | r :: rs, w :: _ =>
      State.twnCatchUp k ({ s with twn := { s.twn with peer := rs } }.twnCompare (s.twnWin w) r.2)
    | _, _ => s

/-- The window, not after the current one, whose low 32 bits are `w`. -/
def State.fullWindow (s : State) (w : Nat) : Nat :=
  let cur := s.now / 1024
  cur - (cur % 2 ^ 32 + 2 ^ 32 - w % 2 ^ 32) % 2 ^ 32

/-- `s` with a 32-byte P2P frame taken: a record or a STOP of the paired device; anything else is dropped. -/
def State.twnNote (s : State) (f : PipFrame) : State :=
  if s.flag F.TWN_CTL_EN && f.srcDomain == s.get F.TWN_CTL_PEER_DOMAIN && f.srcMember == s.get F.TWN_CTL_PEER_MEMBER then
    if bitAt (bytesAt f.data 28 1) 1 then
      if s.twn.stop.isSome then s else { s with twn := { s.twn with stop := some (s.fullWindow (bytesAt f.data 16 4), 4, 0) } }
    else
      let s1 := { s with twn := { s.twn with peer := s.twn.peer ++ [(bytesAt f.data 16 4, f.data)] } }
      State.twnCatchUp s1.twn.peer.length s1
  else s

/-- WINDOW_RECORD_SEND: the oldest window that has ended and has no record yet. -/
def State.doWindowRecordSend (s : State) : State :=
  let w := s.twn.next
  if s.twnOn && decide (s.get F.TWN_START_START_TURN ≤ 1024 * w ∧ 1024 * (w + 1) ≤ s.now) then
    let x := s.twnWin w
    let s1 := { s with twn := { s.twn with
      next := w + 1, open' := s.twn.open' ++ [w], brkSeen := s.twn.brkSeen || x.brk,
      wins := s.twn.wins.filter (fun y => decide (w ≤ y.w + 4)) } }
    let s2 := (s1.setTwnWin x).twnSend (x.record false 0)
    State.twnCatchUp s2.twn.peer.length s2
  else s

/-- RECORD_DEADLINE: the oldest window whose peer record is missing 768 turns after its end. -/
def State.doRecordDeadline (s : State) : State :=
  match s.twn.open' with
  | w :: ws =>
    if s.twnOn && decide (1024 * (w + 1) + 768 ≤ s.now) then
      { s with twn := { s.twn with open' := ws } }.twnMismatch (s.twnWin w) 3 0 0
    else s
  | [] => s

/-! ### The stop (R396, R397) -/

/-- COUNTERPROOF_STOP: at turn 1,024(w + 3). -/
def State.doCounterproofStop (s : State) : State :=
  match s.twn.stop with
  | some (w, cause, sig) =>
    if s.twnOn && decide (1024 * (w + 3) ≤ s.now) then
      let s1 := ((s.put F.TWN_STAT_WINDOW w).put F.TWN_STAT_CAUSE cause).put F.TWN_STAT_SIG sig
      let s2 := (s1.putFlag F.TWN_STAT_STOPPED true).putFlag F.TWN_STAT_MISMATCH true
      s2.fault 6 0x0050 18 0
        { peer := devicePeer (s.get F.TWN_CTL_PEER_DOMAIN) (s.get F.TWN_CTL_PEER_MEMBER),
          detail0 := cause + w % 2 ^ 32 * 2 ^ 32, detail1 := (s2.reg Reg.TWN_STAT).toNat }
    else s
  | none => s

/-- `s` with this device's checkpoint `b`, of value `v`, sent to the paired device: the checkpoint and its number, 8 bytes each
(DESIGN CHOICE, notes/assumptions/46). -/
def State.sendCheckpoint (s : State) (b v : Nat) : State := s.twnSend (toBytesLE 8 v ++ toBytesLE 8 b)

/-- LOCATE_ROUND: the checkpoint in the middle of the range sent to the paired device and compared with its own. -/
def State.doLocateRound (s : State) (peer : Word) : State :=
  match s.twn.stop, s.twn.locate with
  | some (w, _, _), some (lo, hi) =>
    if s.twnStopped then
      let mid := (lo + hi) / 2
      let (own, _, s0) := s.hbmFetch (s.twnLogAt w mid) 8
      let s1 := if lo = hi then s else s0.sendCheckpoint mid (ofBytesLE own)
      let (lo', hi') := if lo = hi then (lo, hi) else if ofBytesLE own = peer.toNat then (mid + 1, hi) else (lo, mid)
      if lo' = hi' then
        { (s1.put F.TWN_GRAN_GRANULE (1024 * lo')).putFlag F.TWN_STAT_LOCATED true with
            twn := { s1.twn with locate := none } }
      else { s1 with twn := { s1.twn with locate := some (lo', hi') } }
    else s
  | _, _ => s

end Sys2Proof.Machine
end

