-- ==== Sys2Proof/Machine/Power.lean ====
section
/-!
DEFINITION. Power (spec/20_power_package_pins.md R443-R455): PMBus telemetry, fill activity, droop and duty freezes, the
thermal trip, the supply warning.
-/
namespace Sys2Proof.Machine

/-- `s` with a power event reported on the PWR page: no record (Table 20-5). The spec names no code for one: a free value;
its bit is taken to be WARN (DEDUCED, notes/assumptions/35). -/
def State.powerEvent (s : State) : State := s.freeNext.pageEvent 15 0 4 (s.free 16)

/-! ### PMBus (R443, R444) -/

/-- Missed polls of rail `r` in a row. -/
def State.railMisses (s : State) (r : Nat) : Nat := ((s.pwr.misses.find? (fun x => x.1 == r)).map (·.2)).getD 0

/-- `s` with the missed polls of rail `r` set; three set STALE. -/
def State.setMisses (s : State) (r n : Nat) : State :=
  { s with pwr := { s.pwr with misses := s.pwr.misses.filter (fun (x : Nat × Nat) => x.1 != r) ++ [(r, n)] } }.putFlag
    (F.PWR_RAIL_STALE r) (decide (3 ≤ n))

/-- The PMBus commands that a poll reads: READ_VOUT, READ_IOUT, READ_TEMPERATURE_1, STATUS_WORD, at the code that PMBus gives
each (PRESUMED, notes/assumptions/83). -/
def pollCodes : List Nat := [0x8B, 0x8C, 0x8D, 0x79]

/-- `s` with words read from rail `r`'s controller, at PMBus address 0x40 + r (R441, R443). -/
def State.pmbReads (s : State) (r : Nat) (codes : List Nat) : State := codes.foldl (fun s c => s.emit (.pmbRead (0x40 + r) c)) s

/-- `s` with what rail `r`'s controller answered to a poll. -/
def State.railPoll (s : State) (r : Nat) (a : Option (BitVec 16 × BitVec 16 × Byte × BitVec 16)) : State :=
  match a with
  | none => s.setMisses r (s.railMisses r + 1)
  | some (v, i, t, st) =>
    let s1 := (((s.put (F.PWR_RAIL_VOUT r) v.toNat).put (F.PWR_RAIL_IOUT r) i.toNat).put (F.PWR_RAIL_TEMP r) t.toNat).put
      (F.PWR_RAIL_STATUS r) (st.toNat % 256)
    let s2 := s1.setMisses r 0
    if s2.get (F.PWR_LIM_LIMIT r) < i.toNat then
      let s3 := (s2.putFlag (F.PWR_RAIL_OVER r) true).count F.PWR_CNT_OVER_EVENTS 1
      (if r < 4 then
        { s3.putFlag F.PWR_STAT_OVERCURRENT true with pwr := { s3.pwr with overRails := s3.pwr.overRails.filter (· != r) ++ [r] } }
      else s3).powerEvent
    else s2

/-- The rails that are polled: those with a limit. -/
def State.polledRails (s : State) : List Nat := (List.range 16).filter (fun r => s.get (F.PWR_LIM_LIMIT r) != 0)

/-- PMBUS_POLL. -/
def State.doPmbusPoll (s : State) (answers : List (Option (BitVec 16 × BitVec 16 × Byte × BitVec 16))) : State :=
  if s.up.cimRead && decide (s.pwr.polledAt + 25000 ≤ s.clk) then
    s.polledRails.foldl (fun s r => (s.pmbReads r pollCodes).railPoll r (answers.getD r none))
      { s with pwr := { s.pwr with polledAt := s.clk } }
  else s

/-- `s` with rail `r`'s answer to the extra read of STATUS_WORD: a controller that answers is not STALE any more (R443). -/
def State.railStatus (s : State) (r : Nat) (a : Option (BitVec 16)) : State :=
  match a with
  | some st => (s.put (F.PWR_RAIL_STATUS r) (st.toNat % 256)).setMisses r 0
  | none => s

/-- PMB_ALERT: STATUS_WORD of every polled rail. -/
def State.doPmbAlert (s : State) (status : List (Option (BitVec 16))) : State :=
  s.polledRails.foldl (fun s r => (s.pmbReads r [0x79]).railStatus r (status.getD r none)) s

/-- The write rule of PWR_LIM `r`: POLLED follows. -/
def hookPwrLim (r : Nat) (s : State) (w : RegWrite) : State :=
  (s.takeWrite w).putFlag (F.PWR_RAIL_POLLED r) (w.newF (F.PWR_LIM_LIMIT r) != 0)

/-- The write rule of PWR_PMB_ACC: OP 1 or 2 starts an access and clears DONE; the management path alone may use it. -/
def hookPmbAcc (answer : Option Nat) (s : State) (w : RegWrite) : State :=
  if !Path.management w.path then s
  else
    let t := s.takeWrite w
    let op := w.newF F.PWR_PMB_ACC_OP
    if op = 1 ∨ op = 2 then
      let addr := w.newF F.PWR_PMB_ACC_ADDR
      let cmd := w.newF F.PWR_PMB_ACC_CMD
      ({ t.putFlag F.PWR_PMB_ACC_DONE false with pwr := { t.pwr with access := some (op, answer) } }).emit
        (if op = 1 then .pmbRead addr cmd else .pmbWrite addr cmd (w.newF F.PWR_PMB_ACC_DATA))
    else t

/-- `s` with the PMBus access in progress complete: the word read, or NAK, and DONE. The spec gives no length of one: it ends with
the turn (DESIGN CHOICE, notes/assumptions/83). -/
def State.endAccess (s : State) : State :=
  match s.pwr.access with
  | none => s
  | some (op, a) =>
    let t := ({ s with pwr := { s.pwr with access := none } }.putFlag F.PWR_PMB_ACC_DONE true).putFlag F.PWR_PMB_ACC_NAK a.isNone
    match a with
    | some v => if op = 1 then t.put F.PWR_PMB_ACC_DATA v else t
    | none => t

/-! ### Fill activity (R445) -/

/-- ARRAY_RAMP_END: a ramp up takes 64 turns, a ramp down 8 turns a step. -/
def State.doArrayRampEnd (s : State) : State :=
  if s.flag F.PWR_STAT_FROZEN then s
  else if s.get F.PWR_STAT_ARRAY = 1 ∧ s.pwr.rampAt + 64 ≤ s.clk then s.put F.PWR_STAT_ARRAY 2
  else if s.get F.PWR_STAT_ARRAY = 3 ∧ s.pwr.rampAt + 8 * s.pwr.rampStep ≤ s.clk then s.put F.PWR_STAT_ARRAY 0
  else s

/-! ### Freezes (R448, R449, R452) -/

/-- `s` with the array frozen from now on, where it is not frozen already. -/
def State.freeze (s : State) : State :=
  if s.pwr.frozenAt.isSome then s
  else { s.putFlag F.PWR_STAT_FROZEN true with pwr := { s.pwr with frozenAt := some s.clk } }

/-- A droop freeze holds in this turn. -/
def State.droopFrozen (s : State) : Bool := s.pwr.freezeAt.isSome && (match s.pwr.freezeDue with
  | some d => decide (s.clk < d)
  | none => true)

/-- Duty limiting freezes the array in this turn. -/
def State.dutyFrozen (s : State) : Bool := match s.pwr.dutyDue with
  | some d => decide (s.clk < d)
  | none => false

/-- `s` with the turn of a trip counted as frozen and stretched, where its boundary did not count it (R449). -/
def State.countTrip (s : State) : State :=
  let s1 := if s.droopFrozen || s.dutyFrozen then s else s.count F.PWR_CNT_FROZEN_TURNS 1
  if s.droopFrozen then s1 else s1.count F.TWN_TBRK0_STRETCH_TURNS 1

/-- DROOP_TRIP: a detector finds its rail below its threshold. HOLD runs from the last trip (R448). -/
def State.doDroopTrip (s : State) : State :=
  let s1 := if s.pwr.stretchAt.isNone then s.countTrip.count F.PWR_DROOP_EVENTS 1 else s.countTrip
  let s2 := (s1.putFlag F.PWR_STAT_STRETCH true).freeze.twnBreak
  { s2 with pwr := { s2.pwr with
      stretchAt := some s.clk
      freezeAt := s.pwr.freezeAt.orElse (fun _ => some s.clk)
      freezeDue := none } }.powerEvent

/-- STRETCH_END: the freeze ends at the first multiple of 256 turns from its start that lies 64 turns on or later. -/
def State.doStretchEnd (s : State) : State :=
  match s.pwr.stretchAt, s.pwr.frozenAt with
  | some t, some f =>
    if t + max 1 (s.get F.PWR_DROOP_HOLD) ≤ s.clk then
      { s.putFlag F.PWR_STAT_STRETCH false with pwr := { s.pwr with
          stretchAt := none
          freezeDue := some (f + 256 * ceilDiv (s.clk + 64 - f) 256) } }
    else s
  | _, _ => s

/-- FREEZE_END: at the later end of what froze the array; its work, or its ramp, goes on where it stopped. -/
def State.doFreezeEnd (s : State) : State :=
  match s.pwr.frozenAt with
  | some f =>
    if s.pwr.stretchAt.isSome || s.droopFrozen || s.dutyFrozen then s
    else
      let n := s.clk - f
      let s1 := (s.thawArray n).putFlag F.PWR_STAT_FROZEN false
      { s1 with pwr := { s1.pwr with
          frozenAt := none, freezeAt := none, freezeDue := none, dutyDue := none
          rampAt := if s.get F.PWR_STAT_ARRAY = 1 ∨ s.get F.PWR_STAT_ARRAY = 3 then s.pwr.rampAt + n else s.pwr.rampAt } }.resumeReads
  | none => s

/-- A step of the switch core that is not over takes a turn more. -/
def delayDue (clk due : Nat) : Nat := if clk ≤ due then due + 1 else due

/-- `s` with every frame's current step in the switch core (Table 10-1) a turn longer. -/
def State.delaySteps (s : State) : State :=
  let d := fun (l : List SwFrame) => l.map (fun x => { x with due := delayDue s.clk x.due })
  { s with
    sw := { s.sw with crossing := d s.sw.crossing, ready := d s.sw.ready, queued := d s.sw.queued }
    ports := s.ports.map (fun e => (e.1, { e.2 with
      stream := e.2.stream.map (fun x => { x with due := delayDue s.clk x.due })
      rxFrames := e.2.rxFrames.map (fun x => (delayDue s.clk x.1, x.2)) })) }

/-- `s` at the boundary of a stretched turn: half of its core cycles are suppressed, so that two such turns do one turn's work
of the switch core (R448). -/
def State.stretchTick (s : State) : State :=
  if s.flag F.PWR_STAT_STRETCH then
    let t := { s with pwr := { s.pwr with halfTurn := !s.pwr.halfTurn } }
    if s.pwr.halfTurn then t.delaySteps else t
  else s

/-- `s` at a turn boundary: a stretch slows the switch core, the quanta of duty limiting begin, frozen turns are counted (Table 20-13, Table 17-14), the second
step of a supply warning begins. -/
def State.powerTick (s0 : State) : State :=
  let s := s0.endAccess.stretchTick
  let f := s.get F.PWR_STAT_DUTY_F
  let s1 := match s.pwr.windowAt with
    | some w =>
      if 0 < f ∧ w + 4096 - 256 * f ≤ s.clk ∧ s.clk < w + 4096 ∧ s.pwr.dutyDue ≠ some (w + 4096) then
        { s.freeze with pwr := { s.freeze.pwr with dutyDue := some (w + 4096) } }
      else s
    | none => s
  let s2 := if s1.droopFrozen || s1.dutyFrozen then s1.count F.PWR_CNT_FROZEN_TURNS 1 else s1
  let s3 := if s2.droopFrozen then (s2.count F.TWN_TBRK0_STRETCH_TURNS 1).twnBreak else s2
  let s4 := if s3.dutyFrozen then (s3.count F.TWN_TBRK0_DUTY_TURNS 1).twnBreak else s3
  match s4.pwr.warnAt with
  | some t => if t < s4.clk ∧ s4.get F.PWR_STAT_WARN_STEP = 1 then s4.put F.PWR_STAT_WARN_STEP 2 else s4
  | none => s4

/-! ### Temperature (R450-R453) -/

/-- `s` with THERMTRIP_N latched: nothing is clocked any more. -/
def State.trip (s : State) : State := { s with up := { s.up with tripped := true, bypassHigh := false } }

/-- The largest of a list of numbers. -/
def maxOf (l : List Nat) : Nat := l.foldl max 0

/-- `s` with the stacks' temperatures read: HBM_S_TEMP holds each, and the highest since its last read (Table 13-16). -/
def State.stackTemps (s : State) (temps : List Byte) : State :=
  (List.range (min 24 temps.length)).foldl (fun s t =>
    let v := bytesAt temps t 1
    (s.put (F.HBM_S_TEMP_TEMP t) v).put (F.HBM_S_TEMP_PEAK t) (max v (s.get (F.HBM_S_TEMP_PEAK t)))) s

/-- THERMAL_SAMPLE: every 256 turns. -/
def State.doThermalSample (s0 : State) (sensors temps : List Byte) : State :=
  if s0.clk % 256 ≠ 0 then s0
  else
    let s := s0.stackTemps temps
    let j := maxOf (sensors.map (·.toNat))
    let h := maxOf ((List.range 24).map (fun t => s.get (F.HBM_S_TEMP_TEMP t)))
    let t := min 255 (max j (h + 10))
    let s1 := (s.put F.PWR_STAT_TJ_EFF t).put F.PWR_THERM_PEAK (max t (s.get F.PWR_THERM_PEAK))
    let s2 := { s1 with pwr := { s1.pwr with junction := j } }
    if s.get F.PWR_THERM_TRIP ≤ j then s2.trip else s2

/-- THERMTRIP. -/
def State.doThermtrip (s : State) (sensor : Byte) : State := if s.get F.PWR_THERM_TRIP ≤ sensor.toNat then s.trip else s

/-- The rails on which over-current limiting goes on: those that have exceeded their limit and stand at 95 % of it or more
(R444). -/
def State.stillOver (s : State) : List Nat := s.pwr.overRails.filter (fun r =>
  s.get (F.PWR_LIM_LIMIT r) != 0 && decide (95 * s.get (F.PWR_LIM_LIMIT r) ≤ 100 * s.get (F.PWR_RAIL_IOUT r)))

/-- Over-current limiting goes on. -/
def State.overAgain (s : State) : Bool := !s.stillOver.isEmpty

/-- F for an effective temperature. -/
def dutyF (t on : Nat) : Nat := if t < on then 0 else min 12 (2 * (t + 1 - on))

/-- DUTY_WINDOW_START. -/
def State.doDutyWindowStart (s : State) : State :=
  if s.now % 4096 ≠ 512 * s.staggerSlot ∨ s.pwr.windowAt = some s.clk then s
  else
    let again := s.overAgain
    let f0 := dutyF (s.get F.PWR_STAT_TJ_EFF) (s.get F.PWR_THERM_DUTY_ON)
    let f := if again then max 4 f0 else f0
    let s1 := ((s.putFlag F.PWR_STAT_OVERCURRENT again).put F.PWR_STAT_DUTY_F f).putFlag F.PWR_STAT_DUTY (decide (0 < f))
    let s2 := { s1 with pwr := { s1.pwr with windowAt := some s.clk, overRails := s.stillOver } }
    if 0 < f then (s2.count F.PWR_THERM_DUTY_WINDOWS 1).powerEvent else s2

/-- The write rule of PWR_THERM: DUTY_ON above the class value is rejected. -/
def hookPwrTherm (s : State) (w : RegWrite) : State :=
  if s.pwr.classDuty < w.newF F.PWR_THERM_DUTY_ON then s.rejected 15 0 else s.takeWrite w

/-! ### The supply warning (R454, R455) -/

/-- PWR_WARN. -/
def State.doPwrWarn (s : State) : State :=
  if !s.flag F.PWR_CTL_WARN_EN || s.flag F.PWR_STAT_WARN then s
  else
    let s1 := ((s.putFlag F.PWR_STAT_WARN true).put F.PWR_STAT_WARN_STEP 1).count F.PWR_CNT_WARNS 1
    { s1 with pwr := { s1.pwr with warnAt := some s.clk } }.warnOp.colWarned.powerEvent

/-- A warning has lasted `n` turns. -/
def State.warnedFor (s : State) (n : Nat) : Bool := match s.pwr.warnAt with
  | some t => decide (t + n ≤ s.clk)
  | none => false

/-- WARN_STROKE_LIMIT: a stroke whose write-out has not begun is discarded. -/
def State.doWarnStrokeLimit (s : State) : State :=
  if !s.warnedFor 250000 then s
  else match s.plate.phase, s.plate.op with
    | .stroke _, some o => s.startRetire { o with aborted := true }
    | _, _ => s

/-- WARN_DETACH: the device detaches; a stand-in in progress is lost (Table 20-5). -/
def State.doWarnDetach (s : State) : State :=
  if s.warnedFor 375000 && s.get F.PWR_STAT_WARN_STEP != 3 then
    ((s.put F.PWR_STAT_WARN_STEP 3).loseStandin).startDetach
  else s

/-- WARN_RELEASE. -/
def State.doWarnRelease (s : State) : State :=
  if s.flag F.PWR_STAT_WARN && !s.warnedFor 375000 then
    let s1 := (s.putFlag F.PWR_STAT_WARN false).put F.PWR_STAT_WARN_STEP 0
    { s1 with pwr := { s1.pwr with warnAt := none } }.releaseWarned
  else s

end Sys2Proof.Machine
end

