-- ==== Sys2Proof/Machine/Resets.lean ====
section
/-!
DEFINITION. What resets return registers to (spec/21_register_pages.md R470, Table 21-9; R371): register fields by access
code and page.
-/
namespace Sys2Proof.Machine

/-- A register's value with the fields that `p` picks at what `r`, its reset value, gives. -/
def resetFields (fs : List FieldDesc) (p : Access → Bool) (r v : Word) : Word :=
  fs.foldl (fun v f => if p f.acc then fieldPut v f.hi f.lo (fieldGet r f.hi f.lo) else v) v

/-- `s` with every register that differs from its reset value changed by `f`, given its address and its fields. -/
def State.mapRegs (s : State) (f : Nat → List FieldDesc → Word → Word) : State :=
  s.regs.foldl (fun s e => s.setReg e.1 (f e.1 ((regFields e.1).getD []) e.2)) s

/-- The register's page and offset. -/
def regPlace (a : Nat) : Nat × Nat × Nat := (pageOf a).getD (0, 0, 0)

/-- The register belongs to a group of R371, or is FLT_FENCE (R413): burnish returns it to its reset value. -/
def burnGroup (a : Nat) : Bool :=
  let (t, i, off) := regPlace a
  (t == 6 && (decide (0x400 ≤ off) || (decide (0x110 ≤ off) && decide (off < 0x150)) || off == 0x108)) ||
  (t == 7 && (off == 0x110 || off == 0x118 || decide (0x200 ≤ off))) ||
  (t == 9 && decide (1 ≤ i) && decide (0x100 ≤ off)) || (t == 10 && decide (0x100 ≤ off)) || (t == 11 && decide (0x100 ≤ off)) ||
  (t == 4 && i == 0 && off == 0x138) ||
  (t == 5 && decide (1 ≤ i ∧ i ≤ 6) && decide (0x100 ≤ off)) || (t == 5 && i == 0 && off == 0x118) ||
  (t == 17 && ((i == 3 && decide (0x100 ≤ off)) || (i == 0 && off == 0x108))) ||
  (t == 13 && i == 1 && decide (0x100 ≤ off)) || (t == 14 && (off == 0x138 || off == 0x140))

/-- The page is one whose RC and W1C fields burnish leaves (Table 21-9). -/
def burnKeeps (t : Nat) : Bool := t == 12 || t == 3 || t == 2 || t == 1 || t == 13 || t == 15 || t == 16

/-- The header fields that burnish returns to their reset values: PG_ERR, PG_ERR_FIRST, PG_ERR_LAST, PG_INJ, PG_CNT_SEL,
PG_CNT_VAL; and of PG_CTL its LOCK. -/
def burnHeader (a : Nat) (fs : List FieldDesc) (v : Word) : Word :=
  let off := (regPlace a).2.2
  if off = 0x10 then fieldPut v 2 2 0
  else if off = 0x20 ∨ off = 0x30 ∨ off = 0x38 ∨ off = 0x40 ∨ off = 0x48 ∨ off = 0x50 then
    resetFields fs (fun _ => true) (regReset a) v
  else v

/-- `s` with the registers as burnish leaves them (R371, Table 21-9). -/
def State.burnRegs (s : State) : State :=
  s.mapRegs (fun a fs v =>
    if burnGroup a then regReset a
    else
      let v1 := if (regPlace a).2.2 < 0x100 then burnHeader a fs v else v
      if burnKeeps (regPlace a).1 then v1
      else resetFields fs (fun c => c == .rc || c == .w1c) (regReset a) v1)

/-- `s` after a soft reset of the page of block type `t`, instance `i`: its RW, RWL, W1C and RC fields, but PG_CTL.LOCK
(R465). -/
def State.pageReset (s : State) (t i : Nat) : State :=
  s.mapRegs (fun a fs v =>
    let (t', i', off) := regPlace a
    if t' = t ∧ i' = i then
      let r := resetFields fs (fun c => c == .rw || c == .rwl || c == .w1c || c == .rc) (regReset a) v
      if off = 0x10 then fieldPut r 2 2 (fieldGet v 2 2) else r
    else v)

end Sys2Proof.Machine
end

