-- ==== Sys2Proof/Machine/Burnish.lean ====
section
/-!
DEFINITION. Security lock and burnish (spec/16_security_and_isolation.md R357, R370-R378).
-/
namespace Sys2Proof.Machine

/-- BOUND_SET_LOAD_DONE (R365). -/
def State.doBoundSetLoadDone (s : State) (e : Fin 8) : State := s.bsetLoadDone e

/-- The write rule of SEC_LOCK: a 1 sets the lock, which nothing but fundamental reset clears (R357). -/
def hookSecLock (s : State) (w : RegWrite) : State :=
  if w.actF F.SEC_LOCK_LOCK = 1 then
    (if s.flag F.SEC_LOCK_LOCK then s else s.emit .jtagLocked).putFlag F.SEC_LOCK_LOCK true
  else s

/-- The instructions of the JTAG port: the public ones of IEEE 1149.1 and 1149.6, and the non-public ones, with the internal scan
chains (R358). -/
inductive JtagInstr where
  | bypass | idcode | samplePreload | extest | extestPulse | extestTrain | clamp | nonPublic
  deriving DecidableEq, Repr

/-- The JTAG port executes the instruction (R358). -/
def State.jtagRuns (s : State) (i : JtagInstr) : Bool := i != .nonPublic || !s.flag F.SEC_LOCK_LOCK

/-! ### The start (R370) -/

/-- A codeword kept for replay with nothing left in it but its place: from burnish on, idle codewords alone appear (Table 16-6). -/
def TxWord.idled (w : TxWord) : TxWord :=
  { w with hdrMap := 0, idleMap := 2 ^ 17 - 1, gran := idleGranules, tails := [], col := [] }

/-- Port `p` with every frame in its transmit stream dropped, and the credits of the granules it has not sent given back; what it
keeps for a replay is idle (Table 16-6). A frame begun is cut off (notes/assumptions/36). -/
def VPort.dropUnsent (v : VPort) : VPort :=
  { v with
    stream := [], unacked := v.unacked.map TxWord.idled
    sent := v.stream.foldl (fun l x =>
      let n := if x.atHead then x.frame.size else x.left.length
      listSet l x.frame.vc ((l.getD x.frame.vc 0 + 1024 - n % 1024) % 1024)) v.sent }

/-- `s` with every frame in port buffers, on internal paths and in spill rings discarded, receive slots freed. -/
def State.dropFrames (s : State) : State :=
  let s1 := (s.sw.crossing ++ s.sw.ready).foldl (fun s x => s.giveCredits x.ingress x.frame.vc x.frame.size) s
  let s2 := { s1 with
    sw := { s1.sw with crossing := [], ready := [], queued := [], spill := [], lostCol := [], thrBulk := 0, thrBg := 0 } }
  let s3 := { s2 with ports := s2.ports.map (fun (x : Nat × VPort) => (x.1, x.2.dropUnsent)) }
  (List.range 128).foldl (fun s p => s.put (F.SWX_P_SPILL_FILL p) 0) (s3.setLists [])

/-- `s` with attach port `a` in burnish: its outstanding BAR2 reads completed with Completer Abort, its host accesses,
jobs, faults and translations dropped; the link and its SPDM session stay. -/
def State.burnAttach (s : State) (a : Nat) : State :=
  let x := s.attach a
  let s1 := x.bar2.foldl (fun s b => s.emit (.completion a b.tag cplCa [] false)) s
  (s1.setAttach a { x with
    atc := [], atsOut := [], pageOut := [], accesses := [], jobs := [], bar2 := [], faults := [], invals := [] }).putFlag
      (F.ATT_SEC_RRS a) true

/-- `s` with no mailbox request BUSY any more: none gets a response (Table 16-7). -/
def State.dropMailboxes (s : State) : State := (List.range 16).foldl (fun s a => s.putFlag (F.ILX_MB_CTL_BUSY a) false) s

/-- `s` with burnish started. -/
def State.burnStartNow (s : State) : State :=
  let s1 := ((s.clearAdmit.discardArray.dropMailboxes.resetCores).colResignAll 1).setActive []
  let s2 := (List.range 16).foldl State.burnAttach s1.loseStandin
  let s3 := s2.dropFrames
  { s3.putFlag F.SEC_BURN_ACTIVE true with
      rep := {}, msg := {}
      sec := { s3.sec with burnStart := some s3.clk, burnStep := 1, burnReadback := true } }

/-- The write rule of SEC_BURN: START starts burnish, or is ignored while one runs. -/
def hookSecBurn (s : State) (w : RegWrite) : State :=
  if w.actF F.SEC_BURN_START = 1 ∧ s.flag F.SEC_BURN_ACTIVE = false then s.burnStartNow else s

/-! ### The steps (Table 16-5) -/

/-- Turns since burnish started. -/
def State.burnAge (s : State) : Nat := match s.sec.burnStart with
  | some t => s.clk - t
  | none => 0

/-- BURNISH_DISCARD_DONE: new salts, the key map to slot 0, bound sets erased, the fill begun; SRAM is cleared. -/
def State.doBurnishDiscardDone (s : State) : State :=
  if s.sec.burnStep ≠ 1 ∨ s.burnAge < 2500 then s
  else
    let s1 := State.newSalts 16 s.endSweep
    let s2 := (List.range 16).foldl (fun s n => s.put (F.HBM_SLOT_STAT_REFS n) (if n = 0 then regionCount else 0)) s1
    let s3 := (List.range 8).foldl State.eraseSet
      { s2 with
        hbm := { s2.hbm with keyMap := [], fillDone := false }
        sec := { s2.sec with burnStep := 2, loading := [], sets := [] } }
    s3.startSweep { first := 0, last := regionCount - 1, fill := true, all := true, newSlot := 0, kind := 2 }

/-- BURNISH_READBACK: whether every granule of SRAM read back as zero. -/
def State.doBurnishReadback (s : State) (allZero : Bool) : State :=
  if s.sec.burnStep ≠ 2 then s else { s with sec := { s.sec with burnStep := 3, burnReadback := allZero } }

/-- BURNISH_END: with the fill complete, the read-back made and firmware tried, registers reset and the result written; a
FAIL stays until fundamental reset. -/
def State.doBurnishEnd (s : State) : State :=
  if s.sec.burnStep ≠ 3 ∨ s.hbm.fillDone = false ∨ s.up.firmwareTried = false then s
  else
    let pass := s.sec.burnReadback && s.get F.SEC_BURN_RESULT != 2
    let s1 := (s.burnRegs.disarm.putFlag F.SEC_BURN_ACTIVE false).put F.SEC_BURN_RESULT (if pass then 1 else 2)
    let s2 := (s1.put F.SEC_BURN_COUNT (min 65535 (s.get F.SEC_BURN_COUNT + 1))).put F.SEC_BURN_LAST_TURNS
      (min (2 ^ 32 - 1) s.burnAge)
    let s3 := { s2 with sec := { s2.sec with burnStep := 0, sliceFree := s2.sec.sliceFree || pass } }
    let s4 := (List.range 16).foldl (fun s a => (s.putFlag (F.ATT_SEC_RRS a) false).flushVectors a) s3
    if s.sec.burnReadback then s4
    else s4.fault 5 0x0041 13 0 { detail0 := (s4.reg Reg.SEC_BURN).toNat }

end Sys2Proof.Machine
end

