-- ==== Sys2Proof/Machine/PipRows.lean ====
section
/-!
DEFINITION. Turn time and the pip lanes' commands (spec/02_turns_and_pip_lanes.md R30-R55, R476).
-/
namespace Sys2Proof.Machine

/-! ### The turn counter (R30, R57, R41) -/

/-- `s` with PG_CNT_VAL counting the turn on every page whose PG_CNT_SEL selects turns (R469). -/
def State.countTurnPages (s : State) : State :=
  s.regs.foldl (fun s e => if (regPlace e.1).2.2 = 0x48 ∧ e.2.toNat % 256 = 1 then s.pgCount (pageBaseOf e.1) 1 1 else s) s

/-- `s` with the turn counted for every port that holds an injection back (Table 10-22). -/
def State.countHeldTurns (s : State) : State :=
  let ports := (List.range 128).filter (fun p => s.rep.trackers.any (fun t => t.heldFor == some p))
  ports.foldl (fun s p => s.count (F.SWX_P_THR_HELD_TURNS p) 1) s

/-- `s` with what depends on the upstream lane sent again, where that lane is up (R48, R476). -/
def State.upstreamChanged (s : State) : State :=
  match s.upLane with
  | some n => if s.laneIsUp n then s.sendKids.sendSubtrees else s
  | none => s

/-- `s` with this device newly the time root: it runs from REFCLK and keeps its counter and phase (R32, R41).
START reads 1 where the counter counts already (Table 2-9). -/
def State.becomeTimeRoot (s : State) : State :=
  (((s.putFlag F.TRN_STAT_LOCKED true).put F.TRN_STAT_HOPS 0).putFlag F.TRN_STAT_HOLDOVER false).putFlag F.TRN_CTL_START
    s.counting

/-- `s` with this device no longer the time root: START reads 0, and it is locked to no upstream lane yet. -/
def State.leaveTimeRoot (s : State) : State := (s.putFlag F.TRN_CTL_START false).putFlag F.TRN_STAT_LOCKED false

/-- `s` with the counter started from TRN_SET (R57): crossings are then aligned (R36). -/
def State.startCounter (s : State) : State :=
  let s1 := { s with
    turn := s.reg Reg.TRN_SET
    counting := true
    pip := { s.pip with loaded := true, alignAt := some s.clk } }
  s1.putFlag F.TRN_CTL_START true

/-- `s` with this device newly the domain root: what parents report is gathered until the sweep, and no report of an earlier
term stands (R54, R476). -/
def State.becomeDomRoot (s : State) : State :=
  let due := s.clk + s.get F.TRN_HB_HB_PERIOD * s.get F.TRN_HB_HB_MISS
  let s1 := { s with pip := { s.pip with reportedSince := 0, sweepDue := some due, reports := [], claims := [] } }.rootSelf
  s1.downLanes.foldl (fun s n => (s.lane n).kids.foldl (fun s k => if k.absent then s else s.rootReport s.member k.member true) s)
    s1

/-- The write rule of TRN_CTL (Table 2-9). -/
def hookTrnCtl (s : State) (w : RegWrite) : State :=
  let s1 := s.takeWrite w
  let s2 := if w.newF F.TRN_CTL_PRI_UP = w.oldF F.TRN_CTL_PRI_UP then s1 else s1.putFlag F.TRN_STAT_ALT_IN_USE false
  let s3 := if w.newF F.TRN_CTL_ROLE = 2 then (if w.oldF F.TRN_CTL_ROLE = 2 then s2 else s2.becomeTimeRoot)
    else if w.oldF F.TRN_CTL_ROLE = 2 ∨ w.newF F.TRN_CTL_ROLE ≠ 1 then s2.leaveTimeRoot
    else if s2.upLane = s.upLane then s2 else s2.putFlag F.TRN_STAT_LOCKED false
  let s4 := if w.actF F.TRN_CTL_START = 1 ∧ s3.timeRoot = true ∧ s3.counting = false then s3.startCounter else s3
  let s5 := match w.oldF F.TRN_CTL_DOM_ROOT, w.newF F.TRN_CTL_DOM_ROOT with
    | 0, 1 => s4.becomeDomRoot
    | 1, 0 => { s4 with pip := { s4.pip with sweepDue := none, reports := [], claims := [] } }
    | _, _ => s4
  (if s5.upLane = s.upLane then s5 else s5.upstreamChanged).checkHoldover

/-! ### Turn marks and echoes (R33-R37, R40) -/

/-- Bytes of an ordered set with its CRC (R44). -/
def withCrc (d : List Byte) : List Byte := d ++ toBytesLE 2 (crc16 d)

/-- The data bytes of an ordered set of `n` data bytes whose CRC is good (R44). -/
def checkCrc (n : Nat) (bs : List Byte) : Option (List Byte) :=
  if bs.length = n + 2 ∧ crc16 (bs.take n) = bytesAt bs n 2 then some (bs.take n) else none

/-- TURN_MARK_SEND: at a multiple of 1,000, on every downstream lane. -/
def State.doTurnMarkSend (s : State) : State :=
  if s.marksTime && s.now % 1000 == 0 then
    s.downLanes.foldl (fun s n => s.pipEmit n (.turnMark n (withCrc (toBytesLE 8 s.now ++ toBytesLE 1 (s.get F.TRN_STAT_HOPS)))))
      s
  else s

/-- `s` with an offset reported (R37), in 1/1,024 turn. One that the field cannot hold reads as a free value. -/
def State.putOffset (s : State) (off : Int) : State :=
  if -32768 ≤ off ∧ off ≤ 32767 then s.put F.TRN_STAT_OFFSET (twosOf 16 off)
  else s.freeNext.put F.TRN_STAT_OFFSET (s.free 16)

/-- `s` with an offset reported and judged: `off` is the expected arrival less the measured one, in 1/1,024 turn (R37,
R40). -/
def State.judgeOffset (s : State) (off : Int) : State :=
  let s1 := s.putOffset off
  let big := decide (off < -128 ∨ 128 < off)
  if s1.flag F.TRN_STAT_HOLDOVER then
    if big then s1.syncLost 3
    else { s1.putFlag F.TRN_STAT_HOLDOVER false with pip := { s1.pip with badOffsets := 0 } }
  else
    let k := if big then s1.pip.badOffsets + 1 else 0
    let s2 := { s1 with pip := { s1.pip with badOffsets := k } }
    if k = 4 then s2.syncLost 2 else s2

/-- The mean of measured delays, rounded down: the spec gives no rounding for a D that is no whole unit (DESIGN CHOICE,
notes/assumptions/74). The mean of none is 0: the spec gives no D for a lane on which no echo has completed (DESIGN CHOICE,
notes/assumptions/77). -/
def meanOf (l : List Nat) : Nat := l.foldl (· + ·) 0 / l.length

/-- `s` with lane `n` the upstream lane in use, where a mark on it has ended holdover: TRN_DELAY is its delay (R40). -/
def State.useUpstream (s : State) (n : Nat) : State :=
  if s.upLane = some n then s
  else ((s.putFlag F.TRN_STAT_ALT_IN_USE (s.altUp == some n)).put F.TRN_DELAY_DELAY (meanOf (s.lane n).delays)).upstreamChanged

/-- `s` with the turn mark `t` taken that arrived on lane `n`, `frac`/1,024 turn after the boundary, after the counter was
loaded. In holdover a mark on either upstream lane counts (R40). D of the lane that is not in use is the mean of what has been
measured on it, 0 where nothing has since it came up (DESIGN CHOICE, notes/assumptions/77). Once SYNC_LOST is set its offset is reported and judged no
more (R37). -/
def State.laterMark (s : State) (n t hops frac : Nat) : State :=
  let here := decide (s.upLane = some n)
  let delay := if here then s.get F.TRN_DELAY_DELAY else meanOf (s.lane n).delays
  let off : Int := ((t * 1024 + delay : Nat) : Int) - ((s.now * 1024 + frac : Nat) : Int)
  let s1 := s.put F.TRN_STAT_HOPS hops
  if s.flag F.TRN_STAT_SYNC_LOST then (if here then s1.putOffset off else s)
  else if s.flag F.TRN_STAT_HOLDOVER then
    let s2 := s1.judgeOffset off
    if s2.flag F.TRN_STAT_HOLDOVER then s2 else s2.useUpstream n
  else if !here then s
  else if s.flag F.TRN_STAT_ALIGNED then s1.judgeOffset off
  else s1

/-- `s` with a turn mark taken by the receiver of `lane`: the first valid one after frequency lock and 16 echo exchanges loads
the counter at the boundary that follows (R36); later ones give offsets. -/
def State.takeMark (s : State) (lane : Fin 16) (bytes : List Byte) (frac : Fin 1024) : State :=
  let n := lane.val
  match checkCrc 9 bytes with
  | none => s.count (F.PIP_ERRCNT_CRC_ERR n) 1
  | some d =>
    if s.laneIsUp n && s.isUpstream n && s.follower then
      let s1 := s.setLane n { s.lane n with lastMark := s.clk }
      let t := bytesAt d 0 8
      let hops := bytesAt d 8 1 + 1
      let delay := s1.get F.TRN_DELAY_DELAY
      if s1.pip.loaded then s1.laterMark n t hops frac.val
      else if s1.upLane = some n ∧ s1.flag F.TRN_STAT_SYNC_LOST = false ∧ s1.flag F.TRN_STAT_LOCKED = true ∧
          16 ≤ (s1.lane n).echos then
        { s1.put F.TRN_STAT_HOPS hops with pip := { s1.pip with
            loaded := true
            load := some (BitVec.ofNat 64 (t + delay / 1024))
            alignAt := some (s1.clk + 1) } }
      else s1
    else s

/-- `s` with what arrives at the pins of lane `n` sent back in a far-end loop, as it came, and then taken by the lane's receiver
(`f`), which a near-end loop has taken off the pins (PIP_CTL.LOOP). -/
def State.fromPins (s : State) (n : Nat) (e : Emission) (f : State → State) : State :=
  if s.nearLoop n then s else f (s.pipRepeat n e)

/-- TURN_MARK_RECEIVE. -/
def State.doTurnMarkReceive (s : State) (lane : Fin 16) (bytes : List Byte) (frac : Fin 1024) : State :=
  s.fromPins lane (.turnMark lane bytes) (fun s => s.takeMark lane bytes frac)

/-- ECHO_REQ_SEND: at 500 past a multiple of 1,000, on the primary and the alternate upstream lane. Its t1 is set when its
first symbol leaves (PipLane.echoLeft). -/
def State.doEchoReqSend (s : State) : State :=
  if s.follower && (if s.counting then s.now else s.clk) % 1000 == 500 then
    (lanes16.filter (fun n => s.isUpstream n && s.laneIsUp n)).foldl (fun s n =>
      let e := s.pip.eseq
      let s1 := { s with pip := { s.pip with eseq := (e + 1) % 256 } }
      (s1.setLane n { s1.lane n with echo := some (e, s.clk * 1024) }).pipEmit n (.echoReq n (withCrc (toBytesLE 1 e)))) s
  else s

/-- `s` with an ECHO_REQ taken by the receiver of `lane`: answered with HOLD, the time until the response leaves. -/
def State.takeEchoReq (s : State) (lane : Fin 16) (bytes : List Byte) (hold : BitVec 32) : State :=
  let n := lane.val
  match checkCrc 1 bytes with
  | none => s.count (F.PIP_ERRCNT_CRC_ERR n) 1
  | some d =>
    if s.laneIsUp n then s.pipEmit n (.echoRsp n (withCrc (d ++ toBytesLE 4 hold.toNat))) else s

/-- ECHO_REQ_RECEIVE. -/
def State.doEchoReqReceive (s : State) (lane : Fin 16) (bytes : List Byte) (hold : BitVec 32) : State :=
  s.fromPins lane (.echoReq lane bytes) (fun s => s.takeEchoReq lane bytes hold)

/-- `s` with an ECHO_RSP taken by the receiver of `lane`: D = (t4 - t1 - HOLD) / 2, rounded down as `meanOf` says, and TRN_DELAY
the mean of the last 16. An exchange completed while the device is locked counts toward the 16 that a first load needs
(R36). -/
def State.takeEchoRsp (s : State) (lane : Fin 16) (bytes : List Byte) (frac : Fin 1024) : State :=
  let n := lane.val
  match checkCrc 5 bytes with
  | none => s.count (F.PIP_ERRCNT_CRC_ERR n) 1
  | some d =>
    if !s.laneIsUp n then s
    else
      let l := s.lane n
      match l.echo with
      | none => s
      | some (e, t1) =>
        if e ≠ bytesAt d 0 1 then s
        else
          let ds := ((s.clk * 1024 + frac.val - t1 - bytesAt d 1 4) / 2 :: l.delays).take 16
          let s1 := s.setLane n { l with
            echo := none, delays := ds, echos := if s.flag F.TRN_STAT_LOCKED then l.echos + 1 else l.echos }
          if s1.upLane = some n then s1.put F.TRN_DELAY_DELAY (meanOf ds) else s1

/-- ECHO_RSP_RECEIVE. -/
def State.doEchoRspReceive (s : State) (lane : Fin 16) (bytes : List Byte) (frac : Fin 1024) : State :=
  s.fromPins lane (.echoRsp lane bytes) (fun s => s.takeEchoRsp lane bytes frac)

/-- FREQUENCY_LOCK: a follower whose upstream lane is up. The echo exchanges of R36 are counted from here. -/
def State.doFrequencyLock (s : State) : State :=
  match s.upLane with
  | some n =>
    if s.follower && s.laneIsUp n && !s.flag F.TRN_STAT_LOCKED then
      (s.putFlag F.TRN_STAT_LOCKED true).setLane n { s.lane n with echos := 0 }
    else s
  | none => s

/-- ALIGN_TIMEOUT: 1,000,000 turns after lane-up without alignment. -/
def State.doAlignTimeout (s : State) : State :=
  match s.upLane with
  | some n =>
    if s.follower && s.laneIsUp n && !s.flag F.TRN_STAT_ALIGNED && !s.flag F.TRN_STAT_SYNC_LOST &&
        decide ((s.lane n).upAt + 1000000 ≤ s.clk) then s.syncLost 1
    else s
  | none => s

/-- UPSTREAM_SWITCH: the primary lane is down, or two turn marks in a row are missing on it (R39). TRN_DELAY keeps the old
lane's value where nothing has been measured on the alternate: the spec does not say (DESIGN CHOICE,
notes/assumptions/77). -/
def State.doUpstreamSwitch (s : State) : State :=
  match s.priUp, s.altUp with
  | some p, some a =>
    if s.follower && !s.flag F.TRN_STAT_ALT_IN_USE && s.laneIsUp a &&
        (!s.laneIsUp p || decide ((s.lane p).lastMark + 2000 < s.clk)) then
      let s1 := s.putFlag F.TRN_STAT_ALT_IN_USE true
      let ds := (s1.lane a).delays
      (if ds.isEmpty then s1 else s1.put F.TRN_DELAY_DELAY (meanOf ds)).upstreamChanged
    else s
  | _, _ => s

/-! ### Lanes and frames (R43, R46) -/

/-- The write rule of PIP_CTL: a lane switched off goes down (Table 2-17). A write of USE while TRN_CTL.ROLE is not 0, which
R10 forbids to the fabric manager, is taken at once (DESIGN CHOICE, notes/assumptions/74). -/
def hookPipCtl (n : Nat) (s : State) (w : RegWrite) : State :=
  let s1 := s.takeWrite w
  if w.oldF (F.PIP_CTL_EN n) = 1 ∧ w.newF (F.PIP_CTL_EN n) = 0 then s1.laneDown n else s1

/-- `s` with code groups received on lane `n`: idle sets and code violations are counted, and 16 violations within 1,000
turns take the lane down (R43). A far-end loop sends ERR in place of each (Table 2-3). -/
def State.receiveGroups (s : State) (n : Nat) (groups : List (BitVec 10)) : State :=
  let l := s.lane n
  let r := decodeGroups l.rdRx groups
  let k := (r.1.filter isViolation).length
  let v := l.violations.filter (fun e => decide (s.clk < e.1 + 1000)) ++ (if k = 0 then [] else [(s.clk, k)])
  let bad := if s.farLoop n then List.replicate k 0x1FE else []
  let s1 := (s.setLane n { l with
    rdRx := r.2, violations := v, idles := if 64 ≤ l.idles then 64 else min 64 (idleRun l.idles r.1),
    sets := l.sets ++ bad }).count (F.PIP_ERRCNT_CODE_VIOL n) k
  if 16 ≤ v.foldl (fun (a : Nat) (e : Nat × Nat) => a + e.2) 0 then s1.laneDown n else s1

/-- `s` with bits taken by the receiver of lane `n`: it aligns to the first comma among them; after 64 consecutive valid idle
ordered sets an IDENT goes out. -/
def State.takeBits (s : State) (n : Nat) (bits : List Bool) : State :=
  if !s.flag (F.PIP_CTL_EN n) then s
  else if s.flag (F.PIP_STAT_ALIGNED n) then (s.receiveGroups n (groupsOfBits bits)).sendIdent n
  else match fromComma bits with
    | none => s
    | some (rd, b) =>
      let s1 := (s.putFlag (F.PIP_STAT_ALIGNED n) true).setLane n { s.lane n with rdRx := rd, idles := 0 }
      (s1.receiveGroups n (groupsOfBits b)).sendIdent n

/-- COMMA_ALIGNMENT: the receiver of a lane takes the bits at its pins, but in a near-end loop. -/
def State.doCommaAlignment (s : State) (rx : LaneBits) : State :=
  if s.nearLoop rx.lane then s else s.takeBits rx.lane rx.bits

/-- PIP_LANE_DOWN. Violations are counted over the last 1,000 turns. In a near-end loop the receiver has no signal from its pins to
lose, and takes no code groups from them. -/
def State.doPipLaneDown (s : State) (lane : Fin 16) (cause : PipDownCause) : State :=
  let n := lane.val
  match cause with
  | .lossOfSignal => if s.flag (F.PIP_STAT_ALIGNED n) && !s.nearLoop n then s.laneDown n else s
  | .codeViolations groups => if s.flag (F.PIP_STAT_ALIGNED n) && !s.nearLoop n then s.receiveGroups n groups else s
  | .retryFailure =>
    match (s.lane n).unacked.find? (fun u => decide (4 ≤ u.retries)) with
    | some u => s.laneFail n u.seq
    | none => s

/-- The frame's TYPE is one of an urgent frame. -/
def urgentBytes (bytes : List Byte) : Bool := bytesAt bytes 0 1 == 0x02 || bytesAt bytes 0 1 == 0x23

/-- `s` with a frame taken by the receiver of `lane`: a good CRC and the next SEQ is acknowledged, anything else asks for that
SEQ again. A frame of a reserved TYPE or LEN is acknowledged, discarded and counted (Table 2-5). Whether a frame with a good CRC
that is answered by NAK for its SEQ counts in CRC_ERR the spec does not say: it does not (DESIGN CHOICE,
notes/assumptions/77). -/
def State.takeFrame (s : State) (lane : Fin 16) (bytes : List Byte) : State :=
  let n := lane.val
  let l := s.lane n
  let body := bytes.take (bytes.length - 2)
  if !s.flag (F.PIP_STAT_ALIGNED n) then s
  else if bytes.length < 15 ∨ crc16 body ≠ bytesAt bytes (bytes.length - 2) 2 then
    (s.count (F.PIP_ERRCNT_CRC_ERR n) 1).pipEmit n (.pipNak n l.rxSeq)
  else if bytesAt bytes 1 1 ≠ l.rxSeq then s.pipEmit n (.pipNak n l.rxSeq)
  else
    let s1 := (s.setLane n { l with rxSeq := (l.rxSeq + 1) % 256 }).pipEmit n (.pipAck n l.rxSeq)
    match pipParse bytes with
    | some (_, f) =>
      if pipTypes.contains f.type then s1.setLane n { s1.lane n with rx := (s1.lane n).rx ++ [f] }
      else s1.count (F.PIP_ERRCNT_CRC_ERR n) 1
    | none => s1.count (F.PIP_ERRCNT_CRC_ERR n) 1

/-- PIP_FRAME_RECEIVE. -/
def State.doPipFrameReceive (s : State) (lane : Fin 16) (bytes : List Byte) : State :=
  s.fromPins lane (.pipFrame lane (urgentBytes bytes) bytes) (fun s => s.takeFrame lane bytes)

/-- `s` with an ACK taken by the receiver of `lane`: the frames up to and including SEQ are released. -/
def State.takeAck (s : State) (lane : Fin 16) (seq : Byte) : State :=
  let n := lane.val
  let u := (s.lane n).unacked
  if u.any (fun x => x.seq == seq.toNat) then
    let (before, rest) := splitAtSeq u seq.toNat
    s.pipRelease n (before ++ rest.take 1) (rest.drop 1)
  else s

/-- PIP_ACK_RECEIVE. -/
def State.doPipAckReceive (s : State) (lane : Fin 16) (seq : Byte) : State :=
  s.fromPins lane (.pipAck lane seq.toNat) (fun s => s.takeAck lane seq)

/-- `s` with a NAK taken by the receiver of `lane`: the peer has every frame before SEQ, and those from SEQ on are sent again. -/
def State.takeNak (s : State) (lane : Fin 16) (seq : Byte) : State :=
  let n := lane.val
  let l := s.lane n
  if l.unacked.any (fun x => x.seq == seq.toNat) || seq.toNat == l.txSeq then
    let (before, rest) := splitAtSeq l.unacked seq.toNat
    let acked := l.identAcked || (l.identSent && before.any (fun u => u.seq == l.identSeq))
    let s1 := (s.setLane n { l with unacked := rest, identAcked := acked }).pipResend n
    s1.pipRelease n [] (s1.lane n).unacked
  else s

/-- PIP_NAK_RECEIVE. -/
def State.doPipNakReceive (s : State) (lane : Fin 16) (seq : Byte) : State :=
  s.fromPins lane (.pipNak lane seq.toNat) (fun s => s.takeNak lane seq)

/-- PIP_RETRANSMIT_TIMEOUT: 64 turns without an ACK. -/
def State.doPipRetransmitTimeout (s : State) (lane : Fin 16) : State :=
  let n := lane.val
  let l := s.lane n
  if l.unacked.isEmpty || !l.again.isEmpty || decide (s.clk < l.timer + 64) then s else s.pipResend n

/-- The oldest accepted frame of lane `n`, where it is of type `t`, and `s` without it. -/
def State.takePip (s : State) (n t : Nat) : Option (PipFrame × State) :=
  let l := s.lane n
  match l.rx with
  | f :: fs => if f.type = t then some (f, s.setLane n { l with rx := fs }) else none
  | [] => none

/-- IDENT_RECEIVE. -/
def State.doIdentReceive (s : State) (lane : Fin 16) : State :=
  let n := lane.val
  match s.takePip n 0x01 with
  | none => s
  | some (f, s1) =>
    if f.data.length ≠ 3 then s1.count (F.PIP_ERRCNT_CRC_ERR n) 1
    else
      let s2 := ((s1.put (F.PIP_STAT_PEER_DOMAIN n) (bytesAt f.data 0 1)).put (F.PIP_STAT_PEER_MEMBER n)
        (bytesAt f.data 1 1)).put (F.PIP_STAT_PEER_LANE n) (bytesAt f.data 2 1)
      let l := s2.lane n
      ((s2.setLane n { l with
        identRcvd := true
        kids := l.kids.map (fun k => { k with known := false }) }).sendIdent n).laneCheckUp n

/-! ### Heartbeats and presence (R53-R55, R476) -/

/-- HB_SEND: an aligned device, at a multiple of HB_PERIOD, on its upstream lane in use. -/
def State.doHbSend (s : State) : State :=
  let p := s.get F.TRN_HB_HB_PERIOD
  match s.upLane with
  | some n =>
    if s.follower && s.flag F.TRN_STAT_ALIGNED && !s.pip.hbStopped && s.laneIsUp n && decide (0 < p) && s.now % p == 0 then
      let d := toBytesLE 1 s.member ++ toBytesLE 1 s.domain ++ toBytesLE 1 s.pip.hseq
      { s with pip := { s.pip with hseq := (s.pip.hseq + 1) % 256 } }.pipEmit n (.heartbeat n (withCrc d))
    else s
  | none => s

/-- `s` with a heartbeat taken by the receiver of `lane`: the first after IDENT, and the first of a child reported absent, report
the child present. -/
def State.takeHeartbeat (s : State) (lane : Fin 16) (bytes : List Byte) : State :=
  let n := lane.val
  match checkCrc 3 bytes with
  | none => s.count (F.PIP_ERRCNT_CRC_ERR n) 1
  | some d =>
    let m := bytesAt d 0 1 % 128
    let l := s.lane n
    if !s.laneIsUp n || s.isUpstream n || bytesAt d 1 1 != s.domain then s
    else
      let k? := l.kids.find? (fun k => k.member == m)
      let k : Kid := { member := m, lastHb := s.clk, judged := (k?.map (·.judged)).getD 0 }
      let s1 := s.setLane n { l with kids := l.kids.filter (fun k => k.member ≠ m) ++ [k] }
      match k? with
      | some o => if o.known && !o.absent then s1 else s1.reportKid m true
      | none => s1.reportKid m true

/-- HB_RECEIVE. -/
def State.doHbReceive (s : State) (lane : Fin 16) (bytes : List Byte) : State :=
  s.fromPins lane (.heartbeat lane bytes) (fun s => s.takeHeartbeat lane bytes)

/-- `s` with the subtree of lane `n` forgotten, where the lane is down and no child of it is left: a child that stays present
in the domain has gone to another parent, so no combine waits here for it any more (DEDUCED, notes/assumptions/13). -/
def State.forgetSubtree (s : State) (n : Nat) : State :=
  let l := s.lane n
  if s.laneIsUp n || !l.kids.all (·.absent) || l.subtree.isEmpty then s
  else (l.subtree.map (·.1)).foldl State.sendSubtree (s.setLane n { l with subtree := [] })

/-- HB_MISSING: at a multiple of HB_PERIOD, the heartbeat due a period before is judged, once, for every child of the
lane. -/
def State.doHbMissing (s : State) (lane : Fin 16) : State :=
  let n := lane.val
  let p := s.get F.TRN_HB_HB_PERIOD
  if s.flag F.TRN_STAT_ALIGNED && decide (0 < p) && s.now % p == 0 then
    (s.lane n).kids.foldl (fun s k =>
      if k.lastHb + p < s.clk ∧ k.judged < s.clk then
        let k1 := { k with missed := k.missed + 1, judged := s.clk }
        let gone := k1.missed == s.get F.TRN_HB_HB_MISS
        let l := s.lane n
        let k2 := { k1 with absent := k.absent || gone }
        let s1 := (s.setLane n { l with kids := l.kids.map (fun x => if x.member = k.member then k2 else x) }).count
          (F.PIP_ERRCNT_MISSED_HB n) 1
        if gone then (s1.reportKid k.member false).forgetSubtree n else s1
      else s) s
  else s

/-- PRESENCE_RECEIVE: from below, a report for the domain root; from above, its flood, which also says who is marked absent
(R55). -/
def State.doPresenceReceive (s : State) (lane : Fin 16) : State :=
  let n := lane.val
  match s.takePip n 0x02 with
  | none => s
  | some (f, s1) =>
    let m := bytesAt f.data 0 1 % 128
    let p := bytesAt f.data 1 1 == 1
    if f.srcDomain ≠ s1.domain then s1
    else if s1.isUpstream n then
      if s1.flag F.TRN_CTL_DOM_ROOT then s1
      else
        let s2 := s1.pipSendAll (s1.treeLanes.filter (fun k => s1.laneUse k == 1)) f
        let s3 := s2.takePresence m p
        if p && f.srcMember == m then s3.sendKids else s3
    else if s1.flag F.TRN_CTL_DOM_ROOT then s1.rootReport f.srcMember m p
    else s1.pipSendUp f

/-- ROOT_ABSENCE_SWEEP: the members no parent has reported are flooded absent. -/
def State.doRootAbsenceSweep (s : State) : State :=
  match s.pip.sweepDue with
  | none => s
  | some t =>
    if s.clk < t ∨ s.flag F.TRN_CTL_DOM_ROOT = false then s
    else
      let s1 := { s with pip := { s.pip with sweepDue := none } }
      let lost := (setBitsList s1.present 128).filter (fun m => m != s1.member && !bitAt s1.pip.reportedSince m)
      lost.foldl (fun s m => if bitAt s.present m then State.markAbsent 128 s m else s) s1

/-! ### Tree traffic (R48-R50, R52) -/

/-- SUBTREE_RECEIVE: the members below the lane; a change goes upstream. -/
def State.doSubtreeReceive (s : State) (lane : Fin 16) : State :=
  let n := lane.val
  match s.takePip n 0x03 with
  | none => s
  | some (f, s1) =>
    if s1.isUpstream n then s1
    else if f.data.length ≠ 16 then s1.count (F.PIP_ERRCNT_CRC_ERR n) 1
    else
      let l := s1.lane n
      let before := s1.ownSubtree f.srcDomain
      let s2 := s1.setLane n { l with
        subtree := l.subtree.filter (fun e => e.1 ≠ f.srcDomain) ++ [(f.srcDomain, ofBytesLE f.data)] }
      if s2.ownSubtree f.srcDomain = before then s2 else s2.sendSubtree f.srcDomain

/-- SC_UP_RECEIVE: a contribution from below. A reserved OP, or a LEN the OP does not permit, is discarded and counted. -/
def State.doScUpReceive (s : State) (lane : Fin 16) : State :=
  let n := lane.val
  match s.takePip n 0x10 with
  | none => s
  | some (f, s1) =>
    if s1.isUpstream n then s1
    else if pipOpOk f.op f.data.length then s1.addPart (some n) f
    else s1.count (F.PIP_ERRCNT_CRC_ERR n) 1

/-- COMMIT_UP_RECEIVE: a vote from below; none is taken for a collective that is resigned or decided. -/
def State.doCommitUpReceive (s : State) (lane : Fin 16) : State :=
  let n := lane.val
  match s.takePip n 0x20 with
  | none => s
  | some (f, s1) =>
    if s1.isUpstream n || s1.resignSeen f.slice f.tag || s1.pip.decided.any (fun d => d.1 == f.slice && d.2.1 == f.tag) then s1
    else s1.addPart (some n) f

/-- SC_DOWN_RECEIVE: a result from above. -/
def State.doScDownReceive (s : State) (lane : Fin 16) : State :=
  match s.takePip lane.val 0x11 with
  | none => s
  | some (f, s1) => if s1.isUpstream lane.val then s1.sendDown f else s1

/-- COMMIT_DOWN_RECEIVE: a decision from above. -/
def State.doCommitDownReceive (s : State) (lane : Fin 16) : State :=
  match s.takePip lane.val 0x21 with
  | none => s
  | some (f, s1) => if s1.isUpstream lane.val then s1.sendDown f else s1

/-- `s` with a routed frame that came on lane `n` moved on; one that came from above goes down or is delivered. -/
def State.routeFrom (s : State) (n : Nat) (f : PipFrame) : State :=
  let here := if f.toRoot then s.flag F.TRN_CTL_DOM_ROOT else f.dstDomain == s.domain && f.dstMember == s.member
  if s.isUpstream n && !here && (f.toRoot || (s.laneToward f.dstDomain f.dstMember).isNone) then s
  else if here && f.isReservedNotice then s.count (F.PIP_ERRCNT_CRC_ERR n) 1
  else s.routePip f

/-- COUNTS_RECEIVE. -/
def State.doCountsReceive (s : State) (lane : Fin 16) : State :=
  match s.takePip lane.val 0x22 with
  | none => s
  | some (f, s1) => s1.routeFrom lane.val f

/-- P2P_RECEIVE. -/
def State.doP2pReceive (s : State) (lane : Fin 16) : State :=
  match s.takePip lane.val 0x30 with
  | none => s
  | some (f, s1) => s1.routeFrom lane.val f

/-- RESIGN_RECEIVE: the first copy is flooded on every other up lane, later ones are dropped. -/
def State.doResignReceive (s : State) (lane : Fin 16) : State :=
  match s.takePip lane.val 0x23 with
  | none => s
  | some (f, s1) => if s1.resignSeen f.slice f.tag then s1 else s1.floodResign (some lane.val) f

/-- RESIGN_MEMORY_EXPIRY: what is older than 20,000 turns is forgotten. -/
def State.doResignMemoryExpiry (s : State) : State :=
  let keep := fun (r : Nat × Nat × Nat) => decide (s.clk < r.2.2 + resignMemory)
  { s with pip := { s.pip with resigns := s.pip.resigns.filter keep, decided := s.pip.decided.filter keep } }

/-! ### The line, turn by turn (R30, R34, PIP_CTL.LOOP) -/

/-- The bits of code groups, first bit first. -/
def bitsOfGroups (gs : List (BitVec 10)) : List Bool := gs.flatMap (fun g => (List.range 10).map (fun i => g.getMsbD i))

/-- `s` with what the lanes send in the turn that ends: the symbols of the turn, each at its place in the grid (R34). In a
near-end loop the lane's receiver takes them. -/
def State.pipTick (s : State) : State :=
  let u := if s.counting then s.now else s.clk
  let k := symbolsIn u
  let at0 := s.clk * 1024 + 256 * u / 25 * 100 - u * 1024
  (lanes16.filter (fun n => s.flag (F.PIP_CTL_EN n))).foldl (fun s n =>
    let r := State.pipLine 16 (s.pipPump n) n k at0
    let t := r.1.emit (.pipGroups n r.2)
    if t.nearLoop n then t.takeBits n (bitsOfGroups r.2) else t) s

/-- `s` with what lane `n` sent taken by its own receiver. HOLD of a looped ECHO_RSP is 0 (DESIGN CHOICE,
notes/assumptions/77). -/
def State.takeBack (s : State) (n : Fin 16) : Emission → State
  | .turnMark _ b => s.takeMark n b 0
  | .echoReq _ b => s.takeEchoReq n b 0
  | .echoRsp _ b => s.takeEchoRsp n b 0
  | .heartbeat _ b => s.takeHeartbeat n b
  | .pipFrame _ _ b => s.takeFrame n b
  | .pipAck _ q => s.takeAck n (BitVec.ofNat 8 q)
  | .pipNak _ q => s.takeNak n (BitVec.ofNat 8 q)
  | _ => s

/-- `s` with what the lanes in a near-end loop sent before this boundary taken by their receivers. -/
def State.pipLoops (s : State) : State :=
  (List.finRange 16).foldl (fun (s : State) (n : Fin 16) =>
    let l := s.lane n
    if l.back.isEmpty then s
    else l.back.foldl (fun s e => s.takeBack n e) (s.setLane n { l with back := [] })) s

/-- `s` with the events made that Table 2-8 gives to the turn that ends, where no command has made them in it: the edition flip, the
injections of move lists (R244, R256, R383). -/
def State.turnEvents (s : State) : State :=
  let s1 := s.flipWhere (fun t => decide (t ≤ s.now))
  State.injectDue (s1.sw.lists.foldl (fun n m => n + m.ahead.length + 1) 0) s1

/-- TURN_BOUNDARY: the events of the turn that ends are made; what the pip lanes send in the turn that ends has left them; the counter increments, or takes the value that a first turn mark gave it (R30, R36). -/
def State.doTurnBoundary (s' : State) : State :=
  let s := s'.turnEvents
  let t := match s.pip.load with
    | some v => v
    | none => if s.counting then s.turn + 1 else s.turn
  let s0 := s.pipTick
  let s1 := { s0 with
    clk := s0.clk + 1
    turn := t
    counting := s0.counting || s0.pip.load.isSome
    pip := { s0.pip with load := none } }
  s1.nbrTurn.powerTick.countTurnPages.countHeldTurns.pipLoops

end Sys2Proof.Machine
end

