-- ==== Sys2Proof/Machine/RegView.lean ====
section
/-!
DEFINITION. Registers as a read shows them (spec/21_register_pages.md R461-R463): stored values, and the status fields
that show other state.
-/
namespace Sys2Proof.Machine

/-- The page holds registers beyond its header: on the odd port of a bonded pair, the ATT page holds only its header and
ATT_LINK (R314, Table 21-11). -/
def State.regPresent (s : State) (t i off : Nat) : Bool :=
  t != 7 || i % 2 == 0 || !s.flag (F.ATT_LINK_BONDED i) || decide (off < 0x100) || off == 0x108

/-- The fields of the register at `addr`, with its page; none where no register is (R461). -/
def State.regAt (s : State) (addr : Nat) : Option (Nat × Nat × Nat × List FieldDesc) :=
  match pageOf addr, regFields addr with
  | some (t, i, off), some fs => if s.regPresent t i off then some (t, i, off, fs) else none
  | some _, none => none
  | none, _ => none

/-- A value with a field replaced. -/
def withField (v : Word) (f : RField) (x : Nat) : Word := fieldPut v f.hi f.lo x

/-- Counterproof compares windows (Table 17-13). -/
def State.twnRunning (s : State) : Bool := s.twnOn && decide (s.get F.TWN_START_START_TURN ≤ s.now)

/-- PG_STAT of the page at `pg` (Table 21-4). -/
def State.pgStat (s : State) (pg : Nat) : Word :=
  BitVec.ofNat 64 (4 * s.get (F.PG_CTL_LOCK pg) + 2 * s.get (F.PG_INJ_ARM pg) +
    b2n ((s.reg (Reg.PG_ERR pg) &&& s.reg (Reg.PG_ERR_EN pg)) != 0))

/-- REP_STAT of end-point `n` (Table 4-17). -/
def State.repStat (s : State) (n : Nat) (v : Word) : Word :=
  let e := s.ep n
  withField (withField (withField v (F.REP_STAT_CHAN_USED n) e.chans.length) (F.REP_STAT_PINNED n) (e.pinned none))
    (F.REP_STAT_HOLD_USED n) e.heldCount

/-- SWX_P_OCC of port `p` (Table 10-19). -/
def State.swxOcc (s : State) (p : Nat) (v : Word) : Word :=
  withField (withField (withField (withField v (F.SWX_P_OCC_SCHED p) (s.occClass p 0)) (F.SWX_P_OCC_CTRL p) (s.occClass p 1))
    (F.SWX_P_OCC_BULK p) (s.occClass p 2)) (F.SWX_P_OCC_BG p) (s.occClass p 3)

/-- RTE_STAT (Table 11-6). -/
def State.rteStat (s : State) (v : Word) : Word :=
  withField (withField (withField (withField (withField v F.RTE_STAT_DRAIN1 (s.drain 1)) F.RTE_STAT_DRAIN0 (s.drain 0))
    F.RTE_STAT_WRITABLE1 (b2n (s.writable 1))) F.RTE_STAT_WRITABLE0 (b2n (s.writable 0))) F.RTE_STAT_CUR s.edition

/-- The register of page `t`, `i` at offset `off`, stored as `v`, with the fields that show other state. -/
def State.shown (s : State) (t i off : Nat) (v : Word) : Word :=
  let e := off - 0x100
  if off = 0x18 then s.pgStat (pageBase t i)
  else if t = 12 ∧ off = 0x108 then s.turn
  else if t = 6 ∧ off = 0x198 then s.repStat i v
  else if t = 6 ∧ off = 0x3F0 then withField v (F.REP_WIN_STAT_DRAINED i) (b2n (s.windowsDrained i))
  else if t = 9 ∧ i = 0 ∧ off = 0x110 then s.plateView v
  else if t = 2 ∧ 0x100 ≤ off ∧ e % 0x40 = 8 then s.vptStat (32 * i + e / 0x40) v
  else if t = 4 ∧ 1 ≤ i ∧ 0x100 ≤ off ∧ e % 0x20 = 0 then s.swxOcc (32 * (i - 1) + e / 0x20) v
  else if t = 5 ∧ i = 0 ∧ off = 0x120 then s.rteStat v
  else if t = 8 ∧ i = 4 ∧ off = 0x120 then withField v F.HBM_KMAP_SLOT (s.mapSlot (fieldGet v 51 32))
  else if t = 9 ∧ 1 ≤ i ∧ 0x100 ≤ off ∧ e % 0x28 = 0 then
    withField v (F.PLT_OQ_CFG_COL 0) (b2n (s.colq == 64 * (i - 1) + e / 0x28))
  else if t = 11 ∧ i = 0 ∧ 0x800 ≤ off then withField v (F.MSG_POOL_AVAIL_FREE 0) (s.poolFree ((off - 0x800) / 8))
  else if t = 14 ∧ off = 0x120 then withField v F.FLT_STAT_BACKPRESS (b2n s.backpress)
  else if t = 14 ∧ off = 0x158 then withField v F.FLT_SPARE_READY (b2n s.spareReady)
  else if t = 15 ∧ off = 0x108 then withField v F.PWR_STAT_SLOT s.staggerSlot
  else if t = 18 ∧ off = 0x160 then withField v F.TWN_STAT_RUNNING (b2n s.twnRunning)
  else v

/-- What a read of register address `addr` returns: zero where no register is (R461). -/
def State.regRead (s : State) (addr : Nat) : Word :=
  match s.regAt addr with
  | some (t, i, off, _) => s.shown t i off (s.reg addr)
  | none => 0

/-- `s` after a read of `addr`: RC fields are cleared (Table 21-3). The highest ring fill since the read of SWX_P_SPILL begins at
the fill that stands (Table 10-20). -/
def State.regCleared (s : State) (addr : Nat) : State :=
  match s.regAt addr with
  | some (t, i, off, fs) =>
    let s1 := s.setReg addr (resetFields fs (fun c => c == .rc) 0 (s.reg addr))
    if t = 4 ∧ 1 ≤ i ∧ 0x100 ≤ off ∧ (off - 0x100) % 0x20 = 8 then s1.notePeak (32 * (i - 1) + (off - 0x100) / 0x20) else s1
  | none => s

end Sys2Proof.Machine
end

