-- ==== Sys2Proof/Machine/RegHooks.lean ====
section
/-!
DEFINITION. Which write rule each register has (spec/21_register_pages.md R464-R469, R15, R315): the page header's own rules,
the queue ownership rule, and the choice among the blocks' rules by page and offset.
-/
namespace Sys2Proof.Machine

/-! ### Queue ownership (R15, R315) -/

/-- Something ties queue `q` to its owner (R15). -/
def State.queueHeld (s : State) (q : Nat) : Bool :=
  let op := s.owner q == some 17 && (s.flag (F.PLT_OQ_CFG_EN q) || s.get (F.PLT_OQ_IDX_HEAD q) != s.get (F.PLT_OQ_IDX_TAIL q)
    || (s.plate.op.map (·.queue)) == some q || s.plate.saved.any (fun o => o.queue == q))
  let col := s.owner q == some 18 && (s.flag (F.COL_Q_CFG_EN q) || s.get (F.COL_Q_IDX_HEAD q) != s.get (F.COL_Q_IDX_TAIL q)
    || s.col.active.any (fun c => c.queue == q))
  let msg := s.owner q == some 19 && (s.flag (F.MSG_Q_CFG_EN q) || s.get (F.MSG_Q_IDX_HEAD q) != s.get (F.MSG_Q_IDX_TAIL q)
    || s.msg.sends.any (fun m => m.queue == q))
  s.rep.trackers.any (fun t => t.queue == q) || op || col || msg ||
  (List.range 16).any (fun a => (List.range 32).any (fun j => s.flag (F.ATT_FQ_A_VALID a j) && s.get (F.ATT_FQ_A_QUEUE a j) == q)) ||
  (List.range 64).any (fun w => s.flag (F.ILX_FWIN_A_VALID w) && s.get (F.ILX_FWIN_A_QUEUE w) == q)

/-- The number of queues end-point `n` owns. -/
def State.queuesOwned (s : State) (n : Nat) : Nat :=
  (List.range 8).foldl (fun c k => c + popCount (s.reg (Reg.REP_QOWN n k)).toNat 64) 0

/-- The write rule of REP_QOWN word `k` of end-point `n`: no bit of another owner's queue, no queue that R15 holds, at most
32 queues for an attach port (R315). -/
def hookQown (n k : Nat) (s : State) (w : RegWrite) : State :=
  let bits := (List.range 64).filter (fun b => bitAt w.new.toNat b != bitAt w.old.toNat b)
  let taken := bits.any (fun b => bitAt w.new.toNat b &&
    (List.range 21).any (fun m => m != n && bitAt (s.reg (Reg.REP_QOWN m k)).toNat b))
  let lost := bits.any (fun b => bitAt w.old.toNat b && s.queueHeld (64 * k + b))
  let t := s.takeWrite w
  if taken || lost || (decide (n < 16) && decide (32 < t.queuesOwned n)) then
    (s.putFlag (F.REP_STAT_QOWN_REJ n) true).rejected 6 n
  else t

/-! ### The page header (R464-R469) -/

/-- The page's block has work in flight (R465). -/
def State.pageBusy (s : State) (t i : Nat) : Bool :=
  (t == 6 && s.rep.trackers.any (fun x => x.ep == i)) || (t == 9 && s.flag F.PLT_STAT_BUSY) ||
  (t == 10 && s.get F.COL_STAT_ACTIVE != 0) || (t == 4 && s.get F.SWX_ML_STAT_ACTIVE != 0) ||
  (t == 8 && s.flag F.HBM_STAT_SWEEP_ACTIVE)

/-- A soft reset of the page is accepted (R465). -/
def State.srstOk (s : State) (p : Path) (t i : Nat) : Bool :=
  Path.management p && !s.admitted && !(t == 12 || t == 13 || t == 16 || t == 15) && !s.pageBusy t i

/-- What a block does on the return of one of its page's registers to its reset value (R465): what the register's write rule
does beside taking the value. A soft reset is no write, so the checks of those rules do not apply, and it starts no command. -/
def srstRule (t i off : Nat) (s : State) (w : RegWrite) : State :=
  let e := off - 0x100
  if off < 0x100 then s
  else if t = 1 ∧ e % 0x18 = 0 then hookVglTx (32 * i + e / 0x60) (e / 0x18 % 4) s w
  else if t = 2 ∧ e % 0x40 = 0 then hookVptCtl (32 * i + e / 0x40) s w
  else if t = 3 ∧ off = 0x100 then hookPipCtl i s w
  else if t = 5 ∧ i = 0 ∧ off = 0x100 then
    if w.newF F.RTE_CTL_CUR = w.oldF F.RTE_CTL_CUR then s else s.setCur (w.newF F.RTE_CTL_CUR) s.now
  else if t = 5 ∧ i = 0 ∧ off = 0x118 then hookRteEd s w
  else if t = 5 ∧ 1 ≤ i ∧ i ≤ 6 then s.unready (if i ≤ 2 then i - 1 else (i - 3) / 2)
  else if t = 5 ∧ i = 7 ∧ off < 0x500 then hookNbrExp (e / 8) s w
  else if t = 6 ∧ 0x400 ≤ off then
    if (off - 0x400) % 0x18 = 0 then hookWinA i ((off - 0x400) / 0x18) 0 s w else (s.winKeep w.addr).takeWrite w
  else if t = 7 ∧ off = 0x120 then hookAttAtc i s w
  else if t = 8 ∧ i = 4 ∧ off = 0x100 then
    if w.newF F.HBM_CTL_HATCH_MODE = w.oldF F.HBM_CTL_HATCH_MODE then s
    else { s with hbm := { s.hbm with hatchOld := some (s.hatchMode, s.clk) } }
  else if t = 11 ∧ i = 0 ∧ 0x500 ≤ off ∧ off < 0x700 then
    { s with msg := { s.msg with rings := s.msg.rings.filter (fun r => r.1 != (off - 0x500) / 8) } }
  else if t = 14 ∧ off = 0x178 then hookBudget s w
  else if t = 17 ∧ i = 0 ∧ off = 0x110 then hookWdog s w
  else if t = 18 ∧ off = 0x100 then hookTwnCtl s w
  else s

/-- `s` after the block of page `t`, `i` has acted on the values that a soft reset gives the page's fields (R465). -/
def State.srstActs (s : State) (t i : Nat) : State :=
  s.regs.foldl (fun s e =>
    let (t', i', off) := regPlace e.1
    let old := s.reg e.1
    let new := resetFields ((regFields e.1).getD []) (fun c => c == .rw || c == .rwl || c == .w1c || c == .rc) (regReset e.1) old
    if t' = t ∧ i' = i ∧ new ≠ old then srstRule t i off s { path := .fabric, addr := e.1, old := old, new := new, act := 0 }
    else s) s

/-- An accepted soft reset of the page of block type `t`, instance `i` (R465): PG_CNT_VAL restarts as on a write of PG_CNT_SEL, and
the switch core goes by its new thresholds. -/
def State.softReset (s : State) (t i : Nat) : State :=
  let s1 := ((s.srstActs t i).pageReset t i).setReg (Reg.PG_CNT_VAL (pageBase t i)) 0
  if t = 4 ∧ i = 0 then (List.range 128).foldl State.updateThrottle s1 else s1

/-- The write rule of PG_CTL: EN and LOCK are taken, then SRST acts or is rejected. -/
def hookPgCtl (t i : Nat) (s : State) (w : RegWrite) : State :=
  let s1 := s.takeWrite w
  if fieldGet w.act 1 1 = 1 then
    if s.srstOk w.path t i then s1.softReset t i else s1.rejected t i
  else s1

/-- The class of a fault code (Table 18-2); none where the code is reserved. An injected PAGE_FAULT is no DMA tile's. -/
def codeClass (c : Nat) : Option Nat :=
  if c = 0x0001 ∨ c = 0x0002 ∨ c = 0x0003 ∨ c = 0x0021 then some 3
  else if c = 0x0010 ∨ c = 0x0022 ∨ c = 0x0020 then some 1
  else if c = 0x0004 ∨ c = 0x0005 ∨ c = 0x0011 ∨ c = 0x0012 ∨ c = 0x0013 ∨ c = 0x0042 ∨ c = 0x0060 then some 4
  else if c = 0x0030 ∨ c = 0x0031 ∨ c = 0x0032 ∨ c = 0x0041 then some 5
  else if c = 0x0033 ∨ c = 0x0040 ∨ c = 0x0050 ∨ c = 0x0061 ∨ c = 0x0062 ∨ c = 0x0063 ∨ c = 0x0064 then some 6
  else none

/-- `s` with fault code `c` reported on a page as if its event occurred (Table 21-7). DETAIL0, and PASID of a PAGE_FAULT, are
free values: the spec does not give them. -/
def State.injectEvent (s : State) (t i c cls : Nat) : State :=
  let pasid := if c = 0x0020 then (s.free 20) else 0
  let s1 := if c = 0x0020 then s.freeNext else s
  (s1.freeNext.fault cls c t i { pasid := pasid, detail0 := s1.free 64, detail1 := 2 ^ 64 - 1 }).pageEvent t i 8 0x8007

/-- The write rule of PG_INJ (R469). -/
def hookPgInj (t i : Nat) (s : State) (w : RegWrite) : State :=
  let pg := pageBase t i
  let k := w.newF (F.PG_INJ_KIND pg)
  let c := w.newF (F.PG_INJ_CODE pg)
  if w.newF (F.PG_INJ_ARM pg) = 0 then s.takeWrite w
  else if 4 < k ∨ (1 ≤ k ∧ k ≤ 3 ∧ injSymPage t i = false) then s.rejected t i
  else if k = 4 then
    match codeClass c with
    | some cls => ((s.takeWrite w).putFlag (F.PG_INJ_ARM pg) false).injectEvent t i c cls
    | none => s.rejected t i
  else s.takeWrite w

/-- The write rule of PG_CNT_SEL: VALUE restarts at 0. -/
def hookPgCntSel (t i : Nat) (s : State) (w : RegWrite) : State := (s.takeWrite w).setReg (Reg.PG_CNT_VAL (pageBase t i)) 0

/-- The write rule of a header register. -/
def hookHeader (t i off : Nat) (s : State) (w : RegWrite) : State :=
  if off = 0x10 then hookPgCtl t i s w
  else if off = 0x40 then hookPgInj t i s w
  else if off = 0x48 then hookPgCntSel t i s w
  else s.takeWrite w

/-! ### The blocks (Table 21-2) -/

/-- SWX pages. -/
def hookSwx (i off : Nat) (s : State) (w : RegWrite) : State :=
  if i = 0 ∧ off = 0x108 then hookSwxBufThr s w
  else if i = 0 ∧ off = 0x118 then hookSwxSpill s w
  else if i = 0 ∧ off = 0x120 then (List.range 128).foldl State.updateThrottle (s.takeWrite w)
  else if i = 0 ∧ off = 0x148 then hookMlArm s w
  else s.takeWrite w

/-- RTE pages. -/
def hookRte (i off : Nat) (s : State) (w : RegWrite) : State :=
  if i = 0 then
    if off = 0x100 then (hookRteCtl s w).releaseWarned
    else if off = 0x110 then hookFlipArm s w
    else if off = 0x118 then hookRteEd s w
    else if off = 0x138 then hookPortFar 0 s w
    else if off = 0x140 then hookPortFar 1 s w
    else s.takeWrite w
  else if i ≤ 2 then hookRouteEntry false (i - 1) ((off - 0x100) / 0x18) s w
  else if i ≤ 6 then hookRouteEntry true ((i - 3) / 2) (128 * ((i - 3) % 2) + (off - 0x100) / 0x18) s w
  else if off < 0x500 then hookNbrExp ((off - 0x100) / 8) s w
  else s.takeWrite w

/-- REP pages; `data` is the written data, reserved bits included (R70). REP_HOT is in the pages of the memory and plate EPs only
(Table 4-16): elsewhere its place reads 0 and takes no write. -/
def hookRep (data : Word) (i off : Nat) (s : State) (w : RegWrite) : State :=
  if 0x110 ≤ off ∧ off < 0x150 then hookQown i ((off - 0x110) / 8) s w
  else if 0x400 ≤ off then
    if (off - 0x400) % 0x18 = 0 then hookWinA i ((off - 0x400) / 0x18) data s w else hookWinBC i ((off - 0x400) / 0x18) s w
  else if off = 0x190 ∧ i ≠ 16 ∧ i ≠ 17 then s
  else s.takeWrite w

/-- ATT pages. -/
def hookAtt (i off : Nat) (s : State) (w : RegWrite) : State :=
  if off = 0x120 then hookAttAtc i s w
  else if off = 0x128 then hookAttPri i s w
  else if off = 0x130 then hookAttFltRes i s w
  else if 0x300 ≤ off ∧ off < 0x700 ∧ off % 0x20 = 0 then hookFqA i ((off - 0x300) / 0x20) s w
  else if 0x300 ≤ off ∧ off < 0x700 ∧ off % 0x20 = 0x18 then hookFqD i ((off - 0x300) / 0x20) s w
  else s.takeWrite w

/-- HBM pages. -/
def hookHbm (i off : Nat) (s : State) (w : RegWrite) : State :=
  if i = 4 then
    if off = 0x100 then hookHbmCtl s w
    else if off = 0x110 then hookHbmSweep s w
    else if 0x200 ≤ off ∧ off % 0x10 = 8 then hookSlotStat ((off - 0x200) / 0x10) s w
    else s.takeWrite w
  else s.takeWrite w

/-- PLT pages. -/
def hookPlt (i off : Nat) (s : State) (w : RegWrite) : State :=
  if i = 0 then if off = 0x118 then hookPltAbort s w else s.takeWrite w
  else if (off - 0x100) % 0x28 = 0x20 then hookOqIdx (64 * (i - 1) + (off - 0x100) / 0x28) s w
  else s.takeWrite w

/-- COL pages. -/
def hookCol (i off : Nat) (s : State) (w : RegWrite) : State :=
  if i = 0 then
    if off = 0x100 then hookColCtl s w else if off = 0x120 then hookColResign s w else s.takeWrite w
  else if (off - 0x100) % 0x20 = 0x18 then hookColQIdx (64 * (i - 1) + (off - 0x100) / 0x20) s w
  else s.takeWrite w

/-- MSG pages. -/
def hookMsg (i off : Nat) (s : State) (w : RegWrite) : State :=
  if i = 0 then
    (if off < 0x300 then hookMsgPoolCfg ((off - 0x100) / 8) s w
      else if 0x500 ≤ off ∧ off < 0x700 then hookMsgPoolRing ((off - 0x500) / 8) s w
      else if off = 0x700 then hookMsgPoolFree s w
      else s.takeWrite w)
  else if (off - 0x100) % 0x18 = 0x10 then hookMsgQIdx (64 * (i - 1) + (off - 0x100) / 0x18) s w
  else s.takeWrite w

/-- SEC, FLT and PWR pages; `aux` is what a PMBus controller answers. -/
def hookMidPages (aux : Option Nat) (t i off : Nat) (s : State) (w : RegWrite) : State :=
  if t = 13 ∧ i = 0 ∧ off = 0x108 then hookSecLock s w
  else if t = 13 ∧ i = 0 ∧ off = 0x148 then hookSecBurn s w
  else if t = 13 ∧ i = 0 ∧ off = 0x158 then hookBsCmd s w
  else if t = 14 ∧ off = 0x138 then hookFltFence 0 s w
  else if t = 14 ∧ off = 0x140 then hookFltFence 1 s w
  else if t = 14 ∧ off = 0x170 then hookStandin s w
  else if t = 14 ∧ off = 0x178 then hookBudget s w
  else if t = 14 ∧ off = 0x180 then hookRejoin s w
  else if t = 15 ∧ off = 0x118 then hookPwrTherm s w
  else if t = 15 ∧ 0x280 ≤ off ∧ off < 0x300 then hookPwrLim ((off - 0x280) / 8) s w
  else if t = 15 ∧ off = 0x300 then hookPmbAcc aux s w
  else s.takeWrite w

/-- MGT, ILX and TWN pages; `aux` is what the carrier identity memory or a module answers. -/
def hookLatePages (aux : Option Nat) (t i off : Nat) (s : State) (w : RegWrite) : State :=
  let e := off - 0x100
  if t = 16 ∧ off = 0x128 then hookMgtCtl s w
  else if t = 16 ∧ off = 0x130 then hookCimAcc (aux.getD 0) s w
  else if t = 16 ∧ off = 0x140 then hookCageAcc (aux.getD 0) s w
  else if t = 17 ∧ i = 0 ∧ off = 0x110 then hookWdog s w
  else if t = 17 ∧ (i = 1 ∨ i = 2) ∧ 0x10 ≤ e % 0x100 ∧ e % 0x100 < 0x50 then
    hookMbReq (8 * (i - 1) + e / 0x100) ((e % 0x100 - 0x10) / 8) s w
  else if t = 17 ∧ i = 3 ∧ e % 0x10 = 0 then hookFwinA (e / 0x10) s w
  else if t = 17 ∧ i = 4 ∧ e % 0x10 = 8 then hookCoreFence (e / 0x10) s w
  else if t = 18 ∧ off = 0x100 then hookTwnCtl s w
  else if t = 18 ∧ off = 0x108 then hookTwnStart s w
  else if t = 18 ∧ off = 0x150 then hookTwnRel s w
  else s.takeWrite w

/-- The write rule of the register at offset `off` of page `t`, `i`. -/
def regHook (data : Word) (aux : Option Nat) (t i off : Nat) (s : State) (w : RegWrite) : State :=
  if off < 0x100 then hookHeader t i off s w
  else if t = 1 ∧ (off - 0x100) % 0x18 = 0 then hookVglTx (32 * i + (off - 0x100) / 0x60) ((off - 0x100) / 0x18 % 4) s w
  else if t = 2 ∧ (off - 0x100) % 0x40 = 0 then hookVptCtl (32 * i + (off - 0x100) / 0x40) s w
  else if t = 3 ∧ off = 0x100 then hookPipCtl i s w
  else if t = 4 then hookSwx i off s w
  else if t = 5 then hookRte i off s w
  else if t = 6 then hookRep data i off s w
  else if t = 7 then hookAtt i off s w
  else if t = 8 then hookHbm i off s w
  else if t = 9 then hookPlt i off s w
  else if t = 10 then hookCol i off s w
  else if t = 11 then hookMsg i off s w
  else if t = 12 ∧ off = 0x100 then hookTrnCtl s w
  else if t = 13 ∨ t = 14 ∨ t = 15 then hookMidPages aux t i off s w
  else hookLatePages aux t i off s w

end Sys2Proof.Machine
end

