-- ==== Sys2Proof/Machine/RegBus.lean ====
section
/-!
DEFINITION. The register bus (spec/21_register_pages.md R460-R470, R473): the write filter by path, lock and TDI state, what a
discarded write does, and an access as a path makes it.
-/
namespace Sys2Proof.Machine

/-! ### The write filter (R468, R473) -/

/-- Register pages and offsets that are privileged (R69, R440): closed whole to every path but the management path. -/
def privReg (t off : Nat) : Bool :=
  t == 5 || t == 13 || (t == 6 && decide (0x3F0 ≤ off ∧ off < 0xA00)) || (t == 16 && (off == 0x128 || off == 0x130))

/-- A mailbox request register, and its attach port. -/
def mbReqPort (t i off : Nat) : Option Nat :=
  let e := off - 0x100
  if t = 17 ∧ (i = 1 ∨ i = 2) ∧ 0x100 ≤ off ∧ 0x10 ≤ e % 0x100 ∧ e % 0x100 < 0x50 then some (8 * (i - 1) + e / 0x100) else none

/-- The path is BAR0 of port `a`. -/
def Path.isBar0 (p : Path) (a : Nat) : Bool :=
  match p with
  | .bar0 x => x.val == a
  | .chain => false
  | .oob => false
  | .firmware => false
  | .fabric => false

/-- The code under which the register is closed whole to the path; 0 where it is not (R473). -/
def wholeClosed (p : Path) (t i off : Nat) : Nat :=
  match mbReqPort t i off with
  | some a => if Path.isBar0 p a then 0 else 0x8003
  | none => if privReg t off && !Path.management p then 0x8001 else 0

/-- A ring's index register, exempt from the page lock (R466). -/
def ringIndex (t i off : Nat) : Bool :=
  let e := off - 0x100
  (t == 14 && (off == 0x110 || off == 0x118)) || (t == 7 && decide (0x300 ≤ off ∧ off < 0x700) && off % 0x20 == 0x18) ||
  (decide (1 ≤ i ∧ 0x100 ≤ off) && ((t == 9 && e % 0x28 == 0x20) || (t == 10 && e % 0x20 == 0x18) || (t == 11 && e % 0x18 == 0x10)))

/-- The field is locked by TDISP: its port's TDI is in CONFIG_LOCKED or RUN (R334). -/
def State.tdiLocks (s : State) (t i off : Nat) (f : FieldDesc) : Bool :=
  let st := s.get (F.ATT_SEC_TDI_STATE i)
  t == 7 && (st == 1 || st == 2) &&
  (off == 0x200 || decide (0x800 ≤ off) || off == 0x110 || off == 0x118 || (off == 0x100 && f.hi == 8) ||
    (decide (0x300 ≤ off ∧ off < 0x700) && off % 0x20 != 0x18))

/-- The code under which a field is closed to the path; 0 where it is open (R473). LOCK itself is closed outside the
management path (R464, R466). -/
def State.fieldClosed (s : State) (p : Path) (t i off : Nat) (f : FieldDesc) : Nat :=
  let pg := pageBase t i
  if s.tdiLocks t i off f then 0x8004
  else if Path.management p then 0
  else if f.acc = .rwl ∧ s.flag F.SEC_LOCK_LOCK = true then 0x8001
  else if f.acc = .rw ∧ ((s.flag (F.PG_CTL_LOCK pg) = true ∧ ringIndex t i off = false) ∨ (off = 0x10 ∧ f.hi = 2)) then 0x8002
  else 0

/-- The data touches the field: it would change it, or writes 1 to a W1S or WO field (R473). -/
def touches (old data : Word) (f : FieldDesc) : Bool :=
  match f.acc with
  | .rw => fieldGet data f.hi f.lo != fieldGet old f.hi f.lo
  | .rwl => fieldGet data f.hi f.lo != fieldGet old f.hi f.lo
  | .w1s => fieldGet data f.hi f.lo != 0
  | .wo => fieldGet data f.hi f.lo != 0
  | .w1c => (fieldGet data f.hi f.lo &&& fieldGet old f.hi f.lo) != 0
  | .ro => false
  | .rc => false

/-- The code of a write that touches closed fields: that of a TDISP-locked one before the rest, RWL before RW. -/
def discardCode (codes : List Nat) : Nat :=
  if codes.contains 0x8004 then 0x8004 else if codes.contains 0x8001 then 0x8001 else if codes.contains 0x8002 then 0x8002
  else 0

/-- The register's next value: open RW and RWL fields from the data, W1C bits written 1 cleared. -/
def nextValue (closed : FieldDesc → Nat) (fs : List FieldDesc) (old data : Word) : Word :=
  fs.foldl (fun v f =>
    let d := fieldGet data f.hi f.lo
    let o := fieldGet old f.hi f.lo
    if closed f ≠ 0 then v
    else match f.acc with
      | .rw => fieldPut v f.hi f.lo d
      | .rwl => fieldPut v f.hi f.lo d
      | .w1c => fieldPut v f.hi f.lo (o - (o &&& d))
      | .ro => v
      | .rc => v
      | .w1s => v
      | .wo => v) old

/-- The data's bits in open fields: what W1S, WO and the actions of RWL fields go by. -/
def actValue (closed : FieldDesc → Nat) (fs : List FieldDesc) (data : Word) : Word :=
  fs.foldl (fun v f => if closed f ≠ 0 then v else fieldPut v f.hi f.lo (fieldGet data f.hi f.lo)) 0

/-- `s` with a write discarded: the page's event, and on a TDISP-locked field the TDI in ERROR (R473, R334). -/
def State.discard (s : State) (t i code : Nat) : State :=
  let s1 := s.pageEvent t i 1 code
  if code = 0x8004 then s1.setTdi i 3 else s1

/-- Every field that a write can act on is closed: the write does nothing to the register, and its write rule does not act
(R466, R468, R473). -/
def allShut (closed : FieldDesc → Nat) (fs : List FieldDesc) : Bool :=
  let l := fs.filter (fun f => match f.acc with
    | .rw | .rwl | .w1c | .w1s | .wo => true
    | .ro | .rc => false)
  !l.isEmpty && l.all (fun f => closed f != 0)

/-- `s` with `data` written to the register at `addr` by a path, and whether the write was discarded. -/
def State.regWrite (s : State) (p : Path) (addr : Nat) (data : Word) (aux : Option Nat) : Bool × State :=
  match s.regAt addr with
  | none => (false, s)
  | some (t, i, off, fs) =>
    let whole := wholeClosed p t i off
    if whole ≠ 0 then (true, s.discard t i whole)
    else
      let closed := s.fieldClosed p t i off
      let old := s.reg addr
      let w : RegWrite := { path := p, addr := addr, old := old, new := nextValue closed fs old data, act := actValue closed fs data }
      let code := discardCode ((fs.filter (touches old data)).map closed)
      let s1 := if allShut closed fs then s else regHook data aux t i off s w
      if code = 0 then (false, s1) else (true, s1.discard t i code)

/-! ### An access on a path (R460, R462) -/

/-- The path reaches the registers: the management chain and out-of-band access from PLL lock onward (R435), firmware while it
runs, BAR0 while the port's link is up and it is not in burnish (R335), the fabric once clocks run. -/
def State.pathOpen (s : State) (p : Path) : Bool :=
  s.up.pllLocked && (match p with
    | .chain => true
    | .oob => true
    | .firmware => s.firmwareRuns
    | .bar0 a => s.portOn a && !s.flag (F.ATT_SEC_RRS a) && !(s.flag (F.ATT_LINK_BONDED a) && a.val % 2 == 1)
    | .fabric => true)

/-- The register space (R460). -/
def inRegSpace (addr : Nat) : Bool := decide (0x1000000 ≤ addr ∧ addr < 0x5000000)

/-- `s` with a path's access answered: nothing answers a posted BAR0 write. -/
def State.answerPath (s : State) (p : Path) (write : Bool) (status : Nat) (data : Word) : State :=
  match p with
  | .bar0 _ => if write then s else s.emit (.regAnswer p status data)
  | .chain => s.emit (.regAnswer p status data)
  | .oob => s.emit (.regAnswer p status data)
  | .firmware => s.emit (.regAnswer p status data)
  | .fabric => s.emit (.regAnswer p status data)

/-- The access is not one that the path defines: not aligned to 8 bytes, or, on the chain and out of band, outside the
register space (R462, R435). -/
def badAccess (p : Path) (addr : Nat) : Bool := addr % 8 != 0 || ((p == .chain || p == .oob) && !inRegSpace addr)

/-- An undefined access, by path (R462, R435). On BAR0 it is a host error of the host's own making: no register is read or
written, and what a read answers with is a free value; from the fabric, where it is one too, the end-point answers with
PermissionDenied (R78; notes/assumptions/67). -/
def State.misaligned (s : State) (p : Path) (write : Bool) : State :=
  match p with
  | .bar0 _ => s.freeNext.answerPath p write 0x01 (BitVec.ofNat 64 (s.free 64))
  | .fabric => s.answerPath p write 0x23 0
  | .chain => s.answerPath p true 0x23 0
  | .oob => s.answerPath p true 0x23 0
  | .firmware => s.emit (.regFault p)

/-- The register starts an access of a memory, module or controller beyond the device. -/
def accessReg (addr : Nat) : Bool := addr == Reg.MGT_CIM_ACC || addr == Reg.MGT_CAGE_ACC || addr == Reg.PWR_PMB_ACC

/-- What lies beyond an access register answers with, where no operand of the command says: a free value, and on the PMBus
freely whether it answers at all. -/
def State.accessAux (s : State) (addr : Nat) : Option Nat × State :=
  if accessReg addr then
    (if addr = Reg.PWR_PMB_ACC ∧ 2 ^ 16 ≤ s.free 17 then none else some (s.free 17 % 2 ^ 16), s.freeNext)
  else (none, s)

/-- `s` with `data` written to the register at `addr` by a path that names no answer, and whether the write was discarded. -/
def State.busWrite (s : State) (p : Path) (addr : Nat) (data : Word) : Bool × State :=
  let (aux, s1) := s.accessAux addr
  s1.regWrite p addr data aux

/-- An 8-byte write by a path: the access, then its answer. Only a fabric write tells its issuer that it was discarded. -/
def State.pathWrite (s : State) (p : Path) (addr : Nat) (data : Word) (aux : Option Nat) : State :=
  if !s.pathOpen p then s
  else if badAccess p addr then s.misaligned p true
  else
    let (gone, s1) := s.regWrite p addr data aux
    s1.answerPath p true (if gone && p == .fabric then 0x23 else 0x01) 0

/-- The granule that carries a register's value: its 8 bytes in their place, zeros around them. -/
def regGranule (addr : Nat) (v : Word) : Granule :=
  { data := List.replicate (addr % 32) 0 ++ toBytesLE 8 v.toNat ++ List.replicate (24 - addr % 32) 0 }

/-- The fabric address of the register at `addr` of this device (R68). -/
def State.regFabric (s : State) (addr : Nat) : Nat := nearAddr s.member 3 (addr - 0x1000000)

/-- A register read: the granule that carries the value, checked on its way out (Table 13-3), and the read's effects: RC fields are
cleared once read. Where there is no register, zeros that nothing checks: such a read completes with Completed on every path
(R461). -/
def State.readGranule (s : State) (addr : Nat) : Granule × State :=
  if (s.regAt addr).isNone then ({ data := List.replicate 32 0 }, s)
  else (s.regCleared addr).ilxGranule (s.regFabric addr) (regGranule addr (s.regRead addr))

/-- A register read: status, Poisoned where the check finds an uncorrectable granule; value; state after. -/
def State.busRead (s : State) (addr : Nat) : Nat × Word × State :=
  let (g, s1) := s.readGranule addr
  (if g.poison then 0x30 else 0x01, BitVec.ofNat 64 (bytesAt g.data (addr % 32) 8), s1)

/-- `s` with a BAR0 read of a port in burnish answered Completer Abort (R335). -/
def State.shutRead (s : State) (p : Path) : State :=
  match p with
  | .bar0 a => if s.up.pllLocked && s.portOn a && s.flag (F.ATT_SEC_RRS a) then s.emit (.regAbort a) else s
  | .chain | .oob | .firmware | .fabric => s

/-- An 8-byte read by a path. -/
def State.pathRead (s : State) (p : Path) (addr : Nat) : State :=
  if !s.pathOpen p then s.shutRead p
  else if badAccess p addr then s.misaligned p false
  else
    let (st, v, s1) := s.busRead addr
    s1.answerPath p false st v

end Sys2Proof.Machine
end

