-- ==== Sys2Proof/Machine/CoreRows.lean ====
section
/-!
DEFINITION. The accesses of the Ilnyx cores (spec/15_ilnyx_cores.md R339-R343): an access is made of parts, each of which lies
in one region of Table 15-1: the boot ROM and timers, the device's own registers, private memory, or a fabric window. Exception
codes are RISC-V's (PRESUMED, notes/assumptions/31).
-/
namespace Sys2Proof.Machine

/-- What kind of access a part belongs to. -/
inductive CoreKind where
  | plain | vector | amo | amoW | lr | sc
  deriving DecidableEq, Repr

/-- A part of a core's access: a scalar, an element of a strided or indexed vector access, or the bytes of a unit-stride one that
lie between two multiples of 2^44. -/
structure CorePart where
  kind : CoreKind
  op : Nat
  pa : Nat
  bytes : Nat
  /-- The element's size, to which its address must be aligned. -/
  size : Nat
  data : List Byte := []
  deriving DecidableEq, Repr

/-- The access writes: its access fault is the store kind. -/
def coreWrites : CoreAccess → Bool
  | .load _ | .vectorLoad _ _ | .elementLoad _ _ | .lr _ => false
  | .store _ | .amo _ _ | .vectorStore _ _ | .elementStore _ | .amoW _ _ | .sc _ => true

/-- The fabric atomic of an AMO. -/
def amoOpcode (f : Fin 9) : Nat := [0x10, 0x15, 0x17, 0x18, 0x19, 0x11, 0x12, 0x13, 0x14].getD f 0x10

/-- Bytes `[pa, pa + n)` cut at the next multiple of 2^44, where a window ends: offset and length. -/
def windowCut (pa n : Nat) : List (Nat × Nat) :=
  let m := min n (2 ^ 44 - pa % 2 ^ 44)
  (if m = 0 then [] else [(0, m)]) ++ (if m < n then [(m, n - m)] else [])

/-- The parts of an access at `pa`. -/
def coreParts (pa : Nat) : CoreAccess → List CorePart
  | .load n => [{ kind := .plain, op := opLoad, pa := pa, bytes := n, size := n }]
  | .store d => [{ kind := .plain, op := opStore, pa := pa, bytes := d.length, size := d.length, data := d }]
  | .amo f x => [{ kind := .amo, op := amoOpcode f, pa := pa, bytes := 8, size := 8, data := toBytesLE 32 x.toNat }]
  | .vectorLoad k n => (windowCut pa n).map (fun x =>
      { kind := .vector, op := opLoad, pa := pa + x.1, bytes := x.2, size := k })
  | .vectorStore k d => (windowCut pa d.length).map (fun x =>
      { kind := .vector, op := opStore, pa := pa + x.1, bytes := x.2, size := k, data := (d.drop x.1).take x.2 })
  | .elementLoad k offs => offs.map (fun o =>
      { kind := .plain, op := opLoad, pa := (pa + o.toNat) % 2 ^ 64, bytes := k, size := k })
  | .elementStore es => es.map (fun e =>
      { kind := .plain, op := opStore, pa := (pa + e.1.toNat) % 2 ^ 64, bytes := e.2.length, size := e.2.length, data := e.2 })
  | .amoW f x => [{ kind := .amoW, op := amoOpcode f, pa := pa, bytes := 4, size := 4, data := toBytesLE 32 x.toNat }]
  | .lr n => [{ kind := .lr, op := opLoad, pa := pa, bytes := n, size := n }]
  | .sc d => [{ kind := .sc, op := opStore, pa := pa, bytes := d.length, size := d.length, data := d }]

/-- A scalar or element size, naturally aligned. -/
def CorePart.aligned (p : CorePart) : Bool :=
  (p.size == 1 || p.size == 2 || p.size == 4 || p.size == 8) && p.pa % p.size == 0

/-- A region of Table 15-1, with the offset in private memory or the window's number. -/
inductive CorePlace where
  | rom
  | regs
  | priv (off : Nat)
  | window (w : Nat)
  deriving DecidableEq, Repr

/-- The region in which all bytes of `[pa, pa + n)` lie; none where no region holds them. -/
def State.corePlace (s : State) (pa n : Nat) : Option CorePlace :=
  if pa + n ≤ 0x1000000 then some .rom
  else if 0x1000000 ≤ pa ∧ pa + n ≤ 0x5000000 then some .regs
  else if 0x1000000000 ≤ pa ∧ pa + n ≤ 0x1000000000 + min (s.privateSize) (2 ^ 36) then some (.priv (pa - 0x1000000000))
  else if 2 ^ 55 ≤ pa ∧ pa + n ≤ 2 ^ 55 + 2 ^ 50 ∧ pa % 2 ^ 44 + n ≤ 2 ^ 44 then some (.window ((pa - 2 ^ 55) / 2 ^ 44))
  else none

/-- A kernel's G-stage maps the part: its share of private memory, or a window granted to it (R343). -/
def Kernel.maps (k : Kernel) (p : CorePart) : Bool :=
  (decide (0x1000000000 + k.memAt ≤ p.pa) && decide (p.pa + p.bytes ≤ 0x1000000000 + k.memAt + k.memSize)) ||
  (decide (2 ^ 55 ≤ p.pa ∧ p.pa + p.bytes ≤ 2 ^ 55 + 2 ^ 50) && bitAt k.windows ((p.pa - 2 ^ 55) / 2 ^ 44))

/-- The part raises no access fault: its region takes accesses of its kind, size and alignment (R339, R341, R462). Main memory
takes misaligned loads and stores, and aligned atomics (PRESUMED, notes/assumptions/31). -/
def State.partOk (s : State) (p : CorePart) : Bool :=
  match s.corePlace p.pa p.bytes with
  | none => false
  | some .rom => true
  | some .regs => p.kind == .plain && p.bytes == 8 && p.pa % 8 == 0
  | some (.priv _) => match p.kind with
    | .plain | .vector => true
    | .amo | .amoW | .lr | .sc => (p.size == 4 || p.size == 8) && p.pa % p.size == 0
  | some (.window w) => s.flag (F.ILX_FWIN_A_VALID w) && p.aligned && match p.kind with
    | .plain | .vector | .amo => true
    | .amoW | .lr | .sc => false

/-! ### Private memory (R340) -/

/-- A signed 32-bit value as 64 bits. -/
def signExtend32 (x : Nat) : Nat := if x % 2 ^ 32 < 2 ^ 31 then x % 2 ^ 32 else x % 2 ^ 32 + (2 ^ 64 - 2 ^ 32)

/-- The value that an AMO of part `p` leaves where `prior` was. -/
def CorePart.amoValue (p : CorePart) (prior : Nat) : Nat :=
  if p.bytes = 4 then atomicValue p.op (signExtend32 prior) (signExtend32 (bytesAt p.data 0 4)) 0 % 2 ^ 32
  else atomicValue p.op prior (bytesAt p.data 0 8) 0

/-- Bytes that a reservation holds are written: `[off, off + n)` meets it. -/
def meets (off n : Nat) (r : Nat × Nat × Nat) : Bool := decide (r.2.1 < off + n ∧ off < r.2.1 + r.2.2)

/-- `s` with bytes stored in private memory, and the reservations they meet lost. -/
def State.privStore (s : State) (off : Nat) (data : List Byte) : State :=
  let s1 := s.hbmStore (s.get F.ILX_MEM_BASE * 2 ^ 30 + off) data false
  { s1 with ilx := { s1.ilx with reserved := s1.ilx.reserved.filter (fun r => !meets off data.length r) } }

/-- `s` with core `n`'s reservation set, or lost. -/
def State.reserve (s : State) (n : Nat) (r : Option (Nat × Nat)) : State :=
  { s with ilx := { s.ilx with reserved := s.ilx.reserved.filter (fun (x : Nat × Nat × Nat) => x.1 != n) ++ (r.map (fun r => (n, r))).toList } }

/-- `s` with a part of core `n` performed in private memory at byte `off`: local HBM from ILX_MEM.BASE. What the caches hold of it
is not promised to agree with what the fabric writes there; the model's cores see HBM (DESIGN CHOICE, notes/assumptions/31). -/
def State.privAccess (s : State) (n off : Nat) (p : CorePart) : State :=
  if p.kind = .sc then
    let held := s.ilx.reserved.contains (n, off, p.bytes)
    ((if held then s.privStore off p.data else s).reserve n none).emit (.coreData n (toBytesLE 8 (b2n (!held))) false)
  else if p.op = opStore then s.privStore off p.data
  else
    let (d, bad, s1) := s.hbmFetch (s.get F.ILX_MEM_BASE * 2 ^ 30 + off) p.bytes
    let s2 := s1.emit (.coreData n d bad)
    if p.kind = .lr then s2.reserve n (some (off, p.bytes))
    else if p.op = opLoad ∨ bad = true then s2
    else s2.privStore off (toBytesLE p.bytes (p.amoValue (bytesAt d 0 p.bytes)))

/-! ### An access -/

/-- `s` with a part of core `n` performed in its region. What the boot ROM and the timers hold is not stated: a load gets a free
value, a store does nothing that the spec states. Firmware's register accesses take the management path (R343). -/
def State.corePart (s : State) (n : Nat) (p : CorePart) : State :=
  match s.corePlace p.pa p.bytes with
  | none => s
  | some .rom =>
    if p.op = opStore then s else s.freeNext.emit (.coreData n (toBytesLE p.bytes (s.free (8 * p.bytes))) false)
  | some .regs =>
    if p.op = opLoad then s.pathRead .firmware p.pa
    else
      let (aux, s1) := s.accessAux p.pa
      s1.pathWrite .firmware p.pa (BitVec.ofNat 64 (ofBytesLE p.data)) aux
  | some (.priv off) => s.privAccess n off p
  | some (.window w) =>
    s.issueMemory (s.get (F.ILX_FWIN_A_QUEUE w)) p.op (s.get (F.ILX_FWIN_B_BASE w) * 2 ^ 44 + p.pa % 2 ^ 44) p.bytes p.data 0
      (.core n)

/-- A part lies in private memory. -/
def State.inPrivate (s : State) (p : CorePart) : Bool :=
  match s.corePlace p.pa p.bytes with
  | some (.priv _) => true
  | some .rom | some .regs | some (.window _) | none => false

/-- FABRIC_WINDOW_ACCESS. A part that a kernel's G-stage does not map is a guest page fault; one that raises an access fault lets no
part of the access be performed (DESIGN CHOICE, notes/assumptions/31). An access to private memory waits for a turn in which HBM
takes fabric traffic. -/
def State.doFabricWindowAccess (s : State) (n : Fin 32) (pa : BitVec 64) (access : CoreAccess) : State :=
  let ps := coreParts pa.toNat access
  if ((s.kernelOn n).map (fun k => !ps.all k.maps)).getD false then
    s.coreException n (if coreWrites access then 23 else 21)
  else if !ps.all s.partOk then s.coreException n (if coreWrites access then 7 else 5)
  else if ps.any s.inPrivate && !s.memSlot then s
  else ps.foldl (fun s p => s.corePart n p) s

end Sys2Proof.Machine
end

