-- ==== Sys2Proof/Machine/RegRows.lean ====
section
/-!
DEFINITION. The commands that access a register by a path (spec/21_register_pages.md R460): each is a write of its register's
address through the register bus, where the write filter and the register's own rule decide what it does.
-/
namespace Sys2Proof.Machine

/-- TRN_START. -/
def State.doTrnStart (s : State) (path : Path) (data : Word) : State :=
  s.pathWrite path Reg.TRN_CTL data none

/-- TIME_ROOT_DESIGNATE. -/
def State.doTimeRootDesignate (s : State) (path : Path) (data : Word) : State :=
  s.pathWrite path Reg.TRN_CTL data none

/-- DOM_ROOT_WRITE. -/
def State.doDomRootWrite (s : State) (path : Path) (data : Word) : State :=
  s.pathWrite path Reg.TRN_CTL data none

/-- REP_WIN_A_WRITE. -/
def State.doRepWinAWrite (s : State) (path : Path) (n : Fin 21) (e : Fin 64) (data : Word) : State :=
  s.pathWrite path (Reg.REP_WIN_A n e) data none

/-- REP_WIN_BC_WRITE. -/
def State.doRepWinBCWrite (s : State) (path : Path) (n : Fin 21) (e : Fin 64) (c : Bool) (data : Word) : State :=
  s.pathWrite path (if c then Reg.REP_WIN_C n e else Reg.REP_WIN_B n e) data none

/-- MSG_POOL_FREE. -/
def State.doMsgPoolFree (s : State) (path : Path) (data : Word) : State :=
  s.pathWrite path Reg.MSG_POOL_FREE data none

/-- MSG_POOL_CFG_WRITE. -/
def State.doMsgPoolCfgWrite (s : State) (path : Path) (n : Fin 64) (ring : Bool) (data : Word) : State :=
  s.pathWrite path (if ring then Reg.MSG_POOL_RING n else Reg.MSG_POOL_CFG n) data none

/-- PLT_OQ_TAIL_WRITE. -/
def State.doPltOqTailWrite (s : State) (path : Path) (q : Fin 512) (data : Word) : State :=
  s.pathWrite path (Reg.PLT_OQ_IDX q) data none

/-- PLT_ABORT. -/
def State.doPltAbort (s : State) (path : Path) (data : Word) : State :=
  s.pathWrite path Reg.PLT_ABORT data none

/-- COL_RESIGN. -/
def State.doColResign (s : State) (path : Path) (data : Word) : State :=
  s.pathWrite path Reg.COL_RESIGN data none

/-- RESEQ. -/
def State.doReseq (s : State) (path : Path) (data : Word) : State :=
  s.pathWrite path Reg.COL_CTL data none

/-- SWX_BUF_THR_WRITE. -/
def State.doSwxBufThrWrite (s : State) (path : Path) (data : Word) : State :=
  s.pathWrite path Reg.SWX_BUF_THR data none

/-- SWX_SPILL_WRITE. -/
def State.doSwxSpillWrite (s : State) (path : Path) (data : Word) : State :=
  s.pathWrite path Reg.SWX_SPILL data none

/-- MOVE_LIST_ARM. -/
def State.doMoveListArm (s : State) (path : Path) (data : Word) : State :=
  s.pathWrite path Reg.SWX_ML_ARM data none

/-- RTE_PORT_FAR_WRITE. -/
def State.doRtePortFarWrite (s : State) (path : Path) (k : Fin 2) (data : Word) : State :=
  s.pathWrite path (Reg.RTE_PORT_FAR k) data none

/-- RTE_ED_WRITE. -/
def State.doRteEdWrite (s : State) (path : Path) (data : Word) : State :=
  s.pathWrite path Reg.RTE_ED data none

/-- FLIP_ARM. -/
def State.doFlipArm (s : State) (path : Path) (data : Word) : State :=
  s.pathWrite path Reg.RTE_FLIP_ARM data none

/-- FLIP_CANCEL. -/
def State.doFlipCancel (s : State) (path : Path) (data : Word) : State :=
  s.pathWrite path Reg.RTE_FLIP_ARM data none

/-- CUR_WRITE. -/
def State.doCurWrite (s : State) (path : Path) (data : Word) : State :=
  s.pathWrite path Reg.RTE_CTL data none

/-- ADMIT_WRITE. -/
def State.doAdmitWrite (s : State) (path : Path) (data : Word) : State :=
  s.pathWrite path Reg.RTE_CTL data none

/-- SLICE_WRITE. -/
def State.doSliceWrite (s : State) (path : Path) (data : Word) : State :=
  s.pathWrite path Reg.RTE_CTL data none

/-- NBR_EXP_WRITE. -/
def State.doNbrExpWrite (s : State) (path : Path) (p : Fin 128) (data : Word) : State :=
  s.pathWrite path (Reg.RTE_NBR_EXP p) data none

/-- STATE_REQ_WRITE. -/
def State.doStateReqWrite (s : State) (path : Path) (p : Fin 128) (data : Word) : State :=
  s.pathWrite path (Reg.VPT_CTL p) data none

/-- LOOP_SELECT. -/
def State.doLoopSelect (s : State) (path : Path) (p : Fin 128) (data : Word) : State :=
  s.pathWrite path (Reg.VPT_CTL p) data none

/-- PORT_EN_CLEAR. -/
def State.doPortEnClear (s : State) (path : Path) (p : Fin 128) (data : Word) : State :=
  s.pathWrite path (Reg.VPT_CTL p) data none

/-- SWEEP_START. -/
def State.doSweepStart (s : State) (path : Path) (data : Word) : State :=
  s.pathWrite path Reg.HBM_SWEEP data none

/-- HBM_INIT. -/
def State.doHbmInit (s : State) (path : Path) (data : Word) : State :=
  s.pathWrite path Reg.HBM_CTL data none

/-- ENC_EN_WRITE. -/
def State.doEncEnWrite (s : State) (path : Path) (data : Word) : State :=
  s.pathWrite path Reg.HBM_CTL data none

/-- HATCH_MODE_WRITE. -/
def State.doHatchModeWrite (s : State) (path : Path) (data : Word) : State :=
  s.pathWrite path Reg.HBM_CTL data none

/-- RETIRE. -/
def State.doRetire (s : State) (path : Path) (n : Fin 16) (data : Word) : State :=
  s.pathWrite path (Reg.HBM_SLOT_STAT n) data none

/-- REARM. -/
def State.doRearm (s : State) (path : Path) (n : Fin 16) (data : Word) : State :=
  s.pathWrite path (Reg.HBM_SLOT_STAT n) data none

/-- MSG_Q_TAIL_WRITE. -/
def State.doMsgQTailWrite (s : State) (path : Path) (q : Fin 512) (data : Word) : State :=
  s.pathWrite path (Reg.MSG_Q_IDX q) data none

/-- ATC_INV. -/
def State.doAtcInv (s : State) (path : Path) (a : Fin 16) (data : Word) : State :=
  s.pathWrite path (Reg.ATT_ATC a) data none

/-- ATC_INV_ALL. -/
def State.doAtcInvAll (s : State) (path : Path) (a : Fin 16) (data : Word) : State :=
  s.pathWrite path (Reg.ATT_ATC a) data none

/-- RESUME_PRI. -/
def State.doResumePri (s : State) (path : Path) (a : Fin 16) (data : Word) : State :=
  s.pathWrite path (Reg.ATT_PRI a) data none

/-- FAULT_RESUME. -/
def State.doFaultResume (s : State) (path : Path) (a : Fin 16) (data : Word) : State :=
  s.pathWrite path (Reg.ATT_FLT_RES a) data none

/-- FAULT_ABANDON. -/
def State.doFaultAbandon (s : State) (path : Path) (a : Fin 16) (data : Word) : State :=
  s.pathWrite path (Reg.ATT_FLT_RES a) data none

/-- ILX_C_FENCE_WRITE. -/
def State.doIlxCFenceWrite (s : State) (path : Path) (n : Fin 32) (data : Word) : State :=
  s.pathWrite path (Reg.ILX_C_FENCE n) data none

/-- WATCHDOG_WRITE. -/
def State.doWatchdogWrite (s : State) (path : Path) (data : Word) : State :=
  s.pathWrite path Reg.ILX_WDOG data none

/-- SEC_LOCK. -/
def State.doSecLock (s : State) (path : Path) (data : Word) : State :=
  s.pathWrite path Reg.SEC_LOCK data none

/-- BOUND_SET_LOAD. -/
def State.doBoundSetLoad (s : State) (path : Path) (data : Word) : State :=
  s.pathWrite path Reg.SEC_BS_CMD data none

/-- UNLOAD. -/
def State.doUnload (s : State) (path : Path) (data : Word) : State :=
  s.pathWrite path Reg.SEC_BS_CMD data none

/-- BURNISH_START. -/
def State.doBurnishStart (s : State) (path : Path) (data : Word) : State :=
  s.pathWrite path Reg.SEC_BURN data none

/-- TWN_ENABLE. -/
def State.doTwnEnable (s : State) (path : Path) (data : Word) : State :=
  s.pathWrite path Reg.TWN_CTL data none

/-- TWN_REL_WRITE. -/
def State.doTwnRelWrite (s : State) (path : Path) (data : Word) : State :=
  s.pathWrite path Reg.TWN_REL data none

/-- TWN_DISABLE. -/
def State.doTwnDisable (s : State) (path : Path) (data : Word) : State :=
  s.pathWrite path Reg.TWN_CTL data none

/-- HEAD_H_WRITE. -/
def State.doHeadHWrite (s : State) (path : Path) (data : Word) : State :=
  s.pathWrite path Reg.FLT_Q_IDX data none

/-- HEAD_F_WRITE. -/
def State.doHeadFWrite (s : State) (path : Path) (data : Word) : State :=
  s.pathWrite path Reg.FLT_Q_HEADF data none

/-- FLT_FENCE_WRITE. -/
def State.doFltFenceWrite (s : State) (path : Path) (k : Fin 2) (data : Word) : State :=
  s.pathWrite path (Reg.FLT_FENCE k) data none

/-- STANDIN. -/
def State.doStandin (s : State) (path : Path) (data : Word) : State :=
  s.pathWrite path Reg.FLT_STANDIN data none

/-- REJOIN. -/
def State.doRejoin (s : State) (path : Path) (data : Word) : State :=
  s.pathWrite path Reg.FLT_REJOIN data none

/-- CAGE_ACCESS. -/
def State.doCageAccess (s : State) (path : Path) (data : Word) (byte : Byte) : State :=
  s.pathWrite path Reg.MGT_CAGE_ACC data (some byte.toNat)

/-- CIM_ACCESS_READ. -/
def State.doCimAccessRead (s : State) (path : Path) (data : Word) (byte : Byte) : State :=
  s.pathWrite path Reg.MGT_CIM_ACC data (some byte.toNat)

/-- CIM_ACCESS_WRITE. -/
def State.doCimAccessWrite (s : State) (path : Path) (data : Word) : State :=
  s.pathWrite path Reg.MGT_CIM_ACC data none

/-- KF_OVERRIDE. -/
def State.doKfOverride (s : State) (path : Path) (data : Word) : State :=
  s.pathWrite path Reg.MGT_CTL data none

/-- DETACH. -/
def State.doDetach (s : State) (path : Path) (data : Word) : State :=
  s.pathWrite path Reg.MGT_CTL data none

/-- PMB_ACCESS. -/
def State.doPmbAccess (s : State) (path : Path) (data : Word) (answer : Option (BitVec 16)) : State :=
  s.pathWrite path Reg.PWR_PMB_ACC data (answer.map (·.toNat))

/-- DUTY_ON_WRITE. -/
def State.doDutyOnWrite (s : State) (path : Path) (data : Word) : State :=
  s.pathWrite path Reg.PWR_THERM data none

/-- ROUTE_ENTRY_WRITE: word `w` of a far or a near entry of edition `e`; near entries are 128. -/
def State.doRouteEntryWrite (s : State) (path : Path) (e : Fin 2) (far : Bool) (i : Fin 256) (w : Fin 3) (data : Word) : State :=
  if far then s.pathWrite path (Reg.RTE_FAR_A e i + 8 * w) data none
  else if i.val < 128 then s.pathWrite path (Reg.RTE_NEAR_A e i + 8 * w) data none
  else s

/-! ### Page headers and any register -/

/-- The base of the page of block type `t`, instance `i`, where there is one. -/
def pageAt (t i : Nat) : Option Nat := if pageOf (pageBase t i) = some (t, i, 0) then some (pageBase t i) else none

/-- `s` with `data` written at offset `off` of a page. -/
def State.pageWrite (s : State) (path : Path) (t i off : Nat) (data : Word) : State :=
  match pageAt t i with
  | some pg => s.pathWrite path (pg + off) data none
  | none => s

/-- SRST. -/
def State.doSrst (s : State) (path : Path) (t i : Byte) (data : Word) : State :=
  s.pageWrite path t.toNat i.toNat 0x10 data

/-- PG_LOCK_WRITE. -/
def State.doPgLockWrite (s : State) (path : Path) (t i : Byte) (data : Word) : State :=
  s.pageWrite path t.toNat i.toNat 0x10 data

/-- PG_INJ_ARM. -/
def State.doPgInjArm (s : State) (path : Path) (t i : Byte) (data : Word) : State :=
  s.pageWrite path t.toNat i.toNat 0x40 data

/-- PG_CNT_SEL_WRITE. -/
def State.doPgCntSelWrite (s : State) (path : Path) (t i : Byte) (data : Word) : State :=
  s.pageWrite path t.toNat i.toNat 0x48 data

/-- REGISTER_WRITE. What lies beyond an access register answers with a free value; an access of another size than 8 bytes is
handled as the path gives (R462). -/
def State.doRegisterWrite (s : State) (path : Path) (acc : RegAccess) (data : Word) : State :=
  if acc.bytes ≠ 8 then (if s.pathOpen path then s.misaligned path true else s)
  else
    let (aux, s1) := s.accessAux acc.addr.toNat
    s1.pathWrite path acc.addr.toNat data aux

/-- REGISTER_READ_CLEAR. -/
def State.doRegisterReadClear (s : State) (path : Path) (acc : RegAccess) : State :=
  if acc.bytes ≠ 8 then (if s.pathOpen path then s.misaligned path false else s.shutRead path)
  else s.pathRead path acc.addr.toNat

/-! ### The management chain and out-of-band access (R431, R435) -/

/-- A CMD body names this device: by member, by row and slot, or every device (Table 19-5). -/
def State.cmdNamesMe (s : State) (body : List Byte) : Bool :=
  let mode := bytesAt body 2 1
  let a := bytesAt body 3 1
  let b := bytesAt body 4 1
  (mode == 0 && s.flag F.MGT_ID_VALID && a == s.domain && b == s.member) ||
  (mode == 1 && s.flag F.MGT_STAT_CIM_OK && a == s.get F.MGT_CIM_INFO_ROW && b == s.get F.MGT_CIM_INFO_SLOT) || mode == 2

/-- `s` with the RSP to a CMD sent: its own identity in the CMD's terms, row and slot for MODE 1, else domain and member
(DEDUCED, notes/assumptions/34). -/
def State.sendRsp (s : State) (body : List Byte) (status : Nat) (data : Word) : State :=
  let row := bytesAt body 2 1 == 1
  let a := if row then s.get F.MGT_CIM_INFO_ROW else s.domain
  let b := if row then s.get F.MGT_CIM_INFO_SLOT else s.member
  s.chainSend (toBytesLE 1 0x11 ++ toBytesLE 1 (bytesAt body 1 1) ++ toBytesLE 1 (b2n row) ++ toBytesLE 1 a ++ toBytesLE 1 b ++
    toBytesLE 1 status ++ toBytesLE 8 data.toNat)

/-- CMD: forwarded, and executed where it names this device. -/
def State.doCmd (s : State) (bytes : List Byte) : State :=
  if !s.up.bypassHigh then s
  else match chainBody bytes with
    | none => s.count F.MGT_STAT_CHAIN_ERR 1
    | some body =>
      let s1 := s.chainSend body
      if body.length ≠ 18 ∨ bytesAt body 0 1 ≠ 0x10 ∨ s.cmdNamesMe body = false then s1
      else
        let op := bytesAt body 5 1
        let addr := bytesAt body 6 4
        if badAccess .chain addr || !(op == 1 || op == 2) then s1.sendRsp body 0x23 0
        else if op = 1 then
          let (st, v, s2) := s1.busRead addr
          s2.sendRsp body st v
        else (s1.busWrite .chain addr (BitVec.ofNat 64 (bytesAt body 10 8))).2.sendRsp body 0x01 0

/-- `s` with an out-of-band transfer of `n` bytes handled by `f`; a wrong PEC byte discards and counts it. -/
def State.oobTransfer (s : State) (n : Nat) (bytes : List Byte) (pecOk : Bool) (f : Nat → State) : State :=
  if !s.up.pllLocked then s
  else if !pecOk then s.count F.MGT_STAT_OOB_ERR 1
  else if bytes.length ≠ n then s
  else f (bytesAt bytes 0 4)

/-- OOB_WRITE: an address outside the register space, or misaligned, writes nothing. -/
def State.doOobWrite (s : State) (bytes : List Byte) (pecOk : Bool) : State :=
  s.oobTransfer 12 bytes pecOk (fun addr =>
    let (aux, s1) := s.accessAux addr
    s1.pathWrite .oob addr (BitVec.ofNat 64 (bytesAt bytes 4 8)) aux)

/-- OOB_READ: a status byte and 8 data bytes. -/
def State.doOobRead (s : State) (bytes : List Byte) (pecOk : Bool) : State :=
  s.oobTransfer 4 bytes pecOk (fun addr =>
    if badAccess .oob addr then s.emit (.oob (toBytesLE 1 0x23 ++ toBytesLE 8 0))
    else
      let (st, v, s1) := s.busRead addr
      s1.emit (.oob (toBytesLE 1 st ++ toBytesLE 8 v.toNat)))

/-! ### Ring doorbells and telemetry (R320, R350) -/

/-- A ring's CFG accepts a doorbell: enabled, of this port or of the odd port bonded to it, with the PASID (R320, R314). -/
def State.ringTakes (s : State) (a : Nat) (pasid : Option (BitVec 20)) (en port pid : RField) : Bool :=
  s.flag en && (s.get port == a || (s.flag (F.ATT_LINK_BONDED a) && a % 2 == 0 && s.get port == a + 1)) &&
  (pasid.map (·.toNat)) == some (s.get pid)

/-- DB_TAIL: an accepted write advances the ring; any other is discarded and counted. The doorbell's reserved bits [63:17] are
read by nothing (R7; notes/assumptions/67). -/
def State.dbTail (s : State) (a : Nat) (q : Fin 512) (pasid : Option (BitVec 20)) (data : Word) : State :=
  let tail := fieldGet data 16 0
  let rej := s.count (F.ATT_DB_STAT_REJ a) 1
  match s.barOpen a with
  | none => s
  | some false => s
  | some true =>
    if s.owner q = some 17 then
      if q.val = s.colq then rej.count F.PLT_CNT_COLQ_REJ 1
      else if s.ringTakes a pasid (F.PLT_OQ_CFG_EN q) (F.PLT_OQ_CFG_PORT q) (F.PLT_OQ_CFG_PASID q) then s.advanceOq q tail
      else rej
    else if s.owner q = some 18 then
      if s.ringTakes a pasid (F.COL_Q_CFG_EN q) (F.COL_Q_CFG_PORT q) (F.COL_Q_CFG_PASID q) then s.advanceCol q tail
      else rej.count F.COL_CNT_DOOR_REJ 1
    else if s.owner q = some 19 then
      if s.ringTakes a pasid (F.MSG_Q_CFG_EN q) (F.MSG_Q_CFG_PORT q) (F.MSG_Q_CFG_PASID q) then s.advanceMsg q tail
      else rej
    else rej

/-- DB_TAIL of the port that serves the one named (R314). -/
def State.doDbTail (s : State) (a : Fin 16) (q : Fin 512) (pasid : Option (BitVec 20)) (data : Word) : State :=
  s.dbTail (s.servingPort a) q pasid data

/-- The values of `n` registers from `addr` on, read by firmware. -/
def State.sampleRegs : Nat → State → Nat → List Word × State
  | 0, s, _ => ([], s)
  | n + 1, s, addr =>
    let (_, v, s1) := s.busRead addr
    let (vs, s2) := State.sampleRegs n s1 (addr + 8)
    (v :: vs, s2)

/-- TELEMETRY_SAMPLE: a 64-byte record in the ring that TEL_CFG set, one per period, stored in a fabric slot (R349). A period below
25,000 acts as 25,000. -/
def State.doTelemetrySample (s : State) (addr : BitVec 32) (count : Fin 7) : State :=
  match s.ilx.ring with
  | none => s
  | some (off, log2) =>
    let n := min 6 count.val
    if s.firmwareRuns = false ∨ s.memSlot = false ∨ addr.toNat % 8 ≠ 0 ∨ s.clk < s.ilx.sampledAt + max 25000 (s.get F.ILX_TEL_PERIOD) then s
    else
      let (vs, s1) := s.sampleRegs n addr.toNat
      let body := toBytesLE 8 s.now ++ toBytesLE 4 addr.toNat ++ toBytesLE 4 n ++ vs.flatMap (fun v => toBytesLE 8 v.toNat)
      let at' := off + 64 * (s.ilx.written % 2 ^ log2)
      let s2 := s1.hbmStore at' (sliceD 0 body 0 64) false
      { s2 with ilx := { s2.ilx with written := s2.ilx.written + 1, sampledAt := s2.clk } }

end Sys2Proof.Machine
end

