-- ==== Sys2Proof/Machine/RepRows.lean ====
section
/-!
DEFINITION. The Ronpel end-points as targets (spec/04_ronpel_transactions.md R85-R93, Table 1-3): which block takes a request,
and the register requests that the Ilnyx EP serves (spec/21_register_pages.md R460).
-/
namespace Sys2Proof.Machine

/-! ### REGS requests (R460, R468) -/

/-- The register address of a REGS request: the first register lies at offset 0. -/
def Frame.regAddr (f : Frame) : Nat := 0x1000000 + addrOffset f.addr

/-- A REGS request is a LOAD or STORE of one aligned 8-byte register (R77, R462). -/
def State.acceptsRegs (s : State) (f : Frame) : Bool :=
  (f.opcode == opLoad || f.opcode == opStore) && addrKind f.addr == 3 && s.openOffset f && f.bytes == 8 && f.addr % 8 == 0

/-- A request taken at the Ilnyx EP: a register access waits to be served; any other is answered PermissionDenied. -/
def State.acceptRegs (s : State) (f : Frame) : Option State :=
  if !s.acceptsRegs f then s.takeFailed 20 f 0x23
  else
    let s1 := s.noteTaken 20 f
    let e := s1.ep 20
    some (s1.setEp 20 { e with service := e.service ++ [f] })

/-- A register read for a request: the granule that carries the value, checked, and the read's effects. -/
def State.readRegs (s : State) (f : Frame) : Granule × State := s.readGranule f.regAddr

/-- A duplicate register LOAD is read again (R86). -/
def State.regsAgain (s : State) (f : Frame) : State :=
  if s.acceptsRegs f then
    let (g, s1) := s.readRegs f
    s1.sendResponse { s1.response f opLoadRsp (if g.poison then 0x30 else 1) with gran := [g], bytes := 8, poison := g.poison }
  else s.sendResponse (s.response f opLoadRsp 0x23)

/-- `s` with the oldest register request served: its granule is checked at the Ilnyx EP (R294), then the access, then its response
(R462). A discarded write is answered PermissionDenied (R468), a poisoned one writes nothing; a read whose outcome needs a log
entry where none is free is refused and has none of the read's effects (R87). -/
def State.serveRegs (s : State) : State :=
  let e := s.ep 20
  match e.service with
  | [] => s
  | f :: rest =>
    let s1 := s.setEp 20 { e with service := rest }
    let a := f.regAddr
    if f.opcode = opLoad then
      let (g, s2) := s1.readRegs f
      let t := if g.poison && !s1.logRoom 20 then (s1.ilxGranule f.addr (regGranule a (s1.regRead a))).2 else s2
      t.answer 20 f (if g.poison then 0x30 else 1) (fun r => { r with gran := [g], bytes := 8, poison := g.poison })
    else
      let (g, s2) := s1.ilxGranule f.addr (f.gran.headD { data := [] })
      if f.poison || g.poison then s2.answer 20 f 0x30 id
      else
        let (gone, s3) := s2.busWrite .fabric a (BitVec.ofNat 64 (ofBytesLE (ofGranules f.addr 8 [g])))
        s3.answer 20 f (if gone then 0x23 else 1) id

/-! ### The choice by end-point (Table 1-3) -/

/-- How end-point `n` takes a request. -/
def acceptAt (n : Nat) (s : State) (f : Frame) : Option State :=
  if n < 16 then State.acceptPeer n s f
  else if n ≤ 17 then State.acceptMemory n s f
  else if n = 18 then s.acceptCol f
  else if n = 19 then s.acceptMsg f
  else s.acceptRegs f

/-- How end-point `n` reads a duplicate LOAD again (R86). -/
def againAt (n : Nat) (s : State) (f : Frame) : State :=
  if n < 16 then State.peerAgain n s f
  else if n ≤ 17 then State.loadAgain n s f
  else if n = 20 then s.regsAgain f
  else s.sendResponse (s.response f opLoadRsp 0x23)

/-- How the data of a parked write enters end-point `n` (R83). -/
def enterAt (n : Nat) (s : State) (f : Frame) : Option State :=
  if n < 16 then State.enterPeer n s f else State.enterGo n s f

/-- REQUEST_TAKE. -/
def State.doRequestTake (s : State) (ep : Fin 21) : State :=
  s.requestTake (acceptAt ep) (fun s f => s.answerDuplicate (againAt ep) ep f) ep

/-- LINE_QUEUE_SERVICE: a line of the memory or the plate EP; the oldest fragment of the message EP; the oldest register
request of the Ilnyx EP. The collective engine performs its frames by its own events; an attach EP's requests go to its host
at once. -/
def State.doLineQueueService (s : State) (ep : Fin 21) (line : Nat) : State :=
  if ep.val = 16 ∨ ep.val = 17 then s.lineService ep line
  else if ep.val = 19 then s.serveMsg
  else if ep.val = 20 then s.serveRegs
  else s

/-- HBM_READ_COMPLETE. -/
def State.doHbmReadComplete (s : State) (line : Nat) (errors : ReadErrors) : State :=
  { s with hbm := { s.hbm with xtsBad := s.hbm.xtsBad ++ errors.cipher } }.readComplete line errors.struck

/-- LINE_UNPIN. -/
def State.doLineUnpin (s : State) (line : Nat) : State := s.lineUnpin line

/-- PINNED_WRITE_BACK. -/
def State.doPinnedWriteBack (s : State) (line : Nat) : State := s.pinnedWriteBack line

/-- PROOF_GO_RECEIVE. -/
def State.doProofGoReceive (s : State) (ep : Fin 21) : State := s.proofGoReceive (enterAt ep) ep

/-- PARK_ENTRY_EXPIRE. -/
def State.doParkEntryExpire (s : State) (ep : Fin 21) (src : BitVec 20) (vc : Fin 8) (seq : BitVec 32) : State :=
  s.parkExpire (enterAt ep) ep src.toNat vc seq.toNat

/-- HOLE_SKIP. -/
def State.doHoleSkip (s : State) (ep : Fin 21) (src : BitVec 20) (vc : Fin 8) : State :=
  s.holeSkip (acceptAt ep) ep src.toNat vc

/-- CHANNEL_STATE_FREE. -/
def State.doChannelStateFree (s : State) (ep : Fin 21) (src : BitVec 20) (vc : Fin 8) : State := s.chanFree ep src.toNat vc

/-- RESULT_LOG_FREE. -/
def State.doResultLogFree (s : State) (ep : Fin 21) (src : BitVec 20) (vc : Fin 8) (seq : BitVec 32) : State :=
  s.logFree ep src.toNat vc seq.toNat

end Sys2Proof.Machine
end

