-- ==== Sys2Proof/Machine/Settle.lean ====
section
/-!
DEFINITION. What every command begins and ends with. A device that is not clocked does nothing; what the last command put
out is forgotten; what the command's effect leaves for the device's other blocks to act on at once is acted on; and the
status fields that show other state follow.
-/
namespace Sys2Proof.Machine

/-! ### What one block tells another -/

/-- `s` with a presence change applied to the device's own blocks (R90, R416, R418, R422). A fence of the member is cleared by the
flood that readmits it (`back`), and by no other (R413, R415). -/
def State.applyPresence (s : State) (m : Nat) (p back : Bool) : State :=
  if p then ((if back then s.clearFence m else s).finishStandin m).finishRejoin m
  else
    let s1 := (s.absentIssuers m).absentTargets m
    ((List.range 16).foldl (fun s a => s.absentPeer m a) s1).absentMessages m

/-- `s` with the end of a request told to whoever asked for it. -/
def State.tellOrigin (s : State) (d : Done) : State :=
  match d.origin with
  | .none => s
  | .bar2 a id => s.bar2Done a id d
  | .plate q => s.plateOutDone q d
  | .fetch q slot gran => s.fetchDone q slot gran d
  | .message q ix f => s.messageDone q ix f d
  | .collective tag => s.colDone tag d
  | .readyFlag tag => s.colDone tag d
  | .dma a id tile => s.dmaDone a id tile d
  | .core n => s.coreDone n d
  | .coreAck n => s.coreAcked n d

/-- `s` with a completed fence reported to whoever placed it. -/
def State.tellFence (s : State) (f : Fence) : State :=
  match f.origin with
  | .none => s
  | .bar4 _ _ _ => s.reportFence f
  | .core n => s.coreFenceDone n f

/-- A P2P frame that a command of the device waits for: a fault notice. -/
def PipFrame.awaited (f : PipFrame) : Bool := f.isNotice 1 || f.isNotice 2 || f.isNotice 3

/-- `s` with a P2P frame of counterproof taken (R394, R395). -/
def State.takeNote (s : State) (f : PipFrame) : State := if f.data.length = 32 then s.twnNote f else s

/-- Nothing is left for another block to act on. -/
def State.quiet (s : State) : Bool :=
  s.pip.presNews.isEmpty && s.pip.turned.isEmpty && s.pip.notes.all PipFrame.awaited && s.sw.lostCol.isEmpty &&
    s.rep.done.isEmpty && s.rep.fenceDone.isEmpty && (s.plate.jobsDone.isEmpty || !s.memSlot) && !s.pip.combines.any s.combineDone

/-- `s` with its presence changes, delivered pip frames and finished combines acted on. -/
def State.settlePip (s : State) : State :=
  let s1 := s.pip.presNews.foldl (fun (s : State) e => s.applyPresence e.1 e.2.1 e.2.2) { s with pip := { s.pip with presNews := [] } }
  let s2 := s1.pip.turned.foldl State.colTurned { s1 with pip := { s1.pip with turned := [] } }
  let s3 := (s2.pip.notes.filter (fun f => !f.awaited)).foldl State.takeNote
    { s2 with pip := { s2.pip with notes := s2.pip.notes.filter PipFrame.awaited } }
  State.settleCombines (s3.pip.combines.length + 1) s3

/-- `s` with the results of the reductions that have retired placed, where HBM has a slot for them (R16, R212). -/
def State.settleJobs (s : State) : State :=
  if s.memSlot then
    s.plate.jobsDone.foldl (fun (s : State) j => s.reduceDone j.1 j.2) { s with plate := { s.plate with jobsDone := [] } }
  else s

/-- `s` with the ends of requests, fences and reductions told to their origins. -/
def State.settleDone (s : State) : State :=
  let s1 := s.rep.done.foldl State.tellOrigin { s with rep := { s.rep with done := [] } }
  let s2 := s1.rep.fenceDone.foldl State.tellFence { s1 with rep := { s1.rep with fenceDone := [] } }
  s2.settleJobs.writeStatus

/-- `s` with the collectives that lost a frame resigned (R216), those without an upstream lane given up (R221), the others
carried on. -/
def State.settleCol (s : State) : State :=
  ((s.sw.lostCol.foldl (fun (s : State) t => s.resignTag t 5) { s with sw := { s.sw with lostCol := [] } }).colUnknown).colAdvance

/-- `s` with everything acted on that is left for another block; what that leaves in turn is acted on in the next round.
`fuel` bounds the rounds. -/
def State.settle : Nat → State → State
  | 0, s => s
  | k + 1, s =>
    let t := s.settlePip.settleDone.settleCol
    if t.quiet then t else State.settle k t

/-- More rounds than one command's effect passes between blocks. -/
def settleFuel : Nat := 64

/-! ### Running a command -/

/-- `s` with what the last command put out forgotten: what a command's effect starts from. -/
def State.fresh (s : State) : State := { s with out := [] }

/-- `s`, as a command's effect leaves it, with all that follows from the effect. -/
def State.settled (s : State) : State := (State.settle settleFuel s).seal

/-- A command's effect on a clocked device, with what follows from it; a stopped device does nothing. -/
def State.runOn (s : State) (f : State → State) : State :=
  if s.stopped then s.fresh else (f s.fresh).settled

/-- A command that the device itself or the world brings about. -/
def runCmd (s : State) (f : State → State) : Host.Outcome State Fault Refusal := .next (s.runOn f)

/-- A command on the RESET_N pin, which acts on a stopped device too (R424, R425). -/
def runPin (s : State) (f : State → State) : Host.Outcome State Fault Refusal := .next (f s.fresh).seal

end Sys2Proof.Machine
end

