-- ==== Sys2Proof/Machine/ExecAttach.lean ====
section
/-!
DEFINITION. The meanings of the commands of spec/14_host_attach.md, and the BAR2 and send-ring rows of spec/03_fabric_addressing.md and this chapter: each is its effect (State.do...)
and what follows from it on the rest of the device.
-/
namespace Sys2Proof.Machine

/-- BAR2_READ (R73). -/
def execBar2Read (a : Fin 16) (tag : BitVec 14) (off : BitVec 42) (len : Nat)
    (s : State) : Host.Outcome State Fault Refusal :=
  runCmd s (fun s => s.doBar2Read a tag off len)

/-- BAR2_WRITE (R73). -/
def execBar2Write (a : Fin 16) (off : BitVec 42) (data : List Byte) (poison : Bool)
    (s : State) : Host.Outcome State Fault Refusal :=
  runCmd s (fun s => s.doBar2Write a off data poison)

/-- BAR2_ATOMIC (R318). -/
def execBar2Atomic (a : Fin 16) (tag : BitVec 14) (off : BitVec 42) (op : Bar2Op)
    (s : State) : Host.Outcome State Fault Refusal :=
  runCmd s (fun s => s.doBar2Atomic a tag off op)

/-- MSG_Q_TAIL_WRITE (R321). -/
def execMsgQTailWrite (path : Path) (q : Fin 512) (data : Word) (s : State) : Host.Outcome State Fault Refusal :=
  runCmd s (fun s => s.doMsgQTailWrite path q data)

/-- DB_TAIL (R320). -/
def execDbTail (a : Fin 16) (q : Fin 512) (pasid : Option (BitVec 20)) (data : Word)
    (s : State) : Host.Outcome State Fault Refusal :=
  runCmd s (fun s => s.doDbTail a q pasid data)

/-- DB_FENCE (R322). -/
def execDbFence (a : Fin 16) (q : Fin 512) (pasid : Option (BitVec 20)) (data : Word)
    (s : State) : Host.Outcome State Fault Refusal :=
  runCmd s (fun s => s.doDbFence a q pasid data)

/-- DB_DMA (R322). -/
def execDbDma (a : Fin 16) (q : Fin 512) (pasid : Option (BitVec 20)) (data : Word)
    (s : State) : Host.Outcome State Fault Refusal :=
  runCmd s (fun s => s.doDbDma a q pasid data)

/-- DMA_DESCRIPTOR_FETCH (R324). -/
def execDmaDescriptorFetch (a : Fin 16) (j : Fin 32) (s : State) : Host.Outcome State Fault Refusal :=
  runCmd s (fun s => s.doDmaDescriptorFetch a j)

/-- DMA_PAGE_MOVE (R325). -/
def execDmaPageMove (a : Fin 16) (j : Fin 32) (s : State) : Host.Outcome State Fault Refusal :=
  runCmd s (fun s => s.doDmaPageMove a j)

/-- DMA_TILE_FLAG (R325). -/
def execDmaTileFlag (a : Fin 16) (j : Fin 32) (s : State) : Host.Outcome State Fault Refusal :=
  runCmd s (fun s => s.doDmaTileFlag a j)

/-- HOST_READ_COMPLETION (R327). -/
def execHostReadCompletion (a : Fin 16) (tag : BitVec 14) (reply : HostReply)
    (s : State) : Host.Outcome State Fault Refusal :=
  runCmd s (fun s => s.doHostReadCompletion a tag reply)

/-- HOST_COMPLETION_TIMEOUT (R327). -/
def execHostCompletionTimeout (a : Fin 16) (tag : BitVec 14) (s : State) : Host.Outcome State Fault Refusal :=
  runCmd s (fun s => s.doHostCompletionTimeout a tag)

/-- ATS_TRANSLATION_RESPONSE (R328). -/
def execAtsTranslationResponse (a : Fin 16) (pasid : BitVec 20) (page : BitVec 52) (result : Option AtsResult)
    (s : State) : Host.Outcome State Fault Refusal :=
  runCmd s (fun s => s.doAtsTranslationResponse a pasid page result)

/-- ATS_INVALIDATE_REQUEST (R329). -/
def execAtsInvalidateRequest (a : Fin 16) (itag : Fin 32) (pasid : Option (BitVec 20))
    (s : State) : Host.Outcome State Fault Refusal :=
  runCmd s (fun s => s.doAtsInvalidateRequest a itag pasid)

/-- INVALIDATE_COMPLETION (R329). -/
def execInvalidateCompletion (a : Fin 16) (s : State) : Host.Outcome State Fault Refusal :=
  runCmd s (fun s => s.doInvalidateCompletion a)

/-- ATC_INV (R329). -/
def execAtcInv (path : Path) (a : Fin 16) (data : Word) (s : State) : Host.Outcome State Fault Refusal :=
  runCmd s (fun s => s.doAtcInv path a data)

/-- ATC_INV_ALL (R329). -/
def execAtcInvAll (path : Path) (a : Fin 16) (data : Word) (s : State) : Host.Outcome State Fault Refusal :=
  runCmd s (fun s => s.doAtcInvAll path a data)

/-- PAGE_REQUEST_GROUP_RESPONSE (R330). -/
def execPageRequestGroupResponse (a : Fin 16) (group : BitVec 9) (code : Fin 16)
    (s : State) : Host.Outcome State Fault Refusal :=
  runCmd s (fun s => s.doPageRequestGroupResponse a group code)

/-- PEER_HOLD_TIMEOUT (R330). -/
def execPeerHoldTimeout (a : Fin 16) (s : State) : Host.Outcome State Fault Refusal :=
  runCmd s (fun s => s.doPeerHoldTimeout a)

/-- RESUME_PRI (R330). -/
def execResumePri (path : Path) (a : Fin 16) (data : Word) (s : State) : Host.Outcome State Fault Refusal :=
  runCmd s (fun s => s.doResumePri path a data)

/-- FAULT_BATCH (R331). -/
def execFaultBatch (a : Fin 16) (s : State) : Host.Outcome State Fault Refusal :=
  runCmd s (fun s => s.doFaultBatch a)

/-- FAULT_RESUME (R331). -/
def execFaultResume (path : Path) (a : Fin 16) (data : Word) (s : State) : Host.Outcome State Fault Refusal :=
  runCmd s (fun s => s.doFaultResume path a data)

/-- FAULT_ABANDON (R331). -/
def execFaultAbandon (path : Path) (a : Fin 16) (data : Word) (s : State) : Host.Outcome State Fault Refusal :=
  runCmd s (fun s => s.doFaultAbandon path a data)

/-- ATTACH_LINK_DOWN (R327). -/
def execAttachLinkDown (a : Fin 16) (s : State) : Host.Outcome State Fault Refusal :=
  runCmd s (fun s => s.doAttachLinkDown a)

/-- PCIE_CONVENTIONAL_RESET (R72). -/
def execPcieConventionalReset (a : Fin 16) (s : State) : Host.Outcome State Fault Refusal :=
  runCmd s (fun s => s.doPcieConventionalReset a)

/-- IDE_INTEGRITY_FAIL (R333). -/
def execIdeIntegrityFail (a : Fin 16) (stream : Fin 5) (s : State) : Host.Outcome State Fault Refusal :=
  runCmd s (fun s => s.doIdeIntegrityFail a stream)

/-- GET_VERSION (R336). -/
def execGetVersion (a : Fin 16) (s : State) : Host.Outcome State Fault Refusal :=
  runCmd s (fun s => s.doGetVersion a)

/-- GET_CAPABILITIES (R336). -/
def execGetCapabilities (a : Fin 16) (s : State) : Host.Outcome State Fault Refusal :=
  runCmd s (fun s => s.doGetCapabilities a)

/-- NEGOTIATE_ALGORITHMS (R336). -/
def execNegotiateAlgorithms (a : Fin 16) (offered : Bool) (s : State) : Host.Outcome State Fault Refusal :=
  runCmd s (fun s => s.doNegotiateAlgorithms a offered)

/-- GET_DIGESTS (R336). -/
def execGetDigests (a : Fin 16) (s : State) : Host.Outcome State Fault Refusal :=
  runCmd s (fun s => s.doGetDigests a)

/-- GET_CERTIFICATE (R361). -/
def execGetCertificate (a : Fin 16) (slot : Fin 8) (off len : BitVec 16) (s : State) : Host.Outcome State Fault Refusal :=
  runCmd s (fun s => s.doGetCertificate a slot off len)

/-- CHALLENGE (R336). -/
def execChallenge (a : Fin 16) (slot : Fin 8) (nonce : BitVec 256) (s : State) : Host.Outcome State Fault Refusal :=
  runCmd s (fun s => s.doChallenge a slot nonce)

/-- GET_MEASUREMENTS (R361). -/
def execGetMeasurements (a : Fin 16) (index : Byte) (nonce : BitVec 256) (s : State) : Host.Outcome State Fault Refusal :=
  runCmd s (fun s => s.doGetMeasurements a index nonce)

/-- KEY_EXCHANGE (R336). -/
def execKeyExchange (a : Fin 16) (share : List Byte) (s : State) : Host.Outcome State Fault Refusal :=
  runCmd s (fun s => s.doKeyExchange a share)

/-- FINISH (R336). -/
def execFinish (a : Fin 16) (ok : Bool) (s : State) : Host.Outcome State Fault Refusal :=
  runCmd s (fun s => s.doFinish a ok)

/-- END_SESSION (R336). -/
def execEndSession (a : Fin 16) (s : State) : Host.Outcome State Fault Refusal :=
  runCmd s (fun s => s.doEndSession a)

/-- KEY_UPDATE (R336). -/
def execKeyUpdate (a : Fin 16) (s : State) : Host.Outcome State Fault Refusal :=
  runCmd s (fun s => s.doKeyUpdate a)

/-- VENDOR_DEFINED_REQUEST (R333). -/
def execVendorDefinedRequest (a : Fin 16) (msg : VendorMsg) (s : State) : Host.Outcome State Fault Refusal :=
  runCmd s (fun s => s.doVendorDefinedRequest a msg)

/-- ATTACH_LINK_UP (R313). -/
def execAttachLinkUp (a : Fin 16) (flit : Bool) (speed : Byte) (width : Fin 17)
    (s : State) : Host.Outcome State Fault Refusal :=
  runCmd s (fun s => s.doAttachLinkUp a flit speed width)

/-- CONFIGURATION_REQUEST (R335). -/
def execConfigurationRequest (a : Fin 16) (req : ConfigReq) (s : State) : Host.Outcome State Fault Refusal :=
  runCmd s (fun s => s.doConfigurationRequest a req)

end Sys2Proof.Machine
end

