-- ==== Sys2Proof/Machine/ExecBringup.lean ====
section
/-!
DEFINITION. The meanings of the commands of spec/19_bringup_and_identity.md: each is its effect (State.do...)
and what follows from it on the rest of the device.
-/
namespace Sys2Proof.Machine

/-- RESET_N_ASSERT (R424). -/
def execResetNAssert (s : State) : Host.Outcome State Fault Refusal :=
  runPin s State.doResetNAssert

/-- RESET_N_RELEASE (R424). -/
def execResetNRelease (lowTurns : Nat) (s : State) : Host.Outcome State Fault Refusal :=
  runPin s (fun s => s.doResetNRelease lowTurns)

/-- PLL_LOCK (R425). -/
def execPllLock (s : State) : Host.Outcome State Fault Refusal :=
  runCmd s State.doPllLock

/-- CIM_READ_DONE (R428). -/
def execCimReadDone (bytes : Option (List Byte)) (s : State) : Host.Outcome State Fault Refusal :=
  runCmd s (fun s => s.doCimReadDone bytes)

/-- FIRMWARE_VERIFY (R426). -/
def execFirmwareVerify (slotA slotB : List Byte) (s : State) : Host.Outcome State Fault Refusal :=
  runCmd s (fun s => s.doFirmwareVerify slotA slotB)

/-- CLAIM (R432). -/
def execClaim (bytes : List Byte) (s : State) : Host.Outcome State Fault Refusal :=
  runCmd s (fun s => s.doClaim bytes)

/-- ASSIGN (R432). -/
def execAssign (bytes : List Byte) (held fixed : BitVec 128) (s : State) : Host.Outcome State Fault Refusal :=
  runCmd s (fun s => s.doAssign bytes held fixed)

/-- CMD (R431). -/
def execCmd (bytes : List Byte) (s : State) : Host.Outcome State Fault Refusal :=
  runCmd s (fun s => s.doCmd bytes)

/-- RSP (R431). -/
def execRsp (bytes : List Byte) (s : State) : Host.Outcome State Fault Refusal :=
  runCmd s (fun s => s.doRsp bytes)

/-- CIM_WRITE_BACK (R433). -/
def execCimWriteBack (s : State) : Host.Outcome State Fault Refusal :=
  runCmd s State.doCimWriteBack

/-- OOB_WRITE (R435). -/
def execOobWrite (bytes : List Byte) (pecOk : Bool) (s : State) : Host.Outcome State Fault Refusal :=
  runCmd s (fun s => s.doOobWrite bytes pecOk)

/-- OOB_READ (R435). -/
def execOobRead (bytes : List Byte) (pecOk : Bool) (s : State) : Host.Outcome State Fault Refusal :=
  runCmd s (fun s => s.doOobRead bytes pecOk)

/-- MODULE_INSERT (R436). -/
def execModuleInsert (cage : Fin 64) (lower upper : List Byte) (s : State) : Host.Outcome State Fault Refusal :=
  runCmd s (fun s => s.doModuleInsert cage lower upper)

/-- MODULE_IDENTITY_READ (R436). -/
def execModuleIdentityRead (cage : Fin 64) (read : ModuleRead) (s : State) : Host.Outcome State Fault Refusal :=
  runCmd s (fun s => s.doModuleIdentityRead cage read)

/-- CAGE_ACCESS (R436). -/
def execCageAccess (path : Path) (data : Word) (byte : Byte) (s : State) : Host.Outcome State Fault Refusal :=
  runCmd s (fun s => s.doCageAccess path data byte)

/-- CIM_ACCESS_READ (R437). -/
def execCimAccessRead (path : Path) (data : Word) (byte : Byte) (s : State) : Host.Outcome State Fault Refusal :=
  runCmd s (fun s => s.doCimAccessRead path data byte)

/-- CIM_ACCESS_WRITE (R437). -/
def execCimAccessWrite (path : Path) (data : Word) (s : State) : Host.Outcome State Fault Refusal :=
  runCmd s (fun s => s.doCimAccessWrite path data)

/-- KF_OVERRIDE (R430). -/
def execKfOverride (path : Path) (data : Word) (s : State) : Host.Outcome State Fault Refusal :=
  runCmd s (fun s => s.doKfOverride path data)

/-- DETACH (R439). -/
def execDetach (path : Path) (data : Word) (s : State) : Host.Outcome State Fault Refusal :=
  runCmd s (fun s => s.doDetach path data)

/-- DETACHED (R439). -/
def execDetached (s : State) : Host.Outcome State Fault Refusal :=
  runCmd s State.doDetached

end Sys2Proof.Machine
end

