-- ==== Sys2Proof/Machine/ExecCollective.lean ====
section
/-!
DEFINITION. The meanings of the commands of spec/09_collectives.md: each is its effect (State.do...)
and what follows from it on the rest of the device.
-/
namespace Sys2Proof.Machine

/-- COLLECTIVE_START (R209). -/
def execCollectiveStart (q : Fin 512) (s : State) : Host.Outcome State Fault Refusal :=
  runCmd s (fun s => s.doCollectiveStart q)

/-- SMALL_COLLECTIVE_ISSUE (R217). -/
def execSmallCollectiveIssue (q : Fin 512) (s : State) : Host.Outcome State Fault Refusal :=
  runCmd s (fun s => s.doSmallCollectiveIssue q)

/-- COL_DATA_RECEIVE (R215). -/
def execColDataReceive (s : State) : Host.Outcome State Fault Refusal :=
  runCmd s State.doColDataReceive

/-- COL_END_RECEIVE (R215). -/
def execColEndReceive (s : State) : Host.Outcome State Fault Refusal :=
  runCmd s State.doColEndReceive

/-- COLLECTIVE_VOTE (R218). -/
def execCollectiveVote (tag : BitVec 16) (s : State) : Host.Outcome State Fault Refusal :=
  runCmd s (fun s => s.doCollectiveVote tag)

/-- COLLECTIVE_RECORD_WRITE (R222). -/
def execCollectiveRecordWrite (tag : BitVec 16) (s : State) : Host.Outcome State Fault Refusal :=
  runCmd s (fun s => s.doCollectiveRecordWrite tag)

/-- COL_RESIGN (R223). -/
def execColResign (path : Path) (data : Word) (s : State) : Host.Outcome State Fault Refusal :=
  runCmd s (fun s => s.doColResign path data)

/-- COLLECTIVE_TIMEOUT (R223). -/
def execCollectiveTimeout (tag : BitVec 16) (s : State) : Host.Outcome State Fault Refusal :=
  runCmd s (fun s => s.doCollectiveTimeout tag)

/-- READY_FLAG_WRITE (R225). -/
def execReadyFlagWrite (tag : BitVec 16) (s : State) : Host.Outcome State Fault Refusal :=
  runCmd s (fun s => s.doReadyFlagWrite tag)

/-- MOVE_LIST_LATE_CHECK (R228). -/
def execMoveListLateCheck (q : Fin 512) (s : State) : Host.Outcome State Fault Refusal :=
  runCmd s (fun s => s.doMoveListLateCheck q)

/-- RESEQ (R206). -/
def execReseq (path : Path) (data : Word) (s : State) : Host.Outcome State Fault Refusal :=
  runCmd s (fun s => s.doReseq path data)

end Sys2Proof.Machine
end

