-- ==== Sys2Proof/Machine/ExecFault.lean ====
section
/-!
DEFINITION. The meanings of the commands of spec/18_faults_and_resilience.md: each is its effect (State.do...)
and what follows from it on the rest of the device.
-/
namespace Sys2Proof.Machine

/-- PARK_DRAIN (R407). -/
def execParkDrain (s : State) : Host.Outcome State Fault Refusal :=
  runCmd s State.doParkDrain

/-- HEAD_H_WRITE (R405). -/
def execHeadHWrite (path : Path) (data : Word) (s : State) : Host.Outcome State Fault Refusal :=
  runCmd s (fun s => s.doHeadHWrite path data)

/-- HEAD_F_WRITE (R405). -/
def execHeadFWrite (path : Path) (data : Word) (s : State) : Host.Outcome State Fault Refusal :=
  runCmd s (fun s => s.doHeadFWrite path data)

/-- VECTOR_COALESCE_EXPIRE (R405). -/
def execVectorCoalesceExpire (s : State) : Host.Outcome State Fault Refusal :=
  runCmd s State.doVectorCoalesceExpire

/-- FLT_FENCE_WRITE (R413). -/
def execFltFenceWrite (path : Path) (k : Fin 2) (data : Word) (s : State) : Host.Outcome State Fault Refusal :=
  runCmd s (fun s => s.doFltFenceWrite path k data)

/-- FENCE_NOTICE_RECEIVE (R414). -/
def execFenceNoticeReceive (s : State) : Host.Outcome State Fault Refusal :=
  runCmd s State.doFenceNoticeReceive

/-- STANDIN_NOTICE_RECEIVE (R416). -/
def execStandinNoticeReceive (s : State) : Host.Outcome State Fault Refusal :=
  runCmd s State.doStandinNoticeReceive

/-- REJOIN_NOTICE_RECEIVE (R416). -/
def execRejoinNoticeReceive (s : State) : Host.Outcome State Fault Refusal :=
  runCmd s State.doRejoinNoticeReceive

/-- STANDIN (R418). -/
def execStandin (path : Path) (data : Word) (s : State) : Host.Outcome State Fault Refusal :=
  runCmd s (fun s => s.doStandin path data)

/-- STANDIN_TAKE_NUMBER (R418). -/
def execStandinTakeNumber (s : State) : Host.Outcome State Fault Refusal :=
  runCmd s State.doStandinTakeNumber

/-- STANDIN_REFRESH (R418). -/
def execStandinRefresh (s : State) : Host.Outcome State Fault Refusal :=
  runCmd s State.doStandinRefresh

/-- REJOIN (R422). -/
def execRejoin (path : Path) (data : Word) (s : State) : Host.Outcome State Fault Refusal :=
  runCmd s (fun s => s.doRejoin path data)

/-- REJOIN_TIMEOUT (R422). -/
def execRejoinTimeout (s : State) : Host.Outcome State Fault Refusal :=
  runCmd s State.doRejoinTimeout

/-- BUDGET_REFILL (R420). -/
def execBudgetRefill (s : State) : Host.Outcome State Fault Refusal :=
  runCmd s State.doBudgetRefill

end Sys2Proof.Machine
end

