-- ==== Sys2Proof/Machine/ExecHbm.lean ====
section
/-!
DEFINITION. The meanings of the commands of spec/13_hbm_and_hatch_code.md: each is its effect (State.do...)
and what follows from it on the rest of the device.
-/
namespace Sys2Proof.Machine

/-- SWEEP_START (R304). -/
def execSweepStart (path : Path) (data : Word) (s : State) : Host.Outcome State Fault Refusal :=
  runCmd s (fun s => s.doSweepStart path data)

/-- SWEEP_SLOT (R304). -/
def execSweepSlot (s : State) : Host.Outcome State Fault Refusal :=
  runCmd s State.doSweepSlot

/-- HBM_INIT (R305). -/
def execHbmInit (path : Path) (data : Word) (s : State) : Host.Outcome State Fault Refusal :=
  runCmd s (fun s => s.doHbmInit path data)

/-- ENC_EN_WRITE (R299). -/
def execEncEnWrite (path : Path) (data : Word) (s : State) : Host.Outcome State Fault Refusal :=
  runCmd s (fun s => s.doEncEnWrite path data)

/-- HATCH_MODE_WRITE (R293). -/
def execHatchModeWrite (path : Path) (data : Word) (s : State) : Host.Outcome State Fault Refusal :=
  runCmd s (fun s => s.doHatchModeWrite path data)

/-- RETIRE (R303). -/
def execRetire (path : Path) (n : Fin 16) (data : Word) (s : State) : Host.Outcome State Fault Refusal :=
  runCmd s (fun s => s.doRetire path n data)

/-- REARM (R303). -/
def execRearm (path : Path) (n : Fin 16) (data : Word) (s : State) : Host.Outcome State Fault Refusal :=
  runCmd s (fun s => s.doRearm path n data)

/-- REFRESH_SLOT (R307). -/
def execRefreshSlot (s : State) : Host.Outcome State Fault Refusal :=
  runCmd s State.doRefreshSlot

/-- SCRUB_SLOT (R308). -/
def execScrubSlot (t : Fin 24) (struck : List (Nat × SymbolErrors)) (s : State) : Host.Outcome State Fault Refusal :=
  runCmd s (fun s => s.doScrubSlot t struck)

/-- WEAR_SLOT (R309). -/
def execWearSlot (t : Fin 24) (s : State) : Host.Outcome State Fault Refusal :=
  runCmd s (fun s => s.doWearSlot t)

/-- REPAIR_SLOT (R310). -/
def execRepairSlot (t : Fin 24) (pc : Fin 32) (spareLeft : Bool) (s : State) : Host.Outcome State Fault Refusal :=
  runCmd s (fun s => s.doRepairSlot t pc spareLeft)

/-- HARD_REPAIR (R310). -/
def execHardRepair (t : Fin 24) (pc : Fin 32) (row : Nat) (s : State) : Host.Outcome State Fault Refusal :=
  runCmd s (fun s => s.doHardRepair t pc row)

/-- STACK_IDENTITY_READ (R311). -/
def execStackIdentityRead (t : Fin 24) (mfr : Byte) (part date : BitVec 16) (height density : Byte) (hardLeft : BitVec 16)
    (s : State) : Host.Outcome State Fault Refusal :=
  runCmd s (fun s => s.doStackIdentityRead t mfr part date height density hardLeft)

end Sys2Proof.Machine
end

