-- ==== Sys2Proof/Machine/ExecIlnyx.lean ====
section
/-!
DEFINITION. The meanings of the commands of spec/15_ilnyx_cores.md: each is its effect (State.do...)
and what follows from it on the rest of the device.
-/
namespace Sys2Proof.Machine

/-- FABRIC_WINDOW_ACCESS (R341). -/
def execFabricWindowAccess (n : Fin 32) (pa : BitVec 64) (access : CoreAccess)
    (s : State) : Host.Outcome State Fault Refusal :=
  runCmd s (fun s => s.doFabricWindowAccess n pa access)

/-- ILX_C_FENCE_WRITE (R342). -/
def execIlxCFenceWrite (path : Path) (n : Fin 32) (data : Word) (s : State) : Host.Outcome State Fault Refusal :=
  runCmd s (fun s => s.doIlxCFenceWrite path n data)

/-- WATCHDOG_EXPIRE (R345). -/
def execWatchdogExpire (s : State) : Host.Outcome State Fault Refusal :=
  runCmd s State.doWatchdogExpire

/-- WATCHDOG_WRITE (R345). -/
def execWatchdogWrite (path : Path) (data : Word) (s : State) : Host.Outcome State Fault Refusal :=
  runCmd s (fun s => s.doWatchdogWrite path data)

/-- INFO (R346). -/
def execInfo (a : Fin 16) (s : State) : Host.Outcome State Fault Refusal :=
  runCmd s (fun s => s.doInfo a)

/-- KERNEL_LOAD (R347). -/
def execKernelLoad (a : Fin 16) (s : State) : Host.Outcome State Fault Refusal :=
  runCmd s (fun s => s.doKernelLoad a)

/-- KERNEL_START (R347). -/
def execKernelStart (a : Fin 16) (s : State) : Host.Outcome State Fault Refusal :=
  runCmd s (fun s => s.doKernelStart a)

/-- KERNEL_STOP (R348). -/
def execKernelStop (a : Fin 16) (s : State) : Host.Outcome State Fault Refusal :=
  runCmd s (fun s => s.doKernelStop a)

/-- KERNEL_STATUS (R346). -/
def execKernelStatus (a : Fin 16) (s : State) : Host.Outcome State Fault Refusal :=
  runCmd s (fun s => s.doKernelStatus a)

/-- TEL_CFG (R350). -/
def execTelCfg (a : Fin 16) (s : State) : Host.Outcome State Fault Refusal :=
  runCmd s (fun s => s.doTelCfg a)

/-- MB_RESERVED_COMMAND (R346). -/
def execMbReservedCommand (a : Fin 16) (s : State) : Host.Outcome State Fault Refusal :=
  runCmd s (fun s => s.doMbReservedCommand a)

/-- MB_RSP0_WRITE (R346). -/
def execMbRsp0Write (a : Fin 16) (s : State) : Host.Outcome State Fault Refusal :=
  runCmd s (fun s => s.doMbRsp0Write a)

/-- SUBMIT (R347). -/
def execSubmit (n : Fin 32) (queue tail : Word) (s : State) : Host.Outcome State Fault Refusal :=
  runCmd s (fun s => s.doSubmit n queue tail)

/-- FENCE (R347). -/
def execFence (n : Fin 32) (queue kind scope : Word) (s : State) : Host.Outcome State Fault Refusal :=
  runCmd s (fun s => s.doFence n queue kind scope)

/-- LASTSTAT (R347). -/
def execLaststat (n : Fin 32) (s : State) : Host.Outcome State Fault Refusal :=
  runCmd s (fun s => s.doLaststat n)

/-- EXIT (R348). -/
def execExit (n : Fin 32) (code : Word) (s : State) : Host.Outcome State Fault Refusal :=
  runCmd s (fun s => s.doExit n code)

/-- KERNEL_EXCEPTION (R348). -/
def execKernelException (n : Fin 32) (cause : Word) (s : State) : Host.Outcome State Fault Refusal :=
  runCmd s (fun s => s.doKernelException n cause)

/-- TELEMETRY_SAMPLE (R350). -/
def execTelemetrySample (addr : BitVec 32) (count : Fin 7) (s : State) : Host.Outcome State Fault Refusal :=
  runCmd s (fun s => s.doTelemetrySample addr count)

end Sys2Proof.Machine
end

