-- ==== Sys2Proof/Machine/ExecLink.lean ====
section
/-!
DEFINITION. The meanings of the commands of spec/12_vangeri_links.md: each is its effect (State.do...)
and what follows from it on the rest of the device.
-/
namespace Sys2Proof.Machine

/-- LOSS_OF_SIGNAL (R287). -/
def execLossOfSignal (p : Fin 128) (lanes : BitVec 4) (s : State) : Host.Outcome State Fault Refusal :=
  runCmd s (fun s => s.doLossOfSignal p lanes)

/-- LINK_DOWN (R287). -/
def execLinkDown (p : Fin 128) (cause : LinkCause) (s : State) : Host.Outcome State Fault Refusal :=
  runCmd s (fun s => s.doLinkDown p cause)

/-- DETECT_SIGNAL (R275). -/
def execDetectSignal (p : Fin 128) (lanes : BitVec 4) (nonce : BitVec 128) (s : State) : Host.Outcome State Fault Refusal :=
  runCmd s (fun s => s.doDetectSignal p lanes nonce)

/-- TRAIN_DONE (R278). -/
def execTrainDone (p : Fin 128) (own peer : BitVec 4) (lanes : List (BitVec 30 × Byte × Byte))
    (s : State) : Host.Outcome State Fault Refusal :=
  runCmd s (fun s => s.doTrainDone p own peer lanes)

/-- POLARITY_DONE (R276). -/
def execPolarityDone (p : Fin 128) (inverted : BitVec 4) (s : State) : Host.Outcome State Fault Refusal :=
  runCmd s (fun s => s.doPolarityDone p inverted)

/-- LANE_ORDER_DONE (R276). -/
def execLaneOrderDone (p : Fin 128) (markers : List (BitVec 20)) (s : State) : Host.Outcome State Fault Refusal :=
  runCmd s (fun s => s.doLaneOrderDone p markers)

/-- DESKEW_DONE (R276). -/
def execDeskewDone (p : Fin 128) (skew : Nat) (s : State) : Host.Outcome State Fault Refusal :=
  runCmd s (fun s => s.doDeskewDone p skew)

/-- FEC_LOCK_DONE (R275). -/
def execFecLockDone (p : Fin 128) (s : State) : Host.Outcome State Fault Refusal :=
  runCmd s (fun s => s.doFecLockDone p)

/-- IDENT_CODEWORD_RECEIVE (R277). -/
def execIdentCodewordReceive (p : Fin 128) (ident : LinkIdent) (s : State) : Host.Outcome State Fault Refusal :=
  runCmd s (fun s => s.doIdentCodewordReceive p ident)

/-- CREDIT_INIT_RECEIVE (R279). -/
def execCreditInitReceive (p : Fin 128) (limits : List Nat) (echoed : Bool) (s : State) : Host.Outcome State Fault Refusal :=
  runCmd s (fun s => s.doCreditInitReceive p limits echoed)

/-- BRINGUP_TIMEOUT (R275). -/
def execBringupTimeout (p : Fin 128) (s : State) : Host.Outcome State Fault Refusal :=
  runCmd s (fun s => s.doBringupTimeout p)

/-- BRINGUP_RETRY (R275). -/
def execBringupRetry (p : Fin 128) (s : State) : Host.Outcome State Fault Refusal :=
  runCmd s (fun s => s.doBringupRetry p)

/-- CODEWORD_TRANSMIT (R269). -/
def execCodewordTransmit (p : Fin 128) (s : State) : Host.Outcome State Fault Refusal :=
  runCmd s (fun s => s.doCodewordTransmit p)

/-- CODEWORD_RECEIVE (R280). -/
def execCodewordReceive (p : Fin 128) (line : LineIn) (corrected : List Nat)
    (s : State) : Host.Outcome State Fault Refusal :=
  runCmd s (fun s => s.doCodewordReceive p line corrected)

/-- ACK_TIMEOUT (R280). -/
def execAckTimeout (p : Fin 128) (s : State) : Host.Outcome State Fault Refusal :=
  runCmd s (fun s => s.doAckTimeout p)

/-- QUIET (R284). -/
def execQuiet (p : Fin 128) (s : State) : Host.Outcome State Fault Refusal :=
  runCmd s (fun s => s.doQuiet p)

/-- QUIET_ENTER (R284). -/
def execQuietEnter (p : Fin 128) (s : State) : Host.Outcome State Fault Refusal :=
  runCmd s (fun s => s.doQuietEnter p)

/-- QUIET_EXIT (R284). -/
def execQuietExit (p : Fin 128) (s : State) : Host.Outcome State Fault Refusal :=
  runCmd s (fun s => s.doQuietExit p)

/-- DEEP_IDLE (R285). -/
def execDeepIdle (p : Fin 128) (s : State) : Host.Outcome State Fault Refusal :=
  runCmd s (fun s => s.doDeepIdle p)

/-- STATE_REQ_WRITE (R285). -/
def execStateReqWrite (path : Path) (p : Fin 128) (data : Word) (s : State) : Host.Outcome State Fault Refusal :=
  runCmd s (fun s => s.doStateReqWrite path p data)

/-- LOOP_SELECT (R286). -/
def execLoopSelect (path : Path) (p : Fin 128) (data : Word) (s : State) : Host.Outcome State Fault Refusal :=
  runCmd s (fun s => s.doLoopSelect path p data)

/-- PORT_EN_CLEAR (R287). -/
def execPortEnClear (path : Path) (p : Fin 128) (data : Word) (s : State) : Host.Outcome State Fault Refusal :=
  runCmd s (fun s => s.doPortEnClear path p data)

/-- FE_LOOP_REQ (R286). -/
def execFeLoopReq (p : Fin 128) (s : State) : Host.Outcome State Fault Refusal :=
  runCmd s (fun s => s.doFeLoopReq p)

/-- FE_LOOP_GRANT (R286). -/
def execFeLoopGrant (p : Fin 128) (s : State) : Host.Outcome State Fault Refusal :=
  runCmd s (fun s => s.doFeLoopGrant p)

/-- FE_LOOP_DENY (R286). -/
def execFeLoopDeny (p : Fin 128) (s : State) : Host.Outcome State Fault Refusal :=
  runCmd s (fun s => s.doFeLoopDeny p)

end Sys2Proof.Machine
end

