-- ==== Sys2Proof/Machine/ExecPip.lean ====
section
/-!
DEFINITION. The meanings of the commands of spec/02_turns_and_pip_lanes.md: each is its effect (State.do...)
and what follows from it on the rest of the device.
-/
namespace Sys2Proof.Machine

/-- TURN_BOUNDARY (R30). -/
def execTurnBoundary (s : State) : Host.Outcome State Fault Refusal :=
  runCmd s State.doTurnBoundary

/-- TRN_START (R57). -/
def execTrnStart (path : Path) (data : Word) (s : State) : Host.Outcome State Fault Refusal :=
  runCmd s (fun s => s.doTrnStart path data)

/-- TIME_ROOT_DESIGNATE (R41). -/
def execTimeRootDesignate (path : Path) (data : Word) (s : State) : Host.Outcome State Fault Refusal :=
  runCmd s (fun s => s.doTimeRootDesignate path data)

/-- TURN_MARK_SEND (R33). -/
def execTurnMarkSend (s : State) : Host.Outcome State Fault Refusal :=
  runCmd s State.doTurnMarkSend

/-- TURN_MARK_RECEIVE (R37). -/
def execTurnMarkReceive (lane : Fin 16) (bytes : List Byte) (frac : Fin 1024)
    (s : State) : Host.Outcome State Fault Refusal :=
  runCmd s (fun s => s.doTurnMarkReceive lane bytes frac)

/-- ECHO_REQ_SEND (R35). -/
def execEchoReqSend (s : State) : Host.Outcome State Fault Refusal :=
  runCmd s State.doEchoReqSend

/-- ECHO_REQ_RECEIVE (R35). -/
def execEchoReqReceive (lane : Fin 16) (bytes : List Byte) (hold : BitVec 32)
    (s : State) : Host.Outcome State Fault Refusal :=
  runCmd s (fun s => s.doEchoReqReceive lane bytes hold)

/-- ECHO_RSP_RECEIVE (R35). -/
def execEchoRspReceive (lane : Fin 16) (bytes : List Byte) (frac : Fin 1024)
    (s : State) : Host.Outcome State Fault Refusal :=
  runCmd s (fun s => s.doEchoRspReceive lane bytes frac)

/-- FREQUENCY_LOCK (R36). -/
def execFrequencyLock (s : State) : Host.Outcome State Fault Refusal :=
  runCmd s State.doFrequencyLock

/-- ALIGN_TIMEOUT (R36). -/
def execAlignTimeout (s : State) : Host.Outcome State Fault Refusal :=
  runCmd s State.doAlignTimeout

/-- UPSTREAM_SWITCH (R39). -/
def execUpstreamSwitch (s : State) : Host.Outcome State Fault Refusal :=
  runCmd s State.doUpstreamSwitch

/-- IDENT_RECEIVE (R43). -/
def execIdentReceive (lane : Fin 16) (s : State) : Host.Outcome State Fault Refusal :=
  runCmd s (fun s => s.doIdentReceive lane)

/-- PIP_LANE_DOWN (R43). -/
def execPipLaneDown (lane : Fin 16) (cause : PipDownCause) (s : State) : Host.Outcome State Fault Refusal :=
  runCmd s (fun s => s.doPipLaneDown lane cause)

/-- PIP_FRAME_RECEIVE (R46). -/
def execPipFrameReceive (lane : Fin 16) (bytes : List Byte) (s : State) : Host.Outcome State Fault Refusal :=
  runCmd s (fun s => s.doPipFrameReceive lane bytes)

/-- PIP_ACK_RECEIVE (R46). -/
def execPipAckReceive (lane : Fin 16) (seq : Byte) (s : State) : Host.Outcome State Fault Refusal :=
  runCmd s (fun s => s.doPipAckReceive lane seq)

/-- PIP_NAK_RECEIVE (R46). -/
def execPipNakReceive (lane : Fin 16) (seq : Byte) (s : State) : Host.Outcome State Fault Refusal :=
  runCmd s (fun s => s.doPipNakReceive lane seq)

/-- PIP_RETRANSMIT_TIMEOUT (R46). -/
def execPipRetransmitTimeout (lane : Fin 16) (s : State) : Host.Outcome State Fault Refusal :=
  runCmd s (fun s => s.doPipRetransmitTimeout lane)

/-- HB_SEND (R53). -/
def execHbSend (s : State) : Host.Outcome State Fault Refusal :=
  runCmd s State.doHbSend

/-- HB_RECEIVE (R53). -/
def execHbReceive (lane : Fin 16) (bytes : List Byte) (s : State) : Host.Outcome State Fault Refusal :=
  runCmd s (fun s => s.doHbReceive lane bytes)

/-- HB_MISSING (R53). -/
def execHbMissing (lane : Fin 16) (s : State) : Host.Outcome State Fault Refusal :=
  runCmd s (fun s => s.doHbMissing lane)

/-- PRESENCE_RECEIVE (R54). -/
def execPresenceReceive (lane : Fin 16) (s : State) : Host.Outcome State Fault Refusal :=
  runCmd s (fun s => s.doPresenceReceive lane)

/-- SUBTREE_RECEIVE (R48). -/
def execSubtreeReceive (lane : Fin 16) (s : State) : Host.Outcome State Fault Refusal :=
  runCmd s (fun s => s.doSubtreeReceive lane)

/-- SC_UP_RECEIVE (R48). -/
def execScUpReceive (lane : Fin 16) (s : State) : Host.Outcome State Fault Refusal :=
  runCmd s (fun s => s.doScUpReceive lane)

/-- SC_DOWN_RECEIVE (R48). -/
def execScDownReceive (lane : Fin 16) (s : State) : Host.Outcome State Fault Refusal :=
  runCmd s (fun s => s.doScDownReceive lane)

/-- COMMIT_UP_RECEIVE (R48). -/
def execCommitUpReceive (lane : Fin 16) (s : State) : Host.Outcome State Fault Refusal :=
  runCmd s (fun s => s.doCommitUpReceive lane)

/-- COMMIT_DOWN_RECEIVE (R220). -/
def execCommitDownReceive (lane : Fin 16) (s : State) : Host.Outcome State Fault Refusal :=
  runCmd s (fun s => s.doCommitDownReceive lane)

/-- COUNTS_RECEIVE (R213). -/
def execCountsReceive (lane : Fin 16) (s : State) : Host.Outcome State Fault Refusal :=
  runCmd s (fun s => s.doCountsReceive lane)

/-- P2P_RECEIVE (R50). -/
def execP2pReceive (lane : Fin 16) (s : State) : Host.Outcome State Fault Refusal :=
  runCmd s (fun s => s.doP2pReceive lane)

/-- RESIGN_RECEIVE (R52). -/
def execResignReceive (lane : Fin 16) (s : State) : Host.Outcome State Fault Refusal :=
  runCmd s (fun s => s.doResignReceive lane)

/-- RESIGN_MEMORY_EXPIRY (R52). -/
def execResignMemoryExpiry (s : State) : Host.Outcome State Fault Refusal :=
  runCmd s State.doResignMemoryExpiry

/-- DOM_ROOT_WRITE (R476). -/
def execDomRootWrite (path : Path) (data : Word) (s : State) : Host.Outcome State Fault Refusal :=
  runCmd s (fun s => s.doDomRootWrite path data)

/-- ROOT_ABSENCE_SWEEP (R476). -/
def execRootAbsenceSweep (s : State) : Host.Outcome State Fault Refusal :=
  runCmd s State.doRootAbsenceSweep

/-- COMMA_ALIGNMENT (R43). -/
def execCommaAlignment (rx : LaneBits) (s : State) : Host.Outcome State Fault Refusal :=
  runCmd s (fun s => s.doCommaAlignment rx)

end Sys2Proof.Machine
end

