-- ==== Sys2Proof/Machine/ExecPlate.lean ====
section
/-!
DEFINITION. The meanings of the commands of spec/06_plate_array.md, and READY_FLAG_POLL of spec/08_plate_operations.md: each is its effect (State.do...)
and what follows from it on the rest of the device.
-/
namespace Sys2Proof.Machine

/-- PLT_OQ_TAIL_WRITE (R132). -/
def execPltOqTailWrite (path : Path) (q : Fin 512) (data : Word) (s : State) : Host.Outcome State Fault Refusal :=
  runCmd s (fun s => s.doPltOqTailWrite path q data)

/-- QUEUE_SELECT (R134). -/
def execQueueSelect (s : State) : Host.Outcome State Fault Refusal :=
  runCmd s State.doQueueSelect

/-- PLAN_DONE (R138). -/
def execPlanDone (s : State) : Host.Outcome State Fault Refusal :=
  runCmd s State.doPlanDone

/-- WRITE_OUT_START (R129). -/
def execWriteOutStart (s : State) : Host.Outcome State Fault Refusal :=
  runCmd s State.doWriteOutStart

/-- STROKE_END (R129). -/
def execStrokeEnd (s : State) : Host.Outcome State Fault Refusal :=
  runCmd s State.doStrokeEnd

/-- ROUND_EXPIRE (R135). -/
def execRoundExpire (s : State) : Host.Outcome State Fault Refusal :=
  runCmd s State.doRoundExpire

/-- CARRY_SAVE_DONE (R136). -/
def execCarrySaveDone (s : State) : Host.Outcome State Fault Refusal :=
  runCmd s State.doCarrySaveDone

/-- CARRY_RESTORE_DONE (R136). -/
def execCarryRestoreDone (s : State) : Host.Outcome State Fault Refusal :=
  runCmd s State.doCarryRestoreDone

/-- OPERATION_RETIRE (R142). -/
def execOperationRetire (s : State) : Host.Outcome State Fault Refusal :=
  runCmd s State.doOperationRetire

/-- PLT_ABORT (R145). -/
def execPltAbort (path : Path) (data : Word) (s : State) : Host.Outcome State Fault Refusal :=
  runCmd s (fun s => s.doPltAbort path data)

/-- READY_FLAG_POLL (R200). -/
def execReadyFlagPoll (s : State) : Host.Outcome State Fault Refusal :=
  runCmd s State.doReadyFlagPoll

/-- READY_LIMIT_EXPIRE (R141). -/
def execReadyLimitExpire (s : State) : Host.Outcome State Fault Refusal :=
  runCmd s State.doReadyLimitExpire

end Sys2Proof.Machine
end

