-- ==== Sys2Proof/Machine/ExecPower.lean ====
section
/-!
DEFINITION. The meanings of the commands of spec/20_power_package_pins.md: each is its effect (State.do...)
and what follows from it on the rest of the device.
-/
namespace Sys2Proof.Machine

/-- PMBUS_POLL (R443). -/
def execPmbusPoll (answers : List (Option (BitVec 16 × BitVec 16 × Byte × BitVec 16)))
    (s : State) : Host.Outcome State Fault Refusal :=
  runCmd s (fun s => s.doPmbusPoll answers)

/-- PMB_ALERT (R443). -/
def execPmbAlert (status : List (Option (BitVec 16))) (s : State) : Host.Outcome State Fault Refusal :=
  runCmd s (fun s => s.doPmbAlert status)

/-- PMB_ACCESS (R443). -/
def execPmbAccess (path : Path) (data : Word) (answer : Option (BitVec 16)) (s : State) : Host.Outcome State Fault Refusal :=
  runCmd s (fun s => s.doPmbAccess path data answer)

/-- ARRAY_RAMP_END (R445). -/
def execArrayRampEnd (s : State) : Host.Outcome State Fault Refusal :=
  runCmd s State.doArrayRampEnd

/-- DROOP_TRIP (R448). -/
def execDroopTrip (s : State) : Host.Outcome State Fault Refusal :=
  runCmd s State.doDroopTrip

/-- STRETCH_END (R448). -/
def execStretchEnd (s : State) : Host.Outcome State Fault Refusal :=
  runCmd s State.doStretchEnd

/-- FREEZE_END (R449). -/
def execFreezeEnd (s : State) : Host.Outcome State Fault Refusal :=
  runCmd s State.doFreezeEnd

/-- THERMAL_SAMPLE (R450). -/
def execThermalSample (sensors temps : List Byte) (s : State) : Host.Outcome State Fault Refusal :=
  runCmd s (fun s => s.doThermalSample sensors temps)

/-- THERMTRIP (R453). -/
def execThermtrip (sensor : Byte) (s : State) : Host.Outcome State Fault Refusal :=
  runCmd s (fun s => s.doThermtrip sensor)

/-- DUTY_WINDOW_START (R452). -/
def execDutyWindowStart (s : State) : Host.Outcome State Fault Refusal :=
  runCmd s State.doDutyWindowStart

/-- DUTY_ON_WRITE (R451). -/
def execDutyOnWrite (path : Path) (data : Word) (s : State) : Host.Outcome State Fault Refusal :=
  runCmd s (fun s => s.doDutyOnWrite path data)

/-- PWR_WARN (R454). -/
def execPwrWarn (s : State) : Host.Outcome State Fault Refusal :=
  runCmd s State.doPwrWarn

/-- WARN_STROKE_LIMIT (R454). -/
def execWarnStrokeLimit (s : State) : Host.Outcome State Fault Refusal :=
  runCmd s State.doWarnStrokeLimit

/-- WARN_DETACH (R454). -/
def execWarnDetach (s : State) : Host.Outcome State Fault Refusal :=
  runCmd s State.doWarnDetach

/-- WARN_RELEASE (R455). -/
def execWarnRelease (s : State) : Host.Outcome State Fault Refusal :=
  runCmd s State.doWarnRelease

end Sys2Proof.Machine
end

