-- ==== Sys2Proof/Machine/ExecRegister.lean ====
section
/-!
DEFINITION. The meanings of the commands of spec/21_register_pages.md: each is its effect (State.do...)
and what follows from it on the rest of the device.
-/
namespace Sys2Proof.Machine

/-- REGISTER_WRITE (R468). -/
def execRegisterWrite (path : Path) (acc : RegAccess) (data : Word) (s : State) : Host.Outcome State Fault Refusal :=
  runCmd s (fun s => s.doRegisterWrite path acc data)

/-- REGISTER_READ_CLEAR (R463). -/
def execRegisterReadClear (path : Path) (acc : RegAccess) (s : State) : Host.Outcome State Fault Refusal :=
  runCmd s (fun s => s.doRegisterReadClear path acc)

/-- SRST (R465). -/
def execSrst (path : Path) (t i : Byte) (data : Word) (s : State) : Host.Outcome State Fault Refusal :=
  runCmd s (fun s => s.doSrst path t i data)

/-- PG_LOCK_WRITE (R466). -/
def execPgLockWrite (path : Path) (t i : Byte) (data : Word) (s : State) : Host.Outcome State Fault Refusal :=
  runCmd s (fun s => s.doPgLockWrite path t i data)

/-- PG_INJ_ARM (R469). -/
def execPgInjArm (path : Path) (t i : Byte) (data : Word) (s : State) : Host.Outcome State Fault Refusal :=
  runCmd s (fun s => s.doPgInjArm path t i data)

/-- PG_CNT_SEL_WRITE (R469). -/
def execPgCntSelWrite (path : Path) (t i : Byte) (data : Word) (s : State) : Host.Outcome State Fault Refusal :=
  runCmd s (fun s => s.doPgCntSelWrite path t i data)

end Sys2Proof.Machine
end

