-- ==== Sys2Proof/Machine/ExecRonpel.lean ====
section
/-!
DEFINITION. The meanings of the commands of spec/03_fabric_addressing.md, spec/04_ronpel_transactions.md, spec/05_memory_model.md: each is its effect (State.do...)
and what follows from it on the rest of the device.
-/
namespace Sys2Proof.Machine

/-- REP_WIN_A_WRITE (R70). -/
def execRepWinAWrite (path : Path) (n : Fin 21) (e : Fin 64) (data : Word) (s : State) : Host.Outcome State Fault Refusal :=
  runCmd s (fun s => s.doRepWinAWrite path n e data)

/-- REP_WIN_BC_WRITE (R70). -/
def execRepWinBCWrite (path : Path) (n : Fin 21) (e : Fin 64) (c : Bool) (data : Word)
    (s : State) : Host.Outcome State Fault Refusal :=
  runCmd s (fun s => s.doRepWinBCWrite path n e c data)

/-- REQUEST_ISSUE (R79). -/
def execRequestIssue (queue : Fin 512) (req : Request) (s : State) : Host.Outcome State Fault Refusal :=
  runCmd s (fun s => s.doRequestIssue queue req)

/-- TRACKER_WAIT_RELEASE (R79). -/
def execTrackerWaitRelease (queue : Fin 512) (s : State) : Host.Outcome State Fault Refusal :=
  runCmd s (fun s => s.doTrackerWaitRelease queue)

/-- REQUEST_TAKE (R85). -/
def execRequestTake (ep : Fin 21) (s : State) : Host.Outcome State Fault Refusal :=
  runCmd s (fun s => s.doRequestTake ep)

/-- LINE_QUEUE_SERVICE (R91). -/
def execLineQueueService (ep : Fin 21) (line : Nat) (s : State) : Host.Outcome State Fault Refusal :=
  runCmd s (fun s => s.doLineQueueService ep line)

/-- HBM_READ_COMPLETE (R300). -/
def execHbmReadComplete (line : Nat) (errors : ReadErrors) (s : State) : Host.Outcome State Fault Refusal :=
  runCmd s (fun s => s.doHbmReadComplete line errors)

/-- LINE_UNPIN (R92). -/
def execLineUnpin (line : Nat) (s : State) : Host.Outcome State Fault Refusal :=
  runCmd s (fun s => s.doLineUnpin line)

/-- PINNED_WRITE_BACK (R93). -/
def execPinnedWriteBack (line : Nat) (s : State) : Host.Outcome State Fault Refusal :=
  runCmd s (fun s => s.doPinnedWriteBack line)

/-- RESPONSE_RECEIVE (R89). -/
def execResponseReceive (ep : Fin 21) (s : State) : Host.Outcome State Fault Refusal :=
  runCmd s (fun s => s.doResponseReceive ep)

/-- RESPONSE_TIMEOUT (R88). -/
def execResponseTimeout (tag : BitVec 18) (s : State) : Host.Outcome State Fault Refusal :=
  runCmd s (fun s => s.doResponseTimeout tag)

/-- RETRY_SEND (R88). -/
def execRetrySend (tag : BitVec 18) (s : State) : Host.Outcome State Fault Refusal :=
  runCmd s (fun s => s.doRetrySend tag)

/-- PROOF_GO_RECEIVE (R83). -/
def execProofGoReceive (ep : Fin 21) (s : State) : Host.Outcome State Fault Refusal :=
  runCmd s (fun s => s.doProofGoReceive ep)

/-- PARK_ENTRY_EXPIRE (R83). -/
def execParkEntryExpire (ep : Fin 21) (src : BitVec 20) (vc : Fin 8) (seq : BitVec 32)
    (s : State) : Host.Outcome State Fault Refusal :=
  runCmd s (fun s => s.doParkEntryExpire ep src vc seq)

/-- HOLE_SKIP (R112). -/
def execHoleSkip (ep : Fin 21) (src : BitVec 20) (vc : Fin 8) (s : State) : Host.Outcome State Fault Refusal :=
  runCmd s (fun s => s.doHoleSkip ep src vc)

/-- CHANNEL_STATE_FREE (R85). -/
def execChannelStateFree (ep : Fin 21) (src : BitVec 20) (vc : Fin 8) (s : State) : Host.Outcome State Fault Refusal :=
  runCmd s (fun s => s.doChannelStateFree ep src vc)

/-- CHANNEL_SEQ_RESET (R80). -/
def execChannelSeqReset (ep : Fin 21) (dst : BitVec 20) (vc : Fin 8) (s : State) : Host.Outcome State Fault Refusal :=
  runCmd s (fun s => s.doChannelSeqReset ep dst vc)

/-- RESULT_LOG_FREE (R86). -/
def execResultLogFree (ep : Fin 21) (src : BitVec 20) (vc : Fin 8) (seq : BitVec 32)
    (s : State) : Host.Outcome State Fault Refusal :=
  runCmd s (fun s => s.doResultLogFree ep src vc seq)

/-- FENCE_ENTER (R113). -/
def execFenceEnter (queue : Fin 512) (kind scope : Fin 4) (s : State) : Host.Outcome State Fault Refusal :=
  runCmd s (fun s => s.doFenceEnter queue kind scope)

/-- MSG_SEND_FETCH (R120). -/
def execMsgSendFetch (q : Fin 512) (s : State) : Host.Outcome State Fault Refusal :=
  runCmd s (fun s => s.doMsgSendFetch q)

/-- MESSAGE_ABANDON (R97). -/
def execMessageAbandon (src : BitVec 20) (id : BitVec 16) (s : State) : Host.Outcome State Fault Refusal :=
  runCmd s (fun s => s.doMessageAbandon src id)

/-- MSG_POOL_FREE (R98). -/
def execMsgPoolFree (path : Path) (data : Word) (s : State) : Host.Outcome State Fault Refusal :=
  runCmd s (fun s => s.doMsgPoolFree path data)

/-- MSG_POOL_CFG_WRITE (R95). -/
def execMsgPoolCfgWrite (path : Path) (n : Fin 64) (ring : Bool) (data : Word)
    (s : State) : Host.Outcome State Fault Refusal :=
  runCmd s (fun s => s.doMsgPoolCfgWrite path n ring data)

end Sys2Proof.Machine
end

