-- ==== Sys2Proof/Machine/ExecRoute.lean ====
section
/-!
DEFINITION. The meanings of the commands of spec/11_routing_and_slices.md: each is its effect (State.do...)
and what follows from it on the rest of the device.
-/
namespace Sys2Proof.Machine

/-- ROUTE_ENTRY_WRITE (R252). -/
def execRouteEntryWrite (path : Path) (e : Fin 2) (far : Bool) (i : Fin 256) (w : Fin 3) (data : Word)
    (s : State) : Host.Outcome State Fault Refusal :=
  runCmd s (fun s => s.doRouteEntryWrite path e far i w data)

/-- RTE_PORT_FAR_WRITE (R474). -/
def execRtePortFarWrite (path : Path) (k : Fin 2) (data : Word) (s : State) : Host.Outcome State Fault Refusal :=
  runCmd s (fun s => s.doRtePortFarWrite path k data)

/-- RTE_ED_WRITE (R257). -/
def execRteEdWrite (path : Path) (data : Word) (s : State) : Host.Outcome State Fault Refusal :=
  runCmd s (fun s => s.doRteEdWrite path data)

/-- FLIP_ARM (R257). -/
def execFlipArm (path : Path) (data : Word) (s : State) : Host.Outcome State Fault Refusal :=
  runCmd s (fun s => s.doFlipArm path data)

/-- FLIP_CANCEL (R257). -/
def execFlipCancel (path : Path) (data : Word) (s : State) : Host.Outcome State Fault Refusal :=
  runCmd s (fun s => s.doFlipCancel path data)

/-- EDITION_FLIP (R256). -/
def execEditionFlip (s : State) : Host.Outcome State Fault Refusal :=
  runCmd s State.doEditionFlip

/-- CUR_WRITE (R264). -/
def execCurWrite (path : Path) (data : Word) (s : State) : Host.Outcome State Fault Refusal :=
  runCmd s (fun s => s.doCurWrite path data)

/-- ADMIT_WRITE (R375). -/
def execAdmitWrite (path : Path) (data : Word) (s : State) : Host.Outcome State Fault Refusal :=
  runCmd s (fun s => s.doAdmitWrite path data)

/-- SLICE_WRITE (R376). -/
def execSliceWrite (path : Path) (data : Word) (s : State) : Host.Outcome State Fault Refusal :=
  runCmd s (fun s => s.doSliceWrite path data)

/-- NBR_EXP_WRITE (R263). -/
def execNbrExpWrite (path : Path) (p : Fin 128) (data : Word) (s : State) : Host.Outcome State Fault Refusal :=
  runCmd s (fun s => s.doNbrExpWrite path p data)

end Sys2Proof.Machine
end

