-- ==== Sys2Proof/Machine/ExecSecurity.lean ====
section
/-!
DEFINITION. The meanings of the commands of spec/16_security_and_isolation.md: each is its effect (State.do...)
and what follows from it on the rest of the device.
-/
namespace Sys2Proof.Machine

/-- SEC_LOCK (R357). -/
def execSecLock (path : Path) (data : Word) (s : State) : Host.Outcome State Fault Refusal :=
  runCmd s (fun s => s.doSecLock path data)

/-- BOUND_SET_LOAD (R365). -/
def execBoundSetLoad (path : Path) (data : Word) (s : State) : Host.Outcome State Fault Refusal :=
  runCmd s (fun s => s.doBoundSetLoad path data)

/-- BOUND_SET_LOAD_DONE (R365). -/
def execBoundSetLoadDone (e : Fin 8) (s : State) : Host.Outcome State Fault Refusal :=
  runCmd s (fun s => s.doBoundSetLoadDone e)

/-- UNLOAD (R369). -/
def execUnload (path : Path) (data : Word) (s : State) : Host.Outcome State Fault Refusal :=
  runCmd s (fun s => s.doUnload path data)

/-- BURNISH_START (R370). -/
def execBurnishStart (path : Path) (data : Word) (s : State) : Host.Outcome State Fault Refusal :=
  runCmd s (fun s => s.doBurnishStart path data)

/-- BURNISH_DISCARD_DONE (R370). -/
def execBurnishDiscardDone (s : State) : Host.Outcome State Fault Refusal :=
  runCmd s State.doBurnishDiscardDone

/-- BURNISH_READBACK (R373). -/
def execBurnishReadback (allZero : Bool) (s : State) : Host.Outcome State Fault Refusal :=
  runCmd s (fun s => s.doBurnishReadback allZero)

/-- BURNISH_END (R371). -/
def execBurnishEnd (s : State) : Host.Outcome State Fault Refusal :=
  runCmd s State.doBurnishEnd

end Sys2Proof.Machine
end

