-- ==== Sys2Proof/Machine/ExecSwitch.lean ====
section
/-!
DEFINITION. The meanings of the commands of spec/10_switch_core.md: each is its effect (State.do...)
and what follows from it on the rest of the device.
-/
namespace Sys2Proof.Machine

/-- FRAME_RECEIVE (R230). -/
def execFrameReceive (p : Fin 128) (struck : List (Nat × SymbolErrors)) (s : State) : Host.Outcome State Fault Refusal :=
  runCmd s (fun s => s.doFrameReceive p struck)

/-- EGRESS_ADMIT (R235). -/
def execEgressAdmit (e : Fin 149) (cls : Fin 4) (s : State) : Host.Outcome State Fault Refusal :=
  runCmd s (fun s => s.doEgressAdmit e cls)

/-- EGRESS_SERVE (R233). -/
def execEgressServe (e : Fin 149) (s : State) : Host.Outcome State Fault Refusal :=
  runCmd s (fun s => s.doEgressServe e)

/-- SPILL_RETURN (R237). -/
def execSpillReturn (p : Fin 128) (s : State) : Host.Outcome State Fault Refusal :=
  runCmd s (fun s => s.doSpillReturn p)

/-- RESEQUENCER_RELEASE (R239). -/
def execResequencerRelease (e : Fin 149) (k : Nat) (s : State) : Host.Outcome State Fault Refusal :=
  runCmd s (fun s => s.doResequencerRelease e k)

/-- THROTTLE_RELEASE (R241). -/
def execThrottleRelease (p : Fin 128) (bg : Bool) (s : State) : Host.Outcome State Fault Refusal :=
  runCmd s (fun s => s.doThrottleRelease p bg)

/-- SWX_BUF_THR_WRITE (R234). -/
def execSwxBufThrWrite (path : Path) (data : Word) (s : State) : Host.Outcome State Fault Refusal :=
  runCmd s (fun s => s.doSwxBufThrWrite path data)

/-- SWX_SPILL_WRITE (R237). -/
def execSwxSpillWrite (path : Path) (data : Word) (s : State) : Host.Outcome State Fault Refusal :=
  runCmd s (fun s => s.doSwxSpillWrite path data)

/-- MOVE_LIST_ARM (R243). -/
def execMoveListArm (path : Path) (data : Word) (s : State) : Host.Outcome State Fault Refusal :=
  runCmd s (fun s => s.doMoveListArm path data)

/-- MOVE_LIST_READ_AHEAD (R243). -/
def execMoveListReadAhead (mlist : BitVec 32) (s : State) : Host.Outcome State Fault Refusal :=
  runCmd s (fun s => s.doMoveListReadAhead mlist)

/-- MOVE_LIST_INJECT (R244). -/
def execMoveListInject (mlist : BitVec 32) (s : State) : Host.Outcome State Fault Refusal :=
  runCmd s (fun s => s.doMoveListInject mlist)

end Sys2Proof.Machine
end

