-- ==== Sys2Proof/Machine/ExecTwin.lean ====
section
/-!
DEFINITION. The meanings of the commands of spec/17_determinism_and_replay.md: each is its effect (State.do...)
and what follows from it on the rest of the device.
-/
namespace Sys2Proof.Machine

/-- ALIGNMENT_ATTEMPT (R389). -/
def execAlignmentAttempt (depths : List (Option (Fin 16))) (s : State) : Host.Outcome State Fault Refusal :=
  runCmd s (fun s => s.doAlignmentAttempt depths)

/-- CDC_SLIP (R391). -/
def execCdcSlip (crossing : Fin 204) (damaged : List (Nat × Nat)) (s : State) : Host.Outcome State Fault Refusal :=
  runCmd s (fun s => s.doCdcSlip crossing damaged)

/-- TWN_ENABLE (R393). -/
def execTwnEnable (path : Path) (data : Word) (s : State) : Host.Outcome State Fault Refusal :=
  runCmd s (fun s => s.doTwnEnable path data)

/-- WINDOW_RECORD_SEND (R396). -/
def execWindowRecordSend (s : State) : Host.Outcome State Fault Refusal :=
  runCmd s State.doWindowRecordSend

/-- RECORD_DEADLINE (R396). -/
def execRecordDeadline (s : State) : Host.Outcome State Fault Refusal :=
  runCmd s State.doRecordDeadline

/-- COUNTERPROOF_STOP (R396). -/
def execCounterproofStop (s : State) : Host.Outcome State Fault Refusal :=
  runCmd s State.doCounterproofStop

/-- LOCATE_ROUND (R397). -/
def execLocateRound (peer : Word) (s : State) : Host.Outcome State Fault Refusal :=
  runCmd s (fun s => s.doLocateRound peer)

/-- TWN_REL_WRITE (R395). -/
def execTwnRelWrite (path : Path) (data : Word) (s : State) : Host.Outcome State Fault Refusal :=
  runCmd s (fun s => s.doTwnRelWrite path data)

/-- GATED_TAIL_RELEASE (R395). -/
def execGatedTailRelease (s : State) : Host.Outcome State Fault Refusal :=
  runCmd s State.doGatedTailRelease

/-- TWN_DISABLE (R398). -/
def execTwnDisable (path : Path) (data : Word) (s : State) : Host.Outcome State Fault Refusal :=
  runCmd s (fun s => s.doTwnDisable path data)

end Sys2Proof.Machine
end

