-- ==== Sys2Proof/Machine/Dispatch.lean ====
section
/-!
DEFINITION. One arm per command: each is one call of its meaning.
-/
namespace Sys2Proof.Machine

/-- The effect of a command on everything but the queue of waiting commands. -/
def exec (i : Instr) (s : State) : Host.Outcome State Fault Refusal :=
  match i with
  -- spec/02_turns_and_pip_lanes.md
  | .turnBoundary => Sys2Proof.Machine.execTurnBoundary s
  | .trnStart path data => Sys2Proof.Machine.execTrnStart path data s
  | .timeRootDesignate path data => Sys2Proof.Machine.execTimeRootDesignate path data s
  | .turnMarkSend => Sys2Proof.Machine.execTurnMarkSend s
  | .turnMarkReceive lane bytes frac => Sys2Proof.Machine.execTurnMarkReceive lane bytes frac s
  | .echoReqSend => Sys2Proof.Machine.execEchoReqSend s
  | .echoReqReceive lane bytes hold => Sys2Proof.Machine.execEchoReqReceive lane bytes hold s
  | .echoRspReceive lane bytes frac => Sys2Proof.Machine.execEchoRspReceive lane bytes frac s
  | .frequencyLock => Sys2Proof.Machine.execFrequencyLock s
  | .alignTimeout => Sys2Proof.Machine.execAlignTimeout s
  | .upstreamSwitch => Sys2Proof.Machine.execUpstreamSwitch s
  | .identReceive lane => Sys2Proof.Machine.execIdentReceive lane s
  | .pipLaneDown lane cause => Sys2Proof.Machine.execPipLaneDown lane cause s
  | .pipFrameReceive lane bytes => Sys2Proof.Machine.execPipFrameReceive lane bytes s
  | .pipAckReceive lane seq => Sys2Proof.Machine.execPipAckReceive lane seq s
  | .pipNakReceive lane seq => Sys2Proof.Machine.execPipNakReceive lane seq s
  | .pipRetransmitTimeout lane => Sys2Proof.Machine.execPipRetransmitTimeout lane s
  | .hbSend => Sys2Proof.Machine.execHbSend s
  | .hbReceive lane bytes => Sys2Proof.Machine.execHbReceive lane bytes s
  | .hbMissing lane => Sys2Proof.Machine.execHbMissing lane s
  | .presenceReceive lane => Sys2Proof.Machine.execPresenceReceive lane s
  | .subtreeReceive lane => Sys2Proof.Machine.execSubtreeReceive lane s
  | .scUpReceive lane => Sys2Proof.Machine.execScUpReceive lane s
  | .scDownReceive lane => Sys2Proof.Machine.execScDownReceive lane s
  | .commitUpReceive lane => Sys2Proof.Machine.execCommitUpReceive lane s
  | .commitDownReceive lane => Sys2Proof.Machine.execCommitDownReceive lane s
  | .countsReceive lane => Sys2Proof.Machine.execCountsReceive lane s
  | .p2pReceive lane => Sys2Proof.Machine.execP2pReceive lane s
  | .resignReceive lane => Sys2Proof.Machine.execResignReceive lane s
  | .resignMemoryExpiry => Sys2Proof.Machine.execResignMemoryExpiry s
  | .domRootWrite path data => Sys2Proof.Machine.execDomRootWrite path data s
  | .rootAbsenceSweep => Sys2Proof.Machine.execRootAbsenceSweep s
  | .commaAlignment rx => Sys2Proof.Machine.execCommaAlignment rx s
  -- spec/03_fabric_addressing.md, spec/04_ronpel_transactions.md, spec/05_memory_model.md
  | .repWinAWrite path n e data => Sys2Proof.Machine.execRepWinAWrite path n e data s
  | .repWinBCWrite path n e c data => Sys2Proof.Machine.execRepWinBCWrite path n e c data s
  | .requestIssue queue req => Sys2Proof.Machine.execRequestIssue queue req s
  | .trackerWaitRelease queue => Sys2Proof.Machine.execTrackerWaitRelease queue s
  | .requestTake ep => Sys2Proof.Machine.execRequestTake ep s
  | .lineQueueService ep line => Sys2Proof.Machine.execLineQueueService ep line s
  | .hbmReadComplete line errors => Sys2Proof.Machine.execHbmReadComplete line errors s
  | .lineUnpin line => Sys2Proof.Machine.execLineUnpin line s
  | .pinnedWriteBack line => Sys2Proof.Machine.execPinnedWriteBack line s
  | .responseReceive ep => Sys2Proof.Machine.execResponseReceive ep s
  | .responseTimeout tag => Sys2Proof.Machine.execResponseTimeout tag s
  | .retrySend tag => Sys2Proof.Machine.execRetrySend tag s
  | .proofGoReceive ep => Sys2Proof.Machine.execProofGoReceive ep s
  | .parkEntryExpire ep src vc seq => Sys2Proof.Machine.execParkEntryExpire ep src vc seq s
  | .holeSkip ep src vc => Sys2Proof.Machine.execHoleSkip ep src vc s
  | .channelStateFree ep src vc => Sys2Proof.Machine.execChannelStateFree ep src vc s
  | .channelSeqReset ep dst vc => Sys2Proof.Machine.execChannelSeqReset ep dst vc s
  | .resultLogFree ep src vc seq => Sys2Proof.Machine.execResultLogFree ep src vc seq s
  | .fenceEnter queue kind scope => Sys2Proof.Machine.execFenceEnter queue kind scope s
  | .msgSendFetch q => Sys2Proof.Machine.execMsgSendFetch q s
  | .messageAbandon src id => Sys2Proof.Machine.execMessageAbandon src id s
  | .msgPoolFree path data => Sys2Proof.Machine.execMsgPoolFree path data s
  | .msgPoolCfgWrite path n ring data => Sys2Proof.Machine.execMsgPoolCfgWrite path n ring data s
  -- spec/06_plate_array.md, and READY_FLAG_POLL of spec/08_plate_operations.md
  | .pltOqTailWrite path q data => Sys2Proof.Machine.execPltOqTailWrite path q data s
  | .queueSelect => Sys2Proof.Machine.execQueueSelect s
  | .planDone => Sys2Proof.Machine.execPlanDone s
  | .writeOutStart => Sys2Proof.Machine.execWriteOutStart s
  | .strokeEnd => Sys2Proof.Machine.execStrokeEnd s
  | .roundExpire => Sys2Proof.Machine.execRoundExpire s
  | .carrySaveDone => Sys2Proof.Machine.execCarrySaveDone s
  | .carryRestoreDone => Sys2Proof.Machine.execCarryRestoreDone s
  | .operationRetire => Sys2Proof.Machine.execOperationRetire s
  | .pltAbort path data => Sys2Proof.Machine.execPltAbort path data s
  | .readyFlagPoll => Sys2Proof.Machine.execReadyFlagPoll s
  | .readyLimitExpire => Sys2Proof.Machine.execReadyLimitExpire s
  -- spec/09_collectives.md
  | .collectiveStart q => Sys2Proof.Machine.execCollectiveStart q s
  | .smallCollectiveIssue q => Sys2Proof.Machine.execSmallCollectiveIssue q s
  | .colDataReceive => Sys2Proof.Machine.execColDataReceive s
  | .colEndReceive => Sys2Proof.Machine.execColEndReceive s
  | .collectiveVote tag => Sys2Proof.Machine.execCollectiveVote tag s
  | .collectiveRecordWrite tag => Sys2Proof.Machine.execCollectiveRecordWrite tag s
  | .colResign path data => Sys2Proof.Machine.execColResign path data s
  | .collectiveTimeout tag => Sys2Proof.Machine.execCollectiveTimeout tag s
  | .readyFlagWrite tag => Sys2Proof.Machine.execReadyFlagWrite tag s
  | .moveListLateCheck q => Sys2Proof.Machine.execMoveListLateCheck q s
  | .reseq path data => Sys2Proof.Machine.execReseq path data s
  -- spec/10_switch_core.md
  | .frameReceive p struck => Sys2Proof.Machine.execFrameReceive p struck s
  | .egressAdmit e cls => Sys2Proof.Machine.execEgressAdmit e cls s
  | .egressServe e => Sys2Proof.Machine.execEgressServe e s
  | .spillReturn p => Sys2Proof.Machine.execSpillReturn p s
  | .resequencerRelease e k => Sys2Proof.Machine.execResequencerRelease e k s
  | .throttleRelease p bg => Sys2Proof.Machine.execThrottleRelease p bg s
  | .swxBufThrWrite path data => Sys2Proof.Machine.execSwxBufThrWrite path data s
  | .swxSpillWrite path data => Sys2Proof.Machine.execSwxSpillWrite path data s
  | .moveListArm path data => Sys2Proof.Machine.execMoveListArm path data s
  | .moveListReadAhead mlist => Sys2Proof.Machine.execMoveListReadAhead mlist s
  | .moveListInject mlist => Sys2Proof.Machine.execMoveListInject mlist s
  -- spec/11_routing_and_slices.md
  | .routeEntryWrite path e far ix w data => Sys2Proof.Machine.execRouteEntryWrite path e far ix w data s
  | .rtePortFarWrite path k data => Sys2Proof.Machine.execRtePortFarWrite path k data s
  | .rteEdWrite path data => Sys2Proof.Machine.execRteEdWrite path data s
  | .flipArm path data => Sys2Proof.Machine.execFlipArm path data s
  | .flipCancel path data => Sys2Proof.Machine.execFlipCancel path data s
  | .editionFlip => Sys2Proof.Machine.execEditionFlip s
  | .curWrite path data => Sys2Proof.Machine.execCurWrite path data s
  | .admitWrite path data => Sys2Proof.Machine.execAdmitWrite path data s
  | .sliceWrite path data => Sys2Proof.Machine.execSliceWrite path data s
  | .nbrExpWrite path p data => Sys2Proof.Machine.execNbrExpWrite path p data s
  -- spec/12_vangeri_links.md
  | .lossOfSignal p lanes => Sys2Proof.Machine.execLossOfSignal p lanes s
  | .linkDown p cause => Sys2Proof.Machine.execLinkDown p cause s
  | .detectSignal p lanes nonce => Sys2Proof.Machine.execDetectSignal p lanes nonce s
  | .trainDone p own peer lanes => Sys2Proof.Machine.execTrainDone p own peer lanes s
  | .polarityDone p inverted => Sys2Proof.Machine.execPolarityDone p inverted s
  | .laneOrderDone p markers => Sys2Proof.Machine.execLaneOrderDone p markers s
  | .deskewDone p skew => Sys2Proof.Machine.execDeskewDone p skew s
  | .fecLockDone p => Sys2Proof.Machine.execFecLockDone p s
  | .identCodewordReceive p ident => Sys2Proof.Machine.execIdentCodewordReceive p ident s
  | .creditInitReceive p limits echoed => Sys2Proof.Machine.execCreditInitReceive p limits echoed s
  | .bringupTimeout p => Sys2Proof.Machine.execBringupTimeout p s
  | .bringupRetry p => Sys2Proof.Machine.execBringupRetry p s
  | .codewordTransmit p => Sys2Proof.Machine.execCodewordTransmit p s
  | .codewordReceive p line corrected => Sys2Proof.Machine.execCodewordReceive p line corrected s
  | .ackTimeout p => Sys2Proof.Machine.execAckTimeout p s
  | .quiet p => Sys2Proof.Machine.execQuiet p s
  | .quietEnter p => Sys2Proof.Machine.execQuietEnter p s
  | .quietExit p => Sys2Proof.Machine.execQuietExit p s
  | .deepIdle p => Sys2Proof.Machine.execDeepIdle p s
  | .stateReqWrite path p data => Sys2Proof.Machine.execStateReqWrite path p data s
  | .loopSelect path p data => Sys2Proof.Machine.execLoopSelect path p data s
  | .portEnClear path p data => Sys2Proof.Machine.execPortEnClear path p data s
  | .feLoopReq p => Sys2Proof.Machine.execFeLoopReq p s
  | .feLoopGrant p => Sys2Proof.Machine.execFeLoopGrant p s
  | .feLoopDeny p => Sys2Proof.Machine.execFeLoopDeny p s
  -- spec/13_hbm_and_hatch_code.md
  | .sweepStart path data => Sys2Proof.Machine.execSweepStart path data s
  | .sweepSlot => Sys2Proof.Machine.execSweepSlot s
  | .hbmInit path data => Sys2Proof.Machine.execHbmInit path data s
  | .encEnWrite path data => Sys2Proof.Machine.execEncEnWrite path data s
  | .hatchModeWrite path data => Sys2Proof.Machine.execHatchModeWrite path data s
  | .retire path n data => Sys2Proof.Machine.execRetire path n data s
  | .rearm path n data => Sys2Proof.Machine.execRearm path n data s
  | .refreshSlot => Sys2Proof.Machine.execRefreshSlot s
  | .scrubSlot t struck => Sys2Proof.Machine.execScrubSlot t struck s
  | .wearSlot t => Sys2Proof.Machine.execWearSlot t s
  | .repairSlot t pc spareLeft => Sys2Proof.Machine.execRepairSlot t pc spareLeft s
  | .hardRepair t pc row => Sys2Proof.Machine.execHardRepair t pc row s
  | .stackIdentityRead t mfr part date height density hardLeft => Sys2Proof.Machine.execStackIdentityRead t mfr part date height density hardLeft s
  -- spec/14_host_attach.md, and the BAR2 and send-ring rows of spec/03_fabric_addressing.md and this chapter
  | .bar2Read a tag off len => Sys2Proof.Machine.execBar2Read a tag off len s
  | .bar2Write a off data poison => Sys2Proof.Machine.execBar2Write a off data poison s
  | .bar2Atomic a tag off op => Sys2Proof.Machine.execBar2Atomic a tag off op s
  | .msgQTailWrite path q data => Sys2Proof.Machine.execMsgQTailWrite path q data s
  | .dbTail a q pasid data => Sys2Proof.Machine.execDbTail a q pasid data s
  | .dbFence a q pasid data => Sys2Proof.Machine.execDbFence a q pasid data s
  | .dbDma a q pasid data => Sys2Proof.Machine.execDbDma a q pasid data s
  | .dmaDescriptorFetch a j => Sys2Proof.Machine.execDmaDescriptorFetch a j s
  | .dmaPageMove a j => Sys2Proof.Machine.execDmaPageMove a j s
  | .dmaTileFlag a j => Sys2Proof.Machine.execDmaTileFlag a j s
  | .hostReadCompletion a tag reply => Sys2Proof.Machine.execHostReadCompletion a tag reply s
  | .hostCompletionTimeout a tag => Sys2Proof.Machine.execHostCompletionTimeout a tag s
  | .atsTranslationResponse a pasid page result => Sys2Proof.Machine.execAtsTranslationResponse a pasid page result s
  | .atsInvalidateRequest a itag pasid => Sys2Proof.Machine.execAtsInvalidateRequest a itag pasid s
  | .invalidateCompletion a => Sys2Proof.Machine.execInvalidateCompletion a s
  | .atcInv path a data => Sys2Proof.Machine.execAtcInv path a data s
  | .atcInvAll path a data => Sys2Proof.Machine.execAtcInvAll path a data s
  | .pageRequestGroupResponse a group code => Sys2Proof.Machine.execPageRequestGroupResponse a group code s
  | .peerHoldTimeout a => Sys2Proof.Machine.execPeerHoldTimeout a s
  | .resumePri path a data => Sys2Proof.Machine.execResumePri path a data s
  | .faultBatch a => Sys2Proof.Machine.execFaultBatch a s
  | .faultResume path a data => Sys2Proof.Machine.execFaultResume path a data s
  | .faultAbandon path a data => Sys2Proof.Machine.execFaultAbandon path a data s
  | .attachLinkDown a => Sys2Proof.Machine.execAttachLinkDown a s
  | .pcieConventionalReset a => Sys2Proof.Machine.execPcieConventionalReset a s
  | .ideIntegrityFail a stream => Sys2Proof.Machine.execIdeIntegrityFail a stream s
  | .getVersion a => Sys2Proof.Machine.execGetVersion a s
  | .getCapabilities a => Sys2Proof.Machine.execGetCapabilities a s
  | .negotiateAlgorithms a offered => Sys2Proof.Machine.execNegotiateAlgorithms a offered s
  | .getDigests a => Sys2Proof.Machine.execGetDigests a s
  | .getCertificate a slot off len => Sys2Proof.Machine.execGetCertificate a slot off len s
  | .challenge a slot nonce => Sys2Proof.Machine.execChallenge a slot nonce s
  | .getMeasurements a index nonce => Sys2Proof.Machine.execGetMeasurements a index nonce s
  | .keyExchange a share => Sys2Proof.Machine.execKeyExchange a share s
  | .finish a ok => Sys2Proof.Machine.execFinish a ok s
  | .endSession a => Sys2Proof.Machine.execEndSession a s
  | .keyUpdate a => Sys2Proof.Machine.execKeyUpdate a s
  | .vendorDefinedRequest a msg => Sys2Proof.Machine.execVendorDefinedRequest a msg s
  | .attachLinkUp a flit speed width => Sys2Proof.Machine.execAttachLinkUp a flit speed width s
  | .configurationRequest a req => Sys2Proof.Machine.execConfigurationRequest a req s
  -- spec/15_ilnyx_cores.md
  | .fabricWindowAccess n pa access => Sys2Proof.Machine.execFabricWindowAccess n pa access s
  | .ilxCFenceWrite path n data => Sys2Proof.Machine.execIlxCFenceWrite path n data s
  | .watchdogExpire => Sys2Proof.Machine.execWatchdogExpire s
  | .watchdogWrite path data => Sys2Proof.Machine.execWatchdogWrite path data s
  | .info a => Sys2Proof.Machine.execInfo a s
  | .kernelLoad a => Sys2Proof.Machine.execKernelLoad a s
  | .kernelStart a => Sys2Proof.Machine.execKernelStart a s
  | .kernelStop a => Sys2Proof.Machine.execKernelStop a s
  | .kernelStatus a => Sys2Proof.Machine.execKernelStatus a s
  | .telCfg a => Sys2Proof.Machine.execTelCfg a s
  | .mbReservedCommand a => Sys2Proof.Machine.execMbReservedCommand a s
  | .mbRsp0Write a => Sys2Proof.Machine.execMbRsp0Write a s
  | .submit n queue tail => Sys2Proof.Machine.execSubmit n queue tail s
  | .fence n queue kind scope => Sys2Proof.Machine.execFence n queue kind scope s
  | .laststat n => Sys2Proof.Machine.execLaststat n s
  | .exit n code => Sys2Proof.Machine.execExit n code s
  | .kernelException n cause => Sys2Proof.Machine.execKernelException n cause s
  | .telemetrySample addr count => Sys2Proof.Machine.execTelemetrySample addr count s
  -- spec/16_security_and_isolation.md
  | .secLock path data => Sys2Proof.Machine.execSecLock path data s
  | .boundSetLoad path data => Sys2Proof.Machine.execBoundSetLoad path data s
  | .boundSetLoadDone e => Sys2Proof.Machine.execBoundSetLoadDone e s
  | .unload path data => Sys2Proof.Machine.execUnload path data s
  | .burnishStart path data => Sys2Proof.Machine.execBurnishStart path data s
  | .burnishDiscardDone => Sys2Proof.Machine.execBurnishDiscardDone s
  | .burnishReadback allZero => Sys2Proof.Machine.execBurnishReadback allZero s
  | .burnishEnd => Sys2Proof.Machine.execBurnishEnd s
  -- spec/17_determinism_and_replay.md
  | .alignmentAttempt depths => Sys2Proof.Machine.execAlignmentAttempt depths s
  | .cdcSlip crossing damaged => Sys2Proof.Machine.execCdcSlip crossing damaged s
  | .twnEnable path data => Sys2Proof.Machine.execTwnEnable path data s
  | .windowRecordSend => Sys2Proof.Machine.execWindowRecordSend s
  | .recordDeadline => Sys2Proof.Machine.execRecordDeadline s
  | .counterproofStop => Sys2Proof.Machine.execCounterproofStop s
  | .locateRound peer => Sys2Proof.Machine.execLocateRound peer s
  | .twnRelWrite path data => Sys2Proof.Machine.execTwnRelWrite path data s
  | .gatedTailRelease => Sys2Proof.Machine.execGatedTailRelease s
  | .twnDisable path data => Sys2Proof.Machine.execTwnDisable path data s
  -- spec/18_faults_and_resilience.md
  | .parkDrain => Sys2Proof.Machine.execParkDrain s
  | .headHWrite path data => Sys2Proof.Machine.execHeadHWrite path data s
  | .headFWrite path data => Sys2Proof.Machine.execHeadFWrite path data s
  | .vectorCoalesceExpire => Sys2Proof.Machine.execVectorCoalesceExpire s
  | .fltFenceWrite path k data => Sys2Proof.Machine.execFltFenceWrite path k data s
  | .fenceNoticeReceive => Sys2Proof.Machine.execFenceNoticeReceive s
  | .standinNoticeReceive => Sys2Proof.Machine.execStandinNoticeReceive s
  | .rejoinNoticeReceive => Sys2Proof.Machine.execRejoinNoticeReceive s
  | .standin path data => Sys2Proof.Machine.execStandin path data s
  | .standinTakeNumber => Sys2Proof.Machine.execStandinTakeNumber s
  | .standinRefresh => Sys2Proof.Machine.execStandinRefresh s
  | .rejoin path data => Sys2Proof.Machine.execRejoin path data s
  | .rejoinTimeout => Sys2Proof.Machine.execRejoinTimeout s
  | .budgetRefill => Sys2Proof.Machine.execBudgetRefill s
  -- spec/19_bringup_and_identity.md
  | .resetNAssert => Sys2Proof.Machine.execResetNAssert s
  | .resetNRelease lowTurns => Sys2Proof.Machine.execResetNRelease lowTurns s
  | .pllLock => Sys2Proof.Machine.execPllLock s
  | .cimReadDone bytes => Sys2Proof.Machine.execCimReadDone bytes s
  | .firmwareVerify slotA slotB => Sys2Proof.Machine.execFirmwareVerify slotA slotB s
  | .claim bytes => Sys2Proof.Machine.execClaim bytes s
  | .assign bytes held fixed => Sys2Proof.Machine.execAssign bytes held fixed s
  | .cmd bytes => Sys2Proof.Machine.execCmd bytes s
  | .rsp bytes => Sys2Proof.Machine.execRsp bytes s
  | .cimWriteBack => Sys2Proof.Machine.execCimWriteBack s
  | .oobWrite bytes pecOk => Sys2Proof.Machine.execOobWrite bytes pecOk s
  | .oobRead bytes pecOk => Sys2Proof.Machine.execOobRead bytes pecOk s
  | .moduleInsert cage lower upper => Sys2Proof.Machine.execModuleInsert cage lower upper s
  | .moduleIdentityRead cage read => Sys2Proof.Machine.execModuleIdentityRead cage read s
  | .cageAccess path data byte => Sys2Proof.Machine.execCageAccess path data byte s
  | .cimAccessRead path data byte => Sys2Proof.Machine.execCimAccessRead path data byte s
  | .cimAccessWrite path data => Sys2Proof.Machine.execCimAccessWrite path data s
  | .kfOverride path data => Sys2Proof.Machine.execKfOverride path data s
  | .detach path data => Sys2Proof.Machine.execDetach path data s
  | .detached => Sys2Proof.Machine.execDetached s
  -- spec/20_power_package_pins.md
  | .pmbusPoll answers => Sys2Proof.Machine.execPmbusPoll answers s
  | .pmbAlert status => Sys2Proof.Machine.execPmbAlert status s
  | .pmbAccess path data answer => Sys2Proof.Machine.execPmbAccess path data answer s
  | .arrayRampEnd => Sys2Proof.Machine.execArrayRampEnd s
  | .droopTrip => Sys2Proof.Machine.execDroopTrip s
  | .stretchEnd => Sys2Proof.Machine.execStretchEnd s
  | .freezeEnd => Sys2Proof.Machine.execFreezeEnd s
  | .thermalSample sensors temps => Sys2Proof.Machine.execThermalSample sensors temps s
  | .thermtrip sensor => Sys2Proof.Machine.execThermtrip sensor s
  | .dutyWindowStart => Sys2Proof.Machine.execDutyWindowStart s
  | .dutyOnWrite path data => Sys2Proof.Machine.execDutyOnWrite path data s
  | .pwrWarn => Sys2Proof.Machine.execPwrWarn s
  | .warnStrokeLimit => Sys2Proof.Machine.execWarnStrokeLimit s
  | .warnDetach => Sys2Proof.Machine.execWarnDetach s
  | .warnRelease => Sys2Proof.Machine.execWarnRelease s
  -- spec/21_register_pages.md
  | .registerWrite path acc data => Sys2Proof.Machine.execRegisterWrite path acc data s
  | .registerReadClear path acc => Sys2Proof.Machine.execRegisterReadClear path acc s
  | .srst path t ix data => Sys2Proof.Machine.execSrst path t ix data s
  | .pgLockWrite path t ix data => Sys2Proof.Machine.execPgLockWrite path t ix data s
  | .pgInjArm path t ix data => Sys2Proof.Machine.execPgInjArm path t ix data s
  | .pgCntSelWrite path t ix data => Sys2Proof.Machine.execPgCntSelWrite path t ix data s

end Sys2Proof.Machine
end

