-- ==== Sys2Proof/WellFormed.lean ====
section
/-!
DEFINITION. The commands that the world can bring about: an operand that is a list has as many entries as the event has,
and what it names is there. The machine is total on all others too.
-/
namespace Sys2Proof

/-- Lines of 128 bytes in the HBM offset space of 1,536 GiB (spec/03_fabric_addressing.md R62). -/
def hbmLines : Nat := 0x300000000

/-- Symbol errors that struck granules numbered below `n`: symbols 0 to 35 (spec/13_hbm_and_hatch_code.md R293). -/
def struckWf (n : Nat) (struck : List (Nat × SymbolErrors)) : Bool :=
  struck.all (fun g => decide (g.1 < n) && g.2.all (fun e => decide (e.1 < 36)))

/-- A request carries as many data bytes as it names, where it carries data. -/
def Request.wf (r : Request) : Bool := decide (1 ≤ r.bytes) && (r.data.length == r.bytes || r.data.isEmpty || r.data.length == 16)

/-- A codeword holds 17 granules of 32 bytes and eight credit fields. -/
def LinkCodeword.wf (w : LinkCodeword) : Bool :=
  w.granules.length == 17 && w.granules.all (fun g => g.data.length == 32) && w.credit.length == 8

/-- What a codeword's receiver sees is well formed. -/
def LineIn.wf : LineIn → Bool
  | .uncorrectable => true
  | .marker _ _ => true
  | .codeword cw _ => cw.wf

/-- A core's access moves at least one byte. -/
def CoreAccess.wf : CoreAccess → Bool
  | .load n => decide (1 ≤ n)
  | .store data => decide (1 ≤ data.length)
  | .amo _ _ => true
  | .vectorLoad size n => decide (1 ≤ size ∧ 1 ≤ n)
  | .vectorStore size data => decide (1 ≤ size ∧ 1 ≤ data.length)
  | .elementLoad size _ => decide (1 ≤ size)
  | .elementStore es => es.all (fun e => decide (1 ≤ e.2.length))
  | .amoW _ _ => true
  | .lr n => n == 4 || n == 8
  | .sc data => data.length == 4 || data.length == 8

/-- The command is well formed. -/
def Instr.wf : Instr → Bool
  | .turnBoundary => true
  | .trnStart _ _ => true
  | .timeRootDesignate _ _ => true
  | .turnMarkSend => true
  | .turnMarkReceive _ bytes _ => bytes.length == 11
  | .echoReqSend => true
  | .echoReqReceive _ bytes _ => bytes.length == 3
  | .echoRspReceive _ bytes _ => bytes.length == 7
  | .frequencyLock => true
  | .alignTimeout => true
  | .upstreamSwitch => true
  | .identReceive _ => true
  | .pipLaneDown _ _ => true
  | .pipFrameReceive _ _ => true
  | .pipAckReceive _ _ => true
  | .pipNakReceive _ _ => true
  | .pipRetransmitTimeout _ => true
  | .hbSend => true
  | .hbReceive _ bytes => bytes.length == 5
  | .hbMissing _ => true
  | .presenceReceive _ => true
  | .subtreeReceive _ => true
  | .scUpReceive _ => true
  | .scDownReceive _ => true
  | .commitUpReceive _ => true
  | .commitDownReceive _ => true
  | .countsReceive _ => true
  | .p2pReceive _ => true
  | .resignReceive _ => true
  | .resignMemoryExpiry => true
  | .domRootWrite _ _ => true
  | .rootAbsenceSweep => true
  | .commaAlignment _ => true
  | .repWinAWrite _ _ _ _ => true
  | .repWinBCWrite _ _ _ _ _ => true
  | .requestIssue _ req => req.wf
  | .trackerWaitRelease _ => true
  | .requestTake _ => true
  | .lineQueueService _ line => decide (line < hbmLines)
  | .hbmReadComplete line errors => decide (line < hbmLines) && struckWf 4 errors.struck && errors.cipher.all (fun g => decide (g < 4 * hbmLines))
  | .lineUnpin line => decide (line < hbmLines)
  | .pinnedWriteBack line => decide (line < hbmLines)
  | .responseReceive _ => true
  | .responseTimeout _ => true
  | .retrySend _ => true
  | .proofGoReceive _ => true
  | .parkEntryExpire _ _ _ _ => true
  | .holeSkip _ _ _ => true
  | .channelStateFree _ _ _ => true
  | .channelSeqReset _ _ _ => true
  | .resultLogFree _ _ _ _ => true
  | .fenceEnter _ _ _ => true
  | .msgSendFetch _ => true
  | .messageAbandon _ _ => true
  | .msgPoolFree _ _ => true
  | .msgPoolCfgWrite _ _ _ _ => true
  | .pltOqTailWrite _ _ _ => true
  | .queueSelect => true
  | .planDone => true
  | .writeOutStart => true
  | .strokeEnd => true
  | .roundExpire => true
  | .carrySaveDone => true
  | .carryRestoreDone => true
  | .operationRetire => true
  | .pltAbort _ _ => true
  | .readyFlagPoll => true
  | .readyLimitExpire => true
  | .collectiveStart _ => true
  | .smallCollectiveIssue _ => true
  | .colDataReceive => true
  | .colEndReceive => true
  | .collectiveVote _ => true
  | .collectiveRecordWrite _ => true
  | .colResign _ _ => true
  | .collectiveTimeout _ => true
  | .readyFlagWrite _ => true
  | .moveListLateCheck _ => true
  | .reseq _ _ => true
  | .frameReceive _ struck => struckWf 17 struck
  | .egressAdmit _ _ => true
  | .egressServe _ => true
  | .spillReturn _ => true
  | .resequencerRelease _ _ => true
  | .throttleRelease _ _ => true
  | .swxBufThrWrite _ _ => true
  | .swxSpillWrite _ _ => true
  | .moveListArm _ _ => true
  | .moveListReadAhead _ => true
  | .moveListInject _ => true
  | .routeEntryWrite _ _ _ _ _ _ => true
  | .rtePortFarWrite _ _ _ => true
  | .rteEdWrite _ _ => true
  | .flipArm _ _ => true
  | .flipCancel _ _ => true
  | .editionFlip => true
  | .curWrite _ _ => true
  | .admitWrite _ _ => true
  | .sliceWrite _ _ => true
  | .nbrExpWrite _ _ _ => true
  | .lossOfSignal _ _ => true
  | .linkDown _ _ => true
  | .detectSignal _ _ _ => true
  | .trainDone _ _ _ lanes => lanes.length == 4
  | .polarityDone _ _ => true
  | .laneOrderDone _ markers => decide (markers.length ≤ 4)
  | .deskewDone _ _ => true
  | .fecLockDone _ => true
  | .identCodewordReceive _ _ => true
  | .creditInitReceive _ limits _ => limits.length == 8 && limits.all (fun n => decide (n < 2 ^ 16))
  | .bringupTimeout _ => true
  | .bringupRetry _ => true
  | .codewordTransmit _ => true
  | .codewordReceive _ line corrected => line.wf && decide (corrected.length ≤ 4)
  | .ackTimeout _ => true
  | .quiet _ => true
  | .quietEnter _ => true
  | .quietExit _ => true
  | .deepIdle _ => true
  | .stateReqWrite _ _ _ => true
  | .loopSelect _ _ _ => true
  | .portEnClear _ _ _ => true
  | .feLoopReq _ => true
  | .feLoopGrant _ => true
  | .feLoopDeny _ => true
  | .sweepStart _ _ => true
  | .sweepSlot => true
  | .hbmInit _ _ => true
  | .encEnWrite _ _ => true
  | .hatchModeWrite _ _ => true
  | .retire _ _ _ => true
  | .rearm _ _ _ => true
  | .refreshSlot => true
  | .scrubSlot _ struck => struckWf (2 ^ 31) struck
  | .wearSlot _ => true
  | .repairSlot _ _ _ => true
  | .hardRepair _ _ _ => true
  | .stackIdentityRead _ _ _ _ _ _ _ => true
  | .bar2Read _ _ _ len => decide (1 ≤ len ∧ len ≤ 4096)
  | .bar2Write _ _ data _ => decide (1 ≤ data.length ∧ data.length ≤ 4096)
  | .bar2Atomic _ _ _ _ => true
  | .msgQTailWrite _ _ _ => true
  | .dbTail _ _ _ _ => true
  | .dbFence _ _ _ _ => true
  | .dbDma _ _ _ _ => true
  | .dmaDescriptorFetch _ _ => true
  | .dmaPageMove _ _ => true
  | .dmaTileFlag _ _ => true
  | .hostReadCompletion _ _ _ => true
  | .hostCompletionTimeout _ _ => true
  | .atsTranslationResponse _ _ _ _ => true
  | .atsInvalidateRequest _ _ _ => true
  | .invalidateCompletion _ => true
  | .atcInv _ _ _ => true
  | .atcInvAll _ _ _ => true
  | .pageRequestGroupResponse _ _ _ => true
  | .peerHoldTimeout _ => true
  | .resumePri _ _ _ => true
  | .faultBatch _ => true
  | .faultResume _ _ _ => true
  | .faultAbandon _ _ _ => true
  | .attachLinkDown _ => true
  | .pcieConventionalReset _ => true
  | .ideIntegrityFail _ _ => true
  | .getVersion _ => true
  | .getCapabilities _ => true
  | .negotiateAlgorithms _ _ => true
  | .getDigests _ => true
  | .getCertificate _ _ _ _ => true
  | .challenge _ _ _ => true
  | .getMeasurements _ _ _ => true
  | .keyExchange _ _ => true
  | .finish _ _ => true
  | .endSession _ => true
  | .keyUpdate _ => true
  | .vendorDefinedRequest _ _ => true
  | .attachLinkUp _ _ _ _ => true
  | .configurationRequest _ _ => true
  | .fabricWindowAccess _ _ access => access.wf
  | .ilxCFenceWrite _ _ _ => true
  | .watchdogExpire => true
  | .watchdogWrite _ _ => true
  | .info _ => true
  | .kernelLoad _ => true
  | .kernelStart _ => true
  | .kernelStop _ => true
  | .kernelStatus _ => true
  | .telCfg _ => true
  | .mbReservedCommand _ => true
  | .mbRsp0Write _ => true
  | .submit _ _ _ => true
  | .fence _ _ _ _ => true
  | .laststat _ => true
  | .exit _ _ => true
  | .kernelException _ _ => true
  | .telemetrySample _ _ => true
  | .secLock _ _ => true
  | .boundSetLoad _ _ => true
  | .boundSetLoadDone _ => true
  | .unload _ _ => true
  | .burnishStart _ _ => true
  | .burnishDiscardDone => true
  | .burnishReadback _ => true
  | .burnishEnd => true
  | .alignmentAttempt depths => depths.length == 204
  | .cdcSlip _ _ => true
  | .twnEnable _ _ => true
  | .windowRecordSend => true
  | .recordDeadline => true
  | .counterproofStop => true
  | .locateRound _ => true
  | .twnRelWrite _ _ => true
  | .gatedTailRelease => true
  | .twnDisable _ _ => true
  | .parkDrain => true
  | .headHWrite _ _ => true
  | .headFWrite _ _ => true
  | .vectorCoalesceExpire => true
  | .fltFenceWrite _ _ _ => true
  | .fenceNoticeReceive => true
  | .standinNoticeReceive => true
  | .rejoinNoticeReceive => true
  | .standin _ _ => true
  | .standinTakeNumber => true
  | .standinRefresh => true
  | .rejoin _ _ => true
  | .rejoinTimeout => true
  | .budgetRefill => true
  | .resetNAssert => true
  | .resetNRelease _ => true
  | .pllLock => true
  | .cimReadDone bytes => (match bytes with | some b => b.length == 512 | none => true)
  | .firmwareVerify _ _ => true
  | .claim _ => true
  | .assign _ _ _ => true
  | .cmd _ => true
  | .rsp _ => true
  | .cimWriteBack => true
  | .oobWrite bytes _ => bytes.length == 12
  | .oobRead bytes _ => bytes.length == 4
  | .moduleInsert _ lower upper => lower.length == 4 && upper.length == 53
  | .moduleIdentityRead _ read => (match read with | .bytes lower upper => lower.length == 4 && upper.length == 53 | .failed => true | .absent => true)
  | .cageAccess _ _ _ => true
  | .cimAccessRead _ _ _ => true
  | .cimAccessWrite _ _ => true
  | .kfOverride _ _ => true
  | .detach _ _ => true
  | .detached => true
  | .pmbusPoll answers => answers.length == 16
  | .pmbAlert status => status.length == 16
  | .pmbAccess _ _ _ => true
  | .arrayRampEnd => true
  | .droopTrip => true
  | .stretchEnd => true
  | .freezeEnd => true
  | .thermalSample sensors temps => sensors.length == 64 && temps.length == 24
  | .thermtrip _ => true
  | .dutyWindowStart => true
  | .dutyOnWrite _ _ => true
  | .pwrWarn => true
  | .warnStrokeLimit => true
  | .warnDetach => true
  | .warnRelease => true
  | .registerWrite _ acc _ => decide (1 ≤ acc.bytes)
  | .registerReadClear _ acc => decide (1 ≤ acc.bytes)
  | .srst _ _ _ _ => true
  | .pgLockWrite _ _ _ _ => true
  | .pgInjArm _ _ _ _ => true
  | .pgCntSelWrite _ _ _ _ => true

end Sys2Proof
end

