-- ==== Sys2Proof/Safety.lean ====
section
/-!
DEFINITION. What a good state of the device is, in the terms that statements use: its stores are in canonical form, and its
status fields show what they show; and when a register write reaches the register's own rule with nothing discarded.
-/
namespace Sys2Proof.Machine

/-- Registers, HBM and plate store are in canonical form. -/
def State.memoryWf (s : State) : Bool :=
  Sparse.wf regReset s.regs && Sparse.wf (fun _ => 0) s.hbm.bytes && Sparse.wf (fun _ => false) s.hbm.poison &&
    Sparse.wf (fun _ => []) s.hbm.errors && Sparse.wf (fun _ => 0) s.plate.bytes && Sparse.wf (fun _ => false) s.plate.poison

/-- The status fields show what they show: TRN_NOW.COUNT the turn counter (Table 2-10), RTE_STAT.CUR the current edition
(Table 11-6), SEC_STAT.LOCKED, MEM_ENC and CONDITIONS what R356 says. -/
abbrev State.upToDate (s : State) : Prop :=
  s.reg Reg.TRN_NOW = s.turn ∧ s.get F.RTE_STAT_CUR = s.get F.RTE_CTL_CUR ∧
  s.flag F.SEC_STAT_LOCKED = s.flag F.SEC_LOCK_LOCK ∧ s.flag F.SEC_STAT_MEM_ENC = s.memEncrypted ∧
  s.flag F.SEC_STAT_LINKS_ENC = s.linksEncrypted ∧ s.flag F.SEC_STAT_CONDITIONS = s.conditions

/-- The device is clocked, and nothing in it waits for another of its blocks. -/
abbrev State.calm (s : State) : Prop := s.stopped = false ∧ s.quiet = true ∧ s.col.active = [] ∧ s.pip.combines = []

/-- A calm device that does not meet the conditions of R356: when a command ends, no record follows from it. -/
abbrev State.steady (s : State) : Prop := s.calm ∧ s.flag F.SEC_STAT_CONDITIONS = false

/-- The registers whose status fields are brought up to date when a command ends. -/
def statusRegs : List Nat := [Reg.SEC_STAT, Reg.RTE_STAT, Reg.MGT_STAT, Reg.TRN_NOW]

/-- Every register but those listed, and but the status registers, reads in `t` as in `s`. -/
def State.sameRegs (s t : State) (but : List Nat) : Prop := ∀ a, a ∉ statusRegs → a ∉ but → t.reg a = s.reg a

/-- Every page of registers, by block type and instance (spec/21_register_pages.md Table 21-2). -/
def registerPages : List (Nat × Nat) :=
  [(1, 4), (2, 4), (3, 16), (4, 5), (5, 8), (6, 21), (7, 16), (8, 5), (9, 9), (10, 9), (11, 9), (12, 1), (13, 2), (14, 1), (15, 1),
    (16, 1), (17, 5), (18, 1)].flatMap (fun e => (List.range e.2).map (fun i => (e.1, i)))

/-! ### Register writes (R463, R468, R473) -/

/-- A write as the register's own rule sees it: every open RW and RWL field taken from the data, the W1C bits written 1
cleared, and the data's bits in open fields (R463, R473). -/
def State.writeOf (s : State) (p : Path) (a : Nat) (data : Word) : RegWrite :=
  match s.regAt a with
  | some (t, i, off, fs) =>
    let closed := s.fieldClosed p t i off
    { path := p, addr := a, old := s.reg a, new := nextValue closed fs (s.reg a) data, act := actValue closed fs data }
  | none => { path := p, addr := a, old := 0, new := 0, act := 0 }

/-- The write reaches the register's own rule with nothing discarded: the path is open, the register is there and open to the
path, and so are a field and every field that the data touches (R460, R466, R468, R473). -/
def State.writeOpen (s : State) (p : Path) (a : Nat) (data : Word) : Bool :=
  s.pathOpen p && !badAccess p a && (match s.regAt a with
    | some (t, i, off, fs) => wholeClosed p t i off == 0 && !allShut (s.fieldClosed p t i off) fs &&
        discardCode ((fs.filter (touches (s.reg a) data)).map (s.fieldClosed p t i off)) == 0
    | none => false)

/-- `s` with a write answered to its path (R462). -/
def State.written (s : State) (p : Path) : State := s.answerPath p true 0x01 0

end Sys2Proof.Machine
end

