-- ==== Sys2Proof/Certificates/Slice0/Obligations.lean ====
section
/-!
DEFINITION. The statements about the model that the provers prove. In a command's completion statement, `s.fresh` is the state
that its effect starts from, and `t.settled` is `t` with all that follows from the effect at once.
-/
open Sys2Proof Sys2Proof.Machine


/-! ### The machine -/

/-- A step takes the command at the front of the queue and runs it with the rest of the queue; with no command waiting the
device idles, which is the model's choice (notes/assumptions/1). -/
def Obligations.StepRunsTheFrontCommand : Prop :=
  (∀ (c : Instr) (rest : List Instr) (s : State),
    step { s with pending := c :: rest } = exec c { s with pending := rest }) ∧
  (∀ s : State, s.pending = [] → step s = .next s)

/-- After reset every register reads the reset value of its table, queues belong to the end-points that R14 names, nothing is
admitted, locked, filled or aligned, and nothing waits. That memory lists nothing, and so reads as zeros, is the model's choice
(notes/assumptions/4). -/
def Obligations.ResetState : Prop :=
  State.reset.pending = [] ∧ State.reset.out = [] ∧ State.reset.regs = [] ∧ State.reset.turn = 0 ∧
  State.reset.hbm.bytes = [] ∧ State.reset.plate.bytes = [] ∧ State.reset.up.pllLocked = false ∧
  (∀ a, State.reset.reg a = regReset a) ∧ State.reset.get F.RTE_CTL_ADMIT = 0 ∧ State.reset.get F.RTE_CTL_CUR = 0 ∧
  State.reset.get F.SEC_LOCK_LOCK = 0 ∧ State.reset.get F.HBM_STAT_INIT_DONE = 0 ∧ State.reset.get F.MGT_ID_VALID = 0 ∧
  State.reset.get F.TRN_STAT_ALIGNED = 0 ∧ State.reset.get F.HBM_CTL_HATCH_MODE = 0 ∧
  (∀ q, q < 256 → State.reset.owner q = some (q / 16)) ∧ (∀ q, 256 ≤ q → q < 384 → State.reset.owner q = some 17) ∧
  (∀ q, 384 ≤ q → q < 480 → State.reset.owner q = some 18) ∧ (∀ q, 480 ≤ q → q < 512 → State.reset.owner q = some 19)

/-- The invariants hold after reset: status fields show what they show, and every store is in canonical form. -/
def Obligations.InvariantsAtReset : Prop := State.reset.upToDate ∧ State.reset.memoryWf = true

/-- Every step keeps the status fields showing what they show: TRN_NOW the turn counter, RTE_STAT.CUR the current edition,
SEC_STAT what R356 says (Tables 2-10, 11-6, 16-9). -/
def Obligations.StepKeepsStatusFields : Prop :=
  ∀ s t : State, s.upToDate → step s = .next t → t.upToDate

/-- While RESET_N is low, or THERMTRIP_N latched, no command but those on the RESET_N pin changes anything (R424, R453). What
the last command put out is forgotten. -/
def Obligations.StoppedDeviceDoesNothing : Prop :=
  ∀ (c : Instr) (s : State), s.stopped = true → c ≠ .resetNAssert → (∀ n, c ≠ .resetNRelease n) →
    exec c s = .next s.fresh

/-- Every command completes in every state: none faults and none is refused. Where the spec calls a host error's result
unpredictable (R7), the command runs and what is not stated is a free value (notes/assumptions/67). -/
def Obligations.EveryCommandCompletes : Prop :=
  ∀ (c : Instr) (s : State), ∃ t, exec c s = .next t

/-! ### Codes and encodings -/

/-- A pip frame read from its bytes is that frame, with its SEQ (Table 2-4): every field at every value its bits admit. And the
line code that carries it: symbols read from the code groups that were sent for them are those symbols, at either running
disparity, which both ends then agree on (R42; the tables are IEEE 802.3's, notes/assumptions/73). -/
def Obligations.PipFrameRoundTrip : Prop :=
  (∀ (rd : Bool) (l : List Nat), l.all (fun x => decide (x < 256) || controlSymbols.contains x) = true →
    decodeGroups rd (encodeSymbols rd l).1 = (l.map some, (encodeSymbols rd l).2)) ∧
  (∀ (f : PipFrame) (seq : Nat), seq < 256 → f.type < 256 → f.op < 16 → f.slice < 256 → f.tag < 2 ^ 16 → f.srcDomain < 256 →
    f.srcMember < 128 → f.dstDomain < 256 → f.dstMember < 128 → f.count < 2 ^ 16 →
    (f.data.length ≤ 8 ∨ f.data.length = 16 ∨ f.data.length = 32 ∨ f.data.length = 64) →
    pipParse (f.bytes seq) = some (seq, f))

/-- A fabric frame read from its header granule and its data granules is that frame (Table 4-2): every field at every value its
bits admit, reserved bits among them. -/
def Obligations.FrameHeaderRoundTrip : Prop :=
  ∀ f : Frame, f.opcode < 2 ^ 8 → f.vc < 8 → f.edition < 2 → f.reserved < 2 ^ 8 → f.slice < 2 ^ 8 → f.src < 2 ^ 20 →
    f.dst < 2 ^ 20 → f.tag < 2 ^ 18 → f.status < 2 ^ 8 → f.seq < 2 ^ 32 → f.addr < 2 ^ 64 → f.bytes < 2 ^ 9 → f.xfmt < 8 →
    f.gran.length < 16 → f.tries < 2 ^ 8 → f.injTurn < 2 ^ 40 →
    Frame.ofHeader f.header f.gran = f ∧ headerNgr f.header = f.gran.length

/-- The Hatch code corrects an error in any one of a granule's 36 symbols, under both decoding modes, and takes the poisoned form
for poison (R292, R293, R295, Table 13-2). -/
def Obligations.HatchCorrectsOneSymbol : Prop :=
  (∀ (mode j : Nat) (e : Byte), j < 36 → e ≠ 0 →
    hatchDecode mode (errorWord false [(j, e)]) = .corrected (List.replicate 36 0)) ∧
  (∀ mode : Nat, hatchDecode mode (errorWord true []) = .poisoned) ∧
  (∀ mode : Nat, hatchDecode mode (errorWord false []) = .good (List.replicate 36 0))

/-- HBM offsets and stack addresses: R61's formula, which names every byte of 24 stacks of 64 GiB once; a run of 48 KiB from a
48 KiB boundary touches each stack once, and so the six of each quadrant. -/
def Obligations.HbmOffsetMap : Prop :=
  (∀ off : Nat, off < hbmSize →
    hbmStack off = (off >>> 11) % 24 ∧ hbmSaddr off = (((off >>> 11) / 24) <<< 11) ||| (off &&& 0x7FF) ∧
    hbmStack off < 24 ∧ hbmSaddr off < 2 ^ 36 ∧ hbmOffset (hbmStack off) (hbmSaddr off) = off) ∧
  (∀ st sa : Nat, st < 24 → sa < 2 ^ 36 →
    hbmOffset st sa < hbmSize ∧ hbmStack (hbmOffset st sa) = st ∧ hbmSaddr (hbmOffset st sa) = sa) ∧
  hbmSize = 805306368 * 2048 ∧ 2 ^ 36 = 33554432 * 2048 ∧
  (∀ k st : Nat, st < 24 → ∃ b, b < 24 ∧ hbmStack (49152 * k + 2048 * b) = st ∧
    ∀ c, c < 24 → hbmStack (49152 * k + 2048 * c) = st → c = b) ∧
  (∀ q, q < 4 → ((List.range 24).filter (fun st => st / 6 == q)).length = 6)

/-! ### HBM -/

/-- A store to HBM whose granules hold no symbol errors reads back, and every other byte reads as before, for whoever in the
device reads it, a line's copy at the memory end-point among the places it may be read from (R104, R289, R296, R301). -/
def Obligations.HbmStoreFrame : Prop :=
  ∀ (s : State) (off : Nat) (bs : List Byte) (poison : Bool), s.hbm.errors = [] →
    s.hbm.xtsBad = [] → s.get (F.PG_INJ_KIND (pageBase 8 4)) = 0 →
    (s.hbmStore off bs poison).memBytes off bs.length = bs ∧
    (∀ a, a < off ∨ off + bs.length ≤ a → (s.hbmStore off bs poison).memByte a = s.memByte a) ∧
    (s.hbmStore off bs poison).plate = s.plate ∧
    (∀ a, (s.hbmStore off bs poison).reg a = s.reg a)

/-! ### Registers (spec/21_register_pages.md) -/

/-- The 118 pages and their addresses; an address that holds no register reads zero, discards writes, and answers Completed on
every path (R461). -/
def Obligations.RegisterPageMap : Prop :=
  registerPages.length = 118 ∧
  (∀ e ∈ registerPages, pageBase e.1 e.2 = (if e.1 = 7 then 0x1170000 + (e.2 <<< 12) else 0x1000000 + (e.1 <<< 16) + (e.2 <<< 12))) ∧
  (∀ e ∈ registerPages, ∀ off, off < 0x1000 → pageOf (pageBase e.1 e.2 + off) = some (e.1, e.2, off)) ∧
  (∀ (a : Nat) (e : Nat × Nat) (off : Nat), pageOf a = some (e.1, e.2, off) → e ∈ registerPages ∧ a = pageBase e.1 e.2 + off) ∧
  (∀ a, a < 16 → fieldGet (State.reset.regRead (pageBase 7 a)) 23 16 = 7) ∧
  (∀ (s : State) (p : Path) (addr : BitVec 32), s.stopped = false → s.pathOpen p = true → badAccess p addr.toNat = false →
    s.regAt addr.toNat = none →
    exec (.registerReadClear p ⟨addr, 8⟩) s = .next (s.fresh.answerPath p false 0x01 0).settled ∧
    ∀ data : Word, exec (.registerWrite p ⟨addr, 8⟩ data) s = .next (s.fresh.answerPath p true 0x01 0).settled)

/-- What a write makes of each field of each register, by its access code, before the register's own rule (Table 21-3, R463,
R473): a closed field, and one that is RO, RC, W1S or WO, keeps its value; an open RW or RWL field takes the data's bits; an open
W1C field loses the bits that the data has. A read clears RC fields and no others. -/
def Obligations.FieldAccessRules : Prop :=
  (∀ (a : Nat) (fs : List FieldDesc) (f : FieldDesc) (closed : FieldDesc → Nat) (old data : Word), regFields a = some fs →
    f ∈ fs → (closed f ≠ 0 ∨ f.acc = .ro ∨ f.acc = .rc ∨ f.acc = .w1s ∨ f.acc = .wo) →
    fieldGet (nextValue closed fs old data) f.hi f.lo = fieldGet old f.hi f.lo) ∧
  (∀ (a : Nat) (fs : List FieldDesc) (f : FieldDesc) (closed : FieldDesc → Nat) (old data : Word), regFields a = some fs →
    f ∈ fs → closed f = 0 → (f.acc = .rw ∨ f.acc = .rwl) →
    fieldGet (nextValue closed fs old data) f.hi f.lo = fieldGet data f.hi f.lo) ∧
  (∀ (a : Nat) (fs : List FieldDesc) (f : FieldDesc) (closed : FieldDesc → Nat) (old data : Word) (k : Nat),
    regFields a = some fs → f ∈ fs → closed f = 0 → f.acc = .w1c → f.lo ≤ k → k ≤ f.hi →
    (nextValue closed fs old data).getLsbD k = (old.getLsbD k && !data.getLsbD k)) ∧
  (∀ (a : Nat) (fs : List FieldDesc) (f : FieldDesc) (v : Word), regFields a = some fs → f ∈ fs →
    fieldGet (resetFields fs (fun c => c == .rc) 0 v) f.hi f.lo = (if f.acc = .rc then 0 else fieldGet v f.hi f.lo)) ∧
  (∀ (s : State) (p : Path) (t i off : Nat) (f : FieldDesc), f.acc = .rwl → s.flag F.SEC_LOCK_LOCK = true →
    Path.management p = false → s.fieldClosed p t i off f ≠ 0)

/-! ### Faults -/

/-- Every event that calls for a record takes the next SEQ, whether its record is written, parked or dropped (R406). -/
def Obligations.FaultSequence : Prop :=
  ∀ (s : State) (cls code t i : Nat) (x : FaultArgs),
    (s.fault cls code t i x).get F.FLT_LOST_SEQ = (s.get F.FLT_LOST_SEQ + 1) % 2 ^ 32 ∧
    ∃ u : State, ∃ r : FaultRec, s.fault cls code t i x = u.fltEnter r ∧ r.seq = s.get F.FLT_LOST_SEQ ∧ r.code = code

/-- What becomes of a record (R404, R405, R407): in the ring at TAIL, which advances modulo 2N; parked; or dropped and counted. -/
def Obligations.FaultRecordPlacement : Prop :=
  -- with room and nothing parked: at FLT_Q_BASE + 64 (TAIL mod N), with the lap's parity
  (∀ (s : State) (r : FaultRec), s.fltFull = false → s.flt.park = [] → s.get F.FLT_Q_IDX_TAIL < 2 * s.fltN →
    (s.fltEnter r).memBytes (s.get F.FLT_Q_BASE_BASE * 4096 + 64 * (s.get F.FLT_Q_IDX_TAIL % s.fltN)) 64 =
      r.bytes (if s.get F.FLT_Q_IDX_TAIL < s.fltN then 1 else 0) ∧
    (s.fltEnter r).get F.FLT_Q_IDX_TAIL = (s.get F.FLT_Q_IDX_TAIL + 1) % (2 * s.fltN) ∧
    (∀ a, a < s.get F.FLT_Q_BASE_BASE * 4096 + 64 * (s.get F.FLT_Q_IDX_TAIL % s.fltN) ∨
      s.get F.FLT_Q_BASE_BASE * 4096 + 64 * (s.get F.FLT_Q_IDX_TAIL % s.fltN) + 64 ≤ a →
      (s.fltEnter r).memByte a = s.memByte a)) ∧
  -- class TRANSACTION that meets a full queue or parked records: parked last, up to 1,024
  (∀ (s : State) (r : FaultRec), r.cls = 2 → s.fltFull = true ∨ s.flt.park ≠ [] →
    (s.fltEnter r).flt.park = (if s.flt.park.length < 1024 then s.flt.park ++ [r] else s.flt.park) ∧
    (s.fltEnter r).hbm = s.hbm) ∧
  -- any other class that meets a full queue: dropped, counted, OVERFLOW set
  (∀ (s : State) (r : FaultRec), r.cls ≠ 2 → s.fltFull = true →
    (s.fltEnter r).get F.FLT_LOST_COUNT = min (2 ^ 32 - 1) (s.get F.FLT_LOST_COUNT + 1) ∧
    (s.fltEnter r).flag F.FLT_STAT_OVERFLOW = true ∧ (s.fltEnter r).flt.park = s.flt.park ∧ (s.fltEnter r).hbm = s.hbm)

/-! ### Frames: what commands leave unchanged -/

/-- In a calm device nothing follows from a command's effect but the status fields; and they change SEC_STAT, RTE_STAT,
MGT_STAT and TRN_NOW alone where no record is called for. Together with a command's completion statement this is its frame. -/
def Obligations.NothingFollowsInACalmDevice : Prop :=
  (∀ s : State, s.calm → s.settled = s.seal) ∧
  (∀ s : State, s.flag F.SEC_STAT_CONDITIONS = false → s.sameRegs s.seal [] ∧ s.seal = { s with regs := s.seal.regs })

/-- Register writes whose effect is the register alone, and for MGT_CIM_ACC the device's copy of the carrier identity memory:
every other register and everything else in the device is unchanged,
every byte of HBM and plate store among it. -/
def Obligations.RegisterWriteFrames : Prop :=
  ∀ (s t : State) (p : Path) (data : Word), s.steady →
    (s.writeOpen p Reg.FLT_Q_IDX data = true → exec (.headHWrite p data) s = .next t →
      s.sameRegs t [Reg.FLT_Q_IDX] ∧ t = { s with regs := t.regs, out := t.out }) ∧
    (s.writeOpen p Reg.FLT_Q_HEADF data = true → exec (.headFWrite p data) s = .next t →
      s.sameRegs t [Reg.FLT_Q_HEADF] ∧ t = { s with regs := t.regs, out := t.out }) ∧
    (s.writeOpen p Reg.SEC_LOCK data = true → exec (.secLock p data) s = .next t →
      s.sameRegs t [Reg.SEC_LOCK] ∧ t = { s with regs := t.regs, out := t.out }) ∧
    (s.writeOpen p Reg.PWR_THERM data = true → (s.writeOf p Reg.PWR_THERM data).newF F.PWR_THERM_DUTY_ON ≤ s.pwr.classDuty →
      exec (.dutyOnWrite p data) s = .next t →
      s.sameRegs t [Reg.PWR_THERM] ∧ t = { s with regs := t.regs, out := t.out }) ∧
    (s.writeOpen p Reg.MGT_CIM_ACC data = true → exec (.cimAccessWrite p data) s = .next t →
      s.sameRegs t [Reg.MGT_CIM_ACC] ∧ t.up = { s.up with cimNow := t.up.cimNow } ∧
      t = { s with regs := t.regs, up := t.up, out := t.out }) ∧
    (∀ byte, s.writeOpen p Reg.MGT_CAGE_ACC data = true → exec (.cageAccess p data byte) s = .next t →
      s.sameRegs t [Reg.MGT_CAGE_ACC] ∧ t = { s with regs := t.regs, out := t.out })

/-- Commands whose effect is a few registers and their block's own state: every other register and everything else in the
device is unchanged, every byte of HBM and plate store among it. -/
def Obligations.EventFrames : Prop :=
  ∀ s t : State, s.steady →
    -- mailbox requests: RSP registers and the answer
    (∀ a : Fin 16, exec (.info a) s = .next t ∨ exec (.kernelStatus a) s = .next t ∨ exec (.telCfg a) s = .next t ∨
        exec (.mbReservedCommand a) s = .next t →
      s.sameRegs t ((List.range 8).map (Reg.ILX_MB_RSP a)) ∧ t = { s with regs := t.regs, ilx := t.ilx, out := t.out }) ∧
    (∀ a : Fin 16, exec (.mbRsp0Write a) s = .next t →
      s.sameRegs t [Reg.ILX_MB_RSP a 0, Reg.ILX_MB_CTL a] ∧ t = { s with regs := t.regs, ilx := t.ilx, out := t.out }) ∧
    -- kernel calls that read: nothing but what the core is told
    (∀ n, exec (.laststat n) s = .next t → s.sameRegs t [] ∧ t = { s with regs := t.regs, out := t.out }) ∧
    -- rails: PWR_RAIL, and the count of missed polls
    (∀ status, exec (.pmbAlert status) s = .next t →
      s.sameRegs t ((List.range 16).map Reg.PWR_RAIL) ∧ t.pwr = { s.pwr with misses := t.pwr.misses } ∧
      t = { s with regs := t.regs, pwr := t.pwr, out := t.out }) ∧
    -- array ramps, detachment, stand-in tokens, rejoin: one register each
    (exec .arrayRampEnd s = .next t → s.sameRegs t [Reg.PWR_STAT] ∧ t = { s with regs := t.regs, out := t.out }) ∧
    (exec .detached s = .next t → s.sameRegs t [] ∧ t = { s with regs := t.regs, out := t.out }) ∧
    (exec .budgetRefill s = .next t → s.sameRegs t [Reg.FLT_BUDGET] ∧ t = { s with regs := t.regs, flt := t.flt, out := t.out }) ∧
    (exec .rejoinTimeout s = .next t → s.sameRegs t [Reg.FLT_REJOIN] ∧ t = { s with regs := t.regs, flt := t.flt, out := t.out }) ∧
    -- reset pin low
    (exec .resetNAssert s = .next t → s.sameRegs t [] ∧ t = { s with regs := t.regs, up := t.up, out := t.out })

/-- TELEMETRY_SAMPLE stores its record's 64 bytes at the ring's next place, and every other byte of HBM, the plate store and every
register but those it samples reads as before (R350), where no injection is armed that would strike what it reads. -/
def Obligations.TelemetryFrame : Prop :=
  ∀ (s t : State) (addr : BitVec 32) (count : Fin 7) (off log2 : Nat), s.steady →
    s.ilx.ring = some (off, log2) → s.hbm.xtsBad = [] → s.flag (F.PG_INJ_ARM (pageBase 17 0)) = false → (off + 64 * (s.ilx.written % 2 ^ log2)) % 32 = 0 →
    exec (.telemetrySample addr count) s = .next t →
    (∀ a, a < off + 64 * (s.ilx.written % 2 ^ log2) ∨ off + 64 * (s.ilx.written % 2 ^ log2) + 64 ≤ a →
      t.memByte a = s.memByte a) ∧
    t.plate = s.plate ∧ s.sameRegs t ((List.range 6).map (fun k => addr.toNat + 8 * k))

/-! ### Turn time and the pip lanes (spec/02_turns_and_pip_lanes.md) -/

/-- The turn counter and the ordered sets that keep time (R30, R33, R35, R36, R37, R39): what each command does where its
trigger is met. -/
def Obligations.TurnTimeCommandsComplete : Prop :=
  -- TURN_BOUNDARY: the events of the turn that ends are made, what the lanes send in it leaves them, and the counter increments
  (∀ s e : State, s.stopped = false → s.fresh.turnEvents = e → e.counting = true → e.pip.load = none →
    exec .turnBoundary s = .next (let t := e.pipTick
      ({ t with
        clk := t.clk + 1
        turn := e.turn + 1
        counting := t.counting || t.pip.load.isSome
        pip := { t.pip with load := none } } : State).nbrTurn.powerTick.countTurnPages.countHeldTurns.pipLoops).settled) ∧
  -- TURN_BOUNDARY: the counter takes the value that a first turn mark gave it
  (∀ (s e : State) (v : Word), s.stopped = false → s.fresh.turnEvents = e → e.pip.load = some v →
    exec .turnBoundary s = .next (let t := e.pipTick
      ({ t with
        clk := t.clk + 1
        turn := v
        counting := t.counting || t.pip.load.isSome
        pip := { t.pip with load := none } } : State).nbrTurn.powerTick.countTurnPages.countHeldTurns.pipLoops).settled) ∧
  -- TURN_MARK_SEND: a mark on every downstream lane, with the turn and the hop count
  (∀ s : State, s.stopped = false → s.flag F.TRN_STAT_ALIGNED = true → s.now % 1000 = 0 →
    exec .turnMarkSend s = .next (s.downLanes.foldl (fun t n =>
      t.pipEmit n (.turnMark n (withCrc (toBytesLE 8 t.now ++ toBytesLE 1 (t.get F.TRN_STAT_HOPS))))) s.fresh).settled) ∧
  -- TURN_MARK_RECEIVE: after 16 echo exchanges in lock the first good mark gives the counter its next value
  (∀ (s : State) (lane : Fin 16) (bytes d : List Byte) (frac : Fin 1024), s.stopped = false → s.laneIsUp lane = true →
    checkCrc 9 bytes = some d → s.follower = true → s.priUp = some lane.val → s.upLane = some lane.val →
    s.flag F.TRN_STAT_SYNC_LOST = false → s.pip.loaded = false → s.flag F.TRN_STAT_LOCKED = true →
    16 ≤ (s.lane lane).echos → s.farLoop lane = false → s.nearLoop lane = false →
    exec (.turnMarkReceive lane bytes frac) s =
      .next (let m := s.fresh.setLane lane { s.lane lane with lastMark := s.clk }
        let t := m.put F.TRN_STAT_HOPS (bytesAt d 8 1 + 1)
        ({ t with pip := { t.pip with
          loaded := true
          load := some (BitVec.ofNat 64 (bytesAt d 0 8 + s.get F.TRN_DELAY_DELAY / 1024))
          alignAt := some (s.clk + 1) } } : State)).settled) ∧
  -- ECHO_REQ_SEND: at 500 past a multiple of 1,000, on the primary upstream lane
  (∀ (s : State) (n : Nat), s.stopped = false → s.follower = true → s.counting = true → s.now % 1000 = 500 →
    s.priUp = some n → s.altUp = none → s.laneIsUp n = true →
    exec .echoReqSend s = .next ((({ s.fresh with pip := { s.pip with eseq := (s.pip.eseq + 1) % 256 } } : State).setLane n
      { s.lane n with echo := some (s.pip.eseq, s.clk * 1024) }).pipEmit n
        (.echoReq n (withCrc (toBytesLE 1 s.pip.eseq)))).settled) ∧
  -- ECHO_REQ_RECEIVE: answered with the hold time
  (∀ (s : State) (lane : Fin 16) (bytes d : List Byte) (hold : BitVec 32), s.stopped = false → s.laneIsUp lane = true →
    checkCrc 1 bytes = some d → s.farLoop lane = false → s.nearLoop lane = false →
    exec (.echoReqReceive lane bytes hold) s =
      .next (s.fresh.pipEmit lane (.echoRsp lane (withCrc (d ++ toBytesLE 4 hold.toNat)))).settled) ∧
  -- ECHO_RSP_RECEIVE: D = (t4 - t1 - HOLD) / 2, and TRN_DELAY the mean of the last 16
  (∀ (s : State) (lane : Fin 16) (bytes d : List Byte) (frac : Fin 1024) (e t1 : Nat), s.stopped = false →
    s.laneIsUp lane = true → checkCrc 5 bytes = some d → (s.lane lane).echo = some (e, t1) → e = bytesAt d 0 1 →
    s.upLane = some lane.val → s.farLoop lane = false → s.nearLoop lane = false →
    exec (.echoRspReceive lane bytes frac) s =
      .next (let ds := ((s.clk * 1024 + frac.val - t1 - bytesAt d 1 4) / 2 :: (s.lane lane).delays).take 16
        (s.fresh.setLane lane { s.lane lane with
          echo := none
          delays := ds
          echos := if s.flag F.TRN_STAT_LOCKED then (s.lane lane).echos + 1 else (s.lane lane).echos }).put F.TRN_DELAY_DELAY (meanOf ds)).settled) ∧
  -- FREQUENCY_LOCK: echo exchanges are counted from here
  (∀ (s : State) (n : Nat), s.stopped = false → s.upLane = some n → s.follower = true → s.laneIsUp n = true →
    s.flag F.TRN_STAT_LOCKED = false →
    exec .frequencyLock s =
      .next ((s.fresh.putFlag F.TRN_STAT_LOCKED true).setLane n { s.lane n with echos := 0 }).settled) ∧
  -- ALIGN_TIMEOUT: synchronisation is lost with cause 1
  (∀ (s : State) (n : Nat), s.stopped = false → s.upLane = some n → s.follower = true → s.laneIsUp n = true →
    s.flag F.TRN_STAT_ALIGNED = false → s.flag F.TRN_STAT_SYNC_LOST = false → (s.lane n).upAt + 1000000 ≤ s.clk →
    exec .alignTimeout s = .next (s.fresh.syncLost 1).settled) ∧
  -- UPSTREAM_SWITCH: the alternate lane comes into use
  (∀ (s : State) (p a : Nat), s.stopped = false → s.priUp = some p → s.altUp = some a → s.follower = true →
    s.flag F.TRN_STAT_ALT_IN_USE = false → s.laneIsUp a = true → s.laneIsUp p = false → (s.lane a).delays ≠ [] →
    exec .upstreamSwitch s = .next (((s.fresh.putFlag F.TRN_STAT_ALT_IN_USE true).put F.TRN_DELAY_DELAY
      (meanOf (s.lane a).delays)).upstreamChanged).settled)

/-- Alignment of a lane, the frames on it and their link retry (R43, R46). -/
def Obligations.PipLaneCommandsComplete : Prop :=
  -- COMMA_ALIGNMENT: aligned to the first comma; the code groups from it on are received, and an IDENT goes out once 64
  -- valid idle sets have come
  (∀ (s : State) (lane : Fin 16) (bits b : List Bool) (rd : Bool), s.stopped = false → s.flag (F.PIP_CTL_EN lane) = true →
    s.flag (F.PIP_STAT_ALIGNED lane) = false → s.nearLoop lane = false → fromComma bits = some (rd, b) →
    exec (.commaAlignment ⟨lane, bits⟩) s =
      .next ((((s.fresh.putFlag (F.PIP_STAT_ALIGNED lane) true).setLane lane { s.lane lane with
        rdRx := rd
        idles := 0 }).receiveGroups lane (groupsOfBits b)).sendIdent lane).settled) ∧
  -- IDENT_RECEIVE: the peer's identity is kept, and an IDENT answers it
  (∀ (s : State) (lane : Fin 16) (f : PipFrame) (rest : List PipFrame), s.stopped = false →
    (s.lane lane).rx = f :: rest → f.type = 0x01 → f.data.length = 3 →
    exec (.identReceive lane) s =
      .next (let m := s.fresh.setLane lane { s.lane lane with rx := rest }
        let t := (m.put (F.PIP_STAT_PEER_DOMAIN lane) (bytesAt f.data 0 1)).put (F.PIP_STAT_PEER_MEMBER lane) (bytesAt f.data 1 1)
        let u := t.put (F.PIP_STAT_PEER_LANE lane) (bytesAt f.data 2 1)
        let l := { u.lane lane with
          identRcvd := true
          kids := (u.lane lane).kids.map (fun k => { k with known := false }) }
        ((u.setLane lane l).sendIdent lane).laneCheckUp lane).settled) ∧
  -- PIP_LANE_DOWN: loss of signal
  (∀ (s : State) (lane : Fin 16), s.stopped = false → s.flag (F.PIP_STAT_ALIGNED lane) = true → s.nearLoop lane = false →
    exec (.pipLaneDown lane .lossOfSignal) s = .next (s.fresh.laneDown lane).settled) ∧
  -- PIP_LANE_DOWN: 16 code violations within 1,000 turns
  (∀ (s : State) (lane : Fin 16) (groups : List (BitVec 10)) (at_ n : Nat), s.stopped = false →
    s.flag (F.PIP_STAT_ALIGNED lane) = true → s.farLoop lane = false → s.nearLoop lane = false → (s.lane lane).violations = [(at_, n)] →
    s.clk < at_ + 1000 → 16 ≤ n + ((decodeGroups (s.lane lane).rdRx groups).1.filter isViolation).length →
    0 < ((decodeGroups (s.lane lane).rdRx groups).1.filter isViolation).length →
    exec (.pipLaneDown lane (.codeViolations groups)) s =
      .next (let r := decodeGroups (s.lane lane).rdRx groups
        let k := (r.1.filter isViolation).length
        ((s.fresh.setLane lane { s.lane lane with
          rdRx := r.2
          violations := [(at_, n), (s.clk, k)]
          idles := if 64 ≤ (s.lane lane).idles then 64 else min 64 (idleRun (s.lane lane).idles r.1) }).count
            (F.PIP_ERRCNT_CODE_VIOL lane) k).laneDown lane).settled) ∧
  -- PIP_LANE_DOWN: a frame sent again four times
  (∀ (s : State) (lane : Fin 16) (u : PipUnacked), s.stopped = false →
    (s.lane lane).unacked.find? (fun u => decide (4 ≤ u.retries)) = some u →
    exec (.pipLaneDown lane .retryFailure) s = .next (s.fresh.laneFail lane u.seq).settled) ∧
  -- PIP_FRAME_RECEIVE: the frame expected next is acknowledged and kept
  (∀ (s : State) (lane : Fin 16) (bytes : List Byte) (f : PipFrame), s.stopped = false →
    s.flag (F.PIP_STAT_ALIGNED lane) = true → pipParse bytes = some ((s.lane lane).rxSeq, f) →
    pipTypes.contains f.type = true → s.farLoop lane = false → s.nearLoop lane = false →
    exec (.pipFrameReceive lane bytes) s =
      .next (let u := s.fresh.setLane lane { s.lane lane with rxSeq := ((s.lane lane).rxSeq + 1) % 256 }
        let t := u.pipEmit lane (.pipAck lane (s.lane lane).rxSeq)
        t.setLane lane { t.lane lane with rx := (t.lane lane).rx ++ [f] }).settled) ∧
  -- PIP_ACK_RECEIVE: the frames up to SEQ are released
  (∀ (s : State) (lane : Fin 16) (seq : Byte) (before rest : List PipUnacked) (u : PipUnacked), s.stopped = false →
    (s.lane lane).unacked = before ++ u :: rest → u.seq = seq.toNat → before.all (fun x => x.seq != seq.toNat) = true → s.farLoop lane = false →
    s.nearLoop lane = false →
    exec (.pipAckReceive lane seq) s = .next (s.fresh.pipRelease lane (before ++ [u]) rest).settled) ∧
  -- PIP_NAK_RECEIVE: the frames from SEQ on are sent again
  (∀ (s : State) (lane : Fin 16) (seq : Byte) (rest : List PipUnacked) (u : PipUnacked), s.stopped = false →
    (s.lane lane).unacked = u :: rest → u.seq = seq.toNat → (s.lane lane).identAcked = true →
    s.farLoop lane = false → s.nearLoop lane = false →
    exec (.pipNakReceive lane seq) s =
      .next (let t := (s.fresh.setLane lane { s.lane lane with
          unacked := u :: rest
          identAcked := true }).pipResend lane
        t.pipRelease lane [] (t.lane lane).unacked).settled) ∧
  -- PIP_RETRANSMIT_TIMEOUT: every unacknowledged frame is sent again after 64 turns
  (∀ (s : State) (lane : Fin 16), s.stopped = false → (s.lane lane).unacked ≠ [] → (s.lane lane).again = [] →
    (s.lane lane).timer + 64 ≤ s.clk →
    exec (.pipRetransmitTimeout lane) s = .next (s.fresh.pipResend lane).settled) ∧
  -- a near-end loop takes the receiver off the pins: what arrives there does nothing
  (∀ (s : State) (lane : Fin 16) (bytes : List Byte) (frac : Fin 1024) (hold : BitVec 32) (seq : Byte) (bits : List Bool)
    (groups : List (BitVec 10)), s.stopped = false → s.nearLoop lane = true →
    exec (.turnMarkReceive lane bytes frac) s = .next s.fresh.settled ∧
    exec (.echoReqReceive lane bytes hold) s = .next s.fresh.settled ∧
    exec (.echoRspReceive lane bytes frac) s = .next s.fresh.settled ∧
    exec (.hbReceive lane bytes) s = .next s.fresh.settled ∧
    exec (.pipFrameReceive lane bytes) s = .next s.fresh.settled ∧
    exec (.pipAckReceive lane seq) s = .next s.fresh.settled ∧
    exec (.pipNakReceive lane seq) s = .next s.fresh.settled ∧
    exec (.commaAlignment ⟨lane, bits⟩) s = .next s.fresh.settled ∧
    exec (.pipLaneDown lane .lossOfSignal) s = .next s.fresh.settled ∧
    exec (.pipLaneDown lane (.codeViolations groups)) s = .next s.fresh.settled) ∧
  -- a far-end loop sends what arrives back as it came, and the receiver takes it as well
  (∀ (s : State) (lane : Fin 16) (bytes : List Byte) (frac : Fin 1024) (hold : BitVec 32) (seq : Byte),
    s.stopped = false → s.farLoop lane = true →
    exec (.turnMarkReceive lane bytes frac) s =
      .next ((s.fresh.pipRepeat lane (.turnMark lane bytes)).takeMark lane bytes frac).settled ∧
    exec (.echoReqReceive lane bytes hold) s =
      .next ((s.fresh.pipRepeat lane (.echoReq lane bytes)).takeEchoReq lane bytes hold).settled ∧
    exec (.echoRspReceive lane bytes frac) s =
      .next ((s.fresh.pipRepeat lane (.echoRsp lane bytes)).takeEchoRsp lane bytes frac).settled ∧
    exec (.hbReceive lane bytes) s =
      .next ((s.fresh.pipRepeat lane (.heartbeat lane bytes)).takeHeartbeat lane bytes).settled ∧
    exec (.pipFrameReceive lane bytes) s =
      .next ((s.fresh.pipRepeat lane (.pipFrame lane (urgentBytes bytes) bytes)).takeFrame lane bytes).settled ∧
    exec (.pipAckReceive lane seq) s =
      .next ((s.fresh.pipRepeat lane (.pipAck lane seq.toNat)).takeAck lane seq).settled ∧
    exec (.pipNakReceive lane seq) s =
      .next ((s.fresh.pipRepeat lane (.pipNak lane seq.toNat)).takeNak lane seq).settled)

/-- Heartbeats, presence and the roots (R41, R53, R54, R55, R57, R476). -/
def Obligations.PresenceCommandsComplete : Prop :=
  -- HB_SEND
  (∀ (s : State) (n : Nat), s.stopped = false → s.upLane = some n → s.follower = true →
    s.flag F.TRN_STAT_ALIGNED = true → s.pip.hbStopped = false → s.laneIsUp n = true → 0 < s.get F.TRN_HB_HB_PERIOD →
    s.now % s.get F.TRN_HB_HB_PERIOD = 0 →
    exec .hbSend s = .next (({ s.fresh with pip := { s.pip with hseq := (s.pip.hseq + 1) % 256 } } : State).pipEmit n
      (.heartbeat n (withCrc (toBytesLE 1 s.member ++ toBytesLE 1 s.domain ++ toBytesLE 1 s.pip.hseq)))).settled) ∧
  -- HB_RECEIVE: the first heartbeat of a child reports it present
  (∀ (s : State) (lane : Fin 16) (bytes d : List Byte), s.stopped = false → s.laneIsUp lane = true →
    s.isUpstream lane = false → checkCrc 3 bytes = some d → bytesAt d 1 1 = s.domain →
    (s.lane lane).kids.find? (fun k => k.member == bytesAt d 0 1 % 128) = none → s.farLoop lane = false → s.nearLoop lane = false →
    exec (.hbReceive lane bytes) s =
      .next ((s.fresh.setLane lane { s.lane lane with
        kids := (s.lane lane).kids.filter (fun k => k.member ≠ bytesAt d 0 1 % 128) ++
          [{ member := bytesAt d 0 1 % 128, lastHb := s.clk, judged := 0 }] }).reportKid (bytesAt d 0 1 % 128) true).settled) ∧
  -- HB_MISSING: the miss that reaches HB_MISS reports the child absent
  (∀ (s : State) (lane : Fin 16) (k : Kid), s.stopped = false → s.flag F.TRN_STAT_ALIGNED = true →
    0 < s.get F.TRN_HB_HB_PERIOD → s.now % s.get F.TRN_HB_HB_PERIOD = 0 → (s.lane lane).kids = [k] →
    k.lastHb + s.get F.TRN_HB_HB_PERIOD < s.clk → k.judged < s.clk → k.missed + 1 = s.get F.TRN_HB_HB_MISS →
    exec (.hbMissing lane) s =
      .next ((((s.fresh.setLane lane { s.lane lane with
        kids := [{ k with missed := k.missed + 1, judged := s.clk, absent := true }] }).count
          (F.PIP_ERRCNT_MISSED_HB lane) 1).reportKid k.member false).forgetSubtree lane).settled) ∧
  -- PRESENCE_RECEIVE: from above, the flood is passed on and taken
  (∀ (s : State) (lane : Fin 16) (f : PipFrame) (rest : List PipFrame), s.stopped = false →
    (s.lane lane).rx = f :: rest → f.type = 0x02 → f.srcDomain = s.domain → s.isUpstream lane = true →
    s.flag F.TRN_CTL_DOM_ROOT = false → bytesAt f.data 1 1 = 0 →
    exec (.presenceReceive lane) s =
      .next (let t := s.fresh.setLane lane { s.lane lane with rx := rest }
        let u := t.pipSendAll (t.treeLanes.filter (fun k => t.laneUse k == 1)) f
        let m := bytesAt f.data 0 1 % 128
        ({ u.setPresent (setBitAt u.present m false) with pip := { u.pip with
          presNews := u.pip.presNews ++ [(m, false, false)]
          sticky := setBitAt u.pip.sticky m true } } : State)).settled) ∧
  -- PRESENCE_RECEIVE: from below, a report goes upstream
  (∀ (s : State) (lane : Fin 16) (f : PipFrame) (rest : List PipFrame), s.stopped = false →
    (s.lane lane).rx = f :: rest → f.type = 0x02 → f.srcDomain = s.domain → s.isUpstream lane = false →
    s.flag F.TRN_CTL_DOM_ROOT = false →
    exec (.presenceReceive lane) s = .next ((s.fresh.setLane lane { s.lane lane with rx := rest }).pipSendUp f).settled) ∧
  -- ROOT_ABSENCE_SWEEP: the members that no parent has reported are flooded absent
  (∀ (s : State) (due : Nat), s.stopped = false → s.pip.sweepDue = some due → due ≤ s.clk →
    s.flag F.TRN_CTL_DOM_ROOT = true →
    exec .rootAbsenceSweep s =
      .next (((setBitsList s.present 128).filter (fun m => m != s.member && !bitAt s.pip.reportedSince m)).foldl
        (fun t m => if bitAt t.present m then State.markAbsent 128 t m else t)
        ({ s.fresh with pip := { s.pip with sweepDue := none } } : State)).settled) ∧
  -- TRN_START, TIME_ROOT_DESIGNATE, DOM_ROOT_WRITE: the write rule of TRN_CTL
  (∀ (s : State) (p : Path) (data : Word), s.stopped = false → s.writeOpen p Reg.TRN_CTL data = true →
    exec (.trnStart p data) s = .next ((hookTrnCtl s.fresh (s.writeOf p Reg.TRN_CTL data)).written p).settled) ∧
  (∀ (s : State) (p : Path) (data : Word), s.stopped = false → s.writeOpen p Reg.TRN_CTL data = true →
    exec (.timeRootDesignate p data) s = .next ((hookTrnCtl s.fresh (s.writeOf p Reg.TRN_CTL data)).written p).settled) ∧
  (∀ (s : State) (p : Path) (data : Word), s.stopped = false → s.writeOpen p Reg.TRN_CTL data = true →
    exec (.domRootWrite p data) s = .next ((hookTrnCtl s.fresh (s.writeOf p Reg.TRN_CTL data)).written p).settled)

/-- Tree traffic and resignation (R48, R49, R50, R52, R213, R220). -/
def Obligations.TreeTrafficCommandsComplete : Prop :=
  -- SUBTREE_RECEIVE: what lies below the lane is kept, and a change goes upstream
  (∀ (s : State) (lane : Fin 16) (f : PipFrame) (rest : List PipFrame), s.stopped = false →
    (s.lane lane).rx = f :: rest → f.type = 0x03 → s.isUpstream lane = false → f.data.length = 16 →
    exec (.subtreeReceive lane) s =
      .next (let l := { s.lane lane with
          rx := rest
          subtree := (s.lane lane).subtree.filter (fun e => e.1 ≠ f.srcDomain) ++ [(f.srcDomain, ofBytesLE f.data)] }
        let t := s.fresh.setLane lane l
        if t.ownSubtree f.srcDomain = s.ownSubtree f.srcDomain then t else t.sendSubtree f.srcDomain).settled) ∧
  -- SC_UP_RECEIVE: a contribution from below joins its combine
  (∀ (s : State) (lane : Fin 16) (f : PipFrame) (rest : List PipFrame), s.stopped = false →
    (s.lane lane).rx = f :: rest → f.type = 0x10 → s.isUpstream lane = false → pipOpOk f.op f.data.length = true →
    exec (.scUpReceive lane) s =
      .next ((s.fresh.setLane lane { s.lane lane with rx := rest }).addPart (some lane.val) f).settled) ∧
  -- SC_DOWN_RECEIVE: a result goes down and is delivered
  (∀ (s : State) (lane : Fin 16) (f : PipFrame) (rest : List PipFrame), s.stopped = false →
    (s.lane lane).rx = f :: rest → f.type = 0x11 → s.isUpstream lane = true →
    exec (.scDownReceive lane) s = .next ((s.fresh.setLane lane { s.lane lane with rx := rest }).sendDown f).settled) ∧
  -- COMMIT_UP_RECEIVE: a vote from below joins its combine
  (∀ (s : State) (lane : Fin 16) (f : PipFrame) (rest : List PipFrame), s.stopped = false →
    (s.lane lane).rx = f :: rest → f.type = 0x20 → s.isUpstream lane = false → s.pip.resigns = [] → s.pip.decided = [] →
    exec (.commitUpReceive lane) s =
      .next ((s.fresh.setLane lane { s.lane lane with rx := rest }).addPart (some lane.val) f).settled) ∧
  -- COMMIT_DOWN_RECEIVE: a decision goes down and is delivered
  (∀ (s : State) (lane : Fin 16) (f : PipFrame) (rest : List PipFrame), s.stopped = false →
    (s.lane lane).rx = f :: rest → f.type = 0x21 → s.isUpstream lane = true →
    exec (.commitDownReceive lane) s = .next ((s.fresh.setLane lane { s.lane lane with rx := rest }).sendDown f).settled) ∧
  -- COUNTS_RECEIVE and P2P_RECEIVE: from below, the frame is moved on
  (∀ (s : State) (lane : Fin 16) (f : PipFrame) (rest : List PipFrame), s.stopped = false →
    (s.lane lane).rx = f :: rest → f.type = 0x22 → s.isUpstream lane = false →
    exec (.countsReceive lane) s = .next ((s.fresh.setLane lane { s.lane lane with rx := rest }).routePip f).settled) ∧
  (∀ (s : State) (lane : Fin 16) (f : PipFrame) (rest : List PipFrame), s.stopped = false →
    (s.lane lane).rx = f :: rest → f.type = 0x30 → s.isUpstream lane = false → f.isReservedNotice = false →
    exec (.p2pReceive lane) s = .next ((s.fresh.setLane lane { s.lane lane with rx := rest }).routePip f).settled) ∧
  -- RESIGN_RECEIVE: the first copy is flooded, a later one is dropped
  (∀ (s : State) (lane : Fin 16) (f : PipFrame) (rest : List PipFrame), s.stopped = false →
    (s.lane lane).rx = f :: rest → f.type = 0x23 → s.resignSeen f.slice f.tag = false →
    exec (.resignReceive lane) s =
      .next ((s.fresh.setLane lane { s.lane lane with rx := rest }).floodResign (some lane.val) f).settled) ∧
  (∀ (s : State) (lane : Fin 16) (f : PipFrame) (rest : List PipFrame), s.stopped = false →
    (s.lane lane).rx = f :: rest → f.type = 0x23 → s.resignSeen f.slice f.tag = true →
    exec (.resignReceive lane) s = .next (s.fresh.setLane lane { s.lane lane with rx := rest }).settled) ∧
  -- RESIGN_MEMORY_EXPIRY: what is older than 20,000 turns is forgotten
  (∀ s : State, s.stopped = false →
    exec .resignMemoryExpiry s = .next (({ s.fresh with pip := { s.pip with
      resigns := s.pip.resigns.filter (fun r => decide (s.clk < r.2.2 + 20000))
      decided := s.pip.decided.filter (fun r => decide (s.clk < r.2.2 + 20000)) } } : State)).settled)

/-! ### Ronpel transactions and the memory model (spec/03_fabric_addressing.md, spec/04_ronpel_transactions.md) -/

/-- The issuing side of an end-point (R70, R79, R80, R84, R88, R89): requests, trackers, responses, retries, fences. -/
def Obligations.IssueCommandsComplete : Prop :=
  -- REP_WIN_A_WRITE: the window table's write rule, which counts the generation up
  (∀ (s : State) (p : Path) (n : Fin 21) (e : Fin 64) (data : Word), s.stopped = false →
    s.writeOpen p (Reg.REP_WIN_A n e) data = true →
    exec (.repWinAWrite p n e data) s =
      .next ((hookWinA n e data s.fresh (s.writeOf p (Reg.REP_WIN_A n e) data)).written p).settled) ∧
  -- REP_WIN_BC_WRITE: taken while the window is not valid, rejected while it is
  (∀ (s : State) (p : Path) (n : Fin 21) (e : Fin 64) (data : Word), s.stopped = false →
    s.writeOpen p (Reg.REP_WIN_C n e) data = true → s.flag (F.REP_WIN_A_VALID n e) = false →
    exec (.repWinBCWrite p n e true data) s =
      .next ((((s.fresh.winKeep (Reg.REP_WIN_C n e)).setReg (Reg.REP_WIN_C n e)
        (s.writeOf p (Reg.REP_WIN_C n e) data).new)).written p).settled) ∧
  (∀ (s : State) (p : Path) (n : Fin 21) (e : Fin 64) (data : Word), s.stopped = false →
    s.writeOpen p (Reg.REP_WIN_B n e) data = true → s.flag (F.REP_WIN_A_VALID n e) = true →
    exec (.repWinBCWrite p n e false data) s = .next ((s.fresh.windowRejected n e).written p).settled) ∧
  -- REQUEST_ISSUE: each piece of the request goes through the checks of Table 3-6
  (∀ (s : State) (q : Fin 512) (r : Request), s.stopped = false →
    isAsked r.opcode.toNat = true →
    exec (.requestIssue q r) s =
      .next (s.fresh.issueMemory q r.opcode.toNat r.addr.toNat r.bytes r.data r.xfmt .none).settled) ∧
  -- TRACKER_WAIT_RELEASE: the oldest waiting request that may go on takes a free tracker
  (∀ (s : State) (q : Fin 512) (w : WaitReq) (ep k : Nat), s.stopped = false →
    s.rep.waiting.find? (fun w => w.queue == q.val && s.mayTake w) = some w → s.owner q = some ep →
    s.mayTake w = true → s.freeSlot w.queue = some k →
    exec (.trackerWaitRelease q) s = .next ((s.fresh.takeTracker w ep k).settleQ q).settled) ∧
  -- RESPONSE_RECEIVE: the response of a request that is out is acted on, any other is discarded
  (∀ (s : State) (ep : Fin 21) (r : Frame) (t : Tracker), s.stopped = false →
    (s.ep ep).arrived.find? (fun f => isResponse f.opcode) = some r → r.badReserved = false →
    s.rep.trackers.find? (fun t => t.ep == ep.val && t.sent && t.frame.tag == r.tag && t.frame.seq == r.seq) = some t →
    exec (.responseReceive ep) s =
      .next ((s.fresh.setEp ep { s.ep ep with arrived := (s.ep ep).arrived.erase r }).respond t r).settled) ∧
  (∀ (s : State) (ep : Fin 21) (r : Frame), s.stopped = false →
    (s.ep ep).arrived.find? (fun f => isResponse f.opcode) = some r → r.badReserved = false →
    s.rep.trackers.find? (fun t => t.ep == ep.val && t.sent && t.frame.tag == r.tag && t.frame.seq == r.seq) = none →
    exec (.responseReceive ep) s =
      .next (s.fresh.setEp ep { s.ep ep with arrived := (s.ep ep).arrived.erase r }).settled) ∧
  -- RESPONSE_RECEIVE: one with a reserved field set is discarded and counted
  (∀ (s : State) (ep : Fin 21) (r : Frame), s.stopped = false →
    (s.ep ep).arrived.find? (fun f => isResponse f.opcode) = some r → r.badReserved = true →
    exec (.responseReceive ep) s =
      .next ((s.fresh.setEp ep { s.ep ep with arrived := (s.ep ep).arrived.erase r }).countDiscard ep).settled) ∧
  -- RESPONSE_TIMEOUT: a retry is due BACKOFF x k turns later, up to LIMIT, then the request is Lost
  (∀ (s : State) (tag : BitVec 18) (t : Tracker), s.stopped = false → s.tracker tag.toNat = some t → t.sent = true →
    t.due = none → t.proof = .notProof → t.lastTx + s.get (F.REP_RETRY_TIMEOUT t.ep) ≤ s.clk →
    isCollective t.frame.opcode = false → s.resigned t.origin = false → t.frame.tries + 1 ≤ s.get (F.REP_RETRY_LIMIT t.ep) →
    exec (.responseTimeout tag) s = .next (s.fresh.setTracker { t with
      due := some (s.clk + s.get (F.REP_RETRY_BACKOFF t.ep) * (t.frame.tries + 1)) }).settled) ∧
  (∀ (s : State) (tag : BitVec 18) (t : Tracker), s.stopped = false → s.tracker tag.toNat = some t → t.sent = true →
    t.due = none → t.proof = .notProof → t.lastTx + s.get (F.REP_RETRY_TIMEOUT t.ep) ≤ s.clk →
    s.get (F.REP_RETRY_LIMIT t.ep) < t.frame.tries + 1 →
    exec (.responseTimeout tag) s = .next (s.fresh.finish t 0x14 [] false).settled) ∧
  -- RETRY_SEND: TRIES counts up, and the frame leaves again
  (∀ (s : State) (tag : BitVec 18) (t : Tracker) (d : Nat), s.stopped = false → s.tracker tag.toNat = some t →
    t.due = some d → d ≤ s.clk → s.admitted = true →
    s.ageOf t.frame.injTurn ≤ s.ageLimit - s.get (F.REP_RETRY_TIMEOUT t.ep) → s.throttleAt t = none →
    exec (.retrySend tag) s = .next ((s.fresh.count (F.REP_CNT_RETRIES t.ep) 1).transmit { t with
      frame := { t.frame with tries := t.frame.tries + 1 } }).settled) ∧
  -- CHANNEL_SEQ_RESET: a channel silent for 2A + 128 turns starts again at SEQ 0
  (∀ (s : State) (ep : Fin 21) (vc : Fin 8) (c : TxChan), s.stopped = false → s.rep.chans = [c] → c.src = s.ownEp ep →
    c.dst < 2 ^ 20 → c.vc = vc.val → s.rep.trackers = [] → c.last + 2 * s.ageLimit + 128 ≤ s.clk →
    exec (.channelSeqReset ep (BitVec.ofNat 20 c.dst) vc) s =
      .next (({ s.fresh with rep := { s.rep with chans := [] } } : State)).settled) ∧
  -- FENCE_ENTER: a fence stands behind every earlier request of the queue
  (∀ (s : State) (q : Fin 512) (kind scope : Fin 4), s.stopped = false → kind ≠ 3 → scope ≠ 3 →
    exec (.fenceEnter q kind scope) s =
      .next (({ s.fresh with rep := { s.rep with
        nextOrder := s.rep.nextOrder + 1
        fences := s.rep.fences ++ [{ queue := q, kind := kind, scope := scope, origin := .none, order := s.rep.nextOrder }]
        } } : State).settleQ q).settled)

/-- The target side of an end-point (R83, R85, R86, R91, R92, R93, R112, R300). -/
def Obligations.TargetCommandsComplete : Prop :=
  -- REQUEST_TAKE on a channel that has state
  (∀ (s : State) (ep : Fin 21) (f : Frame) (c : Chan), s.stopped = false →
    (s.ep ep).arrived.find? (fun f => isRequest f.opcode && f.opcode != opGo) = some f → f.badReserved = false →
    (s.ep ep).log = [] → (s.ep ep).chan f.src f.vc = some c →
    exec (.requestTake ep) s =
      .next (let m := s.fresh.setEp ep { s.ep ep with arrived := (s.ep ep).arrived.erase f }
        let e := (m.ep ep).freeLog f
        let c' := { c with last := s.clk }
        State.takeInChannel (acceptAt ep) (fun t f => t.answerDuplicate (againAt ep) ep f) (m.setEp ep (e.setChan c')) ep c'
          f).settled) ∧
  -- REQUEST_TAKE on a new channel: SEQ 0 is expected
  (∀ (s : State) (ep : Fin 21) (f : Frame), s.stopped = false →
    (s.ep ep).arrived.find? (fun f => isRequest f.opcode && f.opcode != opGo) = some f → f.badReserved = false →
    (s.ep ep).chans = [] →
    exec (.requestTake ep) s =
      .next (let m := s.fresh.setEp ep { s.ep ep with arrived := (s.ep ep).arrived.erase f }
        let e := (m.ep ep).freeLog f
        let c : Chan := { src := f.src, vc := f.vc, next := 0, last := s.clk }
        State.takeInChannel (acceptAt ep) (fun t f => t.answerDuplicate (againAt ep) ep f) (m.setEp ep (e.setChan c)) ep c
          f).settled) ∧
  -- LINE_QUEUE_SERVICE: of the plate EP, of the memory EP with and without an HBM read, of the message EP, of the Ilnyx EP
  (∀ (s : State) (line : Nat), s.stopped = false → s.inOrder 17 line = true →
    exec (.lineQueueService 17 line) s = .next (s.fresh.performHead 17 line).settled) ∧
  (∀ (s : State) (line : Nat), s.stopped = false → s.inOrder 16 line = true → s.slotFor (128 * line) 128 = true →
    ((s.ep 16).line line).reading = false → ((s.ep 16).line line).queue.isEmpty = false → s.needsRead line = false →
    exec (.lineQueueService 16 line) s = .next (s.fresh.performHead 16 line).settled) ∧
  (∀ (s : State) (line : Nat), s.stopped = false → s.inOrder 16 line = true → s.slotFor (128 * line) 128 = true →
    ((s.ep 16).line line).reading = false → s.needsRead line = true →
    exec (.lineQueueService 16 line) s =
      .next (let t := s.fresh.activate (128 * line)
        t.setEp 16 ((t.ep 16).setLine line { (t.ep 16).line line with reading := true })).settled) ∧
  (∀ (s : State) (line : Nat), s.stopped = false →
    exec (.lineQueueService 19 line) s = .next s.fresh.serveMsg.settled) ∧
  (∀ (s : State) (line : Nat), s.stopped = false →
    exec (.lineQueueService 20 line) s = .next s.fresh.serveRegs.settled) ∧
  -- HBM_READ_COMPLETE: the head of the line's queue is performed
  (∀ (s : State) (line : Nat), s.stopped = false → ((s.ep 16).line line).reading = true → s.memSlot = true →
    s.inOrder 16 line = true →
    exec (.hbmReadComplete line ⟨[], []⟩) s = .next (s.fresh.performHead 16 line).settled) ∧
  -- LINE_UNPIN: a line gone cold is written back and leaves SRAM
  (∀ (s : State) (line : Nat) (c : LineCopy), s.stopped = false → ((s.ep 16).line line).copy = some c → c.pinned = true →
    c.since + s.get (F.REP_HOT_COLD 16) ≤ s.clk → ((s.ep 16).line line).times = [] → s.slotFor (128 * line) 128 = true →
    4 ≤ s.get (F.REP_HOT_THRESH 16) →
    exec (.lineUnpin line) s =
      .next (let t := (s.fresh.writeBackLine line).answerWaiting line
        t.setEp 16 ((t.ep 16).setLine line { (t.ep 16).line line with copy := none })).settled) ∧
  -- PINNED_WRITE_BACK: the changes are written, and what waited for that is answered
  (∀ (s : State) (line : Nat) (c : LineCopy), s.stopped = false → ((s.ep 16).line line).copy = some c → c.pinned = true →
    c.dirty.isSome = true → s.slotFor (128 * line) 128 = true →
    exec (.pinnedWriteBack line) s = .next ((s.fresh.writeBackLine line).answerWaiting line).settled) ∧
  -- PROOF_GO_RECEIVE: the parked write is applied
  (∀ (s : State) (ep : Fin 21) (g : Frame) (p : ParkedWrite), s.stopped = false →
    (s.ep ep).arrived.find? (fun f => f.opcode == opGo) = some g → g.badReserved = false → s.goOpen ep g = true →
    (s.ep ep).parked g.src g.vc g.seq = some p → (s.ep ep).blocked p = false →
    exec (.proofGoReceive ep) s =
      .next (let m := s.fresh.setEp ep { s.ep ep with arrived := (s.ep ep).arrived.erase g }
        let t := m.applyPark (enterAt ep) ep p g
        State.releaseParks (enterAt ep) (t.ep ep).parks.length t ep).settled) ∧
  -- PARK_ENTRY_EXPIRE: discarded at INJ_TURN + A + 64
  (∀ (s : State) (ep : Fin 21) (src : BitVec 20) (vc : Fin 8) (seq : BitVec 32) (p : ParkedWrite), s.stopped = false →
    (s.ep ep).parks = [p] → p.src = src.toNat → p.vc = vc.val → p.frame.seq = seq.toNat →
    s.ageLimit + 64 ≤ s.ageOf p.frame.injTurn →
    exec (.parkEntryExpire ep src vc seq) s =
      .next (State.releaseParks (enterAt ep) 1 (s.fresh.setEp ep { s.ep ep with parks := [] }) ep).settled) ∧
  -- HOLE_SKIP: the channel goes on at the lowest SEQ held
  (∀ (s : State) (ep : Fin 21) (src : BitVec 20) (vc : Fin 8) (c : Chan) (m : Frame), s.stopped = false →
    (s.ep ep).chan src.toNat vc = some c → c.held = [m] → s.ageLimit + 64 ≤ s.ageOf m.injTurn →
    exec (.holeSkip ep src vc) s =
      .next (State.takeHeld (acceptAt ep) c.fuel ((s.fresh.setEp ep ((s.ep ep).setChan { c with
        next := m.seq
        skip := c.skip.filter (fun q => decide (seqAhead q m.seq < 2 ^ 31)) })).count (F.REP_ORD_CNT_GAP_SKIP ep) 1) ep src.toNat
          vc).settled) ∧
  -- CHANNEL_STATE_FREE: one age limit without a frame
  (∀ (s : State) (ep : Fin 21) (src : BitVec 20) (vc : Fin 8) (c : Chan), s.stopped = false →
    (s.ep ep).chan src.toNat vc = some c → c.last + s.ageLimit ≤ s.clk → c.held = [] → c.taken = [] →
    (s.ep ep).parks = [] →
    exec (.channelStateFree ep src vc) s = .next (s.fresh.setEp ep { s.ep ep with
      chans := (s.ep ep).chans.filter (fun x => !(x.src == src.toNat && x.vc == vc.val)) }).settled) ∧
  -- RESULT_LOG_FREE: A + 64 turns after the entry was written
  (∀ (s : State) (ep : Fin 21) (src : BitVec 20) (vc : Fin 8) (seq : BitVec 32) (l : LogEntry), s.stopped = false →
    (s.ep ep).log = [l] → l.src = src.toNat → l.vc = vc.val → l.seq = seq.toNat → l.at' + s.ageLimit + 64 ≤ s.clk →
    exec (.resultLogFree ep src vc seq) s = .next (s.fresh.setEp ep { s.ep ep with log := [] }).settled)

/-- The message engine (R95, R97, R98, R120). -/
def Obligations.MessageCommandsComplete : Prop :=
  -- MSG_SEND_FETCH: one whose data is not this device's HBM or plate store, denied
  (∀ (s : State) (q : Fin 512) (d : List Byte) (t : State), s.stopped = false → s.owner q = some 19 →
    s.flag (F.MSG_Q_CFG_EN q) = true →
    ringUsed (s.msgN q) (s.get (F.MSG_Q_IDX_HEAD q)) (s.get (F.MSG_Q_IDX_TAIL q)) ≠ 0 →
    s.rep.trackers = [] → s.rep.waiting = [] → s.slotFor (s.sendAt q (s.get (F.MSG_Q_IDX_HEAD q))) 32 = true →
    s.flag F.PWR_STAT_WARN = false →
    s.fresh.hbmFetch (s.sendAt q (s.get (F.MSG_Q_IDX_HEAD q))) 32 = (d, false, t) →
    sendFormed d = true → addrMember (bytesAt d 16 8) ≠ s.member →
    exec (.msgSendFetch q) s =
      .next ((t.put (F.MSG_Q_IDX_HEAD q) ((s.get (F.MSG_Q_IDX_HEAD q) + 1) %
        (2 * s.msgN q))).sendStatus q (s.get (F.MSG_Q_IDX_HEAD q)) 0x23).settled) ∧
  -- MSG_SEND_FETCH: a poisoned descriptor ends Poisoned
  (∀ (s : State) (q : Fin 512) (d : List Byte) (t : State), s.stopped = false → s.owner q = some 19 →
    s.flag (F.MSG_Q_CFG_EN q) = true →
    ringUsed (s.msgN q) (s.get (F.MSG_Q_IDX_HEAD q)) (s.get (F.MSG_Q_IDX_TAIL q)) ≠ 0 →
    s.rep.trackers = [] → s.rep.waiting = [] → s.slotFor (s.sendAt q (s.get (F.MSG_Q_IDX_HEAD q))) 32 = true →
    s.flag F.PWR_STAT_WARN = false →
    s.fresh.hbmFetch (s.sendAt q (s.get (F.MSG_Q_IDX_HEAD q))) 32 = (d, true, t) →
    exec (.msgSendFetch q) s =
      .next ((t.put (F.MSG_Q_IDX_HEAD q) ((s.get (F.MSG_Q_IDX_HEAD q) + 1) %
        (2 * s.msgN q))).sendStatus q (s.get (F.MSG_Q_IDX_HEAD q)) 0x30).settled) ∧
  -- MSG_SEND_FETCH: a BYTES that Table 4-7 does not allow sends nothing; which code of Table 4-9 is its STATUS is open
  (∀ (s : State) (q : Fin 512) (d : List Byte) (t u : State), s.stopped = false → s.owner q = some 19 →
    s.flag (F.MSG_Q_CFG_EN q) = true →
    ringUsed (s.msgN q) (s.get (F.MSG_Q_IDX_HEAD q)) (s.get (F.MSG_Q_IDX_TAIL q)) ≠ 0 →
    s.rep.trackers = [] → s.rep.waiting = [] → s.slotFor (s.sendAt q (s.get (F.MSG_Q_IDX_HEAD q))) 32 = true →
    s.flag F.PWR_STAT_WARN = false →
    s.fresh.hbmFetch (s.sendAt q (s.get (F.MSG_Q_IDX_HEAD q))) 32 = (d, false, t) → sendFormed d = false →
    t.put (F.MSG_Q_IDX_HEAD q) ((s.get (F.MSG_Q_IDX_HEAD q) + 1) % (2 * s.msgN q)) = u →
    exec (.msgSendFetch q) s =
      .next (u.freeNext.sendStatus q (s.get (F.MSG_Q_IDX_HEAD q)) (openStatus (u.free 8))).settled) ∧
  (∀ n : Nat, openStatus n ∈ statusCodes) ∧
  -- MSG_SEND_FETCH: a message of one granule goes out as one fragment
  (∀ (s : State) (q : Fin 512) (d x : List Byte) (t u : State), s.stopped = false → s.owner q = some 19 →
    s.flag (F.MSG_Q_CFG_EN q) = true →
    ringUsed (s.msgN q) (s.get (F.MSG_Q_IDX_HEAD q)) (s.get (F.MSG_Q_IDX_TAIL q)) ≠ 0 →
    s.rep.trackers = [] → s.rep.waiting = [] → s.slotFor (s.sendAt q (s.get (F.MSG_Q_IDX_HEAD q))) 32 = true →
    s.flag F.PWR_STAT_WARN = false →
    s.fresh.hbmFetch (s.sendAt q (s.get (F.MSG_Q_IDX_HEAD q))) 32 = (d, false, t) →
    sendFormed d = true → addrMember (bytesAt d 16 8) = s.member → addrKind (bytesAt d 16 8) ≤ 1 →
    offsetExists (addrKind (bytesAt d 16 8)) (addrOffset (bytesAt d 16 8)) (bytesAt d 8 4) = true →
    (t.put (F.MSG_Q_IDX_HEAD q) ((s.get (F.MSG_Q_IDX_HEAD q) + 1) %
        (2 * s.msgN q))).readMessage (bytesAt d 16 8) (bytesAt d 8 4) = ([(x, false)], u) →
    u.msg.nextId = [] →
    exec (.msgSendFetch q) s =
      .next (let v : State := { u with msg := { u.msg with
          nextId := [(bytesAt d 0 4 % 2 ^ 20, 1)]
          sends := u.msg.sends ++ [{ queue := q, ix := s.get (F.MSG_Q_IDX_HEAD q), status := [0] }] } }
        v.issueOne 19 q {
          opcode := opMsg
          vc := requestVc opMsg (epDomain (bytesAt d 0 4 % 2 ^ 20) != s.domain) (bitAt (bytesAt d 5 1) 0)
          edition := v.edition
          slice := v.slice
          src := v.ownEp 19
          dst := bytesAt d 0 4 % 2 ^ 20
          addr := (bytesAt d 8 4 - 1) * 2 ^ 16 + bytesAt d 4 1 % 64
          bytes := min 256 (bytesAt d 8 4)
          poison := false
          gran := [{ data := sliceD 0 x 0 32, poison := false }] } (.message q
            (s.get (F.MSG_Q_IDX_HEAD q)) 0)).settled) ∧
  -- MESSAGE_ABANDON: one age limit after fragment 0 the buffer is free again, and the message is counted
  (∀ (s : State) (src : BitVec 20) (id : BitVec 16) (r : MsgRecv), s.stopped = false → s.msg.recvs = [r] →
    r.src = src.toNat → r.id = id.toNat → r.firstAt + s.ageLimit ≤ s.clk → r.refused = none → s.lastArrived r = false →
    exec (.messageAbandon src id) s =
      .next (((s.fresh.setBuf r.pool r.buf 0).dropRecv r).count F.MSG_STAT_ABANDONED 1).settled) ∧
  -- MSG_POOL_FREE: a delivered buffer is free again; freeing any other is a double free
  (∀ (s : State) (p : Path) (data : Word), s.stopped = false → s.writeOpen p Reg.MSG_POOL_FREE data = true →
    exec (.msgPoolFree p data) s =
      .next (let w := s.writeOf p Reg.MSG_POOL_FREE data
        let n := w.actF F.MSG_POOL_FREE_POOL
        let i := w.actF F.MSG_POOL_FREE_INDEX
        (if s.bufState n i = 2 then s.fresh.setBuf n i 0
          else (s.fresh.count F.MSG_STAT_DOUBLE_FREE 1).fault 1 0x0022 11 0 { detail0 := n + i * 256 }).written p).settled) ∧
  -- MSG_POOL_CFG_WRITE: taken where the pool it makes is allowed, else rejected
  (∀ (s : State) (p : Path) (n : Fin 64) (data : Word), s.stopped = false →
    s.writeOpen p (Reg.MSG_POOL_CFG n) data = true →
    exec (.msgPoolCfgWrite p n false data) s =
      .next (let t := s.fresh.setReg (Reg.MSG_POOL_CFG n) (s.writeOf p (Reg.MSG_POOL_CFG n) data).new
        (if t.poolBad n then s.fresh.cfgRejected else t).written p).settled) ∧
  (∀ (s : State) (p : Path) (n : Fin 64) (data : Word), s.stopped = false →
    s.writeOpen p (Reg.MSG_POOL_RING n) data = true →
    exec (.msgPoolCfgWrite p n true data) s =
      .next (let t := s.fresh.setReg (Reg.MSG_POOL_RING n) (s.writeOf p (Reg.MSG_POOL_RING n) data).new
        (if t.poolBad n then s.fresh.cfgRejected
          else { t with msg := { t.msg with rings := t.msg.rings.filter (fun r => r.1 != n.val) } }).written p).settled)

/-! ### The plate array (spec/06_plate_array.md) -/

/-- What the array does from a queue's selection to its next (R130, R134, R135, R136, R138). -/
def Obligations.PlateSequenceCommandsComplete : Prop :=
  -- PLT_OQ_TAIL_WRITE: a TAIL that does not overfill the ring
  (∀ (s : State) (p : Path) (q : Fin 512) (data : Word), s.stopped = false →
    s.writeOpen p (Reg.PLT_OQ_IDX q) data = true → q.val ≠ s.colq →
    (s.writeOf p (Reg.PLT_OQ_IDX q) data).newF (F.PLT_OQ_IDX_TAIL q) ≠
      (s.writeOf p (Reg.PLT_OQ_IDX q) data).oldF (F.PLT_OQ_IDX_TAIL q) →
    tailOver (s.oqN q) (s.oqHead q) ((s.writeOf p (Reg.PLT_OQ_IDX q) data).newF (F.PLT_OQ_IDX_TAIL q)) = false →
    s.oqGated q = false →
    exec (.pltOqTailWrite p q data) s =
      .next ((s.fresh.setOqTail q ((s.writeOf p (Reg.PLT_OQ_IDX q) data).newF (F.PLT_OQ_IDX_TAIL q))).written p).settled) ∧
  -- QUEUE_SELECT: the next ready queue is served
  (∀ (s : State) (q : Nat), s.stopped = false → s.plate.phase = .idle → s.arrayHeld = false → s.slotFrame = true →
    s.flag F.PLT_CTL_EN = true → s.hbmOpen = true → s.flag F.PWR_STAT_WARN = false → s.nextQueue = some q →
    s.staggerOk = true →
    exec .queueSelect s = .next (s.fresh.selectQueue q).settled) ∧
  -- QUEUE_SELECT: an array with nothing to run ramps down, and one under a supply warning does
  (∀ s : State, s.stopped = false → s.plate.phase = .idle → s.arrayHeld = false → s.slotFrame = true →
    s.flag F.PLT_CTL_EN = true → s.hbmOpen = true → s.flag F.PWR_STAT_WARN = false → s.nextQueue = none →
    s.get F.PWR_STAT_ARRAY = 2 →
    exec .queueSelect s = .next (s.fresh.ramp false).settled) ∧
  (∀ s : State, s.stopped = false → s.plate.phase = .idle → s.arrayHeld = false → s.slotFrame = true →
    s.flag F.PWR_STAT_WARN = true → s.get F.PWR_STAT_ARRAY = 1 ∨ s.get F.PWR_STAT_ARRAY = 2 →
    exec .queueSelect s = .next (s.fresh.ramp false).settled) ∧
  -- PLAN_DONE: 64 turns after the fetch the first stroke starts
  (∀ (s : State) (o : PlateOp) (since : Nat), s.stopped = false → s.plate.phase = .planning since →
    s.plate.op = some o → s.arrayHeld = false → s.slotFrame = true → since + 64 ≤ s.clk → o.job = none →
    s.plate.aborts = [] → o.warned = false → o.malformed = false → o.fail = none → o.aborted = false →
    s.planRefused o.queue o.chain o.desc o.hold = false →
    s.boundResigned { o with strokes := dStrokes o.desc, bset := o.hold.getD none } = false →
    exec .planDone s =
      .next (({ s.fresh with plate := { s.plate with aborts := [] } } : State).startStroke { o with
        strokes := dStrokes o.desc
        bset := o.hold.getD none }).settled) ∧
  -- PLAN_DONE: a plan that is refused retires with PermissionDenied
  (∀ (s : State) (o : PlateOp) (since : Nat), s.stopped = false → s.plate.phase = .planning since →
    s.plate.op = some o → s.arrayHeld = false → s.slotFrame = true → since + 64 ≤ s.clk → o.job = none →
    s.plate.aborts = [] → o.warned = false → o.malformed = false → o.fail = none → o.aborted = false →
    s.planRefused o.queue o.chain o.desc o.hold = true →
    exec .planDone s =
      .next (({ s.fresh with plate := { s.plate with aborts := [] } } : State).startRetire { o with
        fail := some 0x23 }).settled) ∧
  -- ROUND_EXPIRE: the round ends where another queue is ready
  (∀ (s : State) (o : PlateOp), s.stopped = false → s.plate.op = some o → s.plate.roundAt + s.plate.roundLen ≤ s.clk →
    s.plate.expired = false → s.otherReady o.queue = true →
    exec .roundExpire s = .next (({ s.fresh with plate := { s.plate with expired := true } } : State)).settled) ∧
  -- CARRY_SAVE_DONE: the operation is saved, the array free
  (∀ (s : State) (o : PlateOp) (due : Nat), s.stopped = false → s.plate.phase = .saving due → s.plate.op = some o →
    s.arrayHeld = false → s.slotFrame = true → due ≤ s.clk → s.hbmOpen = true →
    exec .carrySaveDone s =
      .next (let t := s.fresh.writeCarry o
        (({ t with plate := { t.plate with
          saved := t.plate.saved ++ [{ o with bufs := t.plate.chainBufs }]
          chainBufs := [] } } : State).setArray .idle none).count F.PLT_CNT_PREEMPT 1).settled) ∧
  -- CARRY_RESTORE_DONE: the operation goes on with its next stroke
  (∀ (s : State) (o : PlateOp) (due : Nat), s.stopped = false → s.plate.phase = .restoring due → s.plate.op = some o →
    s.arrayHeld = false → s.slotFrame = true → due ≤ s.clk → s.hbmOpen = true → o.warned = false →
    o.aborted = false → o.strokes ≠ 0 →
    exec .carryRestoreDone s =
      .next (let r := s.fresh.readCarry o
        ({ r.2 with plate := { r.2.plate with
          chainBufs := if r.1 then o.bufs.map (fun e => (e.1, { e.2 with poison := true })) else o.bufs } } : State).startStroke { o with
            carryBad := o.carryBad || r.1
            bufs := [] }).settled)

/-- Strokes, write-out, retirement, abort and ready flags (R129, R141, R142, R145, R200). -/
def Obligations.PlateStrokeCommandsComplete : Prop :=
  -- WRITE_OUT_START: once its operands are in hand and its cell steps done, a stroke enters its write-out phase with its results
  -- fixed, and what leaves the device goes out
  (∀ (s g : State) (a o : PlateOp) (since : Nat), s.stopped = false → s.plate.phase = .stroke since → s.plate.op = some a →
    s.arrayHeld = false → a.ending = false → a.job = none →
    since + dBefore s.member (s.opBase a) a.desc a.stroke / 8 ≤ s.clk → s.cellsDone a / 8 ≤ s.clk →
    State.gather 3 s.fresh = g → g.plate.op = some o → o.ending = false → 2 ≤ o.stage →
    g.hostPending o.queue = false → (g.boundTo o).isSome = false → (g.opResult o).fault = false →
    exec .writeOutStart s =
      .next (let r := g.opResult o
        let f := g.fixOuts o.desc (if o.carryBad then r.outs.map (fun e => (e.1, { e.2 with poison := true })) else r.outs)
        let far := f.1.filter (fun e => granRemote f.2.member o.desc (keySlot e.1) (keyIndex e.1))
        let t := f.2.setArray (.writing since f.2.clk) (some { o with
          outs := f.1
          carry := r.carry
          pendingOut := far.length + r.atomics.length
          poisoned := o.poisoned || o.carryBad || o.fetched.any (fun e => e.2.poison) })
        let u := far.foldl (fun (u : State) e => u.issueGranule o.queue (slotRight u.member o.desc (keySlot e.1)) (granAddr o.desc
          (keySlot e.1) (keyIndex e.1)) e.2 (.plate o.queue)) t
        r.atomics.foldl (fun (u : State) x => u.issueData o.queue x.op x.addr 8 (toBytesLE 32 x.data) x.xfmt x.poison
          (.plate o.queue)) u).settled) ∧
  -- WRITE_OUT_START: a result that the operation must not write fails it
  (∀ (s g : State) (a o : PlateOp) (since : Nat), s.stopped = false → s.plate.phase = .stroke since → s.plate.op = some a →
    s.arrayHeld = false → a.ending = false → a.job = none →
    since + dBefore s.member (s.opBase a) a.desc a.stroke / 8 ≤ s.clk → s.cellsDone a / 8 ≤ s.clk →
    State.gather 3 s.fresh = g → g.plate.op = some o → o.ending = false → 2 ≤ o.stage →
    g.hostPending o.queue = false → (g.boundTo o).isSome = false → (g.opResult o).fault = true →
    exec .writeOutStart s = .next (g.setOp (o.failWith 0x23)).settled) ∧
  -- STROKE_END: the outputs are written, and the operation goes on
  (∀ (s : State) (o : PlateOp) (since at' : Nat), s.stopped = false → s.arrayHeld = false → s.slotFrame = true →
    s.plate.phase = .writing since at' → s.plate.op = some o →
    s.strokeDue o since at' ≤ s.clk → o.pendingOut = 0 → s.streamOpen o = true → o.fail = none →
    exec .strokeEnd s =
      .next ((o.outs.foldl (fun t e =>
          (t.writePlace (granPlace s.member o.desc (keySlot e.1) (keyIndex e.1)) e.2).twnPlate e.2) s.fresh).afterStroke { o with
        written := o.outs.foldl (fun m e => putGran m e.1 e.2) o.written
        stroke := o.stroke + 1
        active := o.active + s.strokeActive o since
        aborted := o.aborted || o.warned }).settled) ∧
  -- STROKE_END: a stroke that failed is given up without its outputs
  (∀ (s : State) (o : PlateOp) (since at' : Nat), s.stopped = false → s.arrayHeld = false → s.slotFrame = true →
    s.plate.phase = .writing since at' → s.plate.op = some o →
    s.strokeDue o since at' ≤ s.clk → o.pendingOut = 0 → s.streamOpen o = true → o.fail.isSome = true →
    exec .strokeEnd s = .next (s.fresh.startRetire { o with active := o.active + s.strokeActive o since }).settled) ∧
  -- OPERATION_RETIRE: 32 turns later the record is written, and the queue's next operation begins
  (∀ (s : State) (o : PlateOp) (since : Nat), s.stopped = false → s.plate.phase = .retiring since → s.plate.op = some o →
    s.arrayHeld = false → s.slotFrame = true → since + 32 ≤ s.clk → o.pendingOut = 0 → o.wanted = [] → s.hbmOpen = true →
    o.job = none → o.chain.length ≤ o.member + 1 →
    exec .operationRetire s = .next ((s.fresh.writeRecord o).afterOp o.queue).settled) ∧
  -- OPERATION_RETIRE: of a chain, the next member follows
  (∀ (s : State) (o : PlateOp) (since : Nat), s.stopped = false → s.plate.phase = .retiring since → s.plate.op = some o →
    s.arrayHeld = false → s.slotFrame = true → since + 32 ≤ s.clk → o.pendingOut = 0 → o.wanted = [] → s.hbmOpen = true →
    o.job = none → o.member + 1 < o.chain.length →
    exec .operationRetire s =
      .next (let t := s.fresh.writeRecord o
        let n := o.nextMember (2 * t.oqN o.queue) o.status
        if t.mustYield o.queue then t.startSave n else t.fetchMember n).settled) ∧
  -- PLT_ABORT: the operation named is aborted
  (∀ (s : State) (p : Path) (data : Word), s.stopped = false → s.writeOpen p Reg.PLT_ABORT data = true →
    exec (.pltAbort p data) s =
      .next (let w := s.writeOf p Reg.PLT_ABORT data
        (s.fresh.abortOp (w.actF F.PLT_ABORT_QUEUE) (w.actF F.PLT_ABORT_INDEX)).written p).settled) ∧
  -- READY_FLAG_POLL: pieces whose flag holds the epoch are fetched in ascending order
  (∀ (s : State) (o : PlateOp), s.stopped = false → s.polling = some o → s.arrayHeld = false → s.slotFrame = true →
    s.streamOpen o = true →
    exec .readyFlagPoll s =
      .next (let r := ((List.range (ceilDiv (gmP o.desc) 4)).foldl (fun (acc : List Granule × State) i =>
          ((acc.1 ++ [(acc.2.readPlace (granPlace s.member o.desc 2 i)).1]), (acc.2.readPlace (granPlace s.member o.desc 2 i)).2))
          ([], s.fresh))
        let ready := (List.range (gmP o.desc)).filter (fun j =>
          !o.ready.contains j && !(r.1.getD (j / 4) zeroGranule).poison &&
            bytesAt (r.1.getD (j / 4) zeroGranule).data (8 * (j % 4)) 8 == dP o.desc 120 8)
        State.gather 3 (ready.foldl State.fetchPiece r.2)).settled) ∧
  -- READY_LIMIT_EXPIRE: the operation ends Lost
  (∀ (s : State) (o : PlateOp), s.stopped = false → s.polling = some o →
    s.arrayHeld = false → o.progressAt + s.get F.PLT_LIMIT_READY_LIMIT ≤ s.clk → o.fail = none →
    exec .readyLimitExpire s = .next (s.fresh.setOp { o with fail := some 0x14 }).settled)

/-! ### Collectives (spec/09_collectives.md) -/

/-- The collective that the head descriptor of a queue starts, with the device's place in COL_TOPO (R205, R206). -/
def Obligations.CollectiveStartsComplete : Prop :=
  -- COLLECTIVE_START: HEAD passes the descriptor, its CSEQ is the last started, and what it first sends goes out; an invalid
  -- descriptor resigns with cause 2
  (∀ (s s1 : State) (q : Fin 512) (off : Nat) (d : List Byte), s.stopped = false → s.colHead q = some off →
    s.fresh.hbmFetch off 128 = (d, false, s1) → s.colRoom = true → s.cseqDue (cCseq d) = true → cOp d ≠ coSmall →
    cVar d = false → cSys d = false →
    exec (.collectiveStart q) s =
      .next (let h := s.get (F.COL_Q_IDX_HEAD q) % (2 * s.colN q)
        let c : Coll := { queue := q, index := h, desc := d, n := s.get F.COL_TOPO_N, d := 1, rank := s.get F.COL_TOPO_RANK, dom := 0, step := .barrier, since := s.clk }
        let t := ((((s1.setActive (s1.col.active.filter (fun (x : Coll) => x.tag != c.tag) ++ [c])).put (F.COL_Q_IDX_HEAD q)
          ((h + 1) % (2 * s.colN q))).put F.COL_STAT_LAST_CSEQ (cCseq d)).putFlag F.COL_STAT_SERIES true)
        match t.earlyResign c.tag with
        | some (cause, who) => t.colOutcome c { completed := false, cause := cause, resigner := who, members := 0 }
        | none => if t.colValid c then t.colBegin c else t.colResignFor c 2).settled) ∧
  -- SMALL_COLLECTIVE_ISSUE: the same of a SMALL
  (∀ (s s1 : State) (q : Fin 512) (off : Nat) (d : List Byte), s.stopped = false → s.colHead q = some off →
    s.fresh.hbmFetch off 128 = (d, false, s1) → s.colRoom = true → s.cseqDue (cCseq d) = true → cOp d = coSmall →
    cVar d = false → cSys d = false →
    exec (.smallCollectiveIssue q) s =
      .next (let h := s.get (F.COL_Q_IDX_HEAD q) % (2 * s.colN q)
        let c : Coll := { queue := q, index := h, desc := d, n := s.get F.COL_TOPO_N, d := 1, rank := s.get F.COL_TOPO_RANK, dom := 0, step := .barrier, since := s.clk }
        let t := ((((s1.setActive (s1.col.active.filter (fun (x : Coll) => x.tag != c.tag) ++ [c])).put (F.COL_Q_IDX_HEAD q)
          ((h + 1) % (2 * s.colN q))).put F.COL_STAT_LAST_CSEQ (cCseq d)).putFlag F.COL_STAT_SERIES true)
        match t.earlyResign c.tag with
        | some (cause, who) => t.colOutcome c { completed := false, cause := cause, resigner := who, members := 0 }
        | none => if t.colValid c then t.colBegin c else t.colResignFor c 2).settled) ∧
  -- COLLECTIVE_START: a descriptor whose CSEQ is not the next one waits
  (∀ (s : State) (q : Fin 512) (off : Nat), s.stopped = false → s.colHead q = some off →
    s.cseqDue (cCseq (s.fresh.hbmFetch off 128).1) = false →
    exec (.collectiveStart q) s = .next s.fresh.settled) ∧
  -- MOVE_LIST_LATE_CHECK: less than 4,096 turns before START_TURN the member resigns what it has not started
  (∀ (s : State) (q : Fin 512) (off : Nat), s.stopped = false → s.colHead q = some off → cMlist (s.memBytes off 128) ≠ 0 →
    s.now + 4096 > cStart (s.memBytes off 128) → s.coll (cCseq (s.memBytes off 128) % 65536) = none →
    s.earlyResign (cCseq (s.memBytes off 128) % 65536) = none →
    exec (.moveListLateCheck q) s =
      .next (s.fresh.floodResign none (s.mine { type := 0x23, system := cSys (s.memBytes off 128), slice := s.slice, tag := cCseq (s.memBytes off 128) % 65536, data := [8] })).settled) ∧
  -- RESEQ: the series of CSEQ values ends
  (∀ (s : State) (p : Path) (data : Word), s.stopped = false → s.writeOpen p Reg.COL_CTL data = true →
    (s.writeOf p Reg.COL_CTL data).actF F.COL_CTL_RESEQ = 1 →
    exec (.reseq p data) s =
      .next (((s.fresh.takeWrite ((s.writeOf p Reg.COL_CTL data).setNew F.COL_CTL_RESEQ 0)).putFlag F.COL_STAT_SERIES
        false).written p).settled)

/-- Streams received, votes, records, resigns, limits and ready flags (R215, R218, R222, R223, R225). -/
def Obligations.CollectiveRunsComplete : Prop :=
  -- COL_DATA_RECEIVE: granules land at GOFF of their stream's place
  (∀ (s : State) (f : Frame) (c : Coll) (h : Nat) (runs : List (Nat × Nat)), s.stopped = false →
    s.colNext opColData = some f → s.colOf f = some (c, h) → c.place (colPhaseOf f) h = some runs →
    colGoffOf f + f.gran.length ≤ runsSize runs → c.outcome = none →
    exec .colDataReceive s =
      .next (let x := c.stream (colPhaseOf f) h
        let gs := (f.gran.zipIdx).foldl (fun (m : GranMap) (g, i) => putGran m (colGoffOf f + i) g) x.gran
        let c1 := { c.setStream { x with gran := gs } with poison := c.poison || f.gran.any (·.poison) }
        let r := match c1.place (colPhaseOf f) h with
          | some runs => (s.fresh.colTakeOut f).landRuns c1 runs (colGoffOf f) f.gran
          | none => (s.fresh.colTakeOut f, c1)
        (r.1.setColl r.2).answer 18 f 1 id).settled) ∧
  -- COL_DATA_RECEIVE: a frame of a stream that is not expected is answered PermissionDenied
  (∀ (s : State) (f : Frame), s.stopped = false → s.colNext opColData = some f → s.colOf f = none →
    exec .colDataReceive s = .next ((s.fresh.colTakeOut f).answer 18 f 0x23 id).settled) ∧
  -- COL_END_RECEIVE: the stream has ended; a CRC or a count that differs fails this member's vote
  (∀ (s : State) (f : Frame) (c : Coll) (h : Nat), s.stopped = false → s.colNext opColEnd = some f →
    s.colOf f = some (c, h) → c.outcome = none → cFix c.desc = false →
    exec .colEndReceive s =
      .next (let x := c.stream (colPhaseOf f) h
        let data := (f.gran.headD zeroGranule).data
        let crc := crc64Final (x.gran.foldl (fun r e => crc64Update r e.2.signed) crc64Init)
        let bad := f.gran.any (·.poison) || bytesAt data 0 8 != crc || bytesAt data 8 8 != x.gran.length
        let c1 := c.setStream { x with ended := some (bytesAt data 0 8, bytesAt data 8 8, bytesAt data 16 8, bytesAt data 24 8) }
        ((s.fresh.colTakeOut f).setColl { c1 with
          localFail := c.localFail || bad
          poison := c.poison || f.gran.any (·.poison) }).answer 18 f 1 id).settled) ∧
  -- COLLECTIVE_VOTE: the digest of what this member wrote, and its vote
  (∀ (s : State) (tag : BitVec 16) (c : Coll), s.stopped = false → s.coll tag.toNat = some c → s.partDone c = true →
    cReady c.desc = false → cOp c.desc ≠ coReduceScatter → cOp c.desc ≠ coAllToAll →
    exec (.collectiveVote tag) s =
      .next (s.fresh.sendVote c (proofDigest c.wrote) (!(c.localFail || c.wrote.any (fun e => e.2.poison)))).settled) ∧
  -- COLLECTIVE_RECORD_WRITE: the record goes to its ring, the collective is no longer active
  (∀ (s : State) (tag : BitVec 16) (c : Coll) (o : ColOutcome), s.stopped = false → s.coll tag.toNat = some c →
    c.outcome = some o → c.unended = 0 → c.job = none → c.landing = [] →
    s.slotFor (s.get (F.COL_Q_CPL_BASE c.queue) * 4096 + 32 * (c.index % s.colN c.queue)) 32 = true → o.completed = true →
    cNotify c.desc = false →
    s.get (F.COL_Q_CPL_BASE c.queue) * 4096 + 32 * (c.index % s.colN c.queue) + 32 ≤ hbmSize →
    exec (.collectiveRecordWrite tag) s =
      .next (let t := s.fresh.hbmStore (s.get (F.COL_Q_CPL_BASE c.queue) * 4096 + 32 * (c.index % s.colN c.queue)) (c.record o s.now) false
        (t.setActive (t.col.active.filter (fun x => x.tag != c.tag))).count F.COL_CNT_COMPLETED 1).settled) ∧
  -- COL_RESIGN: the active collective with this CSEQ is resigned with cause 1
  (∀ (s : State) (p : Path) (data : Word) (c : Coll), s.stopped = false → s.writeOpen p Reg.COL_RESIGN data = true →
    s.col.active.find? (fun c => cCseq c.desc == (s.writeOf p Reg.COL_RESIGN data).actF F.COL_RESIGN_CSEQ) = some c →
    exec (.colResign p data) s = .next ((s.fresh.colResignFor c 1).written p).settled) ∧
  -- COL_RESIGN: and so is one that waits in a queue
  (∀ (s : State) (p : Path) (data : Word) (d : List Byte), s.stopped = false → s.writeOpen p Reg.COL_RESIGN data = true →
    s.col.active = [] → s.colWaiting.find? (fun d => cCseq d == (s.writeOf p Reg.COL_RESIGN data).actF F.COL_RESIGN_CSEQ) = some d →
    exec (.colResign p data) s =
      .next ((s.fresh.floodResign none (s.mine { type := 0x23, system := cSys d, slice := s.slice, tag := cCseq d % 65536, data := [1] })).written p).settled) ∧
  -- COLLECTIVE_TIMEOUT: START_LIMIT from the start, RUN_LIMIT from the start barrier, cause 3
  (∀ (s : State) (tag : BitVec 16) (c : Coll), s.stopped = false → s.coll tag.toNat = some c → c.step = .barrier →
    c.since + s.get F.COL_TIMER_START_LIMIT ≤ s.clk →
    exec (.collectiveTimeout tag) s = .next (s.fresh.colResignFor c 3).settled) ∧
  (∀ (s : State) (tag : BitVec 16) (c : Coll), s.stopped = false → s.coll tag.toNat = some c → c.step = .data →
    c.since + s.get F.COL_TIMER_RUN_LIMIT ≤ s.clk →
    exec (.collectiveTimeout tag) s = .next (s.fresh.colResignFor c 3).settled) ∧
  -- READY_FLAG_WRITE: EPOCH goes into flag k on every member
  (∀ (s : State) (tag : BitVec 16) (c : Coll), s.stopped = false → s.coll tag.toNat = some c → cReady c.desc = true →
    c.flagsWritten = false → c.outcome = none → c.levels ≤ c.reduced → s.memSlot = true →
    exec (.readyFlagWrite tag) s =
      .next (let off := addrOffset (cFlags c.desc) + 8 * c.rank
        let ms := (List.range c.n).map (fun k => (s.get F.COL_TOPO_M0 + k) % 128)
        ms.foldl (fun t m =>
          if m = s.member then t.hbmStore off (toBytesLE 8 (cEpoch c.desc)) false
          else t.issueMemory c.queue opStore (nearAddr m 0 off) 8 (toBytesLE 8 (cEpoch c.desc)) 0 (.readyFlag c.tag))
          (s.fresh.setColl { c with
            flagsWritten := true
            unended := c.unended + (ms.filter (· != s.member)).length })).settled)

/-! ### The switch core (spec/10_switch_core.md) -/

/-- Frames from a port to an egress (R230, R233, R235, R237, R238, R239, R240). -/
def Obligations.SwitchFramesComplete : Prop :=
  -- FRAME_RECEIVE: a frame whose header is clean is looked up
  (∀ (s : State) (p : Fin 128) (due : Nat) (h : Granule) (rest : List (Nat × List Granule)), s.stopped = false →
    (s.port p).rxFrames = (due, [h]) :: rest → due ≤ s.clk → h.poison = false → opKnown (bitsOf (ofBytesLE h.data) 7 0) = true →
    exec (.frameReceive p []) s =
      .next ((s.fresh.setPort p { s.port p with
        rxFrames := rest
        stale := (s.port p).stale - 1 }).route (Frame.ofHeader (ofBytesLE h.data) []) (some p.val)
          (if (s.port p).stale = 0 then some p.val else none)).settled) ∧
  -- FRAME_RECEIVE: a frame whose header is poisoned is discarded and counted, and its credits go back
  (∀ (s : State) (p : Fin 128) (due : Nat) (h : Granule) (gs : List Granule) (rest : List (Nat × List Granule)),
    s.stopped = false → (s.port p).rxFrames = (due, h :: gs) :: rest → due ≤ s.clk → (s.port p).stale = 0 → h.poison = true →
    exec (.frameReceive p []) s =
      .next (((s.fresh.setPort p { s.port p with
        rxFrames := rest
        stale := 0 }).count (F.SWX_P_THR_BAD_HDR p) 1).giveCredits (some p.val) (bitsOf (ofBytesLE h.data) 10 8)
          (gs.length + 1)).settled) ∧
  -- EGRESS_ADMIT: a frame that fits the shared area enters it
  (∀ (s : State) (p : Fin 128) (c : Fin 4) (x : SwFrame), s.stopped = false →
    s.sw.ready.find? (fun x => x.egress == p.val && x.frame.cls == c.val && decide (x.due ≤ s.clk)) = some x →
    x.frame.cls = 2 → x.frame.size ≤ s.sharedFree p →
    exec (.egressAdmit (Fin.castLE (by decide) p) c) s = .next (s.fresh.takeIn x 0).settled) ∧
  -- EGRESS_ADMIT: where neither free space nor eviction makes room it waits
  (∀ (s : State) (p : Fin 128) (c : Fin 4) (x : SwFrame), s.stopped = false →
    s.sw.ready.find? (fun x => x.egress == p.val && x.frame.cls == c.val && decide (x.due ≤ s.clk)) = some x →
    x.frame.cls = 2 → s.sharedFree p < x.frame.size → s.evictable p x.frame.cls = [] →
    exec (.egressAdmit (Fin.castLE (by decide) p) c) s = .next s.fresh.settled) ∧
  -- EGRESS_SERVE: the next frame by class begins, or is discarded for its age
  (∀ (s : State) (e : Fin 149) (x : SwFrame) (d : Drr), s.stopped = false → s.admitted = true →
    s.nextFrame e = some (x, d) → s.tooOld x.frame = false →
    exec (.egressServe e) s =
      .next (((({ s.fresh with sw := { s.sw with
        queued := s.sw.queued.filter (fun y => y.num != x.num)
        drr := Sparse.set (fun _ => {}) s.sw.drr e d } } : State).begin' e x).updateThrottle e)).settled) ∧
  (∀ (s : State) (e : Fin 149) (x : SwFrame) (d : Drr), s.stopped = false → s.admitted = true →
    s.nextFrame e = some (x, d) → s.tooOld x.frame = true →
    exec (.egressServe e) s =
      .next (((({ s.fresh with sw := { s.sw with
        queued := s.sw.queued.filter (fun y => y.num != x.num)
        drr := Sparse.set (fun _ => {}) s.sw.drr e d } } : State).discardAged e x.via x.frame).updateThrottle e)).settled) ∧
  -- SPILL_RETURN: the ring's head returns to the shared area once the background share is below half its limit
  (∀ (s : State) (p : Fin 128) (x : SwFrame), s.stopped = false → s.sw.spill.find? (fun x => x.egress == p.val) = some x →
    2 * s.occClass p 3 < thrBgMax (s.port p).thr → x.frame.size ≤ s.sharedFree p → s.ringSlot p x.ringAt x.frame.size = true →
    s.tooOld x.frame = false →
    exec (.spillReturn p) s =
      .next (let r := ({ s.fresh with sw := { s.sw with
          spill := s.sw.spill.filter (fun y => y.num != x.num) } } : State).ringRead p x.frame.size x.ringAt
        ((r.2.spillBack p x r.1).notePeak p).updateThrottle p).settled) ∧
  -- RESEQUENCER_RELEASE: a frame arrives, and frames that wait for no earlier frame of their channel are released
  (∀ (s : State) (e : Fin 149) (k : Nat) (x : SwFrame), s.stopped = false →
    (s.sw.crossing.filter (fun x => x.egress == e.val && !x.arrived))[k]? = some x → s.mayArrive x = true →
    exec (.resequencerRelease e k) s =
      .next (State.resequence (s.sw.crossing.map (fun y => if y.num = x.num then { y with arrived := true } else y)).length ({ s.fresh with sw := { s.sw with
        crossing := s.sw.crossing.map (fun y => if y.num = x.num then { y with arrived := true } else y) } } : State) e).settled)

/-- Throttles, thresholds, spilling and move lists (R234, R237, R241, R243, R244). -/
def Obligations.SwitchControlCommandsComplete : Prop :=
  -- THROTTLE_RELEASE: one held request that has not been sent goes on
  (∀ (s : State) (p : Fin 128) (bg : Bool) (t : Tracker), s.stopped = false → s.admitted = true →
    s.throttled p (if bg then 3 else 2) = false →
    nextHeld (s.heldAt p (if bg then 3 else 2))
      (Sparse.get (fun _ => 512) s.rep.lastHeld (2 * p + (if bg then 3 else 2) % 2)) = some t → t.sent = false →
    exec (.throttleRelease p bg) s =
      .next ((({ s.fresh with rep := { s.rep with
        lastHeld := Sparse.set (fun _ => 512) s.rep.lastHeld (2 * p + (if bg then 3 else 2) % 2) t.queue } } : State).transmit
          t).settleQ t.queue).settled) ∧
  -- SWX_BUF_THR_WRITE: taken where at least 2,048 shared slots are left, rejected with error 6 where not
  (∀ (s : State) (p : Path) (data : Word), s.stopped = false → s.writeOpen p Reg.SWX_BUF_THR data = true →
    thrRx (s.writeOf p Reg.SWX_BUF_THR data).new + thrSched (s.writeOf p Reg.SWX_BUF_THR data).new +
      thrCtrl (s.writeOf p Reg.SWX_BUF_THR data).new + 2048 ≤ 14560 →
    exec (.swxBufThrWrite p data) s =
      .next ((s.fresh.setReg Reg.SWX_BUF_THR (s.writeOf p Reg.SWX_BUF_THR data).new).written p).settled) ∧
  (∀ (s : State) (p : Path) (data : Word), s.stopped = false → s.writeOpen p Reg.SWX_BUF_THR data = true →
    14560 < thrRx (s.writeOf p Reg.SWX_BUF_THR data).new +
      thrSched (s.writeOf p Reg.SWX_BUF_THR data).new + thrCtrl (s.writeOf p Reg.SWX_BUF_THR data).new + 2048 →
    exec (.swxBufThrWrite p data) s =
      .next (((s.fresh.put F.SWX_ML_STAT_ERR 6).rejected 4 0).written p).settled) ∧
  -- SWX_SPILL_WRITE: SIZE changes while every ring is empty and spilling is off; else it is left and SIZE_REJ set
  (∀ (s : State) (p : Path) (data : Word), s.stopped = false → s.writeOpen p Reg.SWX_SPILL data = true →
    (s.writeOf p Reg.SWX_SPILL data).newF F.SWX_SPILL_SIZE ≤ 64 → s.sw.spill = [] →
    s.flag F.SWX_CLASS_CTL_SPILL_EN = false →
    exec (.swxSpillWrite p data) s =
      .next ((s.fresh.setReg Reg.SWX_SPILL (s.writeOf p Reg.SWX_SPILL data).new).written p).settled) ∧
  (∀ (s : State) (p : Path) (data : Word), s.stopped = false → s.writeOpen p Reg.SWX_SPILL data = true →
    64 < (s.writeOf p Reg.SWX_SPILL data).newF F.SWX_SPILL_SIZE →
    exec (.swxSpillWrite p data) s =
      .next ((((s.fresh.takeWrite ((s.writeOf p Reg.SWX_SPILL data).keep F.SWX_SPILL_SIZE)).putFlag F.SWX_SPILL_SIZE_REJ
        true).rejected 4 0).written p).settled) ∧
  -- MOVE_LIST_ARM: fewer than 4,096 turns ahead the arm is refused with error 1
  (∀ (s : State) (p : Path) (data : Word), s.stopped = false → s.writeOpen p Reg.SWX_ML_ARM data = true →
    s.get F.SWX_ML_TURN_START_TURN < s.now + 4096 →
    exec (.moveListArm p data) s =
      .next ((s.fresh.listError ((s.writeOf p Reg.SWX_ML_ARM data).actF F.SWX_ML_ARM_MLIST) 1).written p).settled) ∧
  -- MOVE_LIST_ARM: a valid STORE list is armed
  (∀ (s s1 : State) (p : Path) (data : Word) (d : List Byte) (m : Nat), s.stopped = false →
    s.writeOpen p Reg.SWX_ML_ARM data = true → (s.writeOf p Reg.SWX_ML_ARM data).actF F.SWX_ML_ARM_MLIST = m →
    s.flag F.SWX_SCHED_ML_EN = true → s.flag F.PWR_STAT_WARN = false → m ≠ 0 → m < 2 ^ min 12 (s.get F.SWX_ML_DIR_LOG2N) →
    s.now + 4096 ≤ s.get F.SWX_ML_TURN_START_TURN → s.sw.lists = [] → s.hbmOpen = true →
    s.fresh.hbmFetch (s.get F.SWX_ML_DIR_BASE * 4096 + 32 * m) 32 = (d, false, s1) → bitAt (bytesAt d 15 1) 0 = true →
    bytesAt d 14 1 = 0 → bytesAt d 8 4 ≠ 0 →
    exec (.moveListArm p data) s =
      .next ((s1.setLists (s1.sw.lists ++ [{ mlist := m, arm := s1.nextArm, collective := false, queue := bytesAt d 12 2, start := s.get F.SWX_ML_TURN_START_TURN, base := bytesAt d 0 8, entries := bytesAt d 8 4, cseq := 0 }])).written
        p).settled) ∧
  -- MOVE_LIST_READ_AHEAD: the next entry is read
  (∀ (s s1 : State) (n : BitVec 32) (m : MoveList) (d : List Byte) (bad : Bool), s.stopped = false →
    s.listWith n.toNat (fun m => decide (m.read < m.entries)) = some m → s.slotFor (m.base + 32 * m.read) 32 = true →
    (s.fresh.activate (m.base + 32 * m.read)).hbmFetch (m.base + 32 * m.read) 32 = (d, bad, s1) →
    exec (.moveListReadAhead n) s =
      .next (s1.setList { m with
        ahead := m.ahead ++ [{ bytes := d, poison := bad, readAt := s1.now }]
        read := m.read + 1 }).settled) ∧
  -- MOVE_LIST_INJECT: the oldest entry read ahead of a STORE list is injected in its turn
  (∀ (s : State) (n : BitVec 32) (m : MoveList) (e : MoveEntry), s.stopped = false →
    s.listWith n.toNat (fun m => (s.dueEntry m).isSome) = some m →
    s.dueEntry m = some e → s.entryError m e = none → m.collective = false →
    exec (.moveListInject n) s = .next (s.fresh.injectStore m e).settled) ∧
  -- MOVE_LIST_INJECT: and that of a list which carries a collective
  (∀ (s : State) (n : BitVec 32) (m : MoveList) (e : MoveEntry) (c : Coll), s.stopped = false →
    s.listWith n.toNat (fun m => (s.dueEntry m).isSome) = some m →
    s.dueEntry m = some e → s.entryError m e = none → m.collective = true → s.coll m.cseq = some c → c.outcome = none →
    exec (.moveListInject n) s = .next (s.fresh.injectCollective m e c).settled) ∧
  -- MOVE_LIST_INJECT: an entry out of order, malformed, read poisoned or in holdover stops its list
  (∀ (s : State) (n : BitVec 32) (m : MoveList) (e : MoveEntry) (err : Nat), s.stopped = false →
    s.listWith n.toNat (fun m => (s.dueEntry m).isSome) = some m →
    s.dueEntry m = some e → s.entryError m e = some err → m.collective = false →
    exec (.moveListInject n) s = .next ((s.fresh.listError m.mlist err).dropList m).settled)

/-! ### Routing (spec/11_routing_and_slices.md, spec/16_security_and_isolation.md) -/

/-- Route entries, editions, flips, admission, slices and neighbours (R252, R255, R256, R257, R263, R264, R375, R376, R474). -/
def Obligations.RouteCommandsComplete : Prop :=
  -- ROUTE_ENTRY_WRITE: an entry of an edition that may be written, as R252 permits it, is taken, and READY is cleared
  (∀ (s : State) (p : Path) (e : Fin 2) (i : Fin 128) (w : Fin 3) (data : Word), s.stopped = false →
    s.writeOpen p (Reg.RTE_NEAR_A e i + 8 * w) data = true →
    exec (.routeEntryWrite p e false (Fin.castLE (by decide) i) w data) s =
      .next ((hookRouteEntry false e i s.fresh (s.writeOf p (Reg.RTE_NEAR_A e i + 8 * w) data)).written p).settled) ∧
  (∀ (s : State) (p : Path) (e : Fin 2) (i : Fin 256) (w : Fin 3) (data : Word), s.stopped = false →
    s.writeOpen p (Reg.RTE_FAR_A e i + 8 * w) data = true → s.writable e = false →
    exec (.routeEntryWrite p e true i w data) s = .next (s.fresh.rteRejected.written p).settled) ∧
  -- RTE_PORT_FAR_WRITE: rejected where a valid entry names a port that it changes
  (∀ (s : State) (p : Path) (k : Fin 2) (data : Word), s.stopped = false → s.writeOpen p (Reg.RTE_PORT_FAR k) data = true →
    exec (.rtePortFarWrite p k data) s =
      .next ((if s.namesPort (((s.writeOf p (Reg.RTE_PORT_FAR k) data).old ^^^ (s.writeOf p (Reg.RTE_PORT_FAR k) data).new).toNat * 2 ^ (64 * k.val))
        then s.fresh.rteRejected
        else s.fresh.setReg (Reg.RTE_PORT_FAR k) (s.writeOf p (Reg.RTE_PORT_FAR k) data).new).written p).settled) ∧
  -- RTE_ED_WRITE: the READY bits are taken; clearing that of an armed flip's edition disarms it
  (∀ (s : State) (p : Path) (data : Word), s.stopped = false → s.writeOpen p Reg.RTE_ED data = true → s.sw.flip = none →
    exec (.rteEdWrite p data) s = .next ((s.fresh.setReg Reg.RTE_ED (s.writeOf p Reg.RTE_ED data).new).written p).settled) ∧
  -- FLIP_ARM: armed for a READY edition that is not current, at least 4,096 turns ahead, on an admitted device
  (∀ (s : State) (p : Path) (data : Word), s.stopped = false → s.writeOpen p Reg.RTE_FLIP_ARM data = true →
    (s.writeOf p Reg.RTE_FLIP_ARM data).actF F.RTE_FLIP_ARM_ARM = 1 → (s.writeOf p Reg.RTE_FLIP_ARM data).actF F.RTE_FLIP_ARM_CANCEL = 0 →
    (s.writeOf p Reg.RTE_FLIP_ARM data).actF F.RTE_FLIP_ARM_TO = 1 → s.sw.flip = none → s.admitted = true → s.edition = 0 →
    s.flag F.RTE_ED_READY1 = true → s.now + 4096 ≤ s.get F.RTE_FLIP_TURN_TURN →
    exec (.flipArm p data) s =
      .next (({ (s.fresh.putFlag F.RTE_STAT_ARMED true).put F.RTE_STAT_ARM_TO 1 with sw := { s.sw with
        flip := some (1, s.get F.RTE_FLIP_TURN_TURN) } } : State).written p).settled) ∧
  -- FLIP_CANCEL: an armed flip is disarmed before its turn
  (∀ (s : State) (p : Path) (data : Word) (e t : Nat), s.stopped = false → s.writeOpen p Reg.RTE_FLIP_ARM data = true →
    (s.writeOf p Reg.RTE_FLIP_ARM data).actF F.RTE_FLIP_ARM_ARM = 0 → (s.writeOf p Reg.RTE_FLIP_ARM data).actF F.RTE_FLIP_ARM_CANCEL = 1 →
    s.sw.flip = some (e, t) → s.now < t →
    exec (.flipCancel p data) s = .next (s.fresh.disarm.written p).settled) ∧
  -- EDITION_FLIP: in turn T, and in no other, the armed edition becomes current
  (∀ (s : State) (e t : Nat), s.stopped = false → s.sw.flip = some (e, t) → s.now ≠ t →
    exec .editionFlip s = .next s.fresh.settled) ∧
  (∀ (s : State) (e t : Nat), s.stopped = false → s.sw.flip = some (e, t) → s.now = t →
    exec .editionFlip s = .next (s.fresh.disarm.setCur e t).settled) ∧
  -- CUR_WRITE: taken while ADMIT is 0, and rejected while it is 1
  (∀ (s : State) (p : Path) (data : Word), s.stopped = false → s.writeOpen p Reg.RTE_CTL data = true → s.admitted = false →
    (s.writeOf p Reg.RTE_CTL data).newF F.RTE_CTL_CUR ≠ (s.writeOf p Reg.RTE_CTL data).oldF F.RTE_CTL_CUR →
    (s.writeOf p Reg.RTE_CTL data).newF F.RTE_CTL_SLICE = (s.writeOf p Reg.RTE_CTL data).oldF F.RTE_CTL_SLICE →
    (s.writeOf p Reg.RTE_CTL data).newF F.RTE_CTL_ADMIT = 0 →
    exec (.curWrite p data) s =
      .next (((s.fresh.setReg Reg.RTE_CTL (s.writeOf p Reg.RTE_CTL data).new).setCur ((s.writeOf p Reg.RTE_CTL data).newF F.RTE_CTL_CUR)
        s.now).written p).settled) ∧
  (∀ (s : State) (p : Path) (data : Word), s.stopped = false → s.writeOpen p Reg.RTE_CTL data = true → s.admitted = true →
    (s.writeOf p Reg.RTE_CTL data).newF F.RTE_CTL_CUR ≠ (s.writeOf p Reg.RTE_CTL data).oldF F.RTE_CTL_CUR →
    exec (.curWrite p data) s = .next (s.fresh.rteRejected.written p).settled) ∧
  -- ADMIT_WRITE: 1 is rejected while a burnish runs, has failed, or began fewer than A + 64 turns ago
  (∀ (s : State) (p : Path) (data : Word), s.stopped = false → s.writeOpen p Reg.RTE_CTL data = true →
    (s.writeOf p Reg.RTE_CTL data).newF F.RTE_CTL_ADMIT = 1 → s.flag F.SEC_BURN_ACTIVE = true →
    exec (.admitWrite p data) s = .next (s.fresh.rteRejected.written p).settled) ∧
  (∀ (s : State) (p : Path) (data : Word), s.stopped = false → s.writeOpen p Reg.RTE_CTL data = true →
    (s.writeOf p Reg.RTE_CTL data).newF F.RTE_CTL_ADMIT = 1 →
    (s.writeOf p Reg.RTE_CTL data).newF F.RTE_CTL_CUR = (s.writeOf p Reg.RTE_CTL data).oldF F.RTE_CTL_CUR →
    (s.writeOf p Reg.RTE_CTL data).newF F.RTE_CTL_SLICE = (s.writeOf p Reg.RTE_CTL data).oldF F.RTE_CTL_SLICE →
    s.flag F.SEC_BURN_ACTIVE = false → s.get F.SEC_BURN_RESULT ≠ 2 → s.sec.burnStart = none →
    exec (.admitWrite p data) s =
      .next (let t := s.fresh.setReg Reg.RTE_CTL (s.writeOf p Reg.RTE_CTL data).new
        let u := if s.admitted then t else t.setCur ((s.writeOf p Reg.RTE_CTL data).newF F.RTE_CTL_CUR) s.now
        ({ u with sec := { u.sec with sliceFree := false } } : State).written p).settled) ∧
  -- SLICE_WRITE: only while ADMIT is 0, and after a burnish since ADMIT was last 1
  (∀ (s : State) (p : Path) (data : Word), s.stopped = false → s.writeOpen p Reg.RTE_CTL data = true →
    (s.writeOf p Reg.RTE_CTL data).newF F.RTE_CTL_SLICE ≠ (s.writeOf p Reg.RTE_CTL data).oldF F.RTE_CTL_SLICE →
    (s.writeOf p Reg.RTE_CTL data).newF F.RTE_CTL_CUR = (s.writeOf p Reg.RTE_CTL data).oldF F.RTE_CTL_CUR →
    (s.writeOf p Reg.RTE_CTL data).newF F.RTE_CTL_ADMIT = 0 → s.admitted = false → s.sec.sliceFree = true →
    exec (.sliceWrite p data) s =
      .next (((s.fresh.setReg Reg.RTE_CTL (s.writeOf p Reg.RTE_CTL data).new).setCur
        ((s.writeOf p Reg.RTE_CTL data).newF F.RTE_CTL_CUR) s.now).written p).settled) ∧
  (∀ (s : State) (p : Path) (data : Word), s.stopped = false → s.writeOpen p Reg.RTE_CTL data = true →
    (s.writeOf p Reg.RTE_CTL data).newF F.RTE_CTL_SLICE ≠ (s.writeOf p Reg.RTE_CTL data).oldF F.RTE_CTL_SLICE →
    s.sec.sliceFree = false →
    exec (.sliceWrite p data) s = .next (s.fresh.rteRejected.written p).settled) ∧
  -- NBR_EXP_WRITE: the expected identity is taken, and compared from the next turn on
  (∀ (s : State) (p : Path) (n : Fin 128) (data : Word), s.stopped = false → s.writeOpen p (Reg.RTE_NBR_EXP n) data = true →
    exec (.nbrExpWrite p n data) s =
      .next (let t := s.fresh.setReg (Reg.RTE_NBR_EXP n) (s.writeOf p (Reg.RTE_NBR_EXP n) data).new
        let kept := (s.sw.nbrOld.filter (fun x => x.1 == s.clk && x.2.1 == n.val)).isEmpty
        ({ t with sw := { t.sw with
          nbrOld := if kept then t.sw.nbrOld ++ [(s.clk, n.val, s.reg (Reg.RTE_NBR_EXP n))] else t.sw.nbrOld } } : State).written
            p).settled)

/-! ### Vangeri links (spec/12_vangeri_links.md) -/

/-- Bring-up from Detect to Up (R275, R276, R277, R278, R279). -/
def Obligations.LinkBringupCommandsComplete : Prop :=
  -- DETECT_SIGNAL: an enabled port that nothing holds leaves Detect
  (∀ (s t : State) (p : Fin 128) (lanes : BitVec 4) (nonce : BitVec 128) (w l : Nat), s.stopped = false →
    (setBitsList lanes.toNat 4).foldl (fun (s : State) l =>
      (s.putFlag (F.VGL_STAT_SIGNAL p l) true).putFlag (F.VGL_STAT_CDR_LOCK p l) true) s.fresh = t →
    t.flag (F.VPT_CTL_EN p) = true → t.bstate p = 1 → (t.port p).notBefore = 0 → t.portsHeld = false →
    t.cageReady p = true → t.flag F.TRN_STAT_LOCKED = true → t.get (F.VPT_CTL_STATE_REQ p) ≠ 2 →
    t.get (F.VPT_CTL_LOOP p) = 0 → (t.port p).feWaiting = false → t.up.detachAt = none →
    t.attempt p lanes.toNat = some (w, l) →
    exec (.detectSignal p lanes nonce) s =
      .next (let u := (t.toState p 2).put (F.VPT_STAT_LSTATE p) 0
        u.setPort p { u.port p with
          lanes := l
          nonce := nonce.toNat
          stuck := false
          refused := none
          checkBad := 0 }).settled) ∧
  -- TRAIN_DONE: the widest width that the usable lanes allow, or a failed attempt with cause 0x0E
  (∀ (s : State) (p : Fin 128) (own peer : BitVec 4) (lanes : List (BitVec 30 × Byte × Byte)), s.stopped = false →
    s.bstate p = 2 →
    exec (.trainDone p own peer lanes) s =
      .next (let usable := own.toNat &&& peer.toNat
        let t := ((setBitsList own.toNat 4).foldl (fun (s : State) l => s.laneTrained p l (lanes.getD l (0, 0, 0))) s.fresh).put
          (F.VPT_STAT_LANES_OK p) usable
        match chooseWidth (t.widest p) usable with
        | none => t.failAttempt p 0x0E
        | some (w, l) =>
          if w < t.widest p ∧ t.flag (F.VPT_CTL_DEGRADE_EN p) = false then t.failAttempt p 0x0E
          else
            let u := (t.put (F.VPT_STAT_WIDTH p) w).toState p 3
            u.setPort p { u.port p with lanes := l }).settled) ∧
  -- POLARITY_DONE
  (∀ (s : State) (p : Fin 128) (inverted : BitVec 4), s.stopped = false → s.bstate p = 3 →
    exec (.polarityDone p inverted) s =
      .next ((s.fresh.put (F.VPT_STAT_POL_INV p) (inverted.toNat &&& (s.port p).lanes)).toState p 4).settled) ∧
  -- LANE_ORDER_DONE: a lane that fails CHECK once is looked at again, one that fails it twice fails the attempt with cause 3
  (∀ (s : State) (p : Fin 128) (markers : List (BitVec 20)), s.stopped = false → s.bstate p = 4 →
    checkFailed (setBitsList (s.port p).lanes 4) (markers.map (·.toNat)) ≠ 0 →
    exec (.laneOrderDone p markers) s =
      .next (let bad := checkFailed (setBitsList (s.port p).lanes 4) (markers.map (·.toNat))
        if bad &&& (s.port p).checkBad ≠ 0 then s.fresh.failAttempt p 0x03
        else s.fresh.setPort p { s.port p with checkBad := (s.port p).checkBad ||| bad }).settled) ∧
  (∀ (s : State) (p : Fin 128) (m : BitVec 20) (l : Nat), s.stopped = false → s.bstate p = 4 →
    setBitsList (s.port p).lanes 4 = [l] → markerCheckOk m.toNat = true →
    exec (.laneOrderDone p [m]) s =
      .next ((s.fresh.put (F.VPT_STAT_LANE_MAP p)
        (setBitsOf (s.get (F.VPT_STAT_LANE_MAP p)) (2 * l + 1) (2 * l) (markerLane m.toNat))).toState p 5).settled) ∧
  -- DESKEW_DONE: at most 512 unit intervals
  (∀ (s : State) (p : Fin 128) (skew : Nat), s.stopped = false → s.bstate p = 5 →
    exec (.deskewDone p skew) s =
      .next (let t := s.fresh.put (F.VPT_STAT_SKEW p) (min 1023 skew)
        if skew ≤ 512 then (t.setPort p { t.port p with fecRun := 0 }).toState p 6
        else (s.fresh.put (F.VPT_STAT_SKEW p) (min 1023 skew)).failAttempt p 0x04).settled) ∧
  -- FEC_LOCK_DONE: 64 codewords in a row that FEC could correct
  (∀ (s : State) (p : Fin 128), s.stopped = false → s.bstate p = 6 → 64 ≤ (s.port p).fecRun →
    exec (.fecLockDone p) s = .next (s.fresh.toState p 7).settled) ∧
  -- IDENT_CODEWORD_RECEIVE: the neighbour is recorded and compared; encryption that differs stops bring-up with cause 8
  (∀ (s : State) (p : Fin 128) (i : LinkIdent), s.stopped = false → s.bstate p = 7 →
    (s.port p).refused ≠ some i → i.encReq = false →
    exec (.identCodewordReceive p i) s =
      .next (let t := (((((s.fresh.put (F.RTE_NBR_SEEN_DOMAIN p) i.domain.toNat).put (F.RTE_NBR_SEEN_MEMBER p) i.member.toNat).put
          (F.RTE_NBR_SEEN_PORT p) i.port.toNat).putFlag (F.RTE_NBR_SEEN_VALID p) true).nbrCompare p)
        if t.flag (F.VPT_CTL_ENC_REQ p) then t.refuseLink p 0x08 i
        else
          let u := (t.putFlag (F.VPT_STAT_ENC p) false).toState p 8
          u.setPort p { u.port p with
            stuck := false
            refused := none
            ivTx := 2 ^ 63
            authRx := 0
            keySlot := u.get (F.VPT_CTL_KEY_SLOT p)
            peer := some (i.domain.toNat, i.member.toNat, i.port.toNat, i.nonce.toNat) }).settled) ∧
  -- CREDIT_INIT_RECEIVE: limits out of range fail with cause 9
  (∀ (s : State) (p : Fin 128) (limits : List Nat) (echoed : Bool), s.stopped = false → s.bstate p = 8 →
    limits.all creditOk = false →
    exec (.creditInitReceive p limits echoed) s = .next (s.fresh.failAttempt p 0x09).settled) ∧
  -- CREDIT_INIT_RECEIVE: echoed, on an aligned device, the port comes up
  (∀ (s : State) (p : Fin 128) (limits : List Nat), s.stopped = false → s.bstate p = 8 → (s.creditLimits p).all creditOk = true →
    (s.creditLimits p).foldl (· + ·) 0 ≤ s.get F.SWX_BUF_THR_RX_RES → limits.length = 8 → limits.all creditOk = true →
    s.flag F.TRN_STAT_ALIGNED = true →
    exec (.creditInitReceive p limits true) s =
      .next ((s.fresh.setPort p { s.port p with
        credGot := true
        limits := limits }).portUp p limits).settled) ∧
  -- BRINGUP_TIMEOUT: a state left too late fails the attempt with its cause
  (∀ (s : State) (p : Fin 128) (n cause : Nat), s.stopped = false → bringupLimit (s.bstate p) = some (n, cause) →
    (s.port p).enteredAt + n < s.clk → (s.port p).stuck = false →
    exec (.bringupTimeout p) s = .next (s.fresh.failAttempt p cause).settled) ∧
  -- BRINGUP_RETRY: 25,000 turns later Detect may be left again
  (∀ (s : State) (p : Fin 128), s.stopped = false → s.bstate p = 1 → (s.port p).notBefore ≤ s.clk →
    exec (.bringupRetry p) s = .next (s.fresh.setPort p { s.port p with notBefore := 0 }).settled)

/-- Codewords, acknowledgements and what takes a link down (R268, R269, R273, R279, R280, R282, R287). -/
def Obligations.LinkCodewordCommandsComplete : Prop :=
  -- CODEWORD_TRANSMIT: every 8,192nd codeword is a marker
  (∀ (s : State) (p : Fin 128) (n : Nat), s.stopped = false → s.codewordNow p = some n → s.bstate p = 9 →
    (s.port p).cwNext ≤ n → (s.port p).quietTx = false → n % 8192 = 0 →
    exec (.codewordTransmit p) s =
      .next (((s.fresh.setPort p { s.port p with cwNext := n + 1 }).setPort p { s.port p with
          cwNext := n + 1
          markNext := false }).emit
        (.codeword p n (lineUis (widthLanes (s.get (F.VPT_STAT_WIDTH p)))
          (markerSymbols p (s.get (F.VPT_STAT_WIDTH p)) (widthLanes (s.get (F.VPT_STAT_WIDTH p)))))
          ((setBitsList (s.port p).lanes 4).map (s.laneDrive p)))).settled) ∧
  -- CODEWORD_TRANSMIT: any other carries the stream of an Up port
  (∀ (s : State) (p : Fin 128) (n : Nat), s.stopped = false → s.codewordNow p = some n → s.bstate p = 9 →
    (s.port p).cwNext ≤ n → (s.port p).quietTx = false → n % 8192 ≠ 0 → (s.port p).markNext = false →
    exec (.codewordTransmit p) s =
      .next (((s.fresh.setPort p { s.port p with cwNext := n + 1 }).transmitUp p n).updateThrottle p).settled) ∧
  -- CODEWORD_RECEIVE: one that FEC cannot correct is counted and asked for again
  (∀ (s : State) (p : Fin 128) (corrected : List Nat), s.stopped = false → s.bstate p = 9 →
    exec (.codewordReceive p .uncorrectable corrected) s =
      .next (((s.fresh.countCorrected p corrected).count (F.VPT_FEC_UNCORR p) 1).badWord p).settled) ∧
  -- CODEWORD_RECEIVE: in FEC lock a codeword of a reserved type counts as one that FEC cannot correct
  (∀ (s t : State) (p : Fin 128) (cw : LinkCodeword) (authentic : Bool) (corrected : List Nat), s.stopped = false →
    s.bstate p = 6 → s.fresh.countCorrected p corrected = t → t.flag (F.VPT_STAT_ENC p) = false → 3 < cw.type →
    exec (.codewordReceive p (.codeword cw authentic) corrected) s =
      .next (((t.setPort p { t.port p with fecRun := 0 }).count (F.VPT_FEC_UNCORR p) 1).badWord p).settled) ∧
  -- CODEWORD_RECEIVE: a data codeword of an Up port without encryption is taken
  (∀ (s t : State) (p : Fin 128) (cw : LinkCodeword) (authentic : Bool) (corrected : List Nat), s.stopped = false →
    s.bstate p = 9 → s.fresh.countCorrected p corrected = t → t.flag (F.VPT_STAT_ENC p) = false → cw.type = 0 →
    exec (.codewordReceive p (.codeword cw authentic) corrected) s = .next (t.goodWord p cw).settled) ∧
  -- CODEWORD_RECEIVE: a failed authentication among the first 64 codewords of an encrypted link takes it down
  (∀ (s t : State) (p : Fin 128) (cw : LinkCodeword) (corrected : List Nat), s.stopped = false → s.bstate p = 9 →
    s.fresh.countCorrected p corrected = t → t.flag (F.VPT_STAT_ENC p) = true → (t.port p).authRx < 64 →
    exec (.codewordReceive p (.codeword cw false) corrected) s =
      .next ((t.count (F.VPT_ERR_AUTH_FAIL p) 1).portDown p 0x0A).settled) ∧
  -- ACK_TIMEOUT: a replay begins
  (∀ (s : State) (p : Fin 128), s.stopped = false → s.bstate p = 9 → (s.port p).unacked ≠ [] →
    (s.port p).progressAt + s.get (F.VPT_RETRY_ACK_TIMEOUT p) ≤ s.clk →
    exec (.ackTimeout p) s = .next (s.fresh.startReplay p).settled) ∧
  -- LOSS_OF_SIGNAL: of a lane in use on an Up link
  (∀ (s t : State) (p : Fin 128) (lanes : BitVec 4), s.stopped = false →
    (setBitsList lanes.toNat 4).foldl (fun (s : State) l =>
      (s.putFlag (F.VGL_STAT_SIGNAL p l) false).putFlag (F.VGL_STAT_CDR_LOCK p l) false) s.fresh = t →
    (s.port p).lanes &&& lanes.toNat ≠ 0 → t.flag (F.VPT_STAT_UP p) = true →
    exec (.lossOfSignal p lanes) s = .next (t.portDown p 0x0D).settled) ∧
  -- LINK_DOWN: LIMIT replays in a row without progress
  (∀ (s : State) (p : Fin 128), s.stopped = false → s.flag (F.VPT_STAT_UP p) = true →
    s.get (F.VPT_RETRY_LIMIT p) ≤ (s.port p).replays → (s.port p).replay = none → (s.port p).unacked ≠ [] →
    (s.port p).progressAt + s.get (F.VPT_RETRY_ACK_TIMEOUT p) ≤ s.clk →
    exec (.linkDown p .replay) s = .next (s.fresh.portDown p 0x0B).settled)

/-- Quiet, deep idle, loops and the write rule of VPT_CTL (R284, R285, R286, R287). -/
def Obligations.LinkStateCommandsComplete : Prop :=
  -- QUIET: the peer's direction
  (∀ (s : State) (p : Fin 128) (rest : List Nat), s.stopped = false → (s.port p).stateIn = 1 :: rest →
    exec (.quiet p) s =
      .next (let t := s.fresh.setPort p { s.port p with stateIn := rest }
        t.setPort p { t.port p with
          quietRx := true
          wake := false }).settled) ∧
  -- QUIET_ENTER: after QUIET_IDLE turns with nothing to send and nothing unacknowledged
  (∀ (s : State) (p : Fin 128) (n : Nat), s.stopped = false → s.bstate p = 9 → (s.port p).quietTx = false →
    s.get (F.VPT_CTL_QUIET_IDLE p) ≠ 0 → (s.port p).busyAt + s.get (F.VPT_CTL_QUIET_IDLE p) ≤ s.clk →
    (s.port p).unacked = [] → s.txWaits p = false → s.listedSoon p = false → s.codewordNow p = some n →
    (s.port p).cwNext ≤ n → (s.port p).markerAt 9 n = false →
    exec (.quietEnter p) s =
      .next (let t := (s.fresh.setPort p { s.port p with
          stateOut := 1
          cwNext := n + 1 }).transmitUp p n
        ((t.setPort p { t.port p with
          quietTx := true
          wake := false }).put (F.VPT_STAT_LSTATE p) 2).emit (.pattern p 1)).settled) ∧
  -- QUIET_EXIT: something waits; the first codeword is a marker
  (∀ (s : State) (p : Fin 128), s.stopped = false → s.bstate p = 9 → (s.port p).quietTx = true → s.txWaits p = true →
    exec (.quietExit p) s =
      .next ((s.fresh.setPort p { s.port p with
        quietTx := false
        wake := false
        markNext := true
        busyAt := s.clk }).put (F.VPT_STAT_LSTATE p) 1).settled) ∧
  -- DEEP_IDLE: the peer's request
  (∀ (s : State) (p : Fin 128) (rest : List Nat), s.stopped = false → (s.port p).stateIn = 2 :: rest →
    exec (.deepIdle p) s =
      .next (((List.range 4).foldl (fun (s : State) l => s.putFlag (F.VGL_STAT_SIGNAL p l) false)
        ((s.fresh.setPort p { s.port p with stateIn := rest }).portDown p 0x0F)).put (F.VPT_STAT_LSTATE p) 3).settled) ∧
  -- FE_LOOP_REQ: granted where FE_ALLOW is 1, else denied
  (∀ (s : State) (p : Fin 128) (rest : List Nat), s.stopped = false → (s.port p).stateIn = 3 :: rest →
    s.flag (F.VPT_CTL_FE_ALLOW p) = true →
    exec (.feLoopReq p) s =
      .next (let t := ((s.fresh.setPort p { s.port p with stateIn := rest }).announce p 4).portDown p 0x0F
        (t.setPort p { t.port p with feGranted := true }).put (F.VPT_STAT_BSTATE p) 10).settled) ∧
  (∀ (s : State) (p : Fin 128) (rest : List Nat), s.stopped = false → (s.port p).stateIn = 3 :: rest →
    s.flag (F.VPT_CTL_FE_ALLOW p) = false →
    exec (.feLoopReq p) s =
      .next (let t := s.fresh.setPort p { s.port p with stateIn := rest }
        t.setPort p { t.port p with stateOut := 5 }).settled) ∧
  -- FE_LOOP_GRANT, FE_LOOP_DENY
  (∀ (s : State) (p : Fin 128), s.stopped = false → (s.port p).feWaiting = true → s.get (F.VPT_CTL_LOOP p) = 3 →
    exec (.feLoopGrant p) s =
      .next ((s.fresh.setPort p { s.port p with feWaiting := false }).put (F.VPT_STAT_BSTATE p) 10).settled) ∧
  (∀ (s : State) (p : Fin 128), s.stopped = false → (s.port p).feWaiting = true →
    exec (.feLoopDeny p) s =
      .next ((s.fresh.setPort p { s.port p with feWaiting := false }).put (F.VPT_STAT_BSTATE p) 1).settled) ∧
  -- STATE_REQ_WRITE: deep idle requested
  (∀ (s : State) (p : Path) (n : Fin 128) (data : Word) (w : RegWrite), s.stopped = false →
    s.writeOpen p (Reg.VPT_CTL n) data = true → s.writeOf p (Reg.VPT_CTL n) data = w → (s.port n).stuck = false →
    s.up.detachAt = none → w.newF (F.VPT_CTL_EN n) = 1 → w.oldF (F.VPT_CTL_EN n) = 1 → w.newF (F.VPT_CTL_LOOP n) = 0 → w.oldF (F.VPT_CTL_LOOP n) = 0 →
    w.newF (F.VPT_CTL_STATE_REQ n) = 2 → w.oldF (F.VPT_CTL_STATE_REQ n) ≠ 2 →
    exec (.stateReqWrite p n data) s = .next (((s.fresh.takeWrite w).portDeepIdle n).written p).settled) ∧
  -- LOOP_SELECT: a near-end loop takes the link down and runs
  (∀ (s t : State) (p : Path) (n : Fin 128) (data : Word) (w : RegWrite), s.stopped = false →
    s.writeOpen p (Reg.VPT_CTL n) data = true → s.writeOf p (Reg.VPT_CTL n) data = w → (s.port n).stuck = false →
    s.up.detachAt = none → s.fresh.takeWrite w = t → t.portsHeld = false →
    w.newF (F.VPT_CTL_EN n) = 1 → w.newF (F.VPT_CTL_LOOP n) = 1 → w.oldF (F.VPT_CTL_LOOP n) = 0 →
    exec (.loopSelect p n data) s =
      .next (((t.portDown n 0x0F).put (F.VPT_STAT_BSTATE n) 10).written p).settled) ∧
  -- PORT_EN_CLEAR: the link goes down with cause 0x0F
  (∀ (s : State) (p : Path) (n : Fin 128) (data : Word) (w : RegWrite), s.stopped = false →
    s.writeOpen p (Reg.VPT_CTL n) data = true → s.writeOf p (Reg.VPT_CTL n) data = w → (s.port n).stuck = false →
    s.up.detachAt = none → w.newF (F.VPT_CTL_EN n) = 0 → w.oldF (F.VPT_CTL_EN n) = 1 →
    exec (.portEnClear p n data) s =
      .next ((((s.fresh.takeWrite w).portDown n 0x0F).put (F.VPT_STAT_LSTATE n) 0).written p).settled) ∧
  -- a write to the port of a detached device, or one that changes nothing for a port that Ident refused, has no effect on the link
  (∀ (s : State) (p : Path) (n : Fin 128) (data : Word) (w : RegWrite), s.stopped = false →
    s.writeOpen p (Reg.VPT_CTL n) data = true → s.writeOf p (Reg.VPT_CTL n) data = w → s.up.detachAt ≠ none →
    exec (.portEnClear p n data) s = .next ((s.fresh.takeWrite w).written p).settled) ∧
  (∀ (s : State) (p : Path) (n : Fin 128) (data : Word) (w : RegWrite), s.stopped = false →
    s.writeOpen p (Reg.VPT_CTL n) data = true → s.writeOf p (Reg.VPT_CTL n) data = w → s.up.detachAt = none →
    (s.port n).stuck = true → w.new = w.old → w.newF (F.VPT_CTL_EN n) = 1 → w.newF (F.VPT_CTL_LOOP n) = 0 →
    w.newF (F.VPT_CTL_STATE_REQ n) = 0 →
    exec (.portEnClear p n data) s = .next ((s.fresh.takeWrite w).written p).settled)

/-! ### Memory stacks (spec/13_hbm_and_hatch_code.md) -/

/-- Sweeps, the initial fill, encryption, the hatch code's mode and key slots (R293, R299, R303, R304, R305). -/
def Obligations.HbmControlCommandsComplete : Prop :=
  -- SWEEP_START: the sweep that the fields name starts
  (∀ (s t : State) (p : Path) (data : Word), s.stopped = false → s.writeOpen p Reg.HBM_SWEEP data = true →
    (s.writeOf p Reg.HBM_SWEEP data).actF F.HBM_SWEEP_START = 1 →
    s.fresh.takeWrite ((s.writeOf p Reg.HBM_SWEEP data).setNew F.HBM_SWEEP_START 0) = t →
    t.flag F.HBM_STAT_SWEEP_ACTIVE = false → t.get F.HBM_SWEEP_FIRST_REGION ≤ t.get F.HBM_SWEEP_LAST_REGION →
    t.get F.HBM_SWEEP_LAST_REGION < regionCount → t.flag (F.HBM_SLOT_STAT_RETIRED (t.get F.HBM_SWEEP_NEW_SLOT)) = false →
    t.flag F.HBM_SWEEP_MODE = false → t.flag F.HBM_SWEEP_ALL_SLOTS = false →
    exec (.sweepStart p data) s =
      .next ((t.startSweep { first := t.get F.HBM_SWEEP_FIRST_REGION, last := t.get F.HBM_SWEEP_LAST_REGION, fill := false, all := false, newSlot := t.get F.HBM_SWEEP_NEW_SLOT, kind := 0 }).written p).settled) ∧
  -- SWEEP_START: rejected while a sweep is active
  (∀ (s t : State) (p : Path) (data : Word), s.stopped = false → s.writeOpen p Reg.HBM_SWEEP data = true →
    (s.writeOf p Reg.HBM_SWEEP data).actF F.HBM_SWEEP_START = 1 →
    s.fresh.takeWrite ((s.writeOf p Reg.HBM_SWEEP data).setNew F.HBM_SWEEP_START 0) = t →
    t.flag F.HBM_STAT_SWEEP_ACTIVE = true →
    exec (.sweepStart p data) s =
      .next (((t.putFlag F.HBM_STAT_SWEEP_REJ true).rejected 8 4).written p).settled) ∧
  -- SWEEP_SLOT: at background positions 3 and 11
  (∀ (s : State) (w : Sweep), s.stopped = false → s.hbm.sweep = some w → s.inBackground [3, 11] = true →
    exec .sweepSlot s = .next (s.fresh.sweepAdvance w).settled) ∧
  -- HBM_INIT: the initial fill starts over every region with slot 0
  (∀ (s : State) (p : Path) (data : Word) (w : RegWrite), s.stopped = false → s.writeOpen p Reg.HBM_CTL data = true →
    s.writeOf p Reg.HBM_CTL data = w → w.actF F.HBM_CTL_INIT = 1 →
    w.newF F.HBM_CTL_HATCH_MODE = w.oldF F.HBM_CTL_HATCH_MODE →
    s.flag F.HBM_STAT_INIT_DONE = false → (s.fresh.takeWrite w).flag F.HBM_STAT_INIT_DONE = false →
    (s.fresh.takeWrite w).flag F.HBM_STAT_SWEEP_ACTIVE = false →
    exec (.hbmInit p data) s =
      .next (((s.fresh.takeWrite w).startSweep { first := 0, last := regionCount - 1, fill := true, all := true, newSlot := 0, kind := 1 }).written
        p).settled) ∧
  -- ENC_EN_WRITE: fixed once INIT_DONE is 1
  (∀ (s : State) (p : Path) (data : Word) (w : RegWrite), s.stopped = false → s.writeOpen p Reg.HBM_CTL data = true →
    s.writeOf p Reg.HBM_CTL data = w → s.flag F.HBM_STAT_INIT_DONE = true →
    w.newF F.HBM_CTL_ENC_EN ≠ w.oldF F.HBM_CTL_ENC_EN → w.newF F.HBM_CTL_HATCH_MODE = w.oldF F.HBM_CTL_HATCH_MODE →
    w.actF F.HBM_CTL_INIT = 0 →
    exec (.encEnWrite p data) s =
      .next ((((s.fresh.takeWrite (w.keep F.HBM_CTL_ENC_EN)).putFlag F.HBM_STAT_CFG_REJ true).rejected 8 4).written p).settled) ∧
  (∀ (s : State) (p : Path) (data : Word) (w : RegWrite), s.stopped = false → s.writeOpen p Reg.HBM_CTL data = true →
    s.writeOf p Reg.HBM_CTL data = w → s.flag F.HBM_STAT_INIT_DONE = false →
    w.newF F.HBM_CTL_HATCH_MODE = w.oldF F.HBM_CTL_HATCH_MODE → w.actF F.HBM_CTL_INIT = 0 →
    exec (.encEnWrite p data) s = .next ((s.fresh.setReg w.addr w.new).written p).settled) ∧
  -- HATCH_MODE_WRITE: in effect from the next turn
  (∀ (s : State) (p : Path) (data : Word) (w : RegWrite), s.stopped = false → s.writeOpen p Reg.HBM_CTL data = true →
    s.writeOf p Reg.HBM_CTL data = w → w.newF F.HBM_CTL_ENC_EN = w.oldF F.HBM_CTL_ENC_EN →
    w.newF F.HBM_CTL_HATCH_MODE ≠ w.oldF F.HBM_CTL_HATCH_MODE → w.actF F.HBM_CTL_INIT = 0 →
    exec (.hatchModeWrite p data) s =
      .next ((({ s.fresh.takeWrite w with hbm := { s.hbm with
        hatchOld := some (s.hatchMode, s.clk) } } : State)).written p).settled) ∧
  -- RETIRE: a slot without references retires, one with references is left
  (∀ (s t : State) (p : Path) (n : Fin 16) (data : Word), s.stopped = false →
    s.writeOpen p (Reg.HBM_SLOT_STAT n) data = true →
    (s.writeOf p (Reg.HBM_SLOT_STAT n) data).actF (F.HBM_SLOT_STAT_RETIRE n) = 1 →
    (s.writeOf p (Reg.HBM_SLOT_STAT n) data).actF (F.HBM_SLOT_STAT_REARM n) = 0 →
    s.fresh.takeWrite (((s.writeOf p (Reg.HBM_SLOT_STAT n) data).setNew (F.HBM_SLOT_STAT_RETIRE n) 0).setNew
      (F.HBM_SLOT_STAT_REARM n) 0) = t →
    exec (.retire p n data) s =
      .next ((if t.get (F.HBM_SLOT_STAT_REFS n) = 0 then t.putFlag (F.HBM_SLOT_STAT_RETIRED n) true
        else (t.putFlag F.HBM_STAT_SLOT_REJ true).rejected 8 4).written p).settled) ∧
  -- REARM: a retired slot is in use again with its salt plus one
  (∀ (s t : State) (p : Path) (n : Fin 16) (data : Word), s.stopped = false →
    s.writeOpen p (Reg.HBM_SLOT_STAT n) data = true →
    (s.writeOf p (Reg.HBM_SLOT_STAT n) data).actF (F.HBM_SLOT_STAT_RETIRE n) = 0 →
    (s.writeOf p (Reg.HBM_SLOT_STAT n) data).actF (F.HBM_SLOT_STAT_REARM n) = 1 →
    s.fresh.takeWrite (((s.writeOf p (Reg.HBM_SLOT_STAT n) data).setNew (F.HBM_SLOT_STAT_RETIRE n) 0).setNew
      (F.HBM_SLOT_STAT_REARM n) 0) = t → t.flag (F.HBM_SLOT_STAT_RETIRED n) = true →
    exec (.rearm p n data) s =
      .next (((t.putFlag (F.HBM_SLOT_STAT_RETIRED n) false).setReg (Reg.HBM_SLOT_SALT n) (t.reg (Reg.HBM_SLOT_SALT n) + 1)).written
        p).settled)

/-- The background slots, repairs and stack identities (R306, R307, R308, R309, R310, R311). -/
def Obligations.HbmBackgroundCommandsComplete : Prop :=
  -- the rotation of 125,000 refresh slots reaches every row of a pseudo-channel
  (∀ r : Nat, r < 2 ^ 21 →
    r / 17 < 125000 ∧ min channelRows (17 * (r / 17)) ≤ r ∧ r < min channelRows (17 * (r / 17 + 1))) ∧
  -- REFRESH_SLOT: the rows of the rotation are refreshed; with a new refresh period activation counts begin anew
  (∀ s : State, s.stopped = false → s.inBackground [0, 2, 4, 6, 8, 10, 12, 14] = true →
    exec .refreshSlot s =
      .next (let k := s.now / 32 % 125000
        let t := (s.fresh.emit (.hbmRefreshRows k (min channelRows (17 * k)) (min channelRows (17 * (k + 1))))).emit (.hbmCalibrate ((List.range 32).filter (fun pc => Config.calibrationSlot pc % 125000 == k)))
        if s.hbm.refreshStart + refreshPeriod ≤ s.clk then
          ({ t with hbm := { t.hbm with
            acts := []
            flagged := []
            refreshStart := t.clk } } : State)
        else t).settled) ∧
  -- SCRUB_SLOT: without write-backs SCRUB_RATE granules are read from POS on
  (∀ (s : State) (t : Fin 24), s.stopped = false → s.inBackground [1, 5, 9, 13] = true →
    s.hbm.writeBack = [] → s.flag F.HBM_CTL_SCRUB_EN = true →
    s.get (F.HBM_S_SCRUB_POS t) + min 256 (s.get F.HBM_CTL_SCRUB_RATE) < stackGranules →
    exec (.scrubSlot t []) s =
      .next (((s.fresh.scrubSpan t (s.get (F.HBM_S_SCRUB_POS t)) (min (min 256 (s.get F.HBM_CTL_SCRUB_RATE))
        (stackGranules - s.get (F.HBM_S_SCRUB_POS t)))).put (F.HBM_S_SCRUB_POS t)
          (s.get (F.HBM_S_SCRUB_POS t) + min 256 (s.get F.HBM_CTL_SCRUB_RATE)))).settled) ∧
  -- SCRUB_SLOT: in another turn nothing is scrubbed, whatever strikes the stack
  (∀ (s t : State) (n : Fin 24) (struck : List (Nat × SymbolErrors)), s.stopped = false →
    struck.foldl (fun (s : State) e => s.hbmStrike (stackGranule n (e.1 % stackGranules)) e.2) s.fresh = t →
    t.inBackground [1, 5, 9, 13] = false →
    exec (.scrubSlot n struck) s = .next t.settled) ∧
  -- WEAR_SLOT: the rows next to an aggressor are refreshed
  (∀ (s : State) (t : Fin 24) (a : HbmRow), s.stopped = false → s.inBackground [7] = true → s.flag F.HBM_WEAR_EN = true →
    s.get F.HBM_WEAR_DIST = 1 → s.hbm.aggressors = [a] → a.1 = t.val → 1 ≤ a.2.2 →
    exec (.wearSlot t) s =
      .next (((({ (s.fresh.emit (.hbmRefresh a.1 a.2.1 (a.2.2 - 1))).emit (.hbmRefresh a.1 a.2.1 (a.2.2 + 1)) with hbm := { s.hbm with
        aggressors := []
        bankHeld := s.hbm.bankHeld.filter (fun x => !(x == a)) } } : State).count (F.HBM_S_WEAR_MITIGATED t) 1).put
          (F.HBM_S_WEAR_QUEUED t) 0)).settled) ∧
  -- REPAIR_SLOT: a row over PPR_THRESH is copied to a spare
  (∀ (s : State) (t : Fin 24) (pc : Fin 32) (r : HbmRow) (n : Nat), s.stopped = false → s.inBackground [15] = true →
    s.hbm.rowFix.find? (fun e => e.1.1 = t.val ∧ e.1.2.1 = pc.val ∧ s.get (F.HBM_S_REPAIR_PPR_THRESH t) ≤ e.2) = some (r, n) →
    exec (.repairSlot t pc true) s =
      .next (let t0 : State := { s.fresh with hbm := { s.hbm with rowFix := s.hbm.rowFix.filter (fun e => e.1 ≠ r) } }
        let u := (rowGranules r).foldl (fun (s : State) g => (s.hbmScrubGranule g false).2) t0
        let v : State := { u with hbm := { u.hbm with repaired := u.hbm.repaired.erase r ++ [r] } }
        (v.put (F.HBM_S_REPAIR_SOFT_USED t) (v.get (F.HBM_S_REPAIR_SOFT_USED t) + 1)).emit (.hbmRepair false r.1 r.2.1 r.2.2)).settled) ∧
  -- REPAIR_SLOT: without a spare it is recorded
  (∀ (s : State) (t : Fin 24) (pc : Fin 32) (r : HbmRow) (n : Nat), s.stopped = false → s.inBackground [15] = true →
    s.hbm.rowFix.find? (fun e => e.1.1 = t.val ∧ e.1.2.1 = pc.val ∧ s.get (F.HBM_S_REPAIR_PPR_THRESH t) ≤ e.2) = some (r, n) →
    exec (.repairSlot t pc false) s =
      .next ((({ s.fresh with hbm := { s.hbm with rowFix := s.hbm.rowFix.filter (fun e => e.1 ≠ r) } } : State).count
        (F.HBM_S_REPAIR_SOFT_FAIL t) 1).fault 4 0x0005 8 (t / 6)
          { detail0 := t.val + pc.val * 0x100, detail1 := r.2.2 }).settled) ∧
  -- HARD_REPAIR: issued by running firmware while ADMIT is 0
  (∀ (s : State) (t : Fin 24) (pc : Fin 32) (row : Nat), s.stopped = false → s.admitted = false →
    s.get F.MGT_STAT_BOOT = 1 → 0 < s.get (F.HBM_S_REPAIR_HARD_LEFT t) →
    exec (.hardRepair t pc row) s =
      .next ((s.fresh.put (F.HBM_S_REPAIR_HARD_LEFT t)
        (s.get (F.HBM_S_REPAIR_HARD_LEFT t) - 1)).emit (.hbmRepair true t pc row)).settled) ∧
  -- STACK_IDENTITY_READ: OK needs 16 dies of 32 Gb
  (∀ (s : State) (t : Fin 24) (mfr : Byte) (part date : BitVec 16) (height density : Byte) (hardLeft : BitVec 16),
    s.stopped = false → s.up.pllLocked = true →
    exec (.stackIdentityRead t mfr part date height density hardLeft) s =
      .next (({ ((((((s.fresh.put (F.HBM_S_ID_MFR t) mfr.toNat).put (F.HBM_S_ID_PART t) part.toNat).put (F.HBM_S_ID_DATE t)
          date.toNat).put (F.HBM_S_ID_HEIGHT t) height.toNat).put (F.HBM_S_ID_DENSITY t) density.toNat).put
          (F.HBM_S_REPAIR_HARD_LEFT t) hardLeft.toNat).putFlag (F.HBM_S_ID_OK t) (height == 16 && density == 32) with
        up := { s.up with stacksRead := setBitAt s.up.stacksRead t true } } : State)).settled)

/-! ### Host attach (spec/14_host_attach.md, spec/16_security_and_isolation.md R361) -/

/-- Requests that the host makes of a port's BARs (R318, R319, R320, R322, R323, R324). -/
def Obligations.HostRequestCommandsComplete : Prop :=
  -- BAR2_READ: through a usable slot a request is issued on the slot's queue
  (∀ (s : State) (a : Fin 16) (p : Nat) (tag : BitVec 14) (off : BitVec 42) (len addr q : Nat), s.stopped = false →
    s.servingPort a = p → s.barOpen p = some true → s.bar2Slot p off.toNat = some (addr, q) →
    exec (.bar2Read a tag off len) s =
      .next ((s.fresh.bar2Begin p tag.toNat addr len false).issueMemory q opLoad addr len [] 0
        (.bar2 p (s.attach p).nextId)).settled) ∧
  -- BAR2_READ: where no slot is usable it is counted and completed with Completer Abort
  (∀ (s : State) (a : Fin 16) (p : Nat) (tag : BitVec 14) (off : BitVec 42) (len : Nat), s.stopped = false →
    s.servingPort a = p → s.barOpen p = some true → s.bar2Slot p off.toNat = none →
    exec (.bar2Read a tag off len) s =
      .next ((s.fresh.count (F.ATT_B2_CTL_MISS p) 1).emit (.completion p tag.toNat cplCa [] false)).settled) ∧
  -- BAR2_WRITE
  (∀ (s : State) (a : Fin 16) (p : Nat) (off : BitVec 42) (data : List Byte) (poison : Bool) (addr q : Nat), s.stopped = false →
    s.servingPort a = p → s.barOpen p = some true → s.bar2Slot p off.toNat = some (addr, q) →
    exec (.bar2Write a off data poison) s =
      .next (s.fresh.issueData q opStore addr data.length data 0 poison .none).settled) ∧
  -- BAR2_ATOMIC: FetchAdd, and every type that is none of the three is completed with Unsupported Request
  (∀ (s : State) (a : Fin 16) (p : Nat) (tag : BitVec 14) (off : BitVec 42) (x : Word) (addr q : Nat), s.stopped = false →
    s.servingPort a = p → s.barOpen p = some true → s.bar2Slot p off.toNat = some (addr, q) →
    exec (.bar2Atomic a tag off (.fetchAdd x)) s =
      .next ((s.fresh.bar2Begin p tag.toNat addr 8 true).issueMemory q 0x10 addr 8 (toBytesLE 8 x.toNat) 0
        (.bar2 p (s.attach p).nextId)).settled) ∧
  (∀ (s : State) (a : Fin 16) (p : Nat) (tag : BitVec 14) (off : BitVec 42), s.stopped = false →
    s.servingPort a = p → s.barOpen p = some true →
    exec (.bar2Atomic a tag off .other) s =
      .next ((s.fresh.count (F.ATT_DB_STAT_REJ p) 1).emit (.completion p tag.toNat cplUr [] false)).settled) ∧
  -- MSG_Q_TAIL_WRITE: a TAIL that does not overfill the ring
  (∀ (s : State) (p : Path) (q : Fin 512) (data : Word), s.stopped = false → s.writeOpen p (Reg.MSG_Q_IDX q) data = true →
    tailOver (s.msgN q) (s.get (F.MSG_Q_IDX_HEAD q)) ((s.writeOf p (Reg.MSG_Q_IDX q) data).newF (F.MSG_Q_IDX_TAIL q)) = false →
    exec (.msgQTailWrite p q data) s =
      .next ((s.fresh.put (F.MSG_Q_IDX_TAIL q)
        ((s.writeOf p (Reg.MSG_Q_IDX q) data).newF (F.MSG_Q_IDX_TAIL q) % (2 * s.msgN q))).written p).settled) ∧
  -- DB_TAIL: a doorbell that names an op queue of this port and its PASID advances TAIL
  (∀ (s : State) (a : Fin 16) (p : Nat) (q : Fin 512) (pasid : Option (BitVec 20)) (data : Word), s.stopped = false →
    s.servingPort a = p → s.barOpen p = some true → s.owner q = some 17 → q.val ≠ s.colq →
    s.ringTakes p pasid (F.PLT_OQ_CFG_EN q) (F.PLT_OQ_CFG_PORT q) (F.PLT_OQ_CFG_PASID q) = true →
    tailOver (s.oqN q) (s.oqHead q) (fieldGet data 16 0) = false → s.oqGated q = false →
    exec (.dbTail a q pasid data) s = .next (s.fresh.setOqTail q (fieldGet data 16 0)).settled) ∧
  -- DB_TAIL: one that does not is counted
  (∀ (s : State) (a : Fin 16) (p : Nat) (q : Fin 512) (pasid : Option (BitVec 20)) (data : Word), s.stopped = false →
    s.servingPort a = p → s.barOpen p = some true → s.owner q = some 17 → q.val ≠ s.colq →
    s.ringTakes p pasid (F.PLT_OQ_CFG_EN q) (F.PLT_OQ_CFG_PORT q) (F.PLT_OQ_CFG_PASID q) = false →
    exec (.dbTail a q pasid data) s = .next (s.fresh.count (F.ATT_DB_STAT_REJ p) 1).settled) ∧
  -- DB_FENCE: with an entry of the queue and the PASID a fence is placed
  (∀ (s : State) (a : Fin 16) (p : Nat) (q : Fin 512) (pasid : Option (BitVec 20)) (data : Word) (j : Nat), s.stopped = false →
    s.servingPort a = p → s.barOpen p = some true → s.fqEntry p q pasid = some j →
    exec (.dbFence a q pasid data) s =
      .next (s.fresh.placeFence q (fieldGet data 1 0) (fieldGet data 3 2) (.bar4 p j (fieldGet data 63 16))).settled) ∧
  -- DB_DMA: TAIL of the entry's ring
  (∀ (s : State) (a : Fin 16) (p : Nat) (q : Fin 512) (pasid : Option (BitVec 20)) (data : Word) (j : Nat), s.stopped = false →
    s.servingPort a = p → s.barOpen p = some true → s.fqEntry p q pasid = some j →
    tailOver (s.fqN p j) (s.get (F.ATT_FQ_D_HEAD p j)) (fieldGet data 16 0) = false →
    exec (.dbDma a q pasid data) s = .next (s.fresh.put (F.ATT_FQ_D_TAIL p j) (fieldGet data 16 0)).settled) ∧
  -- ATTACH_LINK_UP: once the PLL has locked
  (∀ (s : State) (a : Fin 16) (speed : Byte) (width : Fin 17), s.stopped = false → s.up.pllLocked = true → s.flag (F.ATT_CTL_EN a) = true →
    s.flag (F.ATT_LINK_BONDED a) = false → s.flag (F.ATT_LINK_UP a) = false →
    exec (.attachLinkUp a true speed width) s =
      .next (((((s.fresh.putFlag (F.ATT_LINK_UP a) true).putFlag (F.ATT_LINK_FLIT a) true).put (F.ATT_LINK_SPEED a)
        speed.toNat).put (F.ATT_LINK_WIDTH a) (min width.val 8)).attPump a).settled) ∧
  -- CONFIGURATION_REQUEST: Request Retry Status in burnish and before firmware has been tried
  (∀ (s : State) (a : Fin 16) (req : ConfigReq), s.stopped = false → s.portOn a = true → s.cfgWaits a = true →
    s.mem4 a req = none →
    exec (.configurationRequest a req) s = .next (s.fresh.emit (.cfgCompletion a cplRrs)).settled) ∧
  -- CONFIGURATION_REQUEST: a read returns what Table 14-1 gives the function
  (∀ (s : State) (a : Fin 16), s.stopped = false → s.portOn a = true → s.cfgWaits a = false →
    exec (.configurationRequest a (.read .classCode)) s =
      .next ((s.fresh.emit (.cfgData a (toBytesLE 4 0x120000))).emit (.cfgCompletion a cplSc)).settled ∧
    exec (.configurationRequest a (.read .maxPayload)) s =
      .next ((s.fresh.emit (.cfgData a (toBytesLE 4 512))).emit (.cfgCompletion a cplSc)).settled ∧
    exec (.configurationRequest a (.read (.capability .sriov))) s =
      .next ((s.fresh.emit (.cfgData a (toBytesLE 4 0))).emit (.cfgCompletion a cplSc)).settled) ∧
  (∀ (s : State) (a : Fin 16) (on : Bool) (alloc : Nat), s.stopped = false → s.portOn a = true → s.cfgWaits a = false →
    exec (.configurationRequest a (.priEnable on alloc)) s =
      .next ((s.fresh.setAttach a { s.attach a with
        priEnabled := on
        priAlloc := alloc }).emit (.cfgCompletion a cplSc)).settled) ∧
  -- CONFIGURATION_REQUEST: BAR2 reads back with every bit below its size 0, the size being 256 slots, and says 64-bit
  (∀ (s : State) (a : Fin 16), s.stopped = false → s.portOn a = true → s.cfgWaits a = false →
    exec (.configurationRequest a .bar2Read) s =
      .next (let size := 256 * 2 ^ (s.attach a).slotShift
        (s.fresh.emit (.cfgData a (toBytesLE 8 ((s.attach a).bar2Base / size * size + 4 +
          (if Config.bar2Prefetchable a then 8 else 0))))).emit (.cfgCompletion a cplSc)).settled) ∧
  -- CONFIGURATION_REQUEST: BAR0 reads as 64 MiB and BAR4 as 4 MiB
  (∀ (s : State) (a : Fin 16), s.stopped = false → s.portOn a = true → s.cfgWaits a = false →
    exec (.configurationRequest a .bar0Read) s =
      .next ((s.fresh.emit (.cfgData a (toBytesLE 8 ((s.attach a).bar0Base / 0x4000000 * 0x4000000 + 4)))).emit
        (.cfgCompletion a cplSc)).settled ∧
    exec (.configurationRequest a .bar4Read) s =
      .next ((s.fresh.emit (.cfgData a (toBytesLE 8 ((s.attach a).bar4Base / 0x400000 * 0x400000 + 4)))).emit
        (.cfgCompletion a cplSc)).settled) ∧
  -- CONFIGURATION_REQUEST: a read of a doorbell page of BAR4 returns zero
  (∀ (s : State) (a : Fin 16) (tag : BitVec 14) (k : BitVec 19), s.stopped = false → s.barOpen a = some true →
    k.toNat < 0x40000 →
    exec (.configurationRequest a (.mem4Read tag k)) s =
      .next (s.fresh.emit (.completion a tag.toNat cplSc (toBytesLE 8 0) false)).settled)

/-- Accesses to the host, translations, page requests, fault batches and DMA rings (R324, R325, R327, R328, R329, R330, R331). -/
def Obligations.HostAccessCommandsComplete : Prop :=
  -- DMA_DESCRIPTOR_FETCH
  (∀ (s : State) (a : Fin 16) (j : Fin 32), s.stopped = false → s.mayHost a = true → s.flag (F.ATT_FQ_A_VALID a j) = true →
    s.portOwns a (s.get (F.ATT_FQ_A_QUEUE a j)) = true → (s.attach a).jobs = [] →
    s.ringHeld a (s.get (F.ATT_FQ_A_QUEUE a j)) = false →
    s.get (F.ATT_FQ_D_HEAD a j) % (2 * s.fqN a j) ≠ s.get (F.ATT_FQ_D_TAIL a j) % (2 * s.fqN a j) →
    exec (.dmaDescriptorFetch a j) s =
      .next (let h := s.get (F.ATT_FQ_D_HEAD a j) % (2 * s.fqN a j)
        let t := (s.fresh.setAttach a { s.attach a with
          jobs := [{ entry := j, queue := s.get (F.ATT_FQ_A_QUEUE a j), pasid := s.get (F.ATT_FQ_B_PASID a j), index := h }] }).put
          (F.ATT_FQ_D_HEAD a j) ((h + 1) % (2 * s.fqN a j))
        (t.addAccess a (s.get (F.ATT_FQ_B_PASID a j)) (t.get (F.ATT_FQ_C_RING a j) * 4096 + 64 * (h % s.fqN a j)) 64 false
          (.descFetch j)).attPump a).settled) ∧
  -- DMA_PAGE_MOVE: toward the host, a translated part is read from the fabric in pieces of at most 256 bytes
  (∀ (s : State) (a : Fin 16) (j : Fin 32) (job : DmaJob) (k : Nat) (p : DmaPart), s.stopped = false →
    (s.attach a).jobs.find? (fun y => y.entry == j.val) = some job → job.parts.findIdx? (fun p => p.step == 1) = some k →
    job.parts[k]? = some p → s.mayHost a = true → dmaToHost job.desc = true →
    exec (.dmaPageMove a j) s =
      .next (((pieces256 p.len).foldl (fun (t : State) (o, n) => t.issueMemory job.queue opLoad (p.fabric + o) n [] 0 (.dma a j k))
        (s.fresh.mapJob a j (fun y => { y with parts := (y.parts.zipIdx).map (fun (p, i) =>
          if i = k then { p with step := 2 } else p) }))).attPump a).settled) ∧
  -- DMA_TILE_FLAG: by PROOF_WRITE
  (∀ (s : State) (a : Fin 16) (j : Fin 32) (job : DmaJob), s.stopped = false →
    (s.attach a).jobs.find? (fun y => y.entry == j.val) = some job → job.desc ≠ [] → job.ending = false →
    dmaFlagEn job.desc = true → job.parts ≠ [] → job.flagReady = true → job.fail = none → job.flags.contains job.tile = false →
    job.done ≤ job.tile →
    exec (.dmaTileFlag a j) s =
      .next (((s.fresh.mapJob a j (fun y => { y with flags := y.flags ++ [y.tile] })).issueMemory job.queue opProof
        (bytesAt job.desc 32 8 + 8 * job.tile) 8 ((job.desc.drop 40).take 8) 0 (.dma a j (2 ^ 40 + job.tile))).attPump a).settled) ∧
  -- HOST_READ_COMPLETION: data goes where the read was for; an error ends it TranslationError
  (∀ (s : State) (a : Fin 16) (tag : BitVec 14) (h : HostAccess) (bytes : List Byte) (poison : Bool), s.stopped = false →
    (s.attach a).byTag tag.toNat = some h →
    exec (.hostReadCompletion a tag (.data bytes poison)) s = .next ((s.fresh.readReturned a h bytes poison).attPump a).settled) ∧
  (∀ (s : State) (a : Fin 16) (tag : BitVec 14) (h : HostAccess), s.stopped = false → (s.attach a).byTag tag.toNat = some h →
    exec (.hostReadCompletion a tag .unsupported) s = .next ((s.fresh.failAccess a h 0x41).attPump a).settled) ∧
  -- HOST_COMPLETION_TIMEOUT
  (∀ (s : State) (a : Fin 16) (tag : BitVec 14) (h : HostAccess) (x since : Nat), s.stopped = false →
    (s.attach a).byTag tag.toNat = some h → h.step = .sent x since → since + max 256 (s.get (F.ATT_CTL_CPL_TO a)) ≤ s.clk →
    exec (.hostCompletionTimeout a tag) s = .next ((s.fresh.failAccess a h 0x41).attPump a).settled) ∧
  -- ATS_TRANSLATION_RESPONSE: cached, and the accesses that wait for it go on
  (∀ (s : State) (a : Fin 16) (pasid : BitVec 20) (page : BitVec 52) (r : AtsResult), s.stopped = false →
    (s.attach a).atsOut.contains (pasid.toNat, page.toNat) = true →
    exec (.atsTranslationResponse a pasid page (some r)) s =
      .next (let e : AtcEntry := { pasid := pasid.toNat, page := page.toNat / 2 ^ r.log2.val * 2 ^ r.log2.val, log2 := r.log2, addr := r.addr.toNat, read := r.read, write := r.write }
        let t := s.fresh.setAttach a (({ s.attach a with
          atsOut := (s.attach a).atsOut.erase (pasid.toNat, page.toNat) } : AttachState).cache e)
        (t.translated a pasid.toNat page.toNat (some e)).attPump a).settled) ∧
  -- ATS_INVALIDATE_REQUEST: entries are dropped; the completion waits for the reads in flight
  (∀ (s : State) (a : Fin 16) (itag : Fin 32) (pasid : Option (BitVec 20)), s.stopped = false → s.portOn a = true →
    (s.attach a).accesses = [] →
    exec (.atsInvalidateRequest a itag pasid) s =
      .next (let t := s.fresh.dropAtc a (pasid.map (·.toNat))
        let ws := ((t.attach a).accesses.filter (fun h => invMatches (pasid.map (·.toNat)) h.pasid && match h.step with
          | .sent _ _ => true
          | .ready | .translating | .paging _ | .batched => false)).map (·.id)
        t.setAttach a { t.attach a with
          invals := (t.attach a).invals ++ [{ itag := itag, pasid := pasid.map (·.toNat), waits := ws }] }).settled) ∧
  -- INVALIDATE_COMPLETION
  (∀ (s : State) (a : Fin 16) (i : Invalidation), s.stopped = false →
    (s.attach a).invals.find? (fun i => i.waits.all (fun w => !(s.attach a).accesses.any (fun h => h.id == w))) = some i →
    exec (.invalidateCompletion a) s =
      .next (((s.fresh.setAttach a { s.attach a with invals := (s.attach a).invals.erase i }).emit (.invalidateDone a i.itag)).attPump
        a).settled) ∧
  -- PAGE_REQUEST_GROUP_RESPONSE: Success
  (∀ (s : State) (a : Fin 16) (group : BitVec 9), s.stopped = false →
    (s.attach a).pageOut.any (fun o => o.1 == group.toNat) = true →
    exec (.pageRequestGroupResponse a group 0) s =
      .next ((((s.attach a).accesses.filter (fun h => h.group == some group.toNat)).foldl
        (fun (t : State) h => t.setAccess a { h with step := .ready })
        (s.fresh.setAttach a { s.attach a with pageOut := (s.attach a).pageOut.filter (fun o => o.1 != group.toNat) })).attPump
          a).settled) ∧
  -- PEER_HOLD_TIMEOUT: PageFaultBatched
  (∀ (s : State) (a : Fin 16) (h : HostAccess), s.stopped = false →
    (s.attach a).accesses.find? (fun (h : HostAccess) => h.group.isSome && h.use.way == .page false &&
      decide (h.heldAt.getD s.clk + s.get (F.ATT_PRI_HOLD a) < s.clk)) = some h →
    exec (.peerHoldTimeout a) s = .next ((s.fresh.failAccess a h 0x40).attPump a).settled) ∧
  -- FAULT_BATCH: BATCH_N faults held
  (∀ (s : State) (a : Fin 16), s.stopped = false → max 1 (s.get (F.ATT_PRI_BATCH_N a)) ≤ (s.attach a).faults.length →
    exec (.faultBatch a) s =
      .next (State.writeFaults (s.fresh.setAttach a { s.attach a with faults := [] }) a (s.attach a).faults).settled) ∧
  -- DMA_DESCRIPTOR_FETCH: a ring that waits for room in the park table fetches nothing
  (∀ (s : State) (a : Fin 16) (j : Fin 32), s.stopped = false → s.ringHeld a (s.get (F.ATT_FQ_A_QUEUE a j)) = true →
    exec (.dmaDescriptorFetch a j) s = .next s.fresh.settled) ∧
  -- FAULT_BATCH: a fault that no one batches in time is written after BATCH_T turns, with the turn of the fault
  (∀ (s : State) (a : Fin 16) (p : PendingFault), s.stopped = false → (s.attach a).faults = [p] →
    p.since + s.get (F.ATT_PRI_BATCH_T a) ≤ s.clk → p.dma = false →
    exec (.faultBatch a) s =
      .next ((s.fresh.setAttach a { s.attach a with faults := [] }).fault 1 0x0020 7 a
        { pasid := p.pasid, addr := 4096 * p.page, tag := p.queue, detail0 := a + b2n p.write * 0x100, detail1 := 0, turn := some p.turn }).settled)

/-- The attach port's registers, its link going down, resets and IDE (R72, R327, R329, R330, R331, R332, R333). -/
def Obligations.AttachPortCommandsComplete : Prop :=
  -- ATC_INV, ATC_INV_ALL
  (∀ (s : State) (p : Path) (a : Fin 16) (data : Word), s.stopped = false → s.writeOpen p (Reg.ATT_ATC a) data = true →
    (s.writeOf p (Reg.ATT_ATC a) data).actF (F.ATT_ATC_INV_ALL a) = 0 → (s.writeOf p (Reg.ATT_ATC a) data).actF (F.ATT_ATC_INV a) = 1 →
    exec (.atcInv p a data) s =
      .next (let t := s.fresh.setReg (Reg.ATT_ATC a) (s.writeOf p (Reg.ATT_ATC a) data).new
        ((t.dropAtc a (some (t.get (F.ATT_ATC_INV_PASID a)))).attPump a).written p).settled) ∧
  (∀ (s : State) (p : Path) (a : Fin 16) (data : Word), s.stopped = false → s.writeOpen p (Reg.ATT_ATC a) data = true →
    (s.writeOf p (Reg.ATT_ATC a) data).actF (F.ATT_ATC_INV_ALL a) = 1 →
    exec (.atcInvAll p a data) s =
      .next ((((s.fresh.setReg (Reg.ATT_ATC a) (s.writeOf p (Reg.ATT_ATC a) data).new).dropAtc a none).attPump a).written
        p).settled) ∧
  -- RESUME_PRI
  (∀ (s : State) (p : Path) (a : Fin 16) (data : Word), s.stopped = false → s.writeOpen p (Reg.ATT_PRI a) data = true →
    (s.writeOf p (Reg.ATT_PRI a) data).actF (F.ATT_PRI_RESUME_PRI a) = 1 →
    exec (.resumePri p a data) s =
      .next (((s.fresh.setReg (Reg.ATT_PRI a) (s.writeOf p (Reg.ATT_PRI a) data).new).putFlag (F.ATT_PRI_FALLBACK a) false).written
        p).settled) ∧
  -- FAULT_RESUME, FAULT_ABANDON: the held descriptors of the PASID retranslate, or end PageFaultBatched
  (∀ (s : State) (p : Path) (a : Fin 16) (data : Word) (w : RegWrite), s.stopped = false →
    s.writeOpen p (Reg.ATT_FLT_RES a) data = true → s.writeOf p (Reg.ATT_FLT_RES a) data = w →
    w.actF (F.ATT_FLT_RES_ACTION a) = 0 →
    exec (.faultResume p a data) s =
      .next (((((s.attach a).accesses.filter (fun h => h.step == .batched && h.pasid == w.actF (F.ATT_FLT_RES_PASID a))).foldl
        (fun (t : State) h => t.setAccess a { h with step := .ready }) s.fresh).attPump a).written p).settled) ∧
  (∀ (s : State) (p : Path) (a : Fin 16) (data : Word) (w : RegWrite), s.stopped = false →
    s.writeOpen p (Reg.ATT_FLT_RES a) data = true → s.writeOf p (Reg.ATT_FLT_RES a) data = w →
    w.actF (F.ATT_FLT_RES_ACTION a) = 1 →
    exec (.faultAbandon p a data) s =
      .next (((((s.attach a).accesses.filter (fun h => h.step == .batched && h.pasid == w.actF (F.ATT_FLT_RES_PASID a))).foldl
        (fun (t : State) h => t.failAccess a h 0x40) s.fresh).attPump a).written p).settled) ∧
  -- ATTACH_LINK_DOWN: what is held or in flight ends TranslationError
  (∀ (s : State) (a : Fin 16), s.stopped = false → s.flag (F.ATT_LINK_UP a) = true →
    exec (.attachLinkDown a) s =
      .next (let t := ((((s.fresh.putFlag (F.ATT_LINK_UP a) false).put (F.ATT_LINK_SPEED a) 0).put (F.ATT_LINK_WIDTH a) 0).putFlag
          (F.ATT_LINK_FLIT a) false).endAccesses a
        (t.setAttach a { t.attach a with
          bar2 := []
          atsOut := []
          pageOut := []
          invals := []
          faults := [] }).attPump a).settled) ∧
  -- PCIE_CONVENTIONAL_RESET: SLOT_SHIFT takes effect, what PCIe keeps in the function is reset
  (∀ (s : State) (a : Fin 16), s.stopped = false →
    exec (.pcieConventionalReset a) s =
      .next (let t := s.fresh.endAccesses a
        let sh := t.get (F.ATT_B2_CTL_SLOT_SHIFT a)
        let u := t.setAttach a { t.attach a with
          slotShift := if 21 ≤ sh ∧ sh ≤ 34 then sh else 21
          bar2Base := 0
          atc := []
          atsOut := []
          atsEnabled := false
          priEnabled := false
          priAlloc := 0
          bar0Base := 0
          bar4Base := 0
          pageOut := []
          bar2 := []
          faults := []
          invals := []
          spdmStep := 0
          session := 0
          keyUpdates := 0
          ide := [0, 0, 0, 0, 0]
          ideKeys := []
          ideRanges := []
          tdiNonce := none }
        let v : State := { u with msix := Sparse.set (fun _ => {}) t.msix a {} }
        let w := if v.get (F.ATT_SEC_TDI_STATE a) = 2 then v.emit (.trustedDma a false) else v
        ((((w.put (F.ATT_SEC_TDI_STATE a) 0).put
          (F.ATT_SEC_SEL_STREAMS a) 0).putFlag (F.ATT_SEC_LINK_IDE a) false).putFlag (F.ATT_SEC_SPDM a) false)).settled) ∧
  -- IDE_INTEGRITY_FAIL: a secure stream goes to Insecure
  (∀ (s : State) (a : Fin 16) (i : Fin 5), s.stopped = false → (s.attach a).ide.getD i 0 = 2 →
    exec (.ideIntegrityFail a i) s = .next (s.fresh.setIde a i 3).settled)

/-- SPDM and TDISP (R334, R336, R361). The response codes are PRESUMED to be the standard's (notes/assumptions/59). -/
def Obligations.SpdmCommandsComplete : Prop :=
  -- GET_VERSION, GET_CAPABILITIES, NEGOTIATE_ALGORITHMS, in this order
  (∀ (s : State) (a : Fin 16), s.stopped = false → s.portOn a = true → s.cfgWaits a = false →
    exec (.getVersion a) s =
      .next ((s.fresh.setAttach a { s.attach a with spdmStep := 1 }).emit (.spdm a spdmVersion [0x00, 0x13])).settled) ∧
  (∀ (s : State) (a : Fin 16), s.stopped = false → s.portOn a = true → s.cfgWaits a = false → (s.attach a).spdmStep = 1 →
    exec (.getCapabilities a) s =
      .next ((s.fresh.setAttach a { s.attach a with spdmStep := 2 }).emit (.spdm a spdmCapabilities [])).settled) ∧
  (∀ (s : State) (a : Fin 16), s.stopped = false → s.portOn a = true → s.cfgWaits a = false → (s.attach a).spdmStep = 2 →
    exec (.negotiateAlgorithms a true) s =
      .next ((s.fresh.setAttach a { s.attach a with spdmStep := 3 }).emit (.spdm a spdmAlgorithms [])).settled) ∧
  -- a request out of its order is answered with an error
  (∀ (s : State) (a : Fin 16), s.stopped = false → s.portOn a = true → s.cfgWaits a = false → (s.attach a).spdmStep ≠ 3 →
    exec (.getDigests a) s = .next (s.fresh.emit (spdmUnexpected a)).settled) ∧
  -- GET_DIGESTS, GET_CERTIFICATE, CHALLENGE, GET_MEASUREMENTS
  (∀ (s : State) (a : Fin 16), s.stopped = false → s.portOn a = true → s.cfgWaits a = false → (s.attach a).spdmStep = 3 →
    exec (.getDigests a) s =
      .next (s.fresh.emit (.spdm a spdmDigests (hashBytes 48 (sha384 certChain)))).settled) ∧
  (∀ (s : State) (a : Fin 16) (off len : BitVec 16), s.stopped = false → s.portOn a = true → s.cfgWaits a = false →
    (s.attach a).spdmStep = 3 →
    exec (.getCertificate a 0 off len) s =
      .next (s.fresh.emit (.spdm a spdmCertificate ((certChain.drop off.toNat).take len.toNat))).settled) ∧
  (∀ (s : State) (a : Fin 16) (nonce : BitVec 256), s.stopped = false → s.portOn a = true → s.cfgWaits a = false →
    (s.attach a).spdmStep = 3 →
    exec (.challenge a 0 nonce) s =
      .next (s.fresh.emit (.spdm a spdmChallengeAuth (identitySign (toBytesLE 32 nonce.toNat)))).settled) ∧
  (∀ (s : State) (a : Fin 16) (i : Byte) (nonce : BitVec 256), s.stopped = false → s.portOn a = true → s.cfgWaits a = false →
    (s.attach a).spdmStep = 3 → 1 ≤ i.toNat → i.toNat ≤ 6 →
    exec (.getMeasurements a i nonce) s =
      .next (s.fresh.emit (.spdm a spdmMeasurements (s.measurement i.toNat ++
        identitySign (s.measurement i.toNat ++ toBytesLE 32 nonce.toNat)))).settled) ∧
  -- KEY_EXCHANGE, FINISH, KEY_UPDATE, END_SESSION
  (∀ (s : State) (a : Fin 16) (share : List Byte), s.stopped = false → s.portOn a = true → s.cfgWaits a = false →
    (s.attach a).spdmStep = 3 → (s.attach a).session = 0 →
    exec (.keyExchange a share) s =
      .next ((s.fresh.setAttach a { s.attach a with
        session := 1
        keyUpdates := 0 }).emit (.spdm a spdmKeyExchange (identitySign share))).settled) ∧
  (∀ (s : State) (a : Fin 16), s.stopped = false → s.portOn a = true → s.cfgWaits a = false → (s.attach a).spdmStep = 3 →
    (s.attach a).session = 1 →
    exec (.finish a true) s =
      .next (((s.fresh.setAttach a { s.attach a with session := 2 }).putFlag (F.ATT_SEC_SPDM a) true).emit
        (.spdm a spdmFinish [])).settled) ∧
  (∀ (s : State) (a : Fin 16), s.stopped = false → s.portOn a = true → s.cfgWaits a = false → (s.attach a).spdmStep = 3 →
    (s.attach a).session = 2 →
    exec (.keyUpdate a) s =
      .next ((s.fresh.setAttach a { s.attach a with keyUpdates := (s.attach a).keyUpdates + 1 }).emit
        (.spdm a spdmKeyUpdate [])).settled) ∧
  (∀ (s : State) (a : Fin 16), s.stopped = false → s.portOn a = true → s.cfgWaits a = false → (s.attach a).spdmStep = 3 →
    (s.attach a).session = 2 →
    exec (.endSession a) s =
      .next (((s.fresh.setAttach a { s.attach a with session := 0 }).putFlag (F.ATT_SEC_SPDM a) false).emit
        (.spdm a spdmEndSession [])).settled) ∧
  -- VENDOR_DEFINED_REQUEST: LOCK_INTERFACE in CONFIG_UNLOCKED locks the interface, START with the nonce runs it
  (∀ (s : State) (a : Fin 16) (nonce : BitVec 256), s.stopped = false → s.portOn a = true → s.cfgWaits a = false →
    (s.attach a).spdmStep = 3 → (s.attach a).session = 2 → s.get (F.ATT_SEC_TDI_STATE a) = 0 →
    exec (.vendorDefinedRequest a (.tdispLock nonce)) s =
      .next (((s.fresh.setAttach a { s.attach a with tdiNonce := some nonce }).setTdi a 1).emit
        (.spdm a spdmVendor (toBytesLE 32 nonce.toNat))).settled) ∧
  (∀ (s : State) (a : Fin 16) (nonce : BitVec 256), s.stopped = false → s.portOn a = true → s.cfgWaits a = false →
    (s.attach a).spdmStep = 3 → (s.attach a).session = 2 → s.get (F.ATT_SEC_TDI_STATE a) = 1 →
    (s.attach a).tdiNonce = some nonce →
    exec (.vendorDefinedRequest a (.tdispStart nonce)) s =
      .next (((s.fresh.setAttach a { s.attach a with tdiNonce := none }).setTdi a 2).emit (.spdm a spdmVendor [])).settled) ∧
  -- VENDOR_DEFINED_REQUEST: a key programmed into a stream that is secure replaces the one of its set and leaves it secure
  (∀ (s : State) (a : Fin 16) (i : Fin 5) (set tx : Bool) (sub : Fin 3) (key : BitVec 256) (iv : Word), s.stopped = false →
    s.portOn a = true → s.cfgWaits a = false → (s.attach a).spdmStep = 3 → (s.attach a).session = 2 → (s.attach a).ide.getD i 0 = 2 →
    exec (.vendorDefinedRequest a (.ideKeyProg i set tx sub key iv)) s =
      .next ((s.fresh.setAttach a { s.attach a with
        ideKeys := (s.attach a).ideKeys.filter (fun y => !(y.stream == i.val && y.keySet == set && y.transmit == tx && y.sub == sub.val)) ++ [{ stream := i, keySet := set, transmit := tx, sub := sub, key := key, iv := iv }] }).emit
          (.spdm a spdmVendor [])).settled)

/-! ### Ilnyx cores (spec/15_ilnyx_cores.md) -/

/-- Accesses of the cores, fences and the watchdog (R339, R340, R341, R342, R343, R345). RISC-V's exception codes, and that an access
that faults performs no part, are the model's (notes/assumptions/31). -/
def Obligations.CoreAccessCommandsComplete : Prop :=
  -- FABRIC_WINDOW_ACCESS: every part of an access that no region refuses is performed, in order
  (∀ (s : State) (n : Fin 32) (pa : BitVec 64) (access : CoreAccess), s.stopped = false →
    s.kernelOn n = none → (coreParts pa.toNat access).all s.partOk = true → s.memSlot = true →
    exec (.fabricWindowAccess n pa access) s =
      .next ((coreParts pa.toNat access).foldl (fun (t : State) p => t.corePart n p) s.fresh).settled) ∧
  -- FABRIC_WINDOW_ACCESS: a scalar load through a valid window is a LOAD on the window's queue
  (∀ (s : State) (n : Fin 32) (pa : BitVec 64) (k w : Nat), s.stopped = false → s.kernelOn n = none →
    [1, 2, 4, 8].contains k = true → pa.toNat % k = 0 →
    2 ^ 55 ≤ pa.toNat → (pa.toNat - 2 ^ 55) / 2 ^ 44 = w → w < 64 → s.flag (F.ILX_FWIN_A_VALID w) = true →
    exec (.fabricWindowAccess n pa (.load k)) s =
      .next (s.fresh.issueMemory (s.get (F.ILX_FWIN_A_QUEUE w)) opLoad (s.get (F.ILX_FWIN_B_BASE w) * 2 ^ 44 + pa.toNat % 2 ^ 44) k [] 0 (.core n)).settled) ∧
  -- FABRIC_WINDOW_ACCESS: a scalar store is a STORE of its bytes
  (∀ (s : State) (n : Fin 32) (pa : BitVec 64) (d : List Byte) (w : Nat), s.stopped = false → s.kernelOn n = none →
    [1, 2, 4, 8].contains d.length = true → pa.toNat % d.length = 0 →
    2 ^ 55 ≤ pa.toNat → (pa.toNat - 2 ^ 55) / 2 ^ 44 = w → w < 64 → s.flag (F.ILX_FWIN_A_VALID w) = true →
    exec (.fabricWindowAccess n pa (.store d)) s =
      .next (s.fresh.issueMemory (s.get (F.ILX_FWIN_A_QUEUE w)) opStore (s.get (F.ILX_FWIN_B_BASE w) * 2 ^ 44 + pa.toNat % 2 ^ 44) d.length d 0 (.core n)).settled) ∧
  -- FABRIC_WINDOW_ACCESS: an AMO on 8 bytes is the atomic of its function
  (∀ (s : State) (n : Fin 32) (pa : BitVec 64) (f : Fin 9) (x : Word) (w : Nat), s.stopped = false → s.kernelOn n = none →
    pa.toNat % 8 = 0 → 2 ^ 55 ≤ pa.toNat → (pa.toNat - 2 ^ 55) / 2 ^ 44 = w → w < 64 → s.flag (F.ILX_FWIN_A_VALID w) = true →
    exec (.fabricWindowAccess n pa (.amo f x)) s =
      .next (s.fresh.issueMemory (s.get (F.ILX_FWIN_A_QUEUE w)) (amoOpcode f) (s.get (F.ILX_FWIN_B_BASE w) * 2 ^ 44 + pa.toNat % 2 ^ 44) 8 (toBytesLE 32 x.toNat) 0 (.core n)).settled) ∧
  -- FABRIC_WINDOW_ACCESS: a window that is not valid raises an access fault, of the kind of the access
  (∀ (s : State) (n : Fin 32) (pa : BitVec 64) (k w : Nat) (d : List Byte), s.stopped = false → 2 ^ 55 ≤ pa.toNat →
    (pa.toNat - 2 ^ 55) / 2 ^ 44 = w → w < 64 → s.kernelOn n = none → s.flag (F.ILX_FWIN_A_VALID w) = false →
    exec (.fabricWindowAccess n pa (.load k)) s = .next (s.fresh.coreException n 5).settled ∧
    exec (.fabricWindowAccess n pa (.store d)) s = .next (s.fresh.coreException n 7).settled) ∧
  -- FABRIC_WINDOW_ACCESS: so do LR, SC and an atomic on 4 bytes through any window, and a misaligned access
  (∀ (s : State) (n : Fin 32) (pa : BitVec 64) (k : Nat) (d : List Byte) (f : Fin 9) (x : BitVec 32), s.stopped = false →
    2 ^ 55 ≤ pa.toNat → s.kernelOn n = none →
    exec (.fabricWindowAccess n pa (.lr k)) s = .next (s.fresh.coreException n 5).settled ∧
    exec (.fabricWindowAccess n pa (.sc d)) s = .next (s.fresh.coreException n 7).settled ∧
    exec (.fabricWindowAccess n pa (.amoW f x)) s = .next (s.fresh.coreException n 7).settled) ∧
  (∀ (s : State) (n : Fin 32) (pa : BitVec 64) (k : Nat), s.stopped = false → 2 ^ 55 ≤ pa.toNat → s.kernelOn n = none →
    pa.toNat % k ≠ 0 →
    exec (.fabricWindowAccess n pa (.load k)) s = .next (s.fresh.coreException n 5).settled) ∧
  -- FABRIC_WINDOW_ACCESS: a part that the core's kernel was not granted raises a guest-page fault
  (∀ (s : State) (n : Fin 32) (pa : BitVec 64) (access : CoreAccess) (k : Kernel), s.stopped = false →
    s.kernelOn n = some k → (coreParts pa.toNat access).all k.maps = false →
    exec (.fabricWindowAccess n pa access) s =
      .next (s.fresh.coreException n (if coreWrites access then 23 else 21)).settled) ∧
  -- FABRIC_WINDOW_ACCESS: firmware reads a register by 8 bytes at 8-byte boundaries; another size is an access fault
  (∀ (s : State) (n : Fin 32) (pa : BitVec 64), s.stopped = false → s.kernelOn n = none →
    0x1000000 ≤ pa.toNat → pa.toNat + 8 ≤ 0x5000000 → pa.toNat % 8 = 0 →
    exec (.fabricWindowAccess n pa (.load 8)) s = .next (s.fresh.pathRead .firmware pa.toNat).settled ∧
    exec (.fabricWindowAccess n pa (.load 4)) s = .next (s.fresh.coreException n 5).settled) ∧
  -- FABRIC_WINDOW_ACCESS: private memory is local HBM from ILX_MEM.BASE
  (∀ (s : State) (n : Fin 32) (pa : BitVec 64) (k x : Nat), s.stopped = false → s.kernelOn n = none → s.memSlot = true →
    pa.toNat = 0x1000000000 + x → x + k ≤ min s.privateSize (2 ^ 36) →
    exec (.fabricWindowAccess n pa (.load k)) s =
      .next (let r := s.fresh.hbmFetch (s.get F.ILX_MEM_BASE * 2 ^ 30 + x) k
        r.2.2.emit (.coreData n r.1 r.2.1)).settled) ∧
  (∀ (s : State) (n : Fin 32) (pa : BitVec 64) (d : List Byte) (x : Nat), s.stopped = false → s.kernelOn n = none →
    s.memSlot = true → pa.toNat = 0x1000000000 + x → x + d.length ≤ min s.privateSize (2 ^ 36) →
    exec (.fabricWindowAccess n pa (.store d)) s = .next (s.fresh.privStore x d).settled) ∧
  -- FABRIC_WINDOW_ACCESS: SC stores where the core's reservation stands, and answers 0; without one it answers 1
  (∀ (s : State) (n : Fin 32) (pa : BitVec 64) (d : List Byte) (x : Nat), s.stopped = false → s.kernelOn n = none →
    s.memSlot = true → pa.toNat = 0x1000000000 + x → [4, 8].contains d.length = true → pa.toNat % d.length = 0 →
    x + d.length ≤ min s.privateSize (2 ^ 36) → s.ilx.reserved.contains (n.val, x, d.length) = true →
    exec (.fabricWindowAccess n pa (.sc d)) s =
      .next (((s.fresh.privStore x d).reserve n none).emit (.coreData n (toBytesLE 8 0) false)).settled) ∧
  (∀ (s : State) (n : Fin 32) (pa : BitVec 64) (d : List Byte) (x : Nat), s.stopped = false → s.kernelOn n = none →
    s.memSlot = true → pa.toNat = 0x1000000000 + x → [4, 8].contains d.length = true → pa.toNat % d.length = 0 →
    x + d.length ≤ min s.privateSize (2 ^ 36) → s.ilx.reserved.contains (n.val, x, d.length) = false →
    exec (.fabricWindowAccess n pa (.sc d)) s =
      .next ((s.fresh.reserve n none).emit (.coreData n (toBytesLE 8 1) false)).settled) ∧
  -- ILX_C_FENCE_WRITE: the register takes the three fields, DONE clears, and the fence is placed
  (∀ (s : State) (p : Path) (n : Fin 32) (data : Word) (w : RegWrite), s.stopped = false →
    s.writeOpen p (Reg.ILX_C_FENCE n) data = true → s.writeOf p (Reg.ILX_C_FENCE n) data = w →
    exec (.ilxCFenceWrite p n data) s =
      .next ((s.fresh.coreFence n (w.newF (F.ILX_C_FENCE_QUEUE n)) (w.newF (F.ILX_C_FENCE_KIND n))
        (w.newF (F.ILX_C_FENCE_SCOPE n))).written p).settled) ∧
  -- WATCHDOG_EXPIRE: requests in mailboxes are answered Lost, the cores reset, and a record of class DEGRADED is written
  (∀ s t : State, s.stopped = false → s.firmwareRuns = true → s.ilx.wdogAt + s.get F.ILX_WDOG_PERIOD ≤ s.clk →
    s.fresh.loseMailboxes.resetCores.count F.ILX_WDOG_RESETS 1 = t →
    exec .watchdogExpire s = .next (t.fault 4 0x0042 17 0 { detail0 := (t.reg Reg.ILX_WDOG).toNat }).settled) ∧
  -- WATCHDOG_WRITE: the count restarts where the write takes a management path, and goes on where it does not
  (∀ (s t : State) (p : Path) (data : Word), s.stopped = false → s.writeOpen p Reg.ILX_WDOG data = true →
    s.fresh.takeWrite (s.writeOf p Reg.ILX_WDOG data) = t → Path.management p = false →
    exec (.watchdogWrite p data) s = .next (t.written p).settled) ∧
  (∀ (s t : State) (p : Path) (data : Word), s.stopped = false → s.writeOpen p Reg.ILX_WDOG data = true →
    s.fresh.takeWrite (s.writeOf p Reg.ILX_WDOG data) = t → Path.management p = true →
    exec (.watchdogWrite p data) s =
      .next (({ t with ilx := { t.ilx with wdogAt := s.clk } } : State).written p).settled)

/-- Firmware carries out mailbox requests and answers them (R346, R347, R348, R350, Table 15-3). What INFO packs into RSP1, the
place of a kernel's memory and the layout of the grant list are the model's (notes/assumptions/31). -/
def Obligations.MailboxCommandsComplete : Prop :=
  -- INFO: version and firmware hash
  (∀ (s : State) (a : Fin 16), s.stopped = false → s.mbWaits a = true → s.mbCmd a = 1 →
    exec (.info a) s =
      .next (((List.range 6).foldl (fun (t : State) k => t.setReg (Reg.ILX_MB_RSP a (2 + k)) (t.reg (Reg.SEC_FW_HASH k)))
        (s.fresh.setRsp a 1 (s.get F.MGT_DEV_ID_STEPPING * 2 ^ 60 + s.up.firmwareVersion % 2 ^ 60))).mbAnswer a 1).settled) ∧
  -- KERNEL_LOAD: an image with a valid request, good grants and free cores and memory becomes a loaded kernel
  (∀ (s : State) (a : Fin 16) (t u v : State) (c g b : List Byte) (bad : Bool) (num len n size wins cnt m : Nat) (qs : List Nat),
    s.stopped = false → s.mbWaits a = true → s.mbCmd a = 2 → s.hbmOpen = true →
    s.mbReq a 1 = num → s.mbReq a 3 = len → s.mbReq a 4 % 32 = n →
    bitsOf (s.mbReq a 4) 47 32 * 2 ^ 20 = size → s.mbReq a 5 = wins →
    s.flag F.ILX_CTL_KERNEL_EN = true → num ≤ 27 → s.kernel num = none → 0 < len → len ≤ size →
    s.mbReq a 2 + len ≤ hbmSize → 1 ≤ n → n ≤ 8 → 16 * 2 ^ 20 ≤ size → size ≤ 1024 * 2 ^ 20 →
    s.mbReq a 6 + 2 ≤ hbmSize → (setBitsList wins 64).all (fun w => s.flag (F.ILX_FWIN_A_VALID w)) = true →
    s.fresh.hbmFetch (s.mbReq a 6) 2 = (c, false, t) → bytesAt c 0 2 = cnt → cnt ≤ 64 → s.mbReq a 6 + 2 + 2 * cnt ≤ hbmSize →
    t.hbmFetch (s.mbReq a 6 + 2) (2 * cnt) = (g, false, u) →
    (List.range cnt).map (fun i => bytesAt g (2 * i) 2) = qs →
    qs.all (fun q => decide (q < 512) && u.grantable q) = true → u.freePrivate size = some m → n ≤ u.freeCores.length →
    u.hbmFetch (s.mbReq a 2) len = (b, bad, v) →
    exec (.kernelLoad a) s =
      .next (let x := v.hbmStore (v.get F.ILX_MEM_BASE * 2 ^ 30 + m) b bad
        (x.setKernel { num := num, cores := x.freeCores.take n, memAt := m, memSize := size, windows := wins, queues := qs, slice := x.slice }).mbAnswer a
          1).settled) ∧
  -- KERNEL_LOAD: with kernels disabled PermissionDenied
  (∀ (s : State) (a : Fin 16), s.stopped = false → s.mbWaits a = true → s.mbCmd a = 2 → s.hbmOpen = true →
    s.flag F.ILX_CTL_KERNEL_EN = false →
    exec (.kernelLoad a) s = .next (s.fresh.mbAnswer a 0x23).settled) ∧
  -- KERNEL_START
  (∀ (s : State) (a : Fin 16) (k : Kernel), s.stopped = false → s.mbWaits a = true → s.mbCmd a = 3 →
    s.kernel (s.mbReq a 1) = some k → k.state = 1 →
    exec (.kernelStart a) s =
      .next ((s.fresh.setKernel { k with
        state := 2
        arg := s.mbReq a 2 }).mbAnswer a 1).settled) ∧
  -- KERNEL_STOP: without ABORT the kernel stops; its exit code is a free value
  (∀ (s : State) (a : Fin 16) (k : Kernel), s.stopped = false → s.mbWaits a = true → s.mbCmd a = 4 →
    s.kernel (s.mbReq a 1) = some k → k.state ≠ 3 → bitAt (s.mbReq a 2) 0 = false →
    exec (.kernelStop a) s =
      .next ((s.fresh.freeNext.stopKernel k (k.cores.headD 0) (s.free 64)).mbAnswer a 1).settled) ∧
  -- KERNEL_STOP: with ABORT the descriptors of its queues are aborted first
  (∀ (s t : State) (a : Fin 16) (k : Kernel), s.stopped = false → s.mbWaits a = true → s.mbCmd a = 4 →
    s.kernel (s.mbReq a 1) = some k → k.state ≠ 3 → bitAt (s.mbReq a 2) 0 = true →
    k.queues.foldl State.abortQueue s.fresh = t →
    exec (.kernelStop a) s =
      .next ((t.freeNext.stopKernel k (k.cores.headD 0) (t.free 64)).mbAnswer a 1).settled) ∧
  -- KERNEL_STATUS: state, exit code and the status register kept for the kernel
  (∀ (s : State) (a : Fin 16) (k : Kernel), s.stopped = false → s.mbWaits a = true → s.mbCmd a = 5 → s.mbReq a 1 ≤ 27 →
    s.kernel (s.mbReq a 1) = some k →
    exec (.kernelStatus a) s =
      .next ((((s.fresh.setRsp a 1 k.state).setRsp a 2 k.exit).setRsp a 3 k.stat).mbAnswer a 1).settled) ∧
  -- TEL_CFG
  (∀ (s : State) (a : Fin 16), s.stopped = false → s.mbWaits a = true → s.mbCmd a = 6 → 6 ≤ s.mbReq a 2 % 32 →
    s.mbReq a 2 % 32 ≤ 20 → s.mbReq a 1 + 64 * 2 ^ (s.mbReq a 2 % 32) ≤ hbmSize →
    exec (.telCfg a) s =
      .next (({ s.fresh with ilx := { s.ilx with
        ring := some (s.mbReq a 1, s.mbReq a 2 % 32)
        written := 0 } } : State).mbAnswer a 1).settled) ∧
  -- MB_RESERVED_COMMAND
  (∀ (s : State) (a : Fin 16), s.stopped = false → s.mbWaits a = true → 6 < s.mbCmd a →
    exec (.mbReservedCommand a) s = .next (s.fresh.mbAnswer a 0x23).settled) ∧
  -- MB_RSP0_WRITE: SEQ and STATUS in RSP0, and BUSY clears
  (∀ (s t : State) (a : Fin 16) (st : Nat), s.stopped = false →
    s.ilx.answers.find? (fun x => x.1 == a.val) = some (a.val, st) →
    (s.fresh.setRsp a 0 (bitsOf (s.mbReq a 0) 31 16 * 2 ^ 16 + st * 2 ^ 8)).putFlag (F.ILX_MB_CTL_BUSY a) false = t →
    exec (.mbRsp0Write a) s =
      .next (({ t with ilx := { t.ilx with answers := t.ilx.answers.filter (fun x => x.1 != a.val) } } : State)).settled)

/-- Calls of a control kernel, its end, and telemetry (R347, R348, R350, Table 15-4). -/
def Obligations.KernelCommandsComplete : Prop :=
  -- SUBMIT: TAIL of a granted op queue, or of a granted send queue
  (∀ (s : State) (n : Fin 32) (queue tail : Word) (k : Kernel), s.stopped = false → s.kernelOn n = some k →
    k.queues.contains queue.toNat = true → s.owner queue.toNat = some 17 →
    tailOver (s.oqN queue.toNat) (s.oqHead queue.toNat) (tail.toNat % 2 ^ 17) = false → s.oqGated queue.toNat = false →
    exec (.submit n queue tail) s =
      .next ((s.fresh.setOqTail queue.toNat (tail.toNat % 2 ^ 17)).emit (.coreReturn n 1)).settled) ∧
  (∀ (s : State) (n : Fin 32) (queue tail : Word) (k : Kernel), s.stopped = false → s.kernelOn n = some k →
    k.queues.contains queue.toNat = true → s.owner queue.toNat = some 19 →
    tailOver (s.msgN queue.toNat) (s.get (F.MSG_Q_IDX_HEAD queue.toNat)) (tail.toNat % 2 ^ 17) = false →
    exec (.submit n queue tail) s =
      .next ((s.fresh.put (F.MSG_Q_IDX_TAIL queue.toNat) (tail.toNat % 2 ^ 17 % (2 * s.msgN queue.toNat))).emit
        (.coreReturn n 1)).settled) ∧
  -- SUBMIT: a queue that was not granted
  (∀ (s : State) (n : Fin 32) (queue tail : Word) (k : Kernel), s.stopped = false → s.kernelOn n = some k →
    k.queues.contains queue.toNat = false →
    exec (.submit n queue tail) s = .next (s.fresh.emit (.coreReturn n 0x23)).settled) ∧
  -- FENCE: of a granted queue; the call waits for the fence
  (∀ (s : State) (n : Fin 32) (queue kind scope : Word) (k : Kernel), s.stopped = false → s.kernelOn n = some k →
    k.queues.contains queue.toNat = true → kind.toNat ≤ 3 → scope.toNat ≤ 3 →
    exec (.fence n queue kind scope) s =
      .next ((({ s.fresh with ilx := { s.ilx with calls := s.ilx.calls.filter (· != n.val) ++ [n.val] } } : State).coreFence n
        queue.toNat kind.toNat scope.toNat)).settled) ∧
  -- LASTSTAT
  (∀ (s : State) (n : Fin 32) (k : Kernel), s.stopped = false → s.kernelOn n = some k →
    exec (.laststat n) s = .next (s.fresh.emit (.coreReturn n (s.reg (Reg.ILX_C_STAT n)).toNat)).settled) ∧
  -- EXIT and KERNEL_EXCEPTION: the kernel stops with its code or cause, but its own ECALL does not stop it
  (∀ (s : State) (n : Fin 32) (code : Word) (k : Kernel), s.stopped = false → s.kernelOn n = some k →
    exec (.exit n code) s = .next (s.fresh.stopKernel k n code.toNat).settled) ∧
  (∀ (s : State) (n : Fin 32) (cause : Word) (k : Kernel), s.stopped = false → s.kernelOn n = some k → cause ≠ 8 →
    exec (.kernelException n cause) s = .next (s.fresh.stopKernel k n cause.toNat).settled) ∧
  (∀ (s : State) (n : Fin 32), s.stopped = false →
    exec (.kernelException n 8) s = .next s.fresh.settled) ∧
  -- TELEMETRY_SAMPLE: a record of 64 bytes in the ring's next place
  (∀ (s t u : State) (addr : BitVec 32) (count : Fin 7) (off log2 : Nat) (vs : List Word), s.stopped = false →
    s.ilx.ring = some (off, log2) → s.firmwareRuns = true → s.memSlot = true → addr.toNat % 8 = 0 →
    s.ilx.sampledAt + max 25000 (s.get F.ILX_TEL_PERIOD) ≤ s.clk →
    s.fresh.sampleRegs (min 6 count.val) addr.toNat = (vs, t) →
    t.hbmStore (off + 64 * (s.ilx.written % 2 ^ log2)) (sliceD 0 (toBytesLE 8 s.now ++ toBytesLE 4 addr.toNat ++
      toBytesLE 4 (min 6 count.val) ++ vs.flatMap (fun v => toBytesLE 8 v.toNat)) 0 64) false = u →
    exec (.telemetrySample addr count) s =
      .next (({ u with ilx := { u.ilx with
        written := u.ilx.written + 1
        sampledAt := u.clk } } : State)).settled)

/-! ### Security and isolation (spec/16_security_and_isolation.md) -/

/-- The lock and bound sets (R357, R362, R365, R369, Table 16-4). -/
def Obligations.LockAndBoundSetCommandsComplete : Prop :=
  -- SEC_LOCK
  (∀ (s : State) (p : Path) (data : Word), s.stopped = false → s.writeOpen p Reg.SEC_LOCK data = true →
    (s.writeOf p Reg.SEC_LOCK data).actF F.SEC_LOCK_LOCK = 1 →
    exec (.secLock p data) s =
      .next ((((if s.flag F.SEC_LOCK_LOCK then s.fresh else s.fresh.emit .jtagLocked).putFlag F.SEC_LOCK_LOCK true).written
        p)).settled) ∧
  -- SEC_LOCK: from then on the JTAG port runs its public instructions alone
  (∀ (s : State) (i : JtagInstr), (s.putFlag F.SEC_LOCK_LOCK true).jtagRuns i = (i != .nonPublic)) ∧
  -- BOUND_SET_LOAD: of an EMPTY entry
  (∀ (s : State) (p : Path) (data : Word) (e : Nat), s.stopped = false → s.writeOpen p Reg.SEC_BS_CMD data = true →
    (s.writeOf p Reg.SEC_BS_CMD data).actF F.SEC_BS_CMD_OP = 1 →
    (s.writeOf p Reg.SEC_BS_CMD data).actF F.SEC_BS_CMD_ENTRY = e → s.get (F.SEC_BS_ENT_A_STATE e) = 0 →
    exec (.boundSetLoad p data) s =
      .next ((({ s.fresh with sec := { s.sec with loading := s.sec.loading ++ [(e, s.get F.SEC_BS_SRC_BASE * 4096)] } } : State).put
        (F.SEC_BS_ENT_A_STATE e) 1).written p).settled) ∧
  -- BOUND_SET_LOAD: of any other entry, RESULT 6 (BUSY)
  (∀ (s : State) (p : Path) (data : Word) (e : Nat), s.stopped = false → s.writeOpen p Reg.SEC_BS_CMD data = true →
    (s.writeOf p Reg.SEC_BS_CMD data).actF F.SEC_BS_CMD_OP = 1 →
    (s.writeOf p Reg.SEC_BS_CMD data).actF F.SEC_BS_CMD_ENTRY = e → s.get (F.SEC_BS_ENT_A_STATE e) ≠ 0 →
    exec (.boundSetLoad p data) s = .next ((s.fresh.put (F.SEC_BS_ENT_A_RESULT e) 6).written p).settled) ∧
  -- BOUND_SET_LOAD_DONE: an image that passes every check is LOADED, with its hash, slice, operations and content; one that
  -- fails one leaves the entry EMPTY with that check's result
  (∀ (s : State) (e : Fin 8) (base : Nat), s.stopped = false → s.hbmOpen = true →
    s.sec.loading.find? (fun x => x.1 == e.val) = some (e.val, base) →
    exec (.boundSetLoadDone e) s =
      .next (match ({ s.fresh with sec := { s.sec with loading := s.sec.loading.filter (fun x => x.1 != e.val) } } : State).bsetCheck base with
        | (r, none, t) => (t.put (F.SEC_BS_ENT_A_STATE e) 0).put (F.SEC_BS_ENT_A_RESULT e) r
        | (r, some (b, hash), t) =>
          let u := (List.range 6).foldl (fun (s : State) k => s.setReg (Reg.SEC_BS_HASH e k) (BitVec.ofNat 64 (hash.toNat / 2 ^ (64 * k))))
            { t with sec := { t.sec with sets := t.sec.sets ++ [(e.val, b)] } }
          ((((((u.put (F.SEC_BS_ENT_A_STATE e) 2).put (F.SEC_BS_ENT_A_RESULT e) r).put (F.SEC_BS_ENT_A_SLICE e) u.slice).put
            (F.SEC_BS_ENT_A_OPS e) (bytesAt b.header 12 4)).put (F.SEC_BS_ENT_A_USERS e) 0).put
            (F.SEC_BS_ENT_B_CHUNKS e) (bytesAt b.header 16 8 / 4096)).put
            (F.SEC_BS_ENT_B_BASE e) ((base + bsetContent (bytesAt b.header 6 2)) / 4096)).settled) ∧
  -- UNLOAD: a LOADED entry without users is erased; one with users becomes UNLOADING
  (∀ (s : State) (p : Path) (data : Word) (e : Nat), s.stopped = false → s.writeOpen p Reg.SEC_BS_CMD data = true →
    (s.writeOf p Reg.SEC_BS_CMD data).actF F.SEC_BS_CMD_OP = 2 →
    (s.writeOf p Reg.SEC_BS_CMD data).actF F.SEC_BS_CMD_ENTRY = e → s.get (F.SEC_BS_ENT_A_STATE e) = 2 →
    exec (.unload p data) s =
      .next ((if s.get (F.SEC_BS_ENT_A_USERS e) = 0 then s.fresh.eraseSet e
        else s.fresh.put (F.SEC_BS_ENT_A_STATE e) 3).written p).settled)

/-- Burnish (R370, R371, R373, Table 16-5). -/
def Obligations.BurnishCommandsComplete : Prop :=
  -- BURNISH_START: admission, the plate array, the cores, collectives, a stand-in, attach ports and frames are ended
  (∀ (s t : State) (p : Path) (data : Word), s.stopped = false → s.writeOpen p Reg.SEC_BURN data = true →
    (s.writeOf p Reg.SEC_BURN data).actF F.SEC_BURN_START = 1 → s.flag F.SEC_BURN_ACTIVE = false →
    ((List.range 16).foldl State.burnAttach
      (((s.fresh.clearAdmit.discardArray.dropMailboxes.resetCores).colResignAll 1).setActive []).loseStandin).dropFrames = t →
    exec (.burnishStart p data) s =
      .next (({ t.putFlag F.SEC_BURN_ACTIVE true with
        rep := {}
        msg := {}
        sec := { t.sec with
          burnStart := some t.clk
          burnStep := 1
          burnReadback := true } } : State).written p).settled) ∧
  -- BURNISH_START: ignored while burnish runs
  (∀ (s : State) (p : Path) (data : Word), s.stopped = false → s.writeOpen p Reg.SEC_BURN data = true →
    s.flag F.SEC_BURN_ACTIVE = true →
    exec (.burnishStart p data) s = .next (s.fresh.written p).settled) ∧
  -- BURNISH_DISCARD_DONE: new salts, the key map on slot 0, bound sets erased, and the fill of every region begun
  (∀ (s t u : State), s.stopped = false → s.sec.burnStep = 1 → 2500 ≤ s.burnAge →
    (List.range 16).foldl (fun (s : State) n => s.put (F.HBM_SLOT_STAT_REFS n) (if n = 0 then regionCount else 0))
      (State.newSalts 16 s.fresh.endSweep) = t →
    (List.range 8).foldl State.eraseSet
      { t with
        hbm := { t.hbm with
          keyMap := []
          fillDone := false }
        sec := { t.sec with
          burnStep := 2
          loading := []
          sets := [] } } = u →
    exec .burnishDiscardDone s =
      .next (u.startSweep { first := 0, last := regionCount - 1, fill := true, all := true, newSlot := 0, kind := 2 }).settled) ∧
  -- BURNISH_READBACK
  (∀ (s : State) (z : Bool), s.stopped = false → s.sec.burnStep = 2 →
    exec (.burnishReadback z) s =
      .next (({ s.fresh with sec := { s.sec with
        burnStep := 3
        burnReadback := z } } : State)).settled) ∧
  -- BURNISH_END: registers reset, RESULT PASS, COUNT and LAST_TURNS, the slice free, attach ports answer again
  (∀ (s t : State), s.stopped = false → s.sec.burnStep = 3 → s.hbm.fillDone = true → s.up.firmwareTried = true →
    s.sec.burnReadback = true → s.get F.SEC_BURN_RESULT ≠ 2 →
    (((s.fresh.burnRegs.disarm.putFlag F.SEC_BURN_ACTIVE false).put F.SEC_BURN_RESULT 1).put F.SEC_BURN_COUNT
      (min 65535 (s.get F.SEC_BURN_COUNT + 1))).put F.SEC_BURN_LAST_TURNS (min (2 ^ 32 - 1) s.burnAge) = t →
    exec .burnishEnd s =
      .next ((List.range 16).foldl (fun (s : State) a => (s.putFlag (F.ATT_SEC_RRS a) false).flushVectors a)
        { t with sec := { t.sec with
          burnStep := 0
          sliceFree := true } }).settled) ∧
  -- BURNISH_END: a read-back that failed gives RESULT FAIL and a record of class OUT_OF_SERVICE
  (∀ (s t u : State), s.stopped = false → s.sec.burnStep = 3 → s.hbm.fillDone = true → s.up.firmwareTried = true →
    s.sec.burnReadback = false →
    (((s.fresh.burnRegs.disarm.putFlag F.SEC_BURN_ACTIVE false).put F.SEC_BURN_RESULT 2).put F.SEC_BURN_COUNT
      (min 65535 (s.get F.SEC_BURN_COUNT + 1))).put F.SEC_BURN_LAST_TURNS (min (2 ^ 32 - 1) s.burnAge) = t →
    (List.range 16).foldl (fun (s : State) a => (s.putFlag (F.ATT_SEC_RRS a) false).flushVectors a)
      { t with sec := { t.sec with burnStep := 0 } } = u →
    exec .burnishEnd s = .next (u.fault 5 0x0041 13 0 { detail0 := (u.reg Reg.SEC_BURN).toNat }).settled)

/-! ### Determinism and replay (spec/17_determinism_and_replay.md) -/

/-- Crossings (R389, R391, Table 17-3). -/
def Obligations.CrossingCommandsComplete : Prop :=
  -- ALIGNMENT_ATTEMPT: when every crossing passes, depths and digest are pinned and the device is aligned
  (∀ (s t : State) (depths : List (Option (Fin 16))) (d : List (Option (Fin 16))) (a k : Nat) (raw : List Nat),
    s.stopped = false → s.pip.alignAt = some a → s.get F.TRN_CDC_STAT_ATTEMPTS = k → s.flag F.TRN_CDC_STAT_DONE = false →
    s.flag F.TRN_CDC_STAT_FAILED = false → k < 8 → a + 1000 * k + 272 ≤ s.clk → sliceD none depths 0 204 = d →
    (List.range 204).find? (fun i => !cdcPasses i (d.getD i none)) = none →
    d.map (fun x => match x with | some y => y.val | none => 0) = raw →
    (List.range 13).foldl (fun (s : State) j => s.setReg (Reg.TRN_CDC_DEPTH j)
      (BitVec.ofNat 64 ((sliceD 0 raw (16 * j) 16).foldr (fun n v => v * 16 + n) 0))) (s.fresh.put F.TRN_CDC_STAT_ATTEMPTS (k + 1)) = t →
    exec (.alignmentAttempt depths) s =
      .next (let u := (((t.put F.TRN_CDC_STAT_DIGEST (crc32 (raw.map (fun n => BitVec.ofNat 8 n)))).put
          F.TRN_CDC_STAT_FIRST_BAD 0xFF).putFlag F.TRN_CDC_STAT_DONE true).putFlag F.TRN_STAT_ALIGNED true
        ({ u with pip := { u.pip with badOffsets := 0 } } : State).rootSelf).settled) ∧
  -- ALIGNMENT_ATTEMPT: the first crossing that fails is named, and attempts go on
  (∀ (s : State) (depths : List (Option (Fin 16))) (a k i : Nat), s.stopped = false → s.pip.alignAt = some a →
    s.get F.TRN_CDC_STAT_ATTEMPTS = k → s.flag F.TRN_CDC_STAT_DONE = false → s.flag F.TRN_CDC_STAT_FAILED = false → k < 7 →
    a + 1000 * k + 272 ≤ s.clk →
    (List.range 204).find? (fun i => !cdcPasses i ((sliceD none depths 0 204).getD i none)) = some i →
    exec (.alignmentAttempt depths) s =
      .next ((s.fresh.put F.TRN_CDC_STAT_ATTEMPTS (k + 1)).put F.TRN_CDC_STAT_FIRST_BAD i).settled) ∧
  -- CDC_SLIP: what the slip damaged is poisoned, time is lost, and a record of class OUT_OF_SERVICE is written
  (∀ (s : State) (crossing : Fin 204) (damaged : List (Nat × Nat)), s.stopped = false → s.flag F.TRN_CDC_STAT_DONE = true →
    exec (.cdcSlip crossing damaged) s =
      .next ((damaged.foldl (fun (s : State) d => s.slipDamage crossing d)
        (s.fresh.putFlag F.TRN_CDC_STAT_SLIP true)).loseTime.fault 5 0x0032 12 0 { detail0 := crossing }).settled)

/-- Counterproof (R393, R394, R395, R396, R397, R398, Table 17-4). The place of a window in the log is the model's
(notes/assumptions/46). -/
def Obligations.CounterproofCommandsComplete : Prop :=
  -- TWN_ENABLE: with a START_TURN still to come, 1 after 0 begins a pairing
  (∀ (s : State) (p : Path) (data : Word) (w : RegWrite), s.stopped = false → s.writeOpen p Reg.TWN_CTL data = true →
    s.writeOf p Reg.TWN_CTL data = w → w.oldF F.TWN_CTL_EN = 0 → w.newF F.TWN_CTL_EN = 1 →
    s.get F.TWN_START_START_TURN % 1024 = 0 → s.now < s.get F.TWN_START_START_TURN →
    exec (.twnEnable p data) s = .next ((s.fresh.twnBegin w).written p).settled) ∧
  -- TWN_ENABLE: with a START_TURN that has come it is rejected
  (∀ (s : State) (p : Path) (data : Word) (w : RegWrite), s.stopped = false → s.writeOpen p Reg.TWN_CTL data = true →
    s.writeOf p Reg.TWN_CTL data = w → w.oldF F.TWN_CTL_EN = 0 → w.newF F.TWN_CTL_EN = 1 →
    s.get F.TWN_START_START_TURN ≤ s.now →
    exec (.twnEnable p data) s = .next ((s.fresh.twnRejected).written p).settled) ∧
  -- WINDOW_RECORD_SEND: the record of the oldest window that has ended goes to the paired device
  (∀ (s t : State) (w : Nat) (x : TwnWindow), s.stopped = false → s.twnOn = true → s.twn.next = w →
    s.get F.TWN_START_START_TURN ≤ 1024 * w → 1024 * (w + 1) ≤ s.now → s.twnWin w = x →
    (({ s.fresh with twn := { s.twn with
      next := w + 1
      open' := s.twn.open' ++ [w]
      brkSeen := s.twn.brkSeen || x.brk
      wins := s.twn.wins.filter (fun y => decide (w ≤ y.w + 4)) } } : State).setTwnWin x).twnSend (x.record false 0) = t →
    exec .windowRecordSend s = .next (State.twnCatchUp t.twn.peer.length t).settled) ∧
  -- RECORD_DEADLINE: a record that is missing 768 turns after its window's end is a mismatch of cause 3
  (∀ (s : State) (w : Nat) (ws : List Nat), s.stopped = false → s.twnOn = true → s.twn.open' = w :: ws →
    1024 * (w + 1) + 768 ≤ s.now →
    exec .recordDeadline s =
      .next (({ s.fresh with twn := { s.twn with open' := ws } } : State).twnMismatch (s.twnWin w) 3 0 0).settled) ∧
  -- COUNTERPROOF_STOP: at turn 1,024(w + 3) the device stops, TWN_STAT says where and why, and a NOTICE is recorded
  (∀ (s t : State) (w cause sig : Nat), s.stopped = false → s.twn.stop = some (w, cause, sig) → s.twnOn = true →
    1024 * (w + 3) ≤ s.now →
    ((((s.fresh.put F.TWN_STAT_WINDOW w).put F.TWN_STAT_CAUSE cause).put F.TWN_STAT_SIG sig).putFlag
      F.TWN_STAT_STOPPED true).putFlag F.TWN_STAT_MISMATCH true = t →
    exec .counterproofStop s =
      .next (t.fault 6 0x0050 18 0
        { peer := devicePeer (s.get F.TWN_CTL_PEER_DOMAIN) (s.get F.TWN_CTL_PEER_MEMBER), detail0 := cause + w % 2 ^ 32 * 2 ^ 32, detail1 := (t.reg Reg.TWN_STAT).toNat }).settled) ∧
  -- LOCATE_ROUND: this device's checkpoint is sent and the range is halved
  (∀ (s t : State) (peer : Word) (w cause sig lo hi : Nat) (own : List Byte) (bad : Bool), s.stopped = false →
    s.twn.stop = some (w, cause, sig) → s.twn.locate = some (lo, hi) → s.twnStopped = true → lo < hi →
    s.fresh.hbmFetch (s.twnLogAt w ((lo + hi) / 2)) 8 = (own, bad, t) → ofBytesLE own = peer.toNat → (lo + hi) / 2 + 1 < hi →
    exec (.locateRound peer) s =
      .next (({ t.sendCheckpoint ((lo + hi) / 2) (ofBytesLE own) with
        twn := { (t.sendCheckpoint ((lo + hi) / 2) (ofBytesLE own)).twn with locate := some ((lo + hi) / 2 + 1, hi) } } : State)).settled) ∧
  -- LOCATE_ROUND: one block left
  (∀ (s t : State) (peer : Word) (w cause sig lo hi : Nat) (own : List Byte) (bad : Bool), s.stopped = false →
    s.twn.stop = some (w, cause, sig) → s.twn.locate = some (lo, hi) → s.twnStopped = true → lo < hi →
    s.fresh.hbmFetch (s.twnLogAt w ((lo + hi) / 2)) 8 = (own, bad, t) → ofBytesLE own ≠ peer.toNat → (lo + hi) / 2 = lo →
    exec (.locateRound peer) s =
      .next (({ ((t.sendCheckpoint ((lo + hi) / 2) (ofBytesLE own)).put F.TWN_GRAN_GRANULE (1024 * lo)).putFlag F.TWN_STAT_LOCATED true with
        twn := { (t.sendCheckpoint ((lo + hi) / 2) (ofBytesLE own)).twn with locate := none } } : State)).settled) ∧
  -- TWN_REL_WRITE: a multiple of 16 at least 4,096 turns ahead; any other is rejected
  (∀ (s t : State) (p : Path) (data : Word) (w : RegWrite), s.stopped = false → s.writeOpen p Reg.TWN_REL data = true →
    s.writeOf p Reg.TWN_REL data = w → w.newF F.TWN_REL_TURN % 16 = 0 → s.now + 4096 ≤ w.newF F.TWN_REL_TURN →
    s.fresh.takeWrite w = t →
    exec (.twnRelWrite p data) s =
      .next (({ t with twn := { s.twn with relArmed := true } } : State).written p).settled) ∧
  (∀ (s : State) (p : Path) (data : Word) (w : RegWrite), s.stopped = false → s.writeOpen p Reg.TWN_REL data = true →
    s.writeOf p Reg.TWN_REL data = w → w.newF F.TWN_REL_TURN < s.now + 4096 →
    exec (.twnRelWrite p data) s = .next (s.fresh.twnRejected.written p).settled) ∧
  -- GATED_TAIL_RELEASE: at the turn of TWN_REL
  (∀ s : State, s.stopped = false → s.twn.relArmed = true → s.get F.TWN_REL_TURN ≤ s.now →
    exec .gatedTailRelease s =
      .next (({ s.fresh with twn := { s.twn with relArmed := false } } : State).releaseGated).settled) ∧
  -- TWN_DISABLE: 0 after 1 ends the pairing
  (∀ (s : State) (p : Path) (data : Word) (w : RegWrite), s.stopped = false → s.writeOpen p Reg.TWN_CTL data = true →
    s.writeOf p Reg.TWN_CTL data = w → w.oldF F.TWN_CTL_EN = 1 → w.newF F.TWN_CTL_EN = 0 →
    exec (.twnDisable p data) s = .next ((s.fresh.twnEnd w).written p).settled)

/-! ### Faults and resilience (spec/18_faults_and_resilience.md) -/

/-- The fault queue (R405, R407). -/
def Obligations.FaultQueueCommandsComplete : Prop :=
  -- PARK_DRAIN: the oldest parked record enters the ring where it has room, one in a turn; records of other classes that waited
  -- for the park table to empty follow the last of them
  (∀ (s : State) (r : FaultRec) (p : List FaultRec), s.stopped = false → s.flt.park = r :: p → s.fltFull = false →
    s.flt.parkedAt ≠ some s.clk →
    exec .parkDrain s =
      .next ((({ s.fresh with flt := { s.flt with parkedAt := some s.clk } } : State).setPark p).fltWrite r).enterWaiting.settled) ∧
  (∀ s : State, s.stopped = false → s.flt.parkedAt = some s.clk → exec .parkDrain s = .next s.fresh.settled) ∧
  -- HEAD_H_WRITE and HEAD_F_WRITE
  (∀ (s : State) (p : Path) (data : Word), s.stopped = false → s.writeOpen p Reg.FLT_Q_IDX data = true →
    exec (.headHWrite p data) s =
      .next ((s.fresh.takeWrite (s.writeOf p Reg.FLT_Q_IDX data)).written p).settled) ∧
  (∀ (s : State) (p : Path) (data : Word), s.stopped = false → s.writeOpen p Reg.FLT_Q_HEADF data = true →
    exec (.headFWrite p data) s =
      .next ((s.fresh.takeWrite (s.writeOf p Reg.FLT_Q_HEADF data)).written p).settled) ∧
  -- VECTOR_COALESCE_EXPIRE: after COAL turns the held vector is raised if records remain, and not if none do
  (∀ (s : State) (t : Nat), s.stopped = false → s.flt.lastRaise = some t → s.flt.raiseHeld = true →
    t + s.get F.FLT_Q_CFG_COAL ≤ s.clk →
    s.get F.FLT_Q_IDX_HEAD_H % (2 * s.fltN) ≠ s.get F.FLT_Q_IDX_TAIL % (2 * s.fltN) →
    exec .vectorCoalesceExpire s =
      .next (({ s.fresh with flt := { s.flt with raiseHeld := false } } : State).fltRaise).settled) ∧
  (∀ (s : State) (t : Nat), s.stopped = false → s.flt.lastRaise = some t → s.flt.raiseHeld = true →
    t + s.get F.FLT_Q_CFG_COAL ≤ s.clk →
    s.get F.FLT_Q_IDX_HEAD_H % (2 * s.fltN) = s.get F.FLT_Q_IDX_TAIL % (2 * s.fltN) →
    exec .vectorCoalesceExpire s =
      .next (({ s.fresh with flt := { s.flt with raiseHeld := false } } : State)).settled)

/-- Fences and notices (R413, R414, R416). -/
def Obligations.FenceAndNoticeCommandsComplete : Prop :=
  -- FLT_FENCE_WRITE: each member named that may be fenced is, with a notice to it
  (∀ (s : State) (p : Path) (k : Fin 2) (data : Word) (ms : List Nat), s.stopped = false →
    s.writeOpen p (Reg.FLT_FENCE k) data = true →
    (setBitsList (s.writeOf p (Reg.FLT_FENCE k) data).act.toNat 64).map (64 * k.val + ·) = ms → ms.all s.mayFence = true →
    exec (.fltFenceWrite p k data) s =
      .next ((ms.foldl (fun (s : State) m => if s.fences m then s
        else
          let t := (s.noteFence true m).setReg (Reg.FLT_FENCE k) (BitVec.ofNat 64 (setBitAt (s.reg (Reg.FLT_FENCE k)).toNat (m % 64) true))
          t.routePip (t.notice 1 m 0 m)) s.fresh).written p).settled) ∧
  -- FLT_FENCE_WRITE: a member that may not be fenced is not, and the write counts as rejected
  (∀ (s : State) (p : Path) (k : Fin 2) (data : Word) (m : Nat), s.stopped = false →
    s.writeOpen p (Reg.FLT_FENCE k) data = true →
    (setBitsList (s.writeOf p (Reg.FLT_FENCE k) data).act.toNat 64).map (64 * k.val + ·) = [m] → s.mayFence m = false →
    exec (.fltFenceWrite p k data) s = .next ((s.fresh.rejected 14 0).written p).settled) ∧
  -- FENCE_NOTICE_RECEIVE: FLT_FENCED_BY names the sender, and a NOTICE is recorded
  (∀ (s t u : State) (f : PipFrame) (r : Nat), s.stopped = false → s.fresh.takeNotice 1 = some (f, t) →
    Reg.FLT_FENCED_BY (f.srcMember / 64) = r → bitAt (t.reg r).toNat (f.srcMember % 64) = false →
    t.noteFence false f.srcMember = u →
    exec .fenceNoticeReceive s =
      .next ((u.setReg r (BitVec.ofNat 64 (setBitAt (u.reg r).toNat (f.srcMember % 64) true))).fault 6 0x0062 14 0
        { peer := devicePeer f.srcDomain f.srcMember, detail0 := f.srcMember }).settled) ∧
  -- a fence binds from the turn after its own: in that turn no request is refused for it
  (∀ (s : State) (m : Nat), m < 128 → s.isFenced m = true →
    (bitAt (s.reg (Reg.FLT_FENCE (m / 64))).toNat (m % 64) = true ∧ (true, m, s.clk) ∉ s.flt.newFences) ∨
    (bitAt (s.reg (Reg.FLT_FENCED_BY (m / 64))).toNat (m % 64) = true ∧ (false, m, s.clk) ∉ s.flt.newFences)) ∧
  -- STANDIN_NOTICE_RECEIVE: the window for the member's return opens, and a present member is marked absent
  (∀ (s t : State) (f : PipFrame) (m : Nat), s.stopped = false → s.fresh.takeNotice 2 = some (f, t) →
    bytesAt f.data 1 1 % 128 = m → (bytesAt f.data 1 1 != bytesAt f.data 2 1) = true → bitAt (t.openReturn m).present m = true →
    exec .standinNoticeReceive s = .next (State.markAbsent 128 (t.openReturn m) m).settled) ∧
  -- STANDIN_NOTICE_RECEIVE: a refresh opens the window only
  (∀ (s t : State) (f : PipFrame), s.stopped = false → s.fresh.takeNotice 2 = some (f, t) →
    bytesAt f.data 1 1 = bytesAt f.data 2 1 →
    exec .standinNoticeReceive s = .next (t.openReturn (bytesAt f.data 1 1 % 128)).settled) ∧
  -- REJOIN_NOTICE_RECEIVE: the window opens; a report of the member's return that a parent has made already is accepted now
  (∀ (s t : State) (f : PipFrame) (m : Nat), s.stopped = false → s.fresh.takeNotice 3 = some (f, t) →
    bytesAt f.data 1 1 % 128 = m → (t.openReturn m).pip.claims.find? (fun r => r.2 == m) = none →
    exec .rejoinNoticeReceive s = .next (t.openReturn m).settled) ∧
  (∀ (s t : State) (f : PipFrame) (m parent : Nat), s.stopped = false → s.fresh.takeNotice 3 = some (f, t) →
    bytesAt f.data 1 1 % 128 = m → (t.openReturn m).pip.claims.find? (fun r => r.2 == m) = some (parent, m) →
    exec .rejoinNoticeReceive s = .next ((t.openReturn m).rootReport parent m true).settled)

/-- Stand-in, its budget and rejoin (R417, R418, R420, R422). -/
def Obligations.StandinAndRejoinCommandsComplete : Prop :=
  -- STANDIN: a ready spare with a token takes a member of its group: BUSY, a token less, a record, and the notice
  (∀ (s t u v : State) (p : Path) (data : Word) (w : RegWrite) (m : Nat), s.stopped = false →
    s.writeOpen p Reg.FLT_STANDIN data = true → s.writeOf p Reg.FLT_STANDIN data = w → w.newF F.FLT_STANDIN_GO = 1 →
    w.newF F.FLT_STANDIN_MEMBER = m → s.fresh.takeWrite (w.setNew F.FLT_STANDIN_GO 0) = t → t.spareReady = true →
    t.flag F.FLT_STANDIN_BUSY = false → bitAt (t.reg (Reg.FLT_GROUP (m / 64))).toNat (m % 64) = true →
    t.get F.FLT_BUDGET_TOKENS ≠ 0 →
    (t.put F.FLT_BUDGET_TOKENS (t.get F.FLT_BUDGET_TOKENS - 1)).putFlag F.FLT_STANDIN_BUSY true = u →
    (u.standinRecord m t.member false).routePip (u.notice 2 m t.member 0) = v →
    exec (.standin p data) s =
      .next (({ v with
        pip := { v.pip with hbStopped := true }
        flt := { v.flt with standin := .expelling m t.member } } : State).written p).settled) ∧
  -- STANDIN: without a token RESULT 0x10
  (∀ (s t : State) (p : Path) (data : Word) (w : RegWrite) (m : Nat), s.stopped = false →
    s.writeOpen p Reg.FLT_STANDIN data = true → s.writeOf p Reg.FLT_STANDIN data = w → w.newF F.FLT_STANDIN_GO = 1 →
    w.newF F.FLT_STANDIN_MEMBER = m → s.fresh.takeWrite (w.setNew F.FLT_STANDIN_GO 0) = t → t.spareReady = true →
    t.flag F.FLT_STANDIN_BUSY = false → bitAt (t.reg (Reg.FLT_GROUP (m / 64))).toNat (m % 64) = true →
    t.get F.FLT_BUDGET_TOKENS = 0 →
    exec (.standin p data) s = .next ((t.put F.FLT_STANDIN_RESULT 0x10).written p).settled) ∧
  -- STANDIN_TAKE_NUMBER: once the member shows absent the spare takes its number, and near ports train again
  (∀ (s t : State) (m prev : Nat), s.stopped = false → s.flt.standin = .expelling m prev → bitAt s.present m = false →
    (s.fresh.put F.MGT_ID_MEMBER m).dueSticky.retrainNear = t →
    exec .standinTakeNumber s =
      .next (({ t.sendSubtree t.domain with flt := { t.flt with standin := .admitting m prev } } : State)).settled) ∧
  -- STANDIN_REFRESH: after ADMIT the refresh notice goes out, and heartbeats go on
  (∀ (s t : State) (m prev : Nat), s.stopped = false → s.flt.standin = .admitting m prev → s.admitted = true →
    s.fresh.routePip (s.notice 2 m m 0) = t →
    exec .standinRefresh s =
      .next (({ t with
        pip := { t.pip with hbStopped := t.flag F.TRN_STAT_SYNC_LOST || t.up.detachAt.isSome }
        flt := { t.flt with standin := .refreshing m prev } } : State)).settled) ∧
  -- REJOIN: an aligned, absent device with a READY edition tells the domain root
  (∀ (s t : State) (p : Path) (data : Word), s.stopped = false → s.writeOpen p Reg.FLT_REJOIN data = true →
    (s.writeOf p Reg.FLT_REJOIN data).newF F.FLT_REJOIN_GO = 1 → s.flag F.TRN_STAT_ALIGNED = true → s.admitted = false →
    s.flag (if s.edition = 1 then F.RTE_ED_READY1 else F.RTE_ED_READY0) = true → bitAt s.present s.member = false →
    s.fresh.routePip (s.notice 3 s.member 0 0) = t →
    exec (.rejoin p data) s =
      .next (({ t with flt := { t.flt with rejoinAt := some t.clk } } : State).written p).settled) ∧
  -- REJOIN: an admitted device gets RESULT 0x23
  (∀ (s : State) (p : Path) (data : Word), s.stopped = false → s.writeOpen p Reg.FLT_REJOIN data = true →
    (s.writeOf p Reg.FLT_REJOIN data).newF F.FLT_REJOIN_GO = 1 → s.admitted = true →
    exec (.rejoin p data) s = .next ((s.fresh.put F.FLT_REJOIN_RESULT 0x23).written p).settled) ∧
  -- REJOIN_TIMEOUT: 131,072 turns without the present flood give RESULT 0x14
  (∀ (s : State) (t : Nat), s.stopped = false → s.flt.rejoinAt = some t → t + rejoinLimit ≤ s.clk →
    exec .rejoinTimeout s =
      .next (({ s.fresh.put F.FLT_REJOIN_RESULT 0x14 with flt := { s.flt with rejoinAt := none } } : State)).settled) ∧
  -- BUDGET_REFILL: every REFILL turns one token more, up to CAP
  (∀ s : State, s.stopped = false → s.flt.lastRefill + s.get F.FLT_BUDGET_REFILL ≤ s.clk →
    exec .budgetRefill s =
      .next (({ s.fresh.put F.FLT_BUDGET_TOKENS (min s.tokenCap (s.get F.FLT_BUDGET_TOKENS + 1)) with
        flt := { s.flt with lastRefill := s.flt.lastRefill + s.get F.FLT_BUDGET_REFILL } } : State)).settled)

/-! ### Bring-up and identity (spec/19_bringup_and_identity.md) -/

/-- Reset, the PLL, firmware and the carrier identity memory (R424, R425, R426, R428, R429, R430). -/
def Obligations.BringupCommandsComplete : Prop :=
  -- RESET_N_ASSERT
  (∀ s : State, exec .resetNAssert s =
    .next (({ s.fresh with up := { s.up with
      resetLow := true
      bypassHigh := false } } : State)).seal) ∧
  -- RESET_N_RELEASE: a fundamental reset after 2,500 turns, with pairs bonded as BOND said
  (∀ (s : State) (n : Nat), s.up.resetLow = true → s.up.tripped = false → 2500 ≤ n →
    exec (.resetNRelease n) s =
      .next (s.bondPorts { State.reset with
        pending := s.pending
        freeIx := s.freeIx }).seal) ∧
  -- RESET_N_RELEASE: a tripped device stays stopped
  (∀ (s : State) (n : Nat), s.up.resetLow = true → s.up.tripped = true →
    exec (.resetNRelease n) s = .next (({ s.fresh with up := { s.up with resetLow := false } } : State)).seal) ∧
  -- PLL_LOCK: fuses are read, salts drawn, the bypass pin high
  (∀ (s t : State), s.stopped = false → s.up.pllLocked = false →
    State.newSalts 16 (((s.fresh.put F.MGT_DEV_ID_STEPPING Config.fusedStepping.toNat).put F.MGT_DEV_SN_SERIAL
      Config.fusedSerial.toNat).put F.SEC_ID_KEY_FAMILY (Config.fusedKeyFamily.toNat % 10000)) = t →
    exec .pllLock s =
      .next (({ t with up := { t.up with
        pllLocked := true
        bypassHigh := true } } : State)).settled) ∧
  -- FIRMWARE_VERIFY: slot A, then slot B, else BOOT 2
  (∀ (s t : State) (a b : List Byte), s.stopped = false → s.up.pllLocked = true → s.up.firmwareTried = false →
    s.coresHeld = false →
    ({ s.fresh with up := { s.up with
      firmwareTried := true
      attachOpen := true } } : State) = t →
    exec (.firmwareVerify a b) s =
      .next (if slotPasses a then t.bootSlot a false
        else if slotPasses b then t.bootSlot b true
        else (t.putFlag F.SEC_STAT_FW_OK false).put F.MGT_STAT_BOOT 2).settled) ∧
  -- CIM_READ_DONE: a valid memory is loaded, then the frames held for it are acted on in order
  (∀ (s : State) (b : List Byte), s.stopped = false → s.up.pllLocked = true → s.up.cimRead = false → cimValid b = true →
    exec (.cimReadDone (some b)) s =
      .next (let t := (({ s.fresh with up := { s.up with
          cimRead := true
          cim := b
          cimNow := b
          heldChain := [] } } : State).loadCim b).putFlag F.MGT_STAT_CIM_OK true
        s.up.heldChain.foldl (fun (s : State) f => s.enumFrame f.1 f.2.1 f.2.2)
          (if t.portsHeld then t.holdPorts else t)).settled) ∧
  -- CIM_READ_DONE: no valid memory sets CIM_BAD, and every Vangeri port goes down
  (∀ s : State, s.stopped = false → s.up.pllLocked = true → s.up.cimRead = false → s.up.heldChain = [] →
    exec (.cimReadDone none) s =
      .next ((({ s.fresh with up := { s.up with
        cimRead := true
        cim := []
        cimNow := []
        heldChain := [] } } : State).putFlag F.MGT_STAT_CIM_BAD true)).holdPorts.settled)

/-- Frames of the management chain and out-of-band transfers (R431, R432, R433, R435, Tables 19-3 to 19-6). An ASSIGN's held
and fixed bitmaps, and REPORT's SEQ, are the model's (notes/assumptions/32, notes/assumptions/34). -/
def Obligations.ChainCommandsComplete : Prop :=
  -- CLAIM: a device with a number marks it and forwards the frame
  (∀ (s : State) (bytes body : List Byte), s.stopped = false → s.up.bypassHigh = true → chainBody bytes = some body →
    bytesAt body 0 1 = 1 → 54 ≤ body.length → s.up.cimRead = true → s.enumerates body = true → s.flag F.MGT_ID_VALID = true →
    exec (.claim bytes) s =
      .next (s.fresh.chainSend (setBitmap body 6 (setBitAt (bytesAt body 6 16) s.member true))).settled) ∧
  -- CLAIM: held until the carrier identity memory has been read
  (∀ (s : State) (bytes body : List Byte), s.stopped = false → s.up.bypassHigh = true → chainBody bytes = some body →
    bytesAt body 0 1 = 1 → 54 ≤ body.length → s.up.cimRead = false →
    exec (.claim bytes) s =
      .next (({ s.fresh with up := { s.up with heldChain := s.up.heldChain ++ [(body, 0, 0)] } } : State)).settled) ∧
  -- ASSIGN: a device without a number takes the one its rule gives, marks it, forwards the frame and reports
  (∀ (s t : State) (bytes body : List Byte) (held fixed : BitVec 128) (m src : Nat), s.stopped = false →
    s.up.bypassHigh = true → chainBody bytes = some body → bytesAt body 0 1 = 2 → 22 ≤ body.length → s.up.cimRead = true →
    s.enumerates body = true → s.flag F.MGT_ID_VALID = false →
    s.chooseNumber (bytesAt body 6 16) held.toNat fixed.toNat = (some m, src) → s.fresh.takeNumber m = t →
    exec (.assign bytes held fixed) s =
      .next ((t.chainSend (setBitmap body 6 (setBitAt (bytesAt body 6 16) m true))).report src).settled) ∧
  -- CMD: an access that names this device is forwarded, made and answered
  (∀ (s : State) (bytes body : List Byte) (addr : Nat), s.stopped = false → s.up.bypassHigh = true →
    chainBody bytes = some body → body.length = 18 → bytesAt body 0 1 = 0x10 → s.cmdNamesMe body = true →
    bytesAt body 5 1 = 1 → bytesAt body 6 4 = addr → badAccess .chain addr = false →
    exec (.cmd bytes) s =
      .next (((s.fresh.chainSend body).regCleared addr).sendRsp body 0x01 (s.regRead addr)).settled) ∧
  (∀ (s t : State) (bytes body : List Byte) (addr : Nat) (gone : Bool), s.stopped = false → s.up.bypassHigh = true →
    chainBody bytes = some body → body.length = 18 → bytesAt body 0 1 = 0x10 → s.cmdNamesMe body = true →
    bytesAt body 5 1 = 2 → bytesAt body 6 4 = addr → badAccess .chain addr = false →
    (s.fresh.chainSend body).busWrite .chain addr (BitVec.ofNat 64 (bytesAt body 10 8)) = (gone, t) →
    exec (.cmd bytes) s = .next (t.sendRsp body 0x01 0).settled) ∧
  -- CMD: one that names another device is forwarded
  (∀ (s : State) (bytes body : List Byte), s.stopped = false → s.up.bypassHigh = true → chainBody bytes = some body →
    s.cmdNamesMe body = false →
    exec (.cmd bytes) s = .next (s.fresh.chainSend body).settled) ∧
  -- RSP is forwarded; a frame whose CRC is wrong is counted and goes no further
  (∀ (s : State) (bytes body : List Byte), s.stopped = false → s.up.bypassHigh = true → chainBody bytes = some body →
    exec (.rsp bytes) s = .next (s.fresh.chainSend body).settled) ∧
  (∀ (s : State) (bytes : List Byte), s.stopped = false → s.up.bypassHigh = true → chainBody bytes = none →
    exec (.rsp bytes) s = .next (s.fresh.count F.MGT_STAT_CHAIN_ERR 1).settled) ∧
  -- CIM_WRITE_BACK: every byte that differs is written
  (∀ (s : State) (c : List Byte), s.stopped = false → s.up.writeBackDue = true → s.stickyCim = c →
    exec .cimWriteBack s =
      .next (((List.range 512).filter (fun i => List.getD c i 0 != List.getD s.up.cimNow i 0 || decide (s.up.cimNow.length ≤ i))).foldl
        (fun (s : State) i => s.emit (.cimWrite i (c.getD i 0)))
        (({ s.fresh with up := { s.up with
          cimNow := c
          writeBackDue := false } } : State).putFlag F.MGT_STAT_CIM_BUSY false)).settled) ∧
  -- OOB_WRITE and OOB_READ; a wrong PEC byte is counted and nothing else happens
  (∀ (s t : State) (bytes : List Byte), s.stopped = false → s.up.pllLocked = true → bytes.length = 12 →
    (s.fresh.accessAux (bytesAt bytes 0 4)).2.pathWrite .oob (bytesAt bytes 0 4) (BitVec.ofNat 64 (bytesAt bytes 4 8)) (s.fresh.accessAux (bytesAt bytes 0 4)).1 = t →
    exec (.oobWrite bytes true) s = .next t.settled) ∧
  (∀ (s : State) (bytes : List Byte), s.stopped = false → s.up.pllLocked = true →
    exec (.oobWrite bytes false) s = .next (s.fresh.count F.MGT_STAT_OOB_ERR 1).settled) ∧
  (∀ (s : State) (bytes : List Byte) (addr : Nat), s.stopped = false → s.up.pllLocked = true → bytes.length = 4 →
    bytesAt bytes 0 4 = addr → badAccess .oob addr = false →
    exec (.oobRead bytes true) s =
      .next ((s.fresh.regCleared addr).emit (.oob (toBytesLE 1 0x01 ++ toBytesLE 8 (s.regRead addr).toNat))).settled)

/-- Modules, access registers, the key family override and detaching (R430, R436, R437, R439). -/
def Obligations.IdentityCommandsComplete : Prop :=
  -- MODULE_INSERT
  (∀ (s : State) (c : Fin 64) (lower upper : List Byte), s.stopped = false →
    exec (.moduleInsert c lower upper) s =
      .next (((s.fresh.putFlag (F.MGT_CAGE_PRESENT c) true).moduleRead c lower upper).noteCage c).settled) ∧
  -- MODULE_IDENTITY_READ: every 250,000 turns; a read that fails sets READ_ERR, and a cage found empty clears PRESENT
  (∀ (s : State) (c : Fin 64) (lower upper : List Byte), s.stopped = false → s.flag (F.MGT_CAGE_PRESENT c) = true →
    ((s.up.cageAt.find? (fun x => x.1 == c.val)).map (·.2)).getD 0 + 250000 ≤ s.clk →
    exec (.moduleIdentityRead c (.bytes lower upper)) s =
      .next ((s.fresh.noteCage c).moduleRead c lower upper).settled) ∧
  (∀ (s : State) (c : Fin 64), s.stopped = false → s.flag (F.MGT_CAGE_PRESENT c) = true →
    ((s.up.cageAt.find? (fun x => x.1 == c.val)).map (·.2)).getD 0 + 250000 ≤ s.clk →
    exec (.moduleIdentityRead c .failed) s =
      .next ((s.fresh.noteCage c).putFlag (F.MGT_CAGE_READ_ERR c) true).settled) ∧
  (∀ (s : State) (c : Fin 64), s.stopped = false → s.flag (F.MGT_CAGE_PRESENT c) = true →
    ((s.up.cageAt.find? (fun x => x.1 == c.val)).map (·.2)).getD 0 + 250000 ≤ s.clk →
    exec (.moduleIdentityRead c .absent) s =
      .next ((s.fresh.noteCage c).putFlag (F.MGT_CAGE_PRESENT c) false).settled) ∧
  -- CAGE_ACCESS: a read puts the module's byte into DATA and sets DONE; a write reaches the module
  (∀ (s t : State) (p : Path) (data : Word) (byte : Byte) (w : RegWrite), s.stopped = false →
    s.writeOpen p Reg.MGT_CAGE_ACC data = true → s.writeOf p Reg.MGT_CAGE_ACC data = w →
    (s.fresh.takeWrite w).putFlag F.MGT_CAGE_ACC_DONE true = t → w.newF F.MGT_CAGE_ACC_OP = 1 →
    exec (.cageAccess p data byte) s = .next ((t.put F.MGT_CAGE_ACC_DATA byte.toNat).written p).settled) ∧
  (∀ (s t : State) (p : Path) (data : Word) (byte : Byte) (w : RegWrite), s.stopped = false →
    s.writeOpen p Reg.MGT_CAGE_ACC data = true → s.writeOf p Reg.MGT_CAGE_ACC data = w →
    (s.fresh.takeWrite w).putFlag F.MGT_CAGE_ACC_DONE true = t → w.newF F.MGT_CAGE_ACC_OP = 2 →
    exec (.cageAccess p data byte) s =
      .next ((t.emit (.cageWrite (w.newF F.MGT_CAGE_ACC_CAGE) (w.newF F.MGT_CAGE_ACC_PAGE) (w.newF F.MGT_CAGE_ACC_BYTE)
        (BitVec.ofNat 8 (w.newF F.MGT_CAGE_ACC_DATA)))).written p).settled) ∧
  -- CIM_ACCESS_READ and CIM_ACCESS_WRITE
  (∀ (s t : State) (p : Path) (data : Word) (byte : Byte) (w : RegWrite), s.stopped = false →
    s.writeOpen p Reg.MGT_CIM_ACC data = true → s.writeOf p Reg.MGT_CIM_ACC data = w →
    (s.fresh.takeWrite w).putFlag F.MGT_CIM_ACC_DONE true = t → w.newF F.MGT_CIM_ACC_OP = 1 →
    exec (.cimAccessRead p data byte) s = .next ((t.put F.MGT_CIM_ACC_DATA byte.toNat).written p).settled) ∧
  (∀ (s t : State) (p : Path) (data : Word) (w : RegWrite), s.stopped = false →
    s.writeOpen p Reg.MGT_CIM_ACC data = true → s.writeOf p Reg.MGT_CIM_ACC data = w →
    (s.fresh.takeWrite w).putFlag F.MGT_CIM_ACC_DONE true = t → w.newF F.MGT_CIM_ACC_OP = 2 →
    exec (.cimAccessWrite p data) s =
      .next ((({ t with up := { t.up with cimNow := listSet t.up.cimNow (t.get F.MGT_CIM_ADDR_ADDR) (BitVec.ofNat 8 (w.newF F.MGT_CIM_ACC_DATA)) } } : State).emit
        (.cimWrite (t.get F.MGT_CIM_ADDR_ADDR) (BitVec.ofNat 8 (w.newF F.MGT_CIM_ACC_DATA)))).written p).settled) ∧
  -- KF_OVERRIDE and DETACH: bits written 1 to set; ports that a key family held are released
  (∀ (s : State) (p : Path) (data : Word), s.stopped = false → s.writeOpen p Reg.MGT_CTL data = true →
    (s.writeOf p Reg.MGT_CTL data).actF F.MGT_CTL_KF_OVERRIDE = 1 → (s.writeOf p Reg.MGT_CTL data).actF F.MGT_CTL_DETACH = 0 →
    s.portsHeld = false →
    exec (.kfOverride p data) s = .next ((s.fresh.putFlag F.MGT_CTL_KF_OVERRIDE true).written p).settled) ∧
  (∀ (s : State) (p : Path) (data : Word), s.stopped = false → s.writeOpen p Reg.MGT_CTL data = true →
    (s.writeOf p Reg.MGT_CTL data).actF F.MGT_CTL_KF_OVERRIDE = 1 → (s.writeOf p Reg.MGT_CTL data).actF F.MGT_CTL_DETACH = 0 →
    s.portsHeld = true → s.flag F.MGT_STAT_CIM_BAD = false →
    exec (.kfOverride p data) s = .next ((s.fresh.putFlag F.MGT_CTL_KF_OVERRIDE true).releasePorts.written p).settled) ∧
  (∀ (s t : State) (p : Path) (data : Word), s.stopped = false → s.writeOpen p Reg.MGT_CTL data = true →
    (s.writeOf p Reg.MGT_CTL data).actF F.MGT_CTL_KF_OVERRIDE = 0 → (s.writeOf p Reg.MGT_CTL data).actF F.MGT_CTL_DETACH = 1 →
    s.up.detachAt = none → s.fresh.putFlag F.MGT_CTL_DETACH true = t →
    exec (.detach p data) s =
      .next (((List.range 128).foldl State.portDeepIdle { t with
        up := { t.up with
          detachAt := some s.clk
          bypassHigh := false }
        pip := { t.pip with hbStopped := true } }).written p).settled) ∧
  -- DETACHED: once the relay's time has passed
  (∀ (s : State) (t : Nat), s.stopped = false → s.up.detachAt = some t → t + relayTurns ≤ s.clk →
    exec .detached s = .next (s.fresh.putFlag F.MGT_STAT_DETACHED true).settled)

/-! ### Power (spec/20_power_package_pins.md) -/

/-- PMBus, fill activity and freezes (R443, R444, R445, R448, R449). That a power event sets WARN is the model's
(notes/assumptions/35). -/
def Obligations.PowerSupplyCommandsComplete : Prop :=
  -- PMBUS_POLL: every 25,000 turns each rail with a limit is read at its controller's address
  (∀ (s : State) (answers : List (Option (BitVec 16 × BitVec 16 × Byte × BitVec 16))), s.stopped = false →
    s.up.cimRead = true → s.pwr.polledAt + 25000 ≤ s.clk →
    exec (.pmbusPoll answers) s =
      .next (s.polledRails.foldl (fun (s : State) r => (s.pmbReads r pollCodes).railPoll r (answers.getD r none))
        { s.fresh with pwr := { s.pwr with polledAt := s.clk } }).settled) ∧
  -- PMB_ALERT: one more read of every STATUS_WORD; a controller that answers is not stale
  (∀ (s : State) (status : List (Option (BitVec 16))), s.stopped = false →
    exec (.pmbAlert status) s =
      .next (s.polledRails.foldl (fun (s : State) r => match status.getD r none with
        | some st => ((s.pmbReads r [0x79]).put (F.PWR_RAIL_STATUS r) (st.toNat % 256)).setMisses r 0
        | none => s.pmbReads r [0x79]) s.fresh).settled) ∧
  -- PMB_ACCESS: a read and a write go out, and DONE is cleared until the answer comes
  (∀ (s t : State) (p : Path) (data : Word) (v : Option (BitVec 16)) (w : RegWrite), s.stopped = false →
    s.writeOpen p Reg.PWR_PMB_ACC data = true → Path.management p = true → s.writeOf p Reg.PWR_PMB_ACC data = w →
    (s.fresh.takeWrite w).putFlag F.PWR_PMB_ACC_DONE false = t → w.newF F.PWR_PMB_ACC_OP = 1 →
    exec (.pmbAccess p data v) s =
      .next ((({ t with pwr := { s.pwr with access := some (1, v.map (·.toNat)) } } : State).emit
        (.pmbRead (w.newF F.PWR_PMB_ACC_ADDR) (w.newF F.PWR_PMB_ACC_CMD))).written p).settled) ∧
  (∀ (s t : State) (p : Path) (data : Word) (v : Option (BitVec 16)) (w : RegWrite), s.stopped = false →
    s.writeOpen p Reg.PWR_PMB_ACC data = true → Path.management p = true → s.writeOf p Reg.PWR_PMB_ACC data = w →
    (s.fresh.takeWrite w).putFlag F.PWR_PMB_ACC_DONE false = t → w.newF F.PWR_PMB_ACC_OP = 2 →
    exec (.pmbAccess p data v) s =
      .next ((({ t with pwr := { s.pwr with access := some (2, v.map (·.toNat)) } } : State).emit
        (.pmbWrite (w.newF F.PWR_PMB_ACC_ADDR) (w.newF F.PWR_PMB_ACC_CMD) (w.newF F.PWR_PMB_ACC_DATA))).written p).settled) ∧
  -- the access ends with DONE and NAK, and the word of a read that is answered
  (∀ (s : State) (op : Nat) (a : Option Nat), s.pwr.access = some (op, a) →
    s.endAccess.flag F.PWR_PMB_ACC_DONE = true ∧ s.endAccess.flag F.PWR_PMB_ACC_NAK = a.isNone ∧ s.endAccess.pwr.access = none) ∧
  (∀ (s : State) (v : Nat), s.pwr.access = some (1, some v) → s.endAccess.get F.PWR_PMB_ACC_DATA = v % 2 ^ 16) ∧
  -- ARRAY_RAMP_END: up after 64 turns, down after 8 turns a step
  (∀ s : State, s.stopped = false → s.flag F.PWR_STAT_FROZEN = false → s.get F.PWR_STAT_ARRAY = 1 → s.pwr.rampAt + 64 ≤ s.clk →
    exec .arrayRampEnd s = .next (s.fresh.put F.PWR_STAT_ARRAY 2).settled) ∧
  (∀ s : State, s.stopped = false → s.flag F.PWR_STAT_FROZEN = false → s.get F.PWR_STAT_ARRAY = 3 →
    s.pwr.rampAt + 8 * s.pwr.rampStep ≤ s.clk →
    exec .arrayRampEnd s = .next (s.fresh.put F.PWR_STAT_ARRAY 0).settled) ∧
  -- DROOP_TRIP: outside a stretch it is counted, the clock stretches and the array freezes, in the turn of the trip already
  (∀ (s t : State), s.stopped = false → s.pwr.stretchAt = none → s.pwr.freezeAt = none → s.dutyFrozen = false →
    ((((s.fresh.count F.PWR_CNT_FROZEN_TURNS 1).count F.TWN_TBRK0_STRETCH_TURNS 1).count F.PWR_DROOP_EVENTS 1).putFlag
      F.PWR_STAT_STRETCH true).freeze.twnBreak = t →
    exec .droopTrip s =
      .next (({ t with pwr := { t.pwr with
        stretchAt := some s.clk
        freezeAt := some s.clk
        freezeDue := none } } : State).powerEvent).settled) ∧
  -- DROOP_TRIP: within a stretch HOLD runs from it
  (∀ (s t : State) (a f : Nat), s.stopped = false → s.pwr.stretchAt = some a → s.pwr.freezeAt = some f → s.droopFrozen = true →
    (s.fresh.putFlag F.PWR_STAT_STRETCH true).freeze.twnBreak = t →
    exec .droopTrip s =
      .next (({ t with pwr := { t.pwr with
        stretchAt := some s.clk
        freezeAt := some f
        freezeDue := none } } : State).powerEvent).settled) ∧
  -- STRETCH_END: the freeze ends at a multiple of 256 turns from its start
  (∀ (s t : State) (a f : Nat), s.stopped = false → s.pwr.stretchAt = some a → s.pwr.frozenAt = some f →
    a + max 1 (s.get F.PWR_DROOP_HOLD) ≤ s.clk → s.fresh.putFlag F.PWR_STAT_STRETCH false = t →
    exec .stretchEnd s =
      .next (({ t with pwr := { s.pwr with
        stretchAt := none
        freezeDue := some (f + 256 * ceilDiv (s.clk + 64 - f) 256) } } : State)).settled) ∧
  -- FREEZE_END: the array's work goes on where it stopped
  (∀ (s t : State) (f : Nat), s.stopped = false → s.pwr.frozenAt = some f → s.pwr.stretchAt = none → s.droopFrozen = false →
    s.dutyFrozen = false → s.get F.PWR_STAT_ARRAY = 2 → (s.fresh.thawArray (s.clk - f)).putFlag F.PWR_STAT_FROZEN false = t →
    exec .freezeEnd s =
      .next (({ t with pwr := { t.pwr with
        frozenAt := none
        freezeAt := none
        freezeDue := none
        dutyDue := none
        rampAt := s.pwr.rampAt } } : State).resumeReads).settled)

/-- Temperature and the supply warning (R450, R451, R452, R453, R454, R455). -/
def Obligations.ThermalAndWarningCommandsComplete : Prop :=
  -- THERMAL_SAMPLE: TJ_EFF is the greater of the sensors and the stacks plus 10; at TRIP the device trips
  (∀ (s t : State) (sensors temps : List Byte) (j e : Nat), s.stopped = false → s.clk % 256 = 0 →
    s.fresh.stackTemps temps = t → maxOf (sensors.map (·.toNat)) = j →
    min 255 (max j (maxOf ((List.range 24).map (fun n => t.get (F.HBM_S_TEMP_TEMP n))) + 10)) = e →
    exec (.thermalSample sensors temps) s =
      .next (let u := (t.put F.PWR_STAT_TJ_EFF e).put F.PWR_THERM_PEAK (max e (t.get F.PWR_THERM_PEAK))
        let v : State := { u with pwr := { u.pwr with junction := j } }
        if v.get F.PWR_THERM_TRIP ≤ j then v.trip else v).settled) ∧
  -- THERMTRIP
  (∀ (s : State) (n : Byte), s.stopped = false → s.get F.PWR_THERM_TRIP ≤ n.toNat →
    exec (.thermtrip n) s =
      .next (({ s.fresh with up := { s.up with
        tripped := true
        bypassHigh := false } } : State)).settled) ∧
  -- DUTY_WINDOW_START: at the device's slot of 4,096 turns F is set from TJ_EFF; over-current keeps it at 4 or more
  (∀ (s t : State) (f : Nat), s.stopped = false → s.now % 4096 = 512 * s.staggerSlot → s.pwr.windowAt ≠ some s.clk →
    (if s.overAgain then max 4 (dutyF (s.get F.PWR_STAT_TJ_EFF) (s.get F.PWR_THERM_DUTY_ON))
      else dutyF (s.get F.PWR_STAT_TJ_EFF) (s.get F.PWR_THERM_DUTY_ON)) = f →
    ((s.fresh.putFlag F.PWR_STAT_OVERCURRENT s.overAgain).put F.PWR_STAT_DUTY_F f).putFlag F.PWR_STAT_DUTY (decide (0 < f)) = t →
    exec .dutyWindowStart s =
      .next (let u : State := { t with pwr := { t.pwr with windowAt := some s.clk, overRails := s.stillOver } }
        if 0 < f then (u.count F.PWR_THERM_DUTY_WINDOWS 1).powerEvent else u).settled) ∧
  -- DUTY_ON_WRITE: up to the class's value; a higher one is rejected
  (∀ (s : State) (p : Path) (data : Word), s.stopped = false → s.writeOpen p Reg.PWR_THERM data = true →
    (s.writeOf p Reg.PWR_THERM data).newF F.PWR_THERM_DUTY_ON ≤ s.pwr.classDuty →
    exec (.dutyOnWrite p data) s = .next ((s.fresh.takeWrite (s.writeOf p Reg.PWR_THERM data)).written p).settled) ∧
  (∀ (s : State) (p : Path) (data : Word), s.stopped = false → s.writeOpen p Reg.PWR_THERM data = true →
    s.pwr.classDuty < (s.writeOf p Reg.PWR_THERM data).newF F.PWR_THERM_DUTY_ON →
    exec (.dutyOnWrite p data) s = .next ((s.fresh.rejected 15 0).written p).settled) ∧
  -- PWR_WARN: step 1, counted, and the operation and the collectives are told
  (∀ (s t : State), s.stopped = false → s.flag F.PWR_CTL_WARN_EN = true → s.flag F.PWR_STAT_WARN = false →
    ((s.fresh.putFlag F.PWR_STAT_WARN true).put F.PWR_STAT_WARN_STEP 1).count F.PWR_CNT_WARNS 1 = t →
    exec .pwrWarn s =
      .next (({ t with pwr := { t.pwr with warnAt := some s.clk } } : State).warnOp.colWarned.powerEvent).settled) ∧
  -- WARN_STROKE_LIMIT: a stroke whose write-out has not begun is discarded
  (∀ (s : State) (o : PlateOp) (x : Nat), s.stopped = false → s.warnedFor 250000 = true → s.plate.phase = .stroke x →
    s.plate.op = some o →
    exec .warnStrokeLimit s = .next (s.fresh.startRetire { o with aborted := true }).settled) ∧
  -- WARN_DETACH
  (∀ s : State, s.stopped = false → s.warnedFor 375000 = true → s.get F.PWR_STAT_WARN_STEP ≠ 3 →
    exec .warnDetach s = .next ((s.fresh.put F.PWR_STAT_WARN_STEP 3).loseStandin).startDetach.settled) ∧
  -- WARN_RELEASE
  (∀ (s t : State), s.stopped = false → s.flag F.PWR_STAT_WARN = true → s.warnedFor 375000 = false →
    (s.fresh.putFlag F.PWR_STAT_WARN false).put F.PWR_STAT_WARN_STEP 0 = t →
    exec .warnRelease s =
      .next (({ t with pwr := { t.pwr with warnAt := none } } : State).releaseWarned).settled)

/-! ### Register pages (spec/21_register_pages.md) -/

/-- Accesses to any register and to page headers (R461, R463, R465, R466, R469). -/
def Obligations.RegisterCommandsComplete : Prop :=
  -- REGISTER_WRITE: what the register's write rule gives, answered on the path
  (∀ (s t : State) (p : Path) (addr : BitVec 32) (data : Word) (gone : Bool), s.stopped = false → s.pathOpen p = true →
    badAccess p addr.toNat = false → s.fresh.busWrite p addr.toNat data = (gone, t) →
    exec (.registerWrite p ⟨addr, 8⟩ data) s =
      .next (t.answerPath p true (if gone && p == .fabric then 0x23 else 0x01) 0).settled) ∧
  -- REGISTER_READ_CLEAR: the value, and RC fields cleared, where no injection strikes the granule that carries it
  (∀ (s : State) (p : Path) (addr : BitVec 32), s.stopped = false → s.pathOpen p = true → badAccess p addr.toNat = false →
    s.flag (F.PG_INJ_ARM (pageBase 17 0)) = false →
    exec (.registerReadClear p ⟨addr, 8⟩) s =
      .next ((s.fresh.regCleared addr.toNat).answerPath p false 0x01 (s.regRead addr.toNat)).settled) ∧
  -- an access that is not of 8 bytes, or not on its boundary, reaches no register and is handled as its path gives
  (∀ (s : State) (p : Path) (acc : RegAccess) (data : Word), s.stopped = false → s.pathOpen p = true →
    acc.bytes ≠ 8 ∨ badAccess p acc.addr.toNat = true →
    exec (.registerReadClear p acc) s = .next (s.fresh.misaligned p false).settled ∧
    exec (.registerWrite p acc data) s = .next (s.fresh.misaligned p true).settled) ∧
  -- SRST: an accepted one resets the page; any other is rejected
  (∀ (s : State) (p : Path) (t i : Byte) (data : Word) (w : RegWrite), s.stopped = false →
    pageAt t.toNat i.toNat = some (pageBase t.toNat i.toNat) →
    s.writeOpen p (pageBase t.toNat i.toNat + 0x10) data = true →
    s.writeOf p (pageBase t.toNat i.toNat + 0x10) data = w → fieldGet w.act 1 1 = 1 →
    exec (.srst p t i data) s =
      .next ((if (s.fresh.takeWrite w).srstOk p t.toNat i.toNat
        then (s.fresh.takeWrite w).softReset t.toNat i.toNat
        else (s.fresh.takeWrite w).rejected t.toNat i.toNat).written p).settled) ∧
  -- PG_LOCK_WRITE
  (∀ (s : State) (p : Path) (t i : Byte) (data : Word) (w : RegWrite), s.stopped = false →
    pageAt t.toNat i.toNat = some (pageBase t.toNat i.toNat) →
    s.writeOpen p (pageBase t.toNat i.toNat + 0x10) data = true →
    s.writeOf p (pageBase t.toNat i.toNat + 0x10) data = w → fieldGet w.act 1 1 = 0 →
    exec (.pgLockWrite p t i data) s = .next ((s.fresh.takeWrite w).written p).settled) ∧
  -- PG_INJ_ARM: symbol errors are armed where the page has an injection point; a fault code is reported at once
  (∀ (s : State) (p : Path) (t i : Byte) (data : Word) (w : RegWrite), s.stopped = false →
    pageAt t.toNat i.toNat = some (pageBase t.toNat i.toNat) →
    s.writeOpen p (pageBase t.toNat i.toNat + 0x40) data = true →
    s.writeOf p (pageBase t.toNat i.toNat + 0x40) data = w → w.newF (F.PG_INJ_KIND (pageBase t.toNat i.toNat)) ≤ 3 →
    injSymPage t.toNat i.toNat = true →
    exec (.pgInjArm p t i data) s = .next ((s.fresh.takeWrite w).written p).settled) ∧
  (∀ (s : State) (p : Path) (t i : Byte) (data : Word) (w : RegWrite) (pg cls : Nat), s.stopped = false →
    pageAt t.toNat i.toNat = some pg → pageBase t.toNat i.toNat = pg → s.writeOpen p (pg + 0x40) data = true →
    s.writeOf p (pg + 0x40) data = w → w.newF (F.PG_INJ_ARM pg) = 1 → w.newF (F.PG_INJ_KIND pg) = 4 →
    codeClass (w.newF (F.PG_INJ_CODE pg)) = some cls →
    exec (.pgInjArm p t i data) s =
      .next ((((s.fresh.takeWrite w).putFlag (F.PG_INJ_ARM pg) false).injectEvent t.toNat i.toNat (w.newF (F.PG_INJ_CODE pg))
        cls).written p).settled) ∧
  -- PG_CNT_SEL_WRITE: VALUE restarts at 0
  (∀ (s : State) (p : Path) (t i : Byte) (data : Word), s.stopped = false →
    pageAt t.toNat i.toNat = some (pageBase t.toNat i.toNat) →
    s.writeOpen p (pageBase t.toNat i.toNat + 0x48) data = true →
    exec (.pgCntSelWrite p t i data) s =
      .next (((s.fresh.takeWrite (s.writeOf p (pageBase t.toNat i.toNat + 0x48) data)).setReg
        (Reg.PG_CNT_VAL (pageBase t.toNat i.toNat)) 0).written p).settled)
end

