-- ==== Sys2Proof/Laws/Sparse.lean ====
section
/-!
SUPPORT. Sparse data: a read after a write to the same key gives the value written, a write leaves every other key alone, and
writes keep the canonical form.
-/
namespace Sys2Proof.Machine

variable {α : Type}

@[simp] theorem Sparse.get_nil (d : Nat → α) (k : Nat) : Sparse.get d [] k = d k := rfl

theorem Sparse.get_cons (d : Nat → α) (e : Nat × α) (m : List (Nat × α)) (k : Nat) :
    Sparse.get d (e :: m) k = if k = e.1 then e.2 else Sparse.get d m k := rfl

theorem Sparse.get_erase_self (d : Nat → α) (m : List (Nat × α)) (k : Nat) : Sparse.get d (Sparse.erase m k) k = d k := by
  induction m with
  | nil => rfl
  | cons e m ih =>
    simp only [Sparse.erase]
    split
    · exact ih
    · rw [Sparse.get_cons, if_neg (by assumption)]; exact ih

theorem Sparse.get_erase_of_ne (d : Nat → α) (m : List (Nat × α)) {j k : Nat} (h : j ≠ k) :
    Sparse.get d (Sparse.erase m k) j = Sparse.get d m j := by
  induction m with
  | nil => rfl
  | cons e m ih =>
    simp only [Sparse.erase]
    split
    · rename_i hk
      rw [ih, Sparse.get_cons, if_neg (fun hj => h (hj.trans hk.symm))]
    · rw [Sparse.get_cons, Sparse.get_cons, ih]

theorem Sparse.erase_keys (m : List (Nat × α)) (k : Nat) : ∀ e ∈ Sparse.erase m k, e ∈ m ∧ e.1 ≠ k := by
  induction m with
  | nil => intro e he; cases he
  | cons a m ih =>
    intro e he
    simp only [Sparse.erase] at he
    split at he
    · exact ⟨List.mem_cons_of_mem _ (ih e he).1, (ih e he).2⟩
    · rename_i hk
      rcases List.mem_cons.mp he with rfl | he
      · exact ⟨List.mem_cons_self, fun h => hk h.symm⟩
      · exact ⟨List.mem_cons_of_mem _ (ih e he).1, (ih e he).2⟩

theorem Sparse.get_insert_self (d : Nat → α) (m : List (Nat × α)) (k : Nat) (v : α) (h : ∀ e ∈ m, e.1 ≠ k) :
    Sparse.get d (Sparse.insert m k v) k = v := by
  induction m with
  | nil => simp [Sparse.insert, Sparse.get]
  | cons e m ih =>
    simp only [Sparse.insert]
    split
    · simp [Sparse.get]
    · rw [Sparse.get_cons, if_neg (fun hk => h e List.mem_cons_self hk.symm)]
      exact ih (fun x hx => h x (List.mem_cons_of_mem _ hx))

theorem Sparse.get_insert_of_ne (d : Nat → α) (m : List (Nat × α)) {j k : Nat} (v : α) (h : j ≠ k) :
    Sparse.get d (Sparse.insert m k v) j = Sparse.get d m j := by
  induction m with
  | nil => simp [Sparse.insert, Sparse.get, h]
  | cons e m ih =>
    simp only [Sparse.insert]
    split
    · rw [Sparse.get_cons, if_neg h]
    · rw [Sparse.get_cons, Sparse.get_cons, ih]

/-- A read after a write to the same key gives the value written. -/
@[simp] theorem Sparse.get_set_self [DecidableEq α] (d : Nat → α) (m : List (Nat × α)) (k : Nat) (v : α) :
    Sparse.get d (Sparse.set d m k v) k = v := by
  unfold Sparse.set
  split
  · rename_i h; rw [Sparse.get_erase_self, h]
  · exact Sparse.get_insert_self d _ k v (fun e he => (Sparse.erase_keys m k e he).2)

/-- A write leaves every other key alone. -/
theorem Sparse.get_set_of_ne [DecidableEq α] (d : Nat → α) (m : List (Nat × α)) {j k : Nat} (v : α) (h : j ≠ k) :
    Sparse.get d (Sparse.set d m k v) j = Sparse.get d m j := by
  unfold Sparse.set
  split
  · exact Sparse.get_erase_of_ne d m h
  · rw [Sparse.get_insert_of_ne d _ v h, Sparse.get_erase_of_ne d m h]

theorem Sparse.get_set [DecidableEq α] (d : Nat → α) (m : List (Nat × α)) (j k : Nat) (v : α) :
    Sparse.get d (Sparse.set d m k v) j = if j = k then v else Sparse.get d m j := by
  split
  · rename_i h; subst h; simp
  · exact Sparse.get_set_of_ne d m v (by assumption)

/-! ### The canonical form -/

theorem Sparse.rising_mono {m : List (Nat × α)} {a b : Nat} (h : Sparse.rising (some b) m = true) (hab : a ≤ b) :
    Sparse.rising (some a) m = true := by
  cases m with
  | nil => rfl
  | cons e m =>
    simp only [Sparse.rising, Bool.and_eq_true, decide_eq_true_eq] at h ⊢
    exact ⟨by omega, h.2⟩

theorem Sparse.rising_none {m : List (Nat × α)} {a : Nat} (h : Sparse.rising (some a) m = true) :
    Sparse.rising none m = true := by
  cases m with
  | nil => rfl
  | cons e m =>
    simp only [Sparse.rising, Bool.and_eq_true] at h ⊢
    exact ⟨trivial, h.2⟩

theorem Sparse.rising_erase (m : List (Nat × α)) (k : Nat) :
    ∀ lo, Sparse.rising lo m = true → Sparse.rising lo (Sparse.erase m k) = true := by
  induction m with
  | nil => intro lo h; exact h
  | cons e m ih =>
    intro lo h
    simp only [Sparse.rising, Bool.and_eq_true] at h
    simp only [Sparse.erase]
    split
    · apply ih
      cases lo with
      | none => exact Sparse.rising_none h.2
      | some l =>
        have := h.1
        simp only [decide_eq_true_eq] at this
        exact Sparse.rising_mono h.2 (by omega)
    · simp only [Sparse.rising, Bool.and_eq_true]
      exact ⟨h.1, ih _ h.2⟩

theorem Sparse.rising_insert (m : List (Nat × α)) (k : Nat) (v : α) :
    ∀ lo, (∀ l, lo = some l → l < k) → (∀ e ∈ m, e.1 ≠ k) → Sparse.rising lo m = true →
      Sparse.rising lo (Sparse.insert m k v) = true := by
  induction m with
  | nil =>
    intro lo hl _ _
    cases lo with
    | none => rfl
    | some l => simp [Sparse.insert, Sparse.rising, hl l rfl]
  | cons e m ih =>
    intro lo hl hk h
    simp only [Sparse.rising, Bool.and_eq_true] at h
    simp only [Sparse.insert]
    split
    · rename_i hlt
      simp only [Sparse.rising, Bool.and_eq_true, decide_eq_true_eq]
      refine ⟨?_, hlt, h.2⟩
      cases lo with
      | none => rfl
      | some l => simpa using hl l rfl
    · rename_i hge
      have hne := hk e List.mem_cons_self
      simp only [Sparse.rising, Bool.and_eq_true]
      refine ⟨h.1, ih _ ?_ (fun x hx => hk x (List.mem_cons_of_mem _ hx)) h.2⟩
      intro l hle
      cases hle
      omega

theorem Sparse.mem_insert {m : List (Nat × α)} {k : Nat} {v : α} {e : Nat × α} (h : e ∈ Sparse.insert m k v) :
    e = (k, v) ∨ e ∈ m := by
  induction m with
  | nil => simpa [Sparse.insert] using h
  | cons a m ih =>
    simp only [Sparse.insert] at h
    split at h
    · rcases List.mem_cons.mp h with h | h
      · exact .inl h
      · exact .inr h
    · rcases List.mem_cons.mp h with rfl | h
      · exact .inr List.mem_cons_self
      · rcases ih h with h | h
        · exact .inl h
        · exact .inr (List.mem_cons_of_mem _ h)

/-- A write keeps the canonical form. -/
theorem Sparse.wf_set [DecidableEq α] {d : Nat → α} {m : List (Nat × α)} (h : Sparse.wf d m = true) (k : Nat) (v : α) :
    Sparse.wf d (Sparse.set d m k v) = true := by
  simp only [Sparse.wf, Bool.and_eq_true, List.all_eq_true, decide_eq_true_eq] at h ⊢
  unfold Sparse.set
  split
  · exact ⟨Sparse.rising_erase m k none h.1, fun e he => h.2 e (Sparse.erase_keys m k e he).1⟩
  · rename_i hv
    refine ⟨Sparse.rising_insert _ k v none (fun l hl => by cases hl) (fun e he => (Sparse.erase_keys m k e he).2)
      (Sparse.rising_erase m k none h.1), fun e he => ?_⟩
    rcases Sparse.mem_insert he with rfl | he
    · exact hv
    · exact h.2 e (Sparse.erase_keys m k e he).1

theorem Sparse.rising_filter {m : List (Nat × α)} (p : Nat × α → Bool) :
    ∀ lo, Sparse.rising lo m = true → Sparse.rising lo (m.filter p) = true := by
  induction m with
  | nil => intro lo h; exact h
  | cons e m ih =>
    intro lo h
    simp only [Sparse.rising, Bool.and_eq_true] at h
    simp only [List.filter_cons]
    split
    · simp only [Sparse.rising, Bool.and_eq_true]
      exact ⟨h.1, ih _ h.2⟩
    · apply ih
      cases lo with
      | none => exact Sparse.rising_none h.2
      | some l =>
        have := h.1
        simp only [decide_eq_true_eq] at this
        exact Sparse.rising_mono h.2 (by omega)

/-- Dropping entries keeps the canonical form. -/
theorem Sparse.wf_filter [DecidableEq α] {d : Nat → α} {m : List (Nat × α)} (h : Sparse.wf d m = true)
    (p : Nat × α → Bool) : Sparse.wf d (m.filter p) = true := by
  simp only [Sparse.wf, Bool.and_eq_true, List.all_eq_true, decide_eq_true_eq] at h ⊢
  exact ⟨Sparse.rising_filter p none h.1, fun e he => h.2 e (List.mem_filter.mp he).1⟩

/-- In the canonical form an unlisted key is one that reads as unlisted. -/
theorem Sparse.wf_nil [DecidableEq α] (d : Nat → α) : Sparse.wf d [] = true := rfl

/-! ### Bytes -/

/-- A byte after a write of bytes: the byte written, or the byte before. -/
theorem Sparse.get_setBytes (d : Nat → Byte) (bs : List Byte) :
    ∀ (m : List (Nat × Byte)) (a j : Nat), Sparse.get d (Sparse.setBytes d m a bs) j =
      if h : a ≤ j ∧ j < a + bs.length then bs[j - a]'(by omega) else Sparse.get d m j := by
  induction bs with
  | nil =>
    intro m a j
    have h : ¬ (a ≤ j ∧ j < a + ([] : List Byte).length) := by simp
    rw [dif_neg h]; rfl
  | cons b bs ih =>
    intro m a j
    rw [Sparse.setBytes, ih]
    by_cases h : a + 1 ≤ j ∧ j < a + 1 + bs.length
    · have h' : a ≤ j ∧ j < a + (b :: bs).length := by simp; omega
      rw [dif_pos h, dif_pos h', List.getElem_cons]
      rw [dif_neg (by omega)]
      congr 1
    · rw [dif_neg h, Sparse.get_set]
      by_cases hj : j = a
      · subst hj
        have h' : j ≤ j ∧ j < j + (b :: bs).length := by simp
        rw [dif_pos h']
        simp
      · have h' : ¬ (a ≤ j ∧ j < a + (b :: bs).length) := by simp; omega
        rw [dif_neg h', if_neg hj]

/-- Bytes outside those written read as before. -/
theorem Sparse.get_setBytes_outside (d : Nat → Byte) (m : List (Nat × Byte)) (a : Nat) (bs : List Byte) {j : Nat}
    (h : j < a ∨ a + bs.length ≤ j) : Sparse.get d (Sparse.setBytes d m a bs) j = Sparse.get d m j := by
  rw [Sparse.get_setBytes, dif_neg (by omega)]

/-- Bytes written read back. -/
theorem Sparse.getBytes_setBytes (d : Nat → Byte) (m : List (Nat × Byte)) (a : Nat) (bs : List Byte) :
    Sparse.getBytes d (Sparse.setBytes d m a bs) a bs.length = bs := by
  apply List.ext_getElem
  · simp [Sparse.getBytes]
  · intro i h1 h2
    simp only [Sparse.getBytes, List.getElem_map, List.getElem_range]
    rw [Sparse.get_setBytes, dif_pos (by omega)]
    congr 1
    omega

/-- A write of bytes keeps the canonical form. -/
theorem Sparse.wf_setBytes (d : Nat → Byte) (bs : List Byte) :
    ∀ (m : List (Nat × Byte)) (a : Nat), Sparse.wf d m = true → Sparse.wf d (Sparse.setBytes d m a bs) = true := by
  induction bs with
  | nil => intro m a h; exact h
  | cons b bs ih => intro m a h; exact ih _ _ (Sparse.wf_set h a b)

end Sys2Proof.Machine
end

