-- ==== Sys2Proof/Laws/State.lean ====
section
/-!
SUPPORT. The state's fields under each named update, the registers under a register write, and a command's fresh state: later
proofs cite these and unfold no update.
-/
namespace Sys2Proof.Machine

/-! ### Fields under updates -/

@[simp] theorem State.setReg_pending (s : State) (a : Nat) (v : Word) : (s.setReg a v).pending = s.pending := rfl
@[simp] theorem State.setReg_clk (s : State) (a : Nat) (v : Word) : (s.setReg a v).clk = s.clk := rfl
@[simp] theorem State.setReg_turn (s : State) (a : Nat) (v : Word) : (s.setReg a v).turn = s.turn := rfl
@[simp] theorem State.setReg_counting (s : State) (a : Nat) (v : Word) : (s.setReg a v).counting = s.counting := rfl
@[simp] theorem State.setReg_pip (s : State) (a : Nat) (v : Word) : (s.setReg a v).pip = s.pip := rfl
@[simp] theorem State.setReg_hbm (s : State) (a : Nat) (v : Word) : (s.setReg a v).hbm = s.hbm := rfl
@[simp] theorem State.setReg_flt (s : State) (a : Nat) (v : Word) : (s.setReg a v).flt = s.flt := rfl
@[simp] theorem State.setReg_up (s : State) (a : Nat) (v : Word) : (s.setReg a v).up = s.up := rfl
@[simp] theorem State.setReg_sec (s : State) (a : Nat) (v : Word) : (s.setReg a v).sec = s.sec := rfl
@[simp] theorem State.setReg_sw (s : State) (a : Nat) (v : Word) : (s.setReg a v).sw = s.sw := rfl
@[simp] theorem State.setReg_ports (s : State) (a : Nat) (v : Word) : (s.setReg a v).ports = s.ports := rfl
@[simp] theorem State.setReg_rep (s : State) (a : Nat) (v : Word) : (s.setReg a v).rep = s.rep := rfl
@[simp] theorem State.setReg_msg (s : State) (a : Nat) (v : Word) : (s.setReg a v).msg = s.msg := rfl
@[simp] theorem State.setReg_plate (s : State) (a : Nat) (v : Word) : (s.setReg a v).plate = s.plate := rfl
@[simp] theorem State.setReg_att (s : State) (a : Nat) (v : Word) : (s.setReg a v).att = s.att := rfl
@[simp] theorem State.setReg_twn (s : State) (a : Nat) (v : Word) : (s.setReg a v).twn = s.twn := rfl
@[simp] theorem State.setReg_ilx (s : State) (a : Nat) (v : Word) : (s.setReg a v).ilx = s.ilx := rfl
@[simp] theorem State.setReg_pwr (s : State) (a : Nat) (v : Word) : (s.setReg a v).pwr = s.pwr := rfl
@[simp] theorem State.setReg_col (s : State) (a : Nat) (v : Word) : (s.setReg a v).col = s.col := rfl
@[simp] theorem State.setReg_msix (s : State) (a : Nat) (v : Word) : (s.setReg a v).msix = s.msix := rfl
@[simp] theorem State.setReg_out (s : State) (a : Nat) (v : Word) : (s.setReg a v).out = s.out := rfl
@[simp] theorem State.setReg_freeIx (s : State) (a : Nat) (v : Word) : (s.setReg a v).freeIx = s.freeIx := rfl

@[simp] theorem State.put_pending (s : State) (f : RField) (v : Nat) : (s.put f v).pending = s.pending := rfl
@[simp] theorem State.put_clk (s : State) (f : RField) (v : Nat) : (s.put f v).clk = s.clk := rfl
@[simp] theorem State.put_turn (s : State) (f : RField) (v : Nat) : (s.put f v).turn = s.turn := rfl
@[simp] theorem State.put_counting (s : State) (f : RField) (v : Nat) : (s.put f v).counting = s.counting := rfl
@[simp] theorem State.put_pip (s : State) (f : RField) (v : Nat) : (s.put f v).pip = s.pip := rfl
@[simp] theorem State.put_hbm (s : State) (f : RField) (v : Nat) : (s.put f v).hbm = s.hbm := rfl
@[simp] theorem State.put_flt (s : State) (f : RField) (v : Nat) : (s.put f v).flt = s.flt := rfl
@[simp] theorem State.put_up (s : State) (f : RField) (v : Nat) : (s.put f v).up = s.up := rfl
@[simp] theorem State.put_sec (s : State) (f : RField) (v : Nat) : (s.put f v).sec = s.sec := rfl
@[simp] theorem State.put_sw (s : State) (f : RField) (v : Nat) : (s.put f v).sw = s.sw := rfl
@[simp] theorem State.put_ports (s : State) (f : RField) (v : Nat) : (s.put f v).ports = s.ports := rfl
@[simp] theorem State.put_rep (s : State) (f : RField) (v : Nat) : (s.put f v).rep = s.rep := rfl
@[simp] theorem State.put_msg (s : State) (f : RField) (v : Nat) : (s.put f v).msg = s.msg := rfl
@[simp] theorem State.put_plate (s : State) (f : RField) (v : Nat) : (s.put f v).plate = s.plate := rfl
@[simp] theorem State.put_att (s : State) (f : RField) (v : Nat) : (s.put f v).att = s.att := rfl
@[simp] theorem State.put_twn (s : State) (f : RField) (v : Nat) : (s.put f v).twn = s.twn := rfl
@[simp] theorem State.put_ilx (s : State) (f : RField) (v : Nat) : (s.put f v).ilx = s.ilx := rfl
@[simp] theorem State.put_pwr (s : State) (f : RField) (v : Nat) : (s.put f v).pwr = s.pwr := rfl
@[simp] theorem State.put_col (s : State) (f : RField) (v : Nat) : (s.put f v).col = s.col := rfl
@[simp] theorem State.put_msix (s : State) (f : RField) (v : Nat) : (s.put f v).msix = s.msix := rfl
@[simp] theorem State.put_out (s : State) (f : RField) (v : Nat) : (s.put f v).out = s.out := rfl
@[simp] theorem State.put_freeIx (s : State) (f : RField) (v : Nat) : (s.put f v).freeIx = s.freeIx := rfl

@[simp] theorem State.putFlag_pending (s : State) (f : RField) (b : Bool) : (s.putFlag f b).pending = s.pending := rfl
@[simp] theorem State.putFlag_clk (s : State) (f : RField) (b : Bool) : (s.putFlag f b).clk = s.clk := rfl
@[simp] theorem State.putFlag_turn (s : State) (f : RField) (b : Bool) : (s.putFlag f b).turn = s.turn := rfl
@[simp] theorem State.putFlag_counting (s : State) (f : RField) (b : Bool) : (s.putFlag f b).counting = s.counting := rfl
@[simp] theorem State.putFlag_pip (s : State) (f : RField) (b : Bool) : (s.putFlag f b).pip = s.pip := rfl
@[simp] theorem State.putFlag_hbm (s : State) (f : RField) (b : Bool) : (s.putFlag f b).hbm = s.hbm := rfl
@[simp] theorem State.putFlag_flt (s : State) (f : RField) (b : Bool) : (s.putFlag f b).flt = s.flt := rfl
@[simp] theorem State.putFlag_up (s : State) (f : RField) (b : Bool) : (s.putFlag f b).up = s.up := rfl
@[simp] theorem State.putFlag_sec (s : State) (f : RField) (b : Bool) : (s.putFlag f b).sec = s.sec := rfl
@[simp] theorem State.putFlag_sw (s : State) (f : RField) (b : Bool) : (s.putFlag f b).sw = s.sw := rfl
@[simp] theorem State.putFlag_ports (s : State) (f : RField) (b : Bool) : (s.putFlag f b).ports = s.ports := rfl
@[simp] theorem State.putFlag_rep (s : State) (f : RField) (b : Bool) : (s.putFlag f b).rep = s.rep := rfl
@[simp] theorem State.putFlag_msg (s : State) (f : RField) (b : Bool) : (s.putFlag f b).msg = s.msg := rfl
@[simp] theorem State.putFlag_plate (s : State) (f : RField) (b : Bool) : (s.putFlag f b).plate = s.plate := rfl
@[simp] theorem State.putFlag_att (s : State) (f : RField) (b : Bool) : (s.putFlag f b).att = s.att := rfl
@[simp] theorem State.putFlag_twn (s : State) (f : RField) (b : Bool) : (s.putFlag f b).twn = s.twn := rfl
@[simp] theorem State.putFlag_ilx (s : State) (f : RField) (b : Bool) : (s.putFlag f b).ilx = s.ilx := rfl
@[simp] theorem State.putFlag_pwr (s : State) (f : RField) (b : Bool) : (s.putFlag f b).pwr = s.pwr := rfl
@[simp] theorem State.putFlag_col (s : State) (f : RField) (b : Bool) : (s.putFlag f b).col = s.col := rfl
@[simp] theorem State.putFlag_msix (s : State) (f : RField) (b : Bool) : (s.putFlag f b).msix = s.msix := rfl
@[simp] theorem State.putFlag_out (s : State) (f : RField) (b : Bool) : (s.putFlag f b).out = s.out := rfl
@[simp] theorem State.putFlag_freeIx (s : State) (f : RField) (b : Bool) : (s.putFlag f b).freeIx = s.freeIx := rfl

@[simp] theorem State.setPresent_pending (s : State) (v : Nat) : (s.setPresent v).pending = s.pending := rfl
@[simp] theorem State.setPresent_clk (s : State) (v : Nat) : (s.setPresent v).clk = s.clk := rfl
@[simp] theorem State.setPresent_turn (s : State) (v : Nat) : (s.setPresent v).turn = s.turn := rfl
@[simp] theorem State.setPresent_counting (s : State) (v : Nat) : (s.setPresent v).counting = s.counting := rfl
@[simp] theorem State.setPresent_pip (s : State) (v : Nat) : (s.setPresent v).pip = s.pip := rfl
@[simp] theorem State.setPresent_hbm (s : State) (v : Nat) : (s.setPresent v).hbm = s.hbm := rfl
@[simp] theorem State.setPresent_flt (s : State) (v : Nat) : (s.setPresent v).flt = s.flt := rfl
@[simp] theorem State.setPresent_up (s : State) (v : Nat) : (s.setPresent v).up = s.up := rfl
@[simp] theorem State.setPresent_sec (s : State) (v : Nat) : (s.setPresent v).sec = s.sec := rfl
@[simp] theorem State.setPresent_sw (s : State) (v : Nat) : (s.setPresent v).sw = s.sw := rfl
@[simp] theorem State.setPresent_ports (s : State) (v : Nat) : (s.setPresent v).ports = s.ports := rfl
@[simp] theorem State.setPresent_rep (s : State) (v : Nat) : (s.setPresent v).rep = s.rep := rfl
@[simp] theorem State.setPresent_msg (s : State) (v : Nat) : (s.setPresent v).msg = s.msg := rfl
@[simp] theorem State.setPresent_plate (s : State) (v : Nat) : (s.setPresent v).plate = s.plate := rfl
@[simp] theorem State.setPresent_att (s : State) (v : Nat) : (s.setPresent v).att = s.att := rfl
@[simp] theorem State.setPresent_twn (s : State) (v : Nat) : (s.setPresent v).twn = s.twn := rfl
@[simp] theorem State.setPresent_ilx (s : State) (v : Nat) : (s.setPresent v).ilx = s.ilx := rfl
@[simp] theorem State.setPresent_pwr (s : State) (v : Nat) : (s.setPresent v).pwr = s.pwr := rfl
@[simp] theorem State.setPresent_col (s : State) (v : Nat) : (s.setPresent v).col = s.col := rfl
@[simp] theorem State.setPresent_msix (s : State) (v : Nat) : (s.setPresent v).msix = s.msix := rfl
@[simp] theorem State.setPresent_out (s : State) (v : Nat) : (s.setPresent v).out = s.out := rfl
@[simp] theorem State.setPresent_freeIx (s : State) (v : Nat) : (s.setPresent v).freeIx = s.freeIx := rfl

@[simp] theorem State.emit_pending (s : State) (e : Emission) : (s.emit e).pending = s.pending := rfl
@[simp] theorem State.emit_clk (s : State) (e : Emission) : (s.emit e).clk = s.clk := rfl
@[simp] theorem State.emit_turn (s : State) (e : Emission) : (s.emit e).turn = s.turn := rfl
@[simp] theorem State.emit_counting (s : State) (e : Emission) : (s.emit e).counting = s.counting := rfl
@[simp] theorem State.emit_regs (s : State) (e : Emission) : (s.emit e).regs = s.regs := rfl
@[simp] theorem State.emit_pip (s : State) (e : Emission) : (s.emit e).pip = s.pip := rfl
@[simp] theorem State.emit_hbm (s : State) (e : Emission) : (s.emit e).hbm = s.hbm := rfl
@[simp] theorem State.emit_flt (s : State) (e : Emission) : (s.emit e).flt = s.flt := rfl
@[simp] theorem State.emit_up (s : State) (e : Emission) : (s.emit e).up = s.up := rfl
@[simp] theorem State.emit_sec (s : State) (e : Emission) : (s.emit e).sec = s.sec := rfl
@[simp] theorem State.emit_sw (s : State) (e : Emission) : (s.emit e).sw = s.sw := rfl
@[simp] theorem State.emit_ports (s : State) (e : Emission) : (s.emit e).ports = s.ports := rfl
@[simp] theorem State.emit_rep (s : State) (e : Emission) : (s.emit e).rep = s.rep := rfl
@[simp] theorem State.emit_msg (s : State) (e : Emission) : (s.emit e).msg = s.msg := rfl
@[simp] theorem State.emit_plate (s : State) (e : Emission) : (s.emit e).plate = s.plate := rfl
@[simp] theorem State.emit_att (s : State) (e : Emission) : (s.emit e).att = s.att := rfl
@[simp] theorem State.emit_twn (s : State) (e : Emission) : (s.emit e).twn = s.twn := rfl
@[simp] theorem State.emit_ilx (s : State) (e : Emission) : (s.emit e).ilx = s.ilx := rfl
@[simp] theorem State.emit_pwr (s : State) (e : Emission) : (s.emit e).pwr = s.pwr := rfl
@[simp] theorem State.emit_col (s : State) (e : Emission) : (s.emit e).col = s.col := rfl
@[simp] theorem State.emit_msix (s : State) (e : Emission) : (s.emit e).msix = s.msix := rfl
@[simp] theorem State.emit_freeIx (s : State) (e : Emission) : (s.emit e).freeIx = s.freeIx := rfl

@[simp] theorem State.freeNext_pending (s : State) : (s.freeNext).pending = s.pending := rfl
@[simp] theorem State.freeNext_clk (s : State) : (s.freeNext).clk = s.clk := rfl
@[simp] theorem State.freeNext_turn (s : State) : (s.freeNext).turn = s.turn := rfl
@[simp] theorem State.freeNext_counting (s : State) : (s.freeNext).counting = s.counting := rfl
@[simp] theorem State.freeNext_regs (s : State) : (s.freeNext).regs = s.regs := rfl
@[simp] theorem State.freeNext_pip (s : State) : (s.freeNext).pip = s.pip := rfl
@[simp] theorem State.freeNext_hbm (s : State) : (s.freeNext).hbm = s.hbm := rfl
@[simp] theorem State.freeNext_flt (s : State) : (s.freeNext).flt = s.flt := rfl
@[simp] theorem State.freeNext_up (s : State) : (s.freeNext).up = s.up := rfl
@[simp] theorem State.freeNext_sec (s : State) : (s.freeNext).sec = s.sec := rfl
@[simp] theorem State.freeNext_sw (s : State) : (s.freeNext).sw = s.sw := rfl
@[simp] theorem State.freeNext_ports (s : State) : (s.freeNext).ports = s.ports := rfl
@[simp] theorem State.freeNext_rep (s : State) : (s.freeNext).rep = s.rep := rfl
@[simp] theorem State.freeNext_msg (s : State) : (s.freeNext).msg = s.msg := rfl
@[simp] theorem State.freeNext_plate (s : State) : (s.freeNext).plate = s.plate := rfl
@[simp] theorem State.freeNext_att (s : State) : (s.freeNext).att = s.att := rfl
@[simp] theorem State.freeNext_twn (s : State) : (s.freeNext).twn = s.twn := rfl
@[simp] theorem State.freeNext_ilx (s : State) : (s.freeNext).ilx = s.ilx := rfl
@[simp] theorem State.freeNext_pwr (s : State) : (s.freeNext).pwr = s.pwr := rfl
@[simp] theorem State.freeNext_col (s : State) : (s.freeNext).col = s.col := rfl
@[simp] theorem State.freeNext_msix (s : State) : (s.freeNext).msix = s.msix := rfl
@[simp] theorem State.freeNext_out (s : State) : (s.freeNext).out = s.out := rfl

@[simp] theorem State.fresh_pending (s : State) : (s.fresh).pending = s.pending := rfl
@[simp] theorem State.fresh_clk (s : State) : (s.fresh).clk = s.clk := rfl
@[simp] theorem State.fresh_turn (s : State) : (s.fresh).turn = s.turn := rfl
@[simp] theorem State.fresh_counting (s : State) : (s.fresh).counting = s.counting := rfl
@[simp] theorem State.fresh_regs (s : State) : (s.fresh).regs = s.regs := rfl
@[simp] theorem State.fresh_pip (s : State) : (s.fresh).pip = s.pip := rfl
@[simp] theorem State.fresh_hbm (s : State) : (s.fresh).hbm = s.hbm := rfl
@[simp] theorem State.fresh_flt (s : State) : (s.fresh).flt = s.flt := rfl
@[simp] theorem State.fresh_up (s : State) : (s.fresh).up = s.up := rfl
@[simp] theorem State.fresh_sec (s : State) : (s.fresh).sec = s.sec := rfl
@[simp] theorem State.fresh_sw (s : State) : (s.fresh).sw = s.sw := rfl
@[simp] theorem State.fresh_ports (s : State) : (s.fresh).ports = s.ports := rfl
@[simp] theorem State.fresh_rep (s : State) : (s.fresh).rep = s.rep := rfl
@[simp] theorem State.fresh_msg (s : State) : (s.fresh).msg = s.msg := rfl
@[simp] theorem State.fresh_plate (s : State) : (s.fresh).plate = s.plate := rfl
@[simp] theorem State.fresh_att (s : State) : (s.fresh).att = s.att := rfl
@[simp] theorem State.fresh_twn (s : State) : (s.fresh).twn = s.twn := rfl
@[simp] theorem State.fresh_ilx (s : State) : (s.fresh).ilx = s.ilx := rfl
@[simp] theorem State.fresh_pwr (s : State) : (s.fresh).pwr = s.pwr := rfl
@[simp] theorem State.fresh_col (s : State) : (s.fresh).col = s.col := rfl
@[simp] theorem State.fresh_msix (s : State) : (s.fresh).msix = s.msix := rfl
@[simp] theorem State.fresh_freeIx (s : State) : (s.fresh).freeIx = s.freeIx := rfl

@[simp] theorem State.setLane_pending (s : State) (n : Nat) (l : PipLane) : (s.setLane n l).pending = s.pending := rfl
@[simp] theorem State.setLane_clk (s : State) (n : Nat) (l : PipLane) : (s.setLane n l).clk = s.clk := rfl
@[simp] theorem State.setLane_turn (s : State) (n : Nat) (l : PipLane) : (s.setLane n l).turn = s.turn := rfl
@[simp] theorem State.setLane_counting (s : State) (n : Nat) (l : PipLane) : (s.setLane n l).counting = s.counting := rfl
@[simp] theorem State.setLane_regs (s : State) (n : Nat) (l : PipLane) : (s.setLane n l).regs = s.regs := rfl
@[simp] theorem State.setLane_hbm (s : State) (n : Nat) (l : PipLane) : (s.setLane n l).hbm = s.hbm := rfl
@[simp] theorem State.setLane_flt (s : State) (n : Nat) (l : PipLane) : (s.setLane n l).flt = s.flt := rfl
@[simp] theorem State.setLane_up (s : State) (n : Nat) (l : PipLane) : (s.setLane n l).up = s.up := rfl
@[simp] theorem State.setLane_sec (s : State) (n : Nat) (l : PipLane) : (s.setLane n l).sec = s.sec := rfl
@[simp] theorem State.setLane_sw (s : State) (n : Nat) (l : PipLane) : (s.setLane n l).sw = s.sw := rfl
@[simp] theorem State.setLane_ports (s : State) (n : Nat) (l : PipLane) : (s.setLane n l).ports = s.ports := rfl
@[simp] theorem State.setLane_rep (s : State) (n : Nat) (l : PipLane) : (s.setLane n l).rep = s.rep := rfl
@[simp] theorem State.setLane_msg (s : State) (n : Nat) (l : PipLane) : (s.setLane n l).msg = s.msg := rfl
@[simp] theorem State.setLane_plate (s : State) (n : Nat) (l : PipLane) : (s.setLane n l).plate = s.plate := rfl
@[simp] theorem State.setLane_att (s : State) (n : Nat) (l : PipLane) : (s.setLane n l).att = s.att := rfl
@[simp] theorem State.setLane_twn (s : State) (n : Nat) (l : PipLane) : (s.setLane n l).twn = s.twn := rfl
@[simp] theorem State.setLane_ilx (s : State) (n : Nat) (l : PipLane) : (s.setLane n l).ilx = s.ilx := rfl
@[simp] theorem State.setLane_pwr (s : State) (n : Nat) (l : PipLane) : (s.setLane n l).pwr = s.pwr := rfl
@[simp] theorem State.setLane_col (s : State) (n : Nat) (l : PipLane) : (s.setLane n l).col = s.col := rfl
@[simp] theorem State.setLane_msix (s : State) (n : Nat) (l : PipLane) : (s.setLane n l).msix = s.msix := rfl
@[simp] theorem State.setLane_out (s : State) (n : Nat) (l : PipLane) : (s.setLane n l).out = s.out := rfl
@[simp] theorem State.setLane_freeIx (s : State) (n : Nat) (l : PipLane) : (s.setLane n l).freeIx = s.freeIx := rfl

@[simp] theorem State.setPort_pending (s : State) (p : Nat) (v : VPort) : (s.setPort p v).pending = s.pending := rfl
@[simp] theorem State.setPort_clk (s : State) (p : Nat) (v : VPort) : (s.setPort p v).clk = s.clk := rfl
@[simp] theorem State.setPort_turn (s : State) (p : Nat) (v : VPort) : (s.setPort p v).turn = s.turn := rfl
@[simp] theorem State.setPort_counting (s : State) (p : Nat) (v : VPort) : (s.setPort p v).counting = s.counting := rfl
@[simp] theorem State.setPort_regs (s : State) (p : Nat) (v : VPort) : (s.setPort p v).regs = s.regs := rfl
@[simp] theorem State.setPort_pip (s : State) (p : Nat) (v : VPort) : (s.setPort p v).pip = s.pip := rfl
@[simp] theorem State.setPort_hbm (s : State) (p : Nat) (v : VPort) : (s.setPort p v).hbm = s.hbm := rfl
@[simp] theorem State.setPort_flt (s : State) (p : Nat) (v : VPort) : (s.setPort p v).flt = s.flt := rfl
@[simp] theorem State.setPort_up (s : State) (p : Nat) (v : VPort) : (s.setPort p v).up = s.up := rfl
@[simp] theorem State.setPort_sec (s : State) (p : Nat) (v : VPort) : (s.setPort p v).sec = s.sec := rfl
@[simp] theorem State.setPort_sw (s : State) (p : Nat) (v : VPort) : (s.setPort p v).sw = s.sw := rfl
@[simp] theorem State.setPort_rep (s : State) (p : Nat) (v : VPort) : (s.setPort p v).rep = s.rep := rfl
@[simp] theorem State.setPort_msg (s : State) (p : Nat) (v : VPort) : (s.setPort p v).msg = s.msg := rfl
@[simp] theorem State.setPort_plate (s : State) (p : Nat) (v : VPort) : (s.setPort p v).plate = s.plate := rfl
@[simp] theorem State.setPort_att (s : State) (p : Nat) (v : VPort) : (s.setPort p v).att = s.att := rfl
@[simp] theorem State.setPort_twn (s : State) (p : Nat) (v : VPort) : (s.setPort p v).twn = s.twn := rfl
@[simp] theorem State.setPort_ilx (s : State) (p : Nat) (v : VPort) : (s.setPort p v).ilx = s.ilx := rfl
@[simp] theorem State.setPort_pwr (s : State) (p : Nat) (v : VPort) : (s.setPort p v).pwr = s.pwr := rfl
@[simp] theorem State.setPort_col (s : State) (p : Nat) (v : VPort) : (s.setPort p v).col = s.col := rfl
@[simp] theorem State.setPort_msix (s : State) (p : Nat) (v : VPort) : (s.setPort p v).msix = s.msix := rfl
@[simp] theorem State.setPort_out (s : State) (p : Nat) (v : VPort) : (s.setPort p v).out = s.out := rfl
@[simp] theorem State.setPort_freeIx (s : State) (p : Nat) (v : VPort) : (s.setPort p v).freeIx = s.freeIx := rfl

@[simp] theorem State.setEp_pending (s : State) (n : Nat) (e : EpState) : (s.setEp n e).pending = s.pending := rfl
@[simp] theorem State.setEp_clk (s : State) (n : Nat) (e : EpState) : (s.setEp n e).clk = s.clk := rfl
@[simp] theorem State.setEp_turn (s : State) (n : Nat) (e : EpState) : (s.setEp n e).turn = s.turn := rfl
@[simp] theorem State.setEp_counting (s : State) (n : Nat) (e : EpState) : (s.setEp n e).counting = s.counting := rfl
@[simp] theorem State.setEp_regs (s : State) (n : Nat) (e : EpState) : (s.setEp n e).regs = s.regs := rfl
@[simp] theorem State.setEp_pip (s : State) (n : Nat) (e : EpState) : (s.setEp n e).pip = s.pip := rfl
@[simp] theorem State.setEp_hbm (s : State) (n : Nat) (e : EpState) : (s.setEp n e).hbm = s.hbm := rfl
@[simp] theorem State.setEp_flt (s : State) (n : Nat) (e : EpState) : (s.setEp n e).flt = s.flt := rfl
@[simp] theorem State.setEp_up (s : State) (n : Nat) (e : EpState) : (s.setEp n e).up = s.up := rfl
@[simp] theorem State.setEp_sec (s : State) (n : Nat) (e : EpState) : (s.setEp n e).sec = s.sec := rfl
@[simp] theorem State.setEp_sw (s : State) (n : Nat) (e : EpState) : (s.setEp n e).sw = s.sw := rfl
@[simp] theorem State.setEp_ports (s : State) (n : Nat) (e : EpState) : (s.setEp n e).ports = s.ports := rfl
@[simp] theorem State.setEp_msg (s : State) (n : Nat) (e : EpState) : (s.setEp n e).msg = s.msg := rfl
@[simp] theorem State.setEp_plate (s : State) (n : Nat) (e : EpState) : (s.setEp n e).plate = s.plate := rfl
@[simp] theorem State.setEp_att (s : State) (n : Nat) (e : EpState) : (s.setEp n e).att = s.att := rfl
@[simp] theorem State.setEp_twn (s : State) (n : Nat) (e : EpState) : (s.setEp n e).twn = s.twn := rfl
@[simp] theorem State.setEp_ilx (s : State) (n : Nat) (e : EpState) : (s.setEp n e).ilx = s.ilx := rfl
@[simp] theorem State.setEp_pwr (s : State) (n : Nat) (e : EpState) : (s.setEp n e).pwr = s.pwr := rfl
@[simp] theorem State.setEp_col (s : State) (n : Nat) (e : EpState) : (s.setEp n e).col = s.col := rfl
@[simp] theorem State.setEp_msix (s : State) (n : Nat) (e : EpState) : (s.setEp n e).msix = s.msix := rfl
@[simp] theorem State.setEp_out (s : State) (n : Nat) (e : EpState) : (s.setEp n e).out = s.out := rfl
@[simp] theorem State.setEp_freeIx (s : State) (n : Nat) (e : EpState) : (s.setEp n e).freeIx = s.freeIx := rfl

@[simp] theorem State.setQueue_pending (s : State) (q : Nat) (v : QueueState) : (s.setQueue q v).pending = s.pending := rfl
@[simp] theorem State.setQueue_clk (s : State) (q : Nat) (v : QueueState) : (s.setQueue q v).clk = s.clk := rfl
@[simp] theorem State.setQueue_turn (s : State) (q : Nat) (v : QueueState) : (s.setQueue q v).turn = s.turn := rfl
@[simp] theorem State.setQueue_counting (s : State) (q : Nat) (v : QueueState) : (s.setQueue q v).counting = s.counting := rfl
@[simp] theorem State.setQueue_regs (s : State) (q : Nat) (v : QueueState) : (s.setQueue q v).regs = s.regs := rfl
@[simp] theorem State.setQueue_pip (s : State) (q : Nat) (v : QueueState) : (s.setQueue q v).pip = s.pip := rfl
@[simp] theorem State.setQueue_hbm (s : State) (q : Nat) (v : QueueState) : (s.setQueue q v).hbm = s.hbm := rfl
@[simp] theorem State.setQueue_flt (s : State) (q : Nat) (v : QueueState) : (s.setQueue q v).flt = s.flt := rfl
@[simp] theorem State.setQueue_up (s : State) (q : Nat) (v : QueueState) : (s.setQueue q v).up = s.up := rfl
@[simp] theorem State.setQueue_sec (s : State) (q : Nat) (v : QueueState) : (s.setQueue q v).sec = s.sec := rfl
@[simp] theorem State.setQueue_sw (s : State) (q : Nat) (v : QueueState) : (s.setQueue q v).sw = s.sw := rfl
@[simp] theorem State.setQueue_ports (s : State) (q : Nat) (v : QueueState) : (s.setQueue q v).ports = s.ports := rfl
@[simp] theorem State.setQueue_msg (s : State) (q : Nat) (v : QueueState) : (s.setQueue q v).msg = s.msg := rfl
@[simp] theorem State.setQueue_plate (s : State) (q : Nat) (v : QueueState) : (s.setQueue q v).plate = s.plate := rfl
@[simp] theorem State.setQueue_att (s : State) (q : Nat) (v : QueueState) : (s.setQueue q v).att = s.att := rfl
@[simp] theorem State.setQueue_twn (s : State) (q : Nat) (v : QueueState) : (s.setQueue q v).twn = s.twn := rfl
@[simp] theorem State.setQueue_ilx (s : State) (q : Nat) (v : QueueState) : (s.setQueue q v).ilx = s.ilx := rfl
@[simp] theorem State.setQueue_pwr (s : State) (q : Nat) (v : QueueState) : (s.setQueue q v).pwr = s.pwr := rfl
@[simp] theorem State.setQueue_col (s : State) (q : Nat) (v : QueueState) : (s.setQueue q v).col = s.col := rfl
@[simp] theorem State.setQueue_msix (s : State) (q : Nat) (v : QueueState) : (s.setQueue q v).msix = s.msix := rfl
@[simp] theorem State.setQueue_out (s : State) (q : Nat) (v : QueueState) : (s.setQueue q v).out = s.out := rfl
@[simp] theorem State.setQueue_freeIx (s : State) (q : Nat) (v : QueueState) : (s.setQueue q v).freeIx = s.freeIx := rfl

@[simp] theorem State.setTracker_pending (s : State) (t : Tracker) : (s.setTracker t).pending = s.pending := rfl
@[simp] theorem State.setTracker_clk (s : State) (t : Tracker) : (s.setTracker t).clk = s.clk := rfl
@[simp] theorem State.setTracker_turn (s : State) (t : Tracker) : (s.setTracker t).turn = s.turn := rfl
@[simp] theorem State.setTracker_counting (s : State) (t : Tracker) : (s.setTracker t).counting = s.counting := rfl
@[simp] theorem State.setTracker_regs (s : State) (t : Tracker) : (s.setTracker t).regs = s.regs := rfl
@[simp] theorem State.setTracker_pip (s : State) (t : Tracker) : (s.setTracker t).pip = s.pip := rfl
@[simp] theorem State.setTracker_hbm (s : State) (t : Tracker) : (s.setTracker t).hbm = s.hbm := rfl
@[simp] theorem State.setTracker_flt (s : State) (t : Tracker) : (s.setTracker t).flt = s.flt := rfl
@[simp] theorem State.setTracker_up (s : State) (t : Tracker) : (s.setTracker t).up = s.up := rfl
@[simp] theorem State.setTracker_sec (s : State) (t : Tracker) : (s.setTracker t).sec = s.sec := rfl
@[simp] theorem State.setTracker_sw (s : State) (t : Tracker) : (s.setTracker t).sw = s.sw := rfl
@[simp] theorem State.setTracker_ports (s : State) (t : Tracker) : (s.setTracker t).ports = s.ports := rfl
@[simp] theorem State.setTracker_msg (s : State) (t : Tracker) : (s.setTracker t).msg = s.msg := rfl
@[simp] theorem State.setTracker_plate (s : State) (t : Tracker) : (s.setTracker t).plate = s.plate := rfl
@[simp] theorem State.setTracker_att (s : State) (t : Tracker) : (s.setTracker t).att = s.att := rfl
@[simp] theorem State.setTracker_twn (s : State) (t : Tracker) : (s.setTracker t).twn = s.twn := rfl
@[simp] theorem State.setTracker_ilx (s : State) (t : Tracker) : (s.setTracker t).ilx = s.ilx := rfl
@[simp] theorem State.setTracker_pwr (s : State) (t : Tracker) : (s.setTracker t).pwr = s.pwr := rfl
@[simp] theorem State.setTracker_col (s : State) (t : Tracker) : (s.setTracker t).col = s.col := rfl
@[simp] theorem State.setTracker_msix (s : State) (t : Tracker) : (s.setTracker t).msix = s.msix := rfl
@[simp] theorem State.setTracker_out (s : State) (t : Tracker) : (s.setTracker t).out = s.out := rfl
@[simp] theorem State.setTracker_freeIx (s : State) (t : Tracker) : (s.setTracker t).freeIx = s.freeIx := rfl

@[simp] theorem State.setAttach_pending (s : State) (a : Nat) (x : AttachState) : (s.setAttach a x).pending = s.pending := State.put_pending _ _ _
@[simp] theorem State.setAttach_clk (s : State) (a : Nat) (x : AttachState) : (s.setAttach a x).clk = s.clk := State.put_clk _ _ _
@[simp] theorem State.setAttach_turn (s : State) (a : Nat) (x : AttachState) : (s.setAttach a x).turn = s.turn := State.put_turn _ _ _
@[simp] theorem State.setAttach_counting (s : State) (a : Nat) (x : AttachState) : (s.setAttach a x).counting = s.counting := State.put_counting _ _ _
@[simp] theorem State.setAttach_pip (s : State) (a : Nat) (x : AttachState) : (s.setAttach a x).pip = s.pip := State.put_pip _ _ _
@[simp] theorem State.setAttach_hbm (s : State) (a : Nat) (x : AttachState) : (s.setAttach a x).hbm = s.hbm := State.put_hbm _ _ _
@[simp] theorem State.setAttach_flt (s : State) (a : Nat) (x : AttachState) : (s.setAttach a x).flt = s.flt := State.put_flt _ _ _
@[simp] theorem State.setAttach_up (s : State) (a : Nat) (x : AttachState) : (s.setAttach a x).up = s.up := State.put_up _ _ _
@[simp] theorem State.setAttach_sec (s : State) (a : Nat) (x : AttachState) : (s.setAttach a x).sec = s.sec := State.put_sec _ _ _
@[simp] theorem State.setAttach_sw (s : State) (a : Nat) (x : AttachState) : (s.setAttach a x).sw = s.sw := State.put_sw _ _ _
@[simp] theorem State.setAttach_ports (s : State) (a : Nat) (x : AttachState) : (s.setAttach a x).ports = s.ports := State.put_ports _ _ _
@[simp] theorem State.setAttach_rep (s : State) (a : Nat) (x : AttachState) : (s.setAttach a x).rep = s.rep := State.put_rep _ _ _
@[simp] theorem State.setAttach_msg (s : State) (a : Nat) (x : AttachState) : (s.setAttach a x).msg = s.msg := State.put_msg _ _ _
@[simp] theorem State.setAttach_plate (s : State) (a : Nat) (x : AttachState) : (s.setAttach a x).plate = s.plate := State.put_plate _ _ _
@[simp] theorem State.setAttach_twn (s : State) (a : Nat) (x : AttachState) : (s.setAttach a x).twn = s.twn := State.put_twn _ _ _
@[simp] theorem State.setAttach_ilx (s : State) (a : Nat) (x : AttachState) : (s.setAttach a x).ilx = s.ilx := State.put_ilx _ _ _
@[simp] theorem State.setAttach_pwr (s : State) (a : Nat) (x : AttachState) : (s.setAttach a x).pwr = s.pwr := State.put_pwr _ _ _
@[simp] theorem State.setAttach_col (s : State) (a : Nat) (x : AttachState) : (s.setAttach a x).col = s.col := State.put_col _ _ _
@[simp] theorem State.setAttach_msix (s : State) (a : Nat) (x : AttachState) : (s.setAttach a x).msix = s.msix := State.put_msix _ _ _
@[simp] theorem State.setAttach_out (s : State) (a : Nat) (x : AttachState) : (s.setAttach a x).out = s.out := State.put_out _ _ _
@[simp] theorem State.setAttach_freeIx (s : State) (a : Nat) (x : AttachState) : (s.setAttach a x).freeIx = s.freeIx := State.put_freeIx _ _ _

@[simp] theorem State.setLists_pending (s : State) (l : List MoveList) : (s.setLists l).pending = s.pending := State.put_pending _ _ _
@[simp] theorem State.setLists_clk (s : State) (l : List MoveList) : (s.setLists l).clk = s.clk := State.put_clk _ _ _
@[simp] theorem State.setLists_turn (s : State) (l : List MoveList) : (s.setLists l).turn = s.turn := State.put_turn _ _ _
@[simp] theorem State.setLists_counting (s : State) (l : List MoveList) : (s.setLists l).counting = s.counting := State.put_counting _ _ _
@[simp] theorem State.setLists_pip (s : State) (l : List MoveList) : (s.setLists l).pip = s.pip := State.put_pip _ _ _
@[simp] theorem State.setLists_hbm (s : State) (l : List MoveList) : (s.setLists l).hbm = s.hbm := State.put_hbm _ _ _
@[simp] theorem State.setLists_flt (s : State) (l : List MoveList) : (s.setLists l).flt = s.flt := State.put_flt _ _ _
@[simp] theorem State.setLists_up (s : State) (l : List MoveList) : (s.setLists l).up = s.up := State.put_up _ _ _
@[simp] theorem State.setLists_sec (s : State) (l : List MoveList) : (s.setLists l).sec = s.sec := State.put_sec _ _ _
@[simp] theorem State.setLists_ports (s : State) (l : List MoveList) : (s.setLists l).ports = s.ports := State.put_ports _ _ _
@[simp] theorem State.setLists_rep (s : State) (l : List MoveList) : (s.setLists l).rep = s.rep := State.put_rep _ _ _
@[simp] theorem State.setLists_msg (s : State) (l : List MoveList) : (s.setLists l).msg = s.msg := State.put_msg _ _ _
@[simp] theorem State.setLists_plate (s : State) (l : List MoveList) : (s.setLists l).plate = s.plate := State.put_plate _ _ _
@[simp] theorem State.setLists_att (s : State) (l : List MoveList) : (s.setLists l).att = s.att := State.put_att _ _ _
@[simp] theorem State.setLists_twn (s : State) (l : List MoveList) : (s.setLists l).twn = s.twn := State.put_twn _ _ _
@[simp] theorem State.setLists_ilx (s : State) (l : List MoveList) : (s.setLists l).ilx = s.ilx := State.put_ilx _ _ _
@[simp] theorem State.setLists_pwr (s : State) (l : List MoveList) : (s.setLists l).pwr = s.pwr := State.put_pwr _ _ _
@[simp] theorem State.setLists_col (s : State) (l : List MoveList) : (s.setLists l).col = s.col := State.put_col _ _ _
@[simp] theorem State.setLists_msix (s : State) (l : List MoveList) : (s.setLists l).msix = s.msix := State.put_msix _ _ _
@[simp] theorem State.setLists_out (s : State) (l : List MoveList) : (s.setLists l).out = s.out := State.put_out _ _ _
@[simp] theorem State.setLists_freeIx (s : State) (l : List MoveList) : (s.setLists l).freeIx = s.freeIx := State.put_freeIx _ _ _

@[simp] theorem State.setActive_pending (s : State) (l : List Coll) : (s.setActive l).pending = s.pending := (State.put_pending _ _ _).trans (State.put_pending _ _ _)
@[simp] theorem State.setActive_clk (s : State) (l : List Coll) : (s.setActive l).clk = s.clk := (State.put_clk _ _ _).trans (State.put_clk _ _ _)
@[simp] theorem State.setActive_turn (s : State) (l : List Coll) : (s.setActive l).turn = s.turn := (State.put_turn _ _ _).trans (State.put_turn _ _ _)
@[simp] theorem State.setActive_counting (s : State) (l : List Coll) : (s.setActive l).counting = s.counting := (State.put_counting _ _ _).trans (State.put_counting _ _ _)
@[simp] theorem State.setActive_pip (s : State) (l : List Coll) : (s.setActive l).pip = s.pip := (State.put_pip _ _ _).trans (State.put_pip _ _ _)
@[simp] theorem State.setActive_hbm (s : State) (l : List Coll) : (s.setActive l).hbm = s.hbm := (State.put_hbm _ _ _).trans (State.put_hbm _ _ _)
@[simp] theorem State.setActive_flt (s : State) (l : List Coll) : (s.setActive l).flt = s.flt := (State.put_flt _ _ _).trans (State.put_flt _ _ _)
@[simp] theorem State.setActive_up (s : State) (l : List Coll) : (s.setActive l).up = s.up := (State.put_up _ _ _).trans (State.put_up _ _ _)
@[simp] theorem State.setActive_sec (s : State) (l : List Coll) : (s.setActive l).sec = s.sec := (State.put_sec _ _ _).trans (State.put_sec _ _ _)
@[simp] theorem State.setActive_sw (s : State) (l : List Coll) : (s.setActive l).sw = s.sw := (State.put_sw _ _ _).trans (State.put_sw _ _ _)
@[simp] theorem State.setActive_ports (s : State) (l : List Coll) : (s.setActive l).ports = s.ports := (State.put_ports _ _ _).trans (State.put_ports _ _ _)
@[simp] theorem State.setActive_rep (s : State) (l : List Coll) : (s.setActive l).rep = s.rep := (State.put_rep _ _ _).trans (State.put_rep _ _ _)
@[simp] theorem State.setActive_msg (s : State) (l : List Coll) : (s.setActive l).msg = s.msg := (State.put_msg _ _ _).trans (State.put_msg _ _ _)
@[simp] theorem State.setActive_plate (s : State) (l : List Coll) : (s.setActive l).plate = s.plate := (State.put_plate _ _ _).trans (State.put_plate _ _ _)
@[simp] theorem State.setActive_att (s : State) (l : List Coll) : (s.setActive l).att = s.att := (State.put_att _ _ _).trans (State.put_att _ _ _)
@[simp] theorem State.setActive_twn (s : State) (l : List Coll) : (s.setActive l).twn = s.twn := (State.put_twn _ _ _).trans (State.put_twn _ _ _)
@[simp] theorem State.setActive_ilx (s : State) (l : List Coll) : (s.setActive l).ilx = s.ilx := (State.put_ilx _ _ _).trans (State.put_ilx _ _ _)
@[simp] theorem State.setActive_pwr (s : State) (l : List Coll) : (s.setActive l).pwr = s.pwr := (State.put_pwr _ _ _).trans (State.put_pwr _ _ _)
@[simp] theorem State.setActive_msix (s : State) (l : List Coll) : (s.setActive l).msix = s.msix := (State.put_msix _ _ _).trans (State.put_msix _ _ _)
@[simp] theorem State.setActive_out (s : State) (l : List Coll) : (s.setActive l).out = s.out := (State.put_out _ _ _).trans (State.put_out _ _ _)
@[simp] theorem State.setActive_freeIx (s : State) (l : List Coll) : (s.setActive l).freeIx = s.freeIx := (State.put_freeIx _ _ _).trans (State.put_freeIx _ _ _)

@[simp] theorem State.setColl_pending (s : State) (c : Coll) : (s.setColl c).pending = s.pending := rfl
@[simp] theorem State.setColl_clk (s : State) (c : Coll) : (s.setColl c).clk = s.clk := rfl
@[simp] theorem State.setColl_turn (s : State) (c : Coll) : (s.setColl c).turn = s.turn := rfl
@[simp] theorem State.setColl_counting (s : State) (c : Coll) : (s.setColl c).counting = s.counting := rfl
@[simp] theorem State.setColl_regs (s : State) (c : Coll) : (s.setColl c).regs = s.regs := rfl
@[simp] theorem State.setColl_pip (s : State) (c : Coll) : (s.setColl c).pip = s.pip := rfl
@[simp] theorem State.setColl_hbm (s : State) (c : Coll) : (s.setColl c).hbm = s.hbm := rfl
@[simp] theorem State.setColl_flt (s : State) (c : Coll) : (s.setColl c).flt = s.flt := rfl
@[simp] theorem State.setColl_up (s : State) (c : Coll) : (s.setColl c).up = s.up := rfl
@[simp] theorem State.setColl_sec (s : State) (c : Coll) : (s.setColl c).sec = s.sec := rfl
@[simp] theorem State.setColl_sw (s : State) (c : Coll) : (s.setColl c).sw = s.sw := rfl
@[simp] theorem State.setColl_ports (s : State) (c : Coll) : (s.setColl c).ports = s.ports := rfl
@[simp] theorem State.setColl_rep (s : State) (c : Coll) : (s.setColl c).rep = s.rep := rfl
@[simp] theorem State.setColl_msg (s : State) (c : Coll) : (s.setColl c).msg = s.msg := rfl
@[simp] theorem State.setColl_plate (s : State) (c : Coll) : (s.setColl c).plate = s.plate := rfl
@[simp] theorem State.setColl_att (s : State) (c : Coll) : (s.setColl c).att = s.att := rfl
@[simp] theorem State.setColl_twn (s : State) (c : Coll) : (s.setColl c).twn = s.twn := rfl
@[simp] theorem State.setColl_ilx (s : State) (c : Coll) : (s.setColl c).ilx = s.ilx := rfl
@[simp] theorem State.setColl_pwr (s : State) (c : Coll) : (s.setColl c).pwr = s.pwr := rfl
@[simp] theorem State.setColl_msix (s : State) (c : Coll) : (s.setColl c).msix = s.msix := rfl
@[simp] theorem State.setColl_out (s : State) (c : Coll) : (s.setColl c).out = s.out := rfl
@[simp] theorem State.setColl_freeIx (s : State) (c : Coll) : (s.setColl c).freeIx = s.freeIx := rfl

@[simp] theorem State.setArray_pending (s : State) (ph : PlatePhase) (o : Option PlateOp) : (s.setArray ph o).pending = s.pending := rfl
@[simp] theorem State.setArray_clk (s : State) (ph : PlatePhase) (o : Option PlateOp) : (s.setArray ph o).clk = s.clk := rfl
@[simp] theorem State.setArray_turn (s : State) (ph : PlatePhase) (o : Option PlateOp) : (s.setArray ph o).turn = s.turn := rfl
@[simp] theorem State.setArray_counting (s : State) (ph : PlatePhase) (o : Option PlateOp) : (s.setArray ph o).counting = s.counting := rfl
@[simp] theorem State.setArray_pip (s : State) (ph : PlatePhase) (o : Option PlateOp) : (s.setArray ph o).pip = s.pip := rfl
@[simp] theorem State.setArray_hbm (s : State) (ph : PlatePhase) (o : Option PlateOp) : (s.setArray ph o).hbm = s.hbm := rfl
@[simp] theorem State.setArray_flt (s : State) (ph : PlatePhase) (o : Option PlateOp) : (s.setArray ph o).flt = s.flt := rfl
@[simp] theorem State.setArray_up (s : State) (ph : PlatePhase) (o : Option PlateOp) : (s.setArray ph o).up = s.up := rfl
@[simp] theorem State.setArray_sec (s : State) (ph : PlatePhase) (o : Option PlateOp) : (s.setArray ph o).sec = s.sec := rfl
@[simp] theorem State.setArray_sw (s : State) (ph : PlatePhase) (o : Option PlateOp) : (s.setArray ph o).sw = s.sw := rfl
@[simp] theorem State.setArray_ports (s : State) (ph : PlatePhase) (o : Option PlateOp) : (s.setArray ph o).ports = s.ports := rfl
@[simp] theorem State.setArray_rep (s : State) (ph : PlatePhase) (o : Option PlateOp) : (s.setArray ph o).rep = s.rep := rfl
@[simp] theorem State.setArray_msg (s : State) (ph : PlatePhase) (o : Option PlateOp) : (s.setArray ph o).msg = s.msg := rfl
@[simp] theorem State.setArray_att (s : State) (ph : PlatePhase) (o : Option PlateOp) : (s.setArray ph o).att = s.att := rfl
@[simp] theorem State.setArray_twn (s : State) (ph : PlatePhase) (o : Option PlateOp) : (s.setArray ph o).twn = s.twn := rfl
@[simp] theorem State.setArray_ilx (s : State) (ph : PlatePhase) (o : Option PlateOp) : (s.setArray ph o).ilx = s.ilx := rfl
@[simp] theorem State.setArray_pwr (s : State) (ph : PlatePhase) (o : Option PlateOp) : (s.setArray ph o).pwr = s.pwr := rfl
@[simp] theorem State.setArray_col (s : State) (ph : PlatePhase) (o : Option PlateOp) : (s.setArray ph o).col = s.col := rfl
@[simp] theorem State.setArray_msix (s : State) (ph : PlatePhase) (o : Option PlateOp) : (s.setArray ph o).msix = s.msix := rfl
@[simp] theorem State.setArray_out (s : State) (ph : PlatePhase) (o : Option PlateOp) : (s.setArray ph o).out = s.out := rfl
@[simp] theorem State.setArray_freeIx (s : State) (ph : PlatePhase) (o : Option PlateOp) : (s.setArray ph o).freeIx = s.freeIx := rfl

@[simp] theorem State.setOp_pending (s : State) (o : PlateOp) : (s.setOp o).pending = s.pending := State.setArray_pending s _ _
@[simp] theorem State.setOp_clk (s : State) (o : PlateOp) : (s.setOp o).clk = s.clk := State.setArray_clk s _ _
@[simp] theorem State.setOp_turn (s : State) (o : PlateOp) : (s.setOp o).turn = s.turn := State.setArray_turn s _ _
@[simp] theorem State.setOp_counting (s : State) (o : PlateOp) : (s.setOp o).counting = s.counting := State.setArray_counting s _ _
@[simp] theorem State.setOp_pip (s : State) (o : PlateOp) : (s.setOp o).pip = s.pip := State.setArray_pip s _ _
@[simp] theorem State.setOp_hbm (s : State) (o : PlateOp) : (s.setOp o).hbm = s.hbm := State.setArray_hbm s _ _
@[simp] theorem State.setOp_flt (s : State) (o : PlateOp) : (s.setOp o).flt = s.flt := State.setArray_flt s _ _
@[simp] theorem State.setOp_up (s : State) (o : PlateOp) : (s.setOp o).up = s.up := State.setArray_up s _ _
@[simp] theorem State.setOp_sec (s : State) (o : PlateOp) : (s.setOp o).sec = s.sec := State.setArray_sec s _ _
@[simp] theorem State.setOp_sw (s : State) (o : PlateOp) : (s.setOp o).sw = s.sw := State.setArray_sw s _ _
@[simp] theorem State.setOp_ports (s : State) (o : PlateOp) : (s.setOp o).ports = s.ports := State.setArray_ports s _ _
@[simp] theorem State.setOp_rep (s : State) (o : PlateOp) : (s.setOp o).rep = s.rep := State.setArray_rep s _ _
@[simp] theorem State.setOp_msg (s : State) (o : PlateOp) : (s.setOp o).msg = s.msg := State.setArray_msg s _ _
@[simp] theorem State.setOp_att (s : State) (o : PlateOp) : (s.setOp o).att = s.att := State.setArray_att s _ _
@[simp] theorem State.setOp_twn (s : State) (o : PlateOp) : (s.setOp o).twn = s.twn := State.setArray_twn s _ _
@[simp] theorem State.setOp_ilx (s : State) (o : PlateOp) : (s.setOp o).ilx = s.ilx := State.setArray_ilx s _ _
@[simp] theorem State.setOp_pwr (s : State) (o : PlateOp) : (s.setOp o).pwr = s.pwr := State.setArray_pwr s _ _
@[simp] theorem State.setOp_col (s : State) (o : PlateOp) : (s.setOp o).col = s.col := State.setArray_col s _ _
@[simp] theorem State.setOp_msix (s : State) (o : PlateOp) : (s.setOp o).msix = s.msix := State.setArray_msix s _ _
@[simp] theorem State.setOp_out (s : State) (o : PlateOp) : (s.setOp o).out = s.out := State.setArray_out s _ _
@[simp] theorem State.setOp_freeIx (s : State) (o : PlateOp) : (s.setOp o).freeIx = s.freeIx := State.setArray_freeIx s _ _

@[simp] theorem State.setKernels_pending (s : State) (l : List Kernel) : (s.setKernels l).pending = s.pending := State.put_pending _ _ _
@[simp] theorem State.setKernels_clk (s : State) (l : List Kernel) : (s.setKernels l).clk = s.clk := State.put_clk _ _ _
@[simp] theorem State.setKernels_turn (s : State) (l : List Kernel) : (s.setKernels l).turn = s.turn := State.put_turn _ _ _
@[simp] theorem State.setKernels_counting (s : State) (l : List Kernel) : (s.setKernels l).counting = s.counting := State.put_counting _ _ _
@[simp] theorem State.setKernels_pip (s : State) (l : List Kernel) : (s.setKernels l).pip = s.pip := State.put_pip _ _ _
@[simp] theorem State.setKernels_hbm (s : State) (l : List Kernel) : (s.setKernels l).hbm = s.hbm := State.put_hbm _ _ _
@[simp] theorem State.setKernels_flt (s : State) (l : List Kernel) : (s.setKernels l).flt = s.flt := State.put_flt _ _ _
@[simp] theorem State.setKernels_up (s : State) (l : List Kernel) : (s.setKernels l).up = s.up := State.put_up _ _ _
@[simp] theorem State.setKernels_sec (s : State) (l : List Kernel) : (s.setKernels l).sec = s.sec := State.put_sec _ _ _
@[simp] theorem State.setKernels_sw (s : State) (l : List Kernel) : (s.setKernels l).sw = s.sw := State.put_sw _ _ _
@[simp] theorem State.setKernels_ports (s : State) (l : List Kernel) : (s.setKernels l).ports = s.ports := State.put_ports _ _ _
@[simp] theorem State.setKernels_rep (s : State) (l : List Kernel) : (s.setKernels l).rep = s.rep := State.put_rep _ _ _
@[simp] theorem State.setKernels_msg (s : State) (l : List Kernel) : (s.setKernels l).msg = s.msg := State.put_msg _ _ _
@[simp] theorem State.setKernels_plate (s : State) (l : List Kernel) : (s.setKernels l).plate = s.plate := State.put_plate _ _ _
@[simp] theorem State.setKernels_att (s : State) (l : List Kernel) : (s.setKernels l).att = s.att := State.put_att _ _ _
@[simp] theorem State.setKernels_twn (s : State) (l : List Kernel) : (s.setKernels l).twn = s.twn := State.put_twn _ _ _
@[simp] theorem State.setKernels_pwr (s : State) (l : List Kernel) : (s.setKernels l).pwr = s.pwr := State.put_pwr _ _ _
@[simp] theorem State.setKernels_col (s : State) (l : List Kernel) : (s.setKernels l).col = s.col := State.put_col _ _ _
@[simp] theorem State.setKernels_msix (s : State) (l : List Kernel) : (s.setKernels l).msix = s.msix := State.put_msix _ _ _
@[simp] theorem State.setKernels_out (s : State) (l : List Kernel) : (s.setKernels l).out = s.out := State.put_out _ _ _
@[simp] theorem State.setKernels_freeIx (s : State) (l : List Kernel) : (s.setKernels l).freeIx = s.freeIx := State.put_freeIx _ _ _

@[simp] theorem State.setKernel_pending (s : State) (k : Kernel) : (s.setKernel k).pending = s.pending := State.setKernels_pending s _
@[simp] theorem State.setKernel_clk (s : State) (k : Kernel) : (s.setKernel k).clk = s.clk := State.setKernels_clk s _
@[simp] theorem State.setKernel_turn (s : State) (k : Kernel) : (s.setKernel k).turn = s.turn := State.setKernels_turn s _
@[simp] theorem State.setKernel_counting (s : State) (k : Kernel) : (s.setKernel k).counting = s.counting := State.setKernels_counting s _
@[simp] theorem State.setKernel_pip (s : State) (k : Kernel) : (s.setKernel k).pip = s.pip := State.setKernels_pip s _
@[simp] theorem State.setKernel_hbm (s : State) (k : Kernel) : (s.setKernel k).hbm = s.hbm := State.setKernels_hbm s _
@[simp] theorem State.setKernel_flt (s : State) (k : Kernel) : (s.setKernel k).flt = s.flt := State.setKernels_flt s _
@[simp] theorem State.setKernel_up (s : State) (k : Kernel) : (s.setKernel k).up = s.up := State.setKernels_up s _
@[simp] theorem State.setKernel_sec (s : State) (k : Kernel) : (s.setKernel k).sec = s.sec := State.setKernels_sec s _
@[simp] theorem State.setKernel_sw (s : State) (k : Kernel) : (s.setKernel k).sw = s.sw := State.setKernels_sw s _
@[simp] theorem State.setKernel_ports (s : State) (k : Kernel) : (s.setKernel k).ports = s.ports := State.setKernels_ports s _
@[simp] theorem State.setKernel_rep (s : State) (k : Kernel) : (s.setKernel k).rep = s.rep := State.setKernels_rep s _
@[simp] theorem State.setKernel_msg (s : State) (k : Kernel) : (s.setKernel k).msg = s.msg := State.setKernels_msg s _
@[simp] theorem State.setKernel_plate (s : State) (k : Kernel) : (s.setKernel k).plate = s.plate := State.setKernels_plate s _
@[simp] theorem State.setKernel_att (s : State) (k : Kernel) : (s.setKernel k).att = s.att := State.setKernels_att s _
@[simp] theorem State.setKernel_twn (s : State) (k : Kernel) : (s.setKernel k).twn = s.twn := State.setKernels_twn s _
@[simp] theorem State.setKernel_pwr (s : State) (k : Kernel) : (s.setKernel k).pwr = s.pwr := State.setKernels_pwr s _
@[simp] theorem State.setKernel_col (s : State) (k : Kernel) : (s.setKernel k).col = s.col := State.setKernels_col s _
@[simp] theorem State.setKernel_msix (s : State) (k : Kernel) : (s.setKernel k).msix = s.msix := State.setKernels_msix s _
@[simp] theorem State.setKernel_out (s : State) (k : Kernel) : (s.setKernel k).out = s.out := State.setKernels_out s _
@[simp] theorem State.setKernel_freeIx (s : State) (k : Kernel) : (s.setKernel k).freeIx = s.freeIx := State.setKernels_freeIx s _

@[simp] theorem State.setPark_pending (s : State) (p : List FaultRec) : (s.setPark p).pending = s.pending := (State.putFlag_pending _ _ _).trans (State.put_pending _ _ _)
@[simp] theorem State.setPark_clk (s : State) (p : List FaultRec) : (s.setPark p).clk = s.clk := (State.putFlag_clk _ _ _).trans (State.put_clk _ _ _)
@[simp] theorem State.setPark_turn (s : State) (p : List FaultRec) : (s.setPark p).turn = s.turn := (State.putFlag_turn _ _ _).trans (State.put_turn _ _ _)
@[simp] theorem State.setPark_counting (s : State) (p : List FaultRec) : (s.setPark p).counting = s.counting := (State.putFlag_counting _ _ _).trans (State.put_counting _ _ _)
@[simp] theorem State.setPark_pip (s : State) (p : List FaultRec) : (s.setPark p).pip = s.pip := (State.putFlag_pip _ _ _).trans (State.put_pip _ _ _)
@[simp] theorem State.setPark_hbm (s : State) (p : List FaultRec) : (s.setPark p).hbm = s.hbm := (State.putFlag_hbm _ _ _).trans (State.put_hbm _ _ _)
@[simp] theorem State.setPark_up (s : State) (p : List FaultRec) : (s.setPark p).up = s.up := (State.putFlag_up _ _ _).trans (State.put_up _ _ _)
@[simp] theorem State.setPark_sec (s : State) (p : List FaultRec) : (s.setPark p).sec = s.sec := (State.putFlag_sec _ _ _).trans (State.put_sec _ _ _)
@[simp] theorem State.setPark_sw (s : State) (p : List FaultRec) : (s.setPark p).sw = s.sw := (State.putFlag_sw _ _ _).trans (State.put_sw _ _ _)
@[simp] theorem State.setPark_ports (s : State) (p : List FaultRec) : (s.setPark p).ports = s.ports := (State.putFlag_ports _ _ _).trans (State.put_ports _ _ _)
@[simp] theorem State.setPark_rep (s : State) (p : List FaultRec) : (s.setPark p).rep = s.rep := (State.putFlag_rep _ _ _).trans (State.put_rep _ _ _)
@[simp] theorem State.setPark_msg (s : State) (p : List FaultRec) : (s.setPark p).msg = s.msg := (State.putFlag_msg _ _ _).trans (State.put_msg _ _ _)
@[simp] theorem State.setPark_plate (s : State) (p : List FaultRec) : (s.setPark p).plate = s.plate := (State.putFlag_plate _ _ _).trans (State.put_plate _ _ _)
@[simp] theorem State.setPark_att (s : State) (p : List FaultRec) : (s.setPark p).att = s.att := (State.putFlag_att _ _ _).trans (State.put_att _ _ _)
@[simp] theorem State.setPark_twn (s : State) (p : List FaultRec) : (s.setPark p).twn = s.twn := (State.putFlag_twn _ _ _).trans (State.put_twn _ _ _)
@[simp] theorem State.setPark_ilx (s : State) (p : List FaultRec) : (s.setPark p).ilx = s.ilx := (State.putFlag_ilx _ _ _).trans (State.put_ilx _ _ _)
@[simp] theorem State.setPark_pwr (s : State) (p : List FaultRec) : (s.setPark p).pwr = s.pwr := (State.putFlag_pwr _ _ _).trans (State.put_pwr _ _ _)
@[simp] theorem State.setPark_col (s : State) (p : List FaultRec) : (s.setPark p).col = s.col := (State.putFlag_col _ _ _).trans (State.put_col _ _ _)
@[simp] theorem State.setPark_msix (s : State) (p : List FaultRec) : (s.setPark p).msix = s.msix := (State.putFlag_msix _ _ _).trans (State.put_msix _ _ _)
@[simp] theorem State.setPark_out (s : State) (p : List FaultRec) : (s.setPark p).out = s.out := (State.putFlag_out _ _ _).trans (State.put_out _ _ _)
@[simp] theorem State.setPark_freeIx (s : State) (p : List FaultRec) : (s.setPark p).freeIx = s.freeIx := (State.putFlag_freeIx _ _ _).trans (State.put_freeIx _ _ _)

@[simp] theorem State.hbmRewrite_pending (s : State) (g : Nat) (data : List Byte) (poison : Bool) : (s.hbmRewrite g data poison).pending = s.pending := rfl
@[simp] theorem State.hbmRewrite_clk (s : State) (g : Nat) (data : List Byte) (poison : Bool) : (s.hbmRewrite g data poison).clk = s.clk := rfl
@[simp] theorem State.hbmRewrite_turn (s : State) (g : Nat) (data : List Byte) (poison : Bool) : (s.hbmRewrite g data poison).turn = s.turn := rfl
@[simp] theorem State.hbmRewrite_counting (s : State) (g : Nat) (data : List Byte) (poison : Bool) : (s.hbmRewrite g data poison).counting = s.counting := rfl
@[simp] theorem State.hbmRewrite_regs (s : State) (g : Nat) (data : List Byte) (poison : Bool) : (s.hbmRewrite g data poison).regs = s.regs := rfl
@[simp] theorem State.hbmRewrite_pip (s : State) (g : Nat) (data : List Byte) (poison : Bool) : (s.hbmRewrite g data poison).pip = s.pip := rfl
@[simp] theorem State.hbmRewrite_flt (s : State) (g : Nat) (data : List Byte) (poison : Bool) : (s.hbmRewrite g data poison).flt = s.flt := rfl
@[simp] theorem State.hbmRewrite_up (s : State) (g : Nat) (data : List Byte) (poison : Bool) : (s.hbmRewrite g data poison).up = s.up := rfl
@[simp] theorem State.hbmRewrite_sec (s : State) (g : Nat) (data : List Byte) (poison : Bool) : (s.hbmRewrite g data poison).sec = s.sec := rfl
@[simp] theorem State.hbmRewrite_sw (s : State) (g : Nat) (data : List Byte) (poison : Bool) : (s.hbmRewrite g data poison).sw = s.sw := rfl
@[simp] theorem State.hbmRewrite_ports (s : State) (g : Nat) (data : List Byte) (poison : Bool) : (s.hbmRewrite g data poison).ports = s.ports := rfl
@[simp] theorem State.hbmRewrite_rep (s : State) (g : Nat) (data : List Byte) (poison : Bool) : (s.hbmRewrite g data poison).rep = s.rep := rfl
@[simp] theorem State.hbmRewrite_msg (s : State) (g : Nat) (data : List Byte) (poison : Bool) : (s.hbmRewrite g data poison).msg = s.msg := rfl
@[simp] theorem State.hbmRewrite_plate (s : State) (g : Nat) (data : List Byte) (poison : Bool) : (s.hbmRewrite g data poison).plate = s.plate := rfl
@[simp] theorem State.hbmRewrite_att (s : State) (g : Nat) (data : List Byte) (poison : Bool) : (s.hbmRewrite g data poison).att = s.att := rfl
@[simp] theorem State.hbmRewrite_twn (s : State) (g : Nat) (data : List Byte) (poison : Bool) : (s.hbmRewrite g data poison).twn = s.twn := rfl
@[simp] theorem State.hbmRewrite_ilx (s : State) (g : Nat) (data : List Byte) (poison : Bool) : (s.hbmRewrite g data poison).ilx = s.ilx := rfl
@[simp] theorem State.hbmRewrite_pwr (s : State) (g : Nat) (data : List Byte) (poison : Bool) : (s.hbmRewrite g data poison).pwr = s.pwr := rfl
@[simp] theorem State.hbmRewrite_col (s : State) (g : Nat) (data : List Byte) (poison : Bool) : (s.hbmRewrite g data poison).col = s.col := rfl
@[simp] theorem State.hbmRewrite_msix (s : State) (g : Nat) (data : List Byte) (poison : Bool) : (s.hbmRewrite g data poison).msix = s.msix := rfl
@[simp] theorem State.hbmRewrite_out (s : State) (g : Nat) (data : List Byte) (poison : Bool) : (s.hbmRewrite g data poison).out = s.out := rfl
@[simp] theorem State.hbmRewrite_freeIx (s : State) (g : Nat) (data : List Byte) (poison : Bool) : (s.hbmRewrite g data poison).freeIx = s.freeIx := rfl

@[simp] theorem State.hbmStrike_pending (s : State) (g : Nat) (e : SymbolErrors) : (s.hbmStrike g e).pending = s.pending := rfl
@[simp] theorem State.hbmStrike_clk (s : State) (g : Nat) (e : SymbolErrors) : (s.hbmStrike g e).clk = s.clk := rfl
@[simp] theorem State.hbmStrike_turn (s : State) (g : Nat) (e : SymbolErrors) : (s.hbmStrike g e).turn = s.turn := rfl
@[simp] theorem State.hbmStrike_counting (s : State) (g : Nat) (e : SymbolErrors) : (s.hbmStrike g e).counting = s.counting := rfl
@[simp] theorem State.hbmStrike_regs (s : State) (g : Nat) (e : SymbolErrors) : (s.hbmStrike g e).regs = s.regs := rfl
@[simp] theorem State.hbmStrike_pip (s : State) (g : Nat) (e : SymbolErrors) : (s.hbmStrike g e).pip = s.pip := rfl
@[simp] theorem State.hbmStrike_flt (s : State) (g : Nat) (e : SymbolErrors) : (s.hbmStrike g e).flt = s.flt := rfl
@[simp] theorem State.hbmStrike_up (s : State) (g : Nat) (e : SymbolErrors) : (s.hbmStrike g e).up = s.up := rfl
@[simp] theorem State.hbmStrike_sec (s : State) (g : Nat) (e : SymbolErrors) : (s.hbmStrike g e).sec = s.sec := rfl
@[simp] theorem State.hbmStrike_sw (s : State) (g : Nat) (e : SymbolErrors) : (s.hbmStrike g e).sw = s.sw := rfl
@[simp] theorem State.hbmStrike_ports (s : State) (g : Nat) (e : SymbolErrors) : (s.hbmStrike g e).ports = s.ports := rfl
@[simp] theorem State.hbmStrike_rep (s : State) (g : Nat) (e : SymbolErrors) : (s.hbmStrike g e).rep = s.rep := rfl
@[simp] theorem State.hbmStrike_msg (s : State) (g : Nat) (e : SymbolErrors) : (s.hbmStrike g e).msg = s.msg := rfl
@[simp] theorem State.hbmStrike_plate (s : State) (g : Nat) (e : SymbolErrors) : (s.hbmStrike g e).plate = s.plate := rfl
@[simp] theorem State.hbmStrike_att (s : State) (g : Nat) (e : SymbolErrors) : (s.hbmStrike g e).att = s.att := rfl
@[simp] theorem State.hbmStrike_twn (s : State) (g : Nat) (e : SymbolErrors) : (s.hbmStrike g e).twn = s.twn := rfl
@[simp] theorem State.hbmStrike_ilx (s : State) (g : Nat) (e : SymbolErrors) : (s.hbmStrike g e).ilx = s.ilx := rfl
@[simp] theorem State.hbmStrike_pwr (s : State) (g : Nat) (e : SymbolErrors) : (s.hbmStrike g e).pwr = s.pwr := rfl
@[simp] theorem State.hbmStrike_col (s : State) (g : Nat) (e : SymbolErrors) : (s.hbmStrike g e).col = s.col := rfl
@[simp] theorem State.hbmStrike_msix (s : State) (g : Nat) (e : SymbolErrors) : (s.hbmStrike g e).msix = s.msix := rfl
@[simp] theorem State.hbmStrike_out (s : State) (g : Nat) (e : SymbolErrors) : (s.hbmStrike g e).out = s.out := rfl
@[simp] theorem State.hbmStrike_freeIx (s : State) (g : Nat) (e : SymbolErrors) : (s.hbmStrike g e).freeIx = s.freeIx := rfl

@[simp] theorem State.plateRewrite_pending (s : State) (g : Nat) (x : Granule) : (s.plateRewrite g x).pending = s.pending := rfl
@[simp] theorem State.plateRewrite_clk (s : State) (g : Nat) (x : Granule) : (s.plateRewrite g x).clk = s.clk := rfl
@[simp] theorem State.plateRewrite_turn (s : State) (g : Nat) (x : Granule) : (s.plateRewrite g x).turn = s.turn := rfl
@[simp] theorem State.plateRewrite_counting (s : State) (g : Nat) (x : Granule) : (s.plateRewrite g x).counting = s.counting := rfl
@[simp] theorem State.plateRewrite_regs (s : State) (g : Nat) (x : Granule) : (s.plateRewrite g x).regs = s.regs := rfl
@[simp] theorem State.plateRewrite_pip (s : State) (g : Nat) (x : Granule) : (s.plateRewrite g x).pip = s.pip := rfl
@[simp] theorem State.plateRewrite_hbm (s : State) (g : Nat) (x : Granule) : (s.plateRewrite g x).hbm = s.hbm := rfl
@[simp] theorem State.plateRewrite_flt (s : State) (g : Nat) (x : Granule) : (s.plateRewrite g x).flt = s.flt := rfl
@[simp] theorem State.plateRewrite_up (s : State) (g : Nat) (x : Granule) : (s.plateRewrite g x).up = s.up := rfl
@[simp] theorem State.plateRewrite_sec (s : State) (g : Nat) (x : Granule) : (s.plateRewrite g x).sec = s.sec := rfl
@[simp] theorem State.plateRewrite_sw (s : State) (g : Nat) (x : Granule) : (s.plateRewrite g x).sw = s.sw := rfl
@[simp] theorem State.plateRewrite_ports (s : State) (g : Nat) (x : Granule) : (s.plateRewrite g x).ports = s.ports := rfl
@[simp] theorem State.plateRewrite_rep (s : State) (g : Nat) (x : Granule) : (s.plateRewrite g x).rep = s.rep := rfl
@[simp] theorem State.plateRewrite_msg (s : State) (g : Nat) (x : Granule) : (s.plateRewrite g x).msg = s.msg := rfl
@[simp] theorem State.plateRewrite_att (s : State) (g : Nat) (x : Granule) : (s.plateRewrite g x).att = s.att := rfl
@[simp] theorem State.plateRewrite_twn (s : State) (g : Nat) (x : Granule) : (s.plateRewrite g x).twn = s.twn := rfl
@[simp] theorem State.plateRewrite_ilx (s : State) (g : Nat) (x : Granule) : (s.plateRewrite g x).ilx = s.ilx := rfl
@[simp] theorem State.plateRewrite_pwr (s : State) (g : Nat) (x : Granule) : (s.plateRewrite g x).pwr = s.pwr := rfl
@[simp] theorem State.plateRewrite_col (s : State) (g : Nat) (x : Granule) : (s.plateRewrite g x).col = s.col := rfl
@[simp] theorem State.plateRewrite_msix (s : State) (g : Nat) (x : Granule) : (s.plateRewrite g x).msix = s.msix := rfl
@[simp] theorem State.plateRewrite_out (s : State) (g : Nat) (x : Granule) : (s.plateRewrite g x).out = s.out := rfl
@[simp] theorem State.plateRewrite_freeIx (s : State) (g : Nat) (x : Granule) : (s.plateRewrite g x).freeIx = s.freeIx := rfl

/-! ### What an update leaves in its own field -/

@[simp] theorem State.emit_out (s : State) (e : Emission) : (s.emit e).out = s.out ++ [e] := rfl
@[simp] theorem State.freeNext_freeIx (s : State) : s.freeNext.freeIx = s.freeIx + 1 := rfl
@[simp] theorem State.fresh_out (s : State) : s.fresh.out = [] := rfl

/-- A register after a write. -/
theorem State.reg_setReg (s : State) (a b : Nat) (v : Word) : (s.setReg a v).reg b = if b = a then v else s.reg b :=
  Sparse.get_set regReset s.regs b a v

@[simp] theorem State.reg_setReg_self (s : State) (a : Nat) (v : Word) : (s.setReg a v).reg a = v := by
  simp [State.reg_setReg]

theorem State.reg_setReg_of_ne (s : State) {a b : Nat} (v : Word) (h : b ≠ a) : (s.setReg a v).reg b = s.reg b := by
  simp [State.reg_setReg, h]

/-- A register after a field is set. -/
theorem State.reg_put (s : State) (f : RField) (v b : Nat) :
    (s.put f v).reg b = if b = f.addr then fieldPut (s.reg f.addr) f.hi f.lo v else s.reg b :=
  State.reg_setReg s f.addr b _

theorem State.reg_put_of_ne (s : State) (f : RField) (v : Nat) {b : Nat} (h : b ≠ f.addr) : (s.put f v).reg b = s.reg b := by
  simp [State.reg_put, h]

theorem State.get_put_of_ne (s : State) (f g : RField) (v : Nat) (h : g.addr ≠ f.addr) : (s.put f v).get g = s.get g := by
  simp [State.get, State.reg_put_of_ne s f v h]

theorem State.flag_put_of_ne (s : State) (f g : RField) (v : Nat) (h : g.addr ≠ f.addr) : (s.put f v).flag g = s.flag g := by
  simp [State.flag, State.get_put_of_ne s f g v h]

@[simp] theorem State.fresh_reg (s : State) (a : Nat) : s.fresh.reg a = s.reg a := rfl
@[simp] theorem State.emit_reg (s : State) (e : Emission) (a : Nat) : (s.emit e).reg a = s.reg a := rfl
@[simp] theorem State.freeNext_reg (s : State) (a : Nat) : s.freeNext.reg a = s.reg a := rfl
@[simp] theorem State.setLane_reg (s : State) (n : Nat) (l : PipLane) (a : Nat) : (s.setLane n l).reg a = s.reg a := rfl
@[simp] theorem State.setPort_reg (s : State) (p : Nat) (v : VPort) (a : Nat) : (s.setPort p v).reg a = s.reg a := rfl
@[simp] theorem State.setEp_reg (s : State) (n : Nat) (e : EpState) (a : Nat) : (s.setEp n e).reg a = s.reg a := rfl
@[simp] theorem State.setQueue_reg (s : State) (q : Nat) (v : QueueState) (a : Nat) : (s.setQueue q v).reg a = s.reg a := rfl
@[simp] theorem State.setTracker_reg (s : State) (t : Tracker) (a : Nat) : (s.setTracker t).reg a = s.reg a := rfl
@[simp] theorem State.hbmRewrite_reg (s : State) (g : Nat) (data : List Byte) (poison : Bool) (a : Nat) :
    (s.hbmRewrite g data poison).reg a = s.reg a := rfl
@[simp] theorem State.plateRewrite_reg (s : State) (g : Nat) (x : Granule) (a : Nat) : (s.plateRewrite g x).reg a = s.reg a := rfl

@[simp] theorem State.setLane_lane_self (s : State) (n : Nat) (l : PipLane) : (s.setLane n l).lane n = l := by
  simp [State.lane, State.setLane]

theorem State.setLane_lane_of_ne (s : State) {n m : Nat} (l : PipLane) (h : m ≠ n) : (s.setLane n l).lane m = s.lane m := by
  simp [State.lane, State.setLane, Sparse.get_set_of_ne _ _ _ h]

/-- The address that a write's rule sees is the address written. -/
@[simp] theorem State.writeOf_addr (s : State) (p : Path) (a : Nat) (data : Word) : (s.writeOf p a data).addr = a := by
  unfold State.writeOf
  cases s.regAt a with
  | none => rfl
  | some x => rfl

/-! ### A command's fresh state -/

@[simp] theorem State.fresh_attach (s : State) (a : Nat) : s.fresh.attach a = s.attach a := rfl
@[simp] theorem State.fresh_servingPort (s : State) (a : Nat) : s.fresh.servingPort a = s.servingPort a := rfl
@[simp] theorem State.fresh_portOn (s : State) (a : Nat) : s.fresh.portOn a = s.portOn a := rfl
@[simp] theorem State.fresh_mayHost (s : State) (a : Nat) : s.fresh.mayHost a = s.mayHost a := rfl
@[simp] theorem State.fresh_portOwns (s : State) (a q : Nat) : s.fresh.portOwns a q = s.portOwns a q := rfl
@[simp] theorem State.fresh_fqN (s : State) (a j : Nat) : s.fresh.fqN a j = s.fqN a j := rfl
@[simp] theorem State.fresh_canGo (s : State) (a : Nat) (h : HostAccess) : s.fresh.canGo a h = s.canGo a h := rfl
@[simp] theorem State.fresh_apertureSize (s : State) (a : Nat) : s.fresh.apertureSize a = s.apertureSize a := rfl
@[simp] theorem State.fresh_recordBlocked (s : State) : s.fresh.recordBlocked = s.recordBlocked := rfl
@[simp] theorem State.fresh_bar2Slot (s : State) (a off : Nat) : s.fresh.bar2Slot a off = s.bar2Slot a off := rfl
@[simp] theorem State.fresh_barOpen (s : State) (a : Nat) : s.fresh.barOpen a = s.barOpen a := rfl
@[simp] theorem State.fresh_cfgWaits (s : State) (a : Nat) : s.fresh.cfgWaits a = s.cfgWaits a := rfl
@[simp] theorem State.fresh_fqEntry (s : State) (a q : Nat) (pasid : Option (BitVec 20)) :
    s.fresh.fqEntry a q pasid = s.fqEntry a q pasid := rfl
@[simp] theorem State.fresh_fwHash (s : State) : s.fresh.fwHash = s.fwHash := rfl
@[simp] theorem State.fresh_setHash (s : State) (e : Nat) : s.fresh.setHash e = s.setHash e := rfl
@[simp] theorem State.fresh_measurement (s : State) (i : Nat) : s.fresh.measurement i = s.measurement i := rfl
@[simp] theorem State.fresh_coresHeld (s : State) : s.fresh.coresHeld = s.coresHeld := rfl
@[simp] theorem State.fresh_cimByte (s : State) (i : Nat) : s.fresh.cimByte i = s.cimByte i := rfl
@[simp] theorem State.fresh_fixedId (s : State) : s.fresh.fixedId = s.fixedId := rfl
@[simp] theorem State.fresh_stickyId (s : State) : s.fresh.stickyId = s.stickyId := rfl
@[simp] theorem State.fresh_enumerates (s : State) (body : List Byte) : s.fresh.enumerates body = s.enumerates body := rfl
@[simp] theorem State.fresh_chooseNumber (s : State) (taken held fixed : Nat) :
    s.fresh.chooseNumber taken held fixed = s.chooseNumber taken held fixed := rfl
@[simp] theorem State.fresh_stickyCim (s : State) : s.fresh.stickyCim = s.stickyCim := rfl
@[simp] theorem State.fresh_burnAge (s : State) : s.fresh.burnAge = s.burnAge := rfl
@[simp] theorem State.fresh_rankMember (s : State) (c : Coll) (h : Nat) : s.fresh.rankMember c h = s.rankMember c h := rfl
@[simp] theorem State.fresh_memberRank (s : State) (c : Coll) (domain member : Nat) :
    s.fresh.memberRank c domain member = s.memberRank c domain member := rfl
@[simp] theorem State.fresh_colRangeOk (s : State) (q : Nat) (r : Nat × Nat) (align bit : Nat) :
    s.fresh.colRangeOk q r align bit = s.colRangeOk q r align bit := rfl
@[simp] theorem State.fresh_colValid (s : State) (c : Coll) : s.fresh.colValid c = s.colValid c := rfl
@[simp] theorem State.fresh_coll (s : State) (tag : Nat) : s.fresh.coll tag = s.coll tag := rfl
@[simp] theorem State.fresh_colPip (s : State) (c : Coll) (type op count : Nat) (data : List Byte) :
    s.fresh.colPip c type op count data = s.colPip c type op count data := rfl
@[simp] theorem State.fresh_ownResigner (s : State) : s.fresh.ownResigner = s.ownResigner := rfl
@[simp] theorem State.fresh_colFrame (s : State) (c : Coll) (op p h form goff : Nat) (gs : List Granule) (sched : Bool) :
    s.fresh.colFrame c op p h form goff gs sched = s.colFrame c op p h form goff gs sched := rfl
@[simp] theorem State.fresh_colN (s : State) (q : Nat) : s.fresh.colN q = s.colN q := rfl
@[simp] theorem State.fresh_colHead (s : State) (q : Nat) : s.fresh.colHead q = s.colHead q := rfl
@[simp] theorem State.fresh_colRoom (s : State) : s.fresh.colRoom = s.colRoom := rfl
@[simp] theorem State.fresh_cseqDue (s : State) (n : Nat) : s.fresh.cseqDue n = s.cseqDue n := rfl
@[simp] theorem State.fresh_earlyResign (s : State) (tag : Nat) : s.fresh.earlyResign tag = s.earlyResign tag := rfl
@[simp] theorem State.fresh_colOf (s : State) (f : Frame) : s.fresh.colOf f = s.colOf f := rfl
@[simp] theorem State.fresh_colNext (s : State) (op : Nat) : s.fresh.colNext op = s.colNext op := rfl
@[simp] theorem State.fresh_consumer (s : State) (c : Coll) : s.fresh.consumer c = s.consumer c := rfl
@[simp] theorem State.fresh_partDone (s : State) (c : Coll) : s.fresh.partDone c = s.partDone c := rfl
@[simp] theorem State.fresh_fltN (s : State) : s.fresh.fltN = s.fltN := rfl
@[simp] theorem State.fresh_fltUsed (s : State) : s.fresh.fltUsed = s.fltUsed := rfl
@[simp] theorem State.fresh_fltFull (s : State) : s.fresh.fltFull = s.fltFull := rfl
@[simp] theorem State.fresh_parkRoom (s : State) : s.fresh.parkRoom = s.parkRoom := rfl
@[simp] theorem State.fresh_notice (s : State) (kind a b dst : Nat) : s.fresh.notice kind a b dst = s.notice kind a b dst := rfl
@[simp] theorem State.fresh_fences (s : State) (m : Nat) : s.fresh.fences m = s.fences m := rfl
@[simp] theorem State.fresh_mayFence (s : State) (m : Nat) : s.fresh.mayFence m = s.mayFence m := rfl
@[simp] theorem State.fresh_spareReady (s : State) : s.fresh.spareReady = s.spareReady := rfl
@[simp] theorem State.fresh_tokenCap (s : State) : s.fresh.tokenCap = s.tokenCap := rfl
@[simp] theorem State.fresh_mayAdmit (s : State) : s.fresh.mayAdmit = s.mayAdmit := rfl
@[simp] theorem State.fresh_ownEp (s : State) (n : Nat) : s.fresh.ownEp n = s.ownEp n := rfl
@[simp] theorem State.fresh_responseVc (s : State) (f : Frame) : s.fresh.responseVc f = s.responseVc f := rfl
@[simp] theorem State.fresh_ageLimit (s : State) : s.fresh.ageLimit = s.ageLimit := rfl
@[simp] theorem State.fresh_ageOf (s : State) (inj : Nat) : s.fresh.ageOf inj = s.ageOf inj := rfl
@[simp] theorem State.fresh_tooOld (s : State) (f : Frame) : s.fresh.tooOld f = s.tooOld f := rfl
@[simp] theorem State.fresh_hbmOpen (s : State) : s.fresh.hbmOpen = s.hbmOpen := rfl
@[simp] theorem State.fresh_mapSlot (s : State) (r : Nat) : s.fresh.mapSlot r = s.mapSlot r := rfl
@[simp] theorem State.fresh_slotOf (s : State) (off : Nat) : s.fresh.slotOf off = s.slotOf off := rfl
@[simp] theorem State.fresh_slotNow (s : State) : s.fresh.slotNow = s.slotNow := rfl
@[simp] theorem State.fresh_bgPos (s : State) : s.fresh.bgPos = s.bgPos := rfl
@[simp] theorem State.fresh_inBackground (s : State) (l : List Nat) : s.fresh.inBackground l = s.inBackground l := rfl
@[simp] theorem State.fresh_spillBase (s : State) : s.fresh.spillBase = s.spillBase := rfl
@[simp] theorem State.fresh_bankHeldAt (s : State) (off : Nat) : s.fresh.bankHeldAt off = s.bankHeldAt off := rfl
@[simp] theorem State.fresh_firmwareRuns (s : State) : s.fresh.firmwareRuns = s.firmwareRuns := rfl
@[simp] theorem State.fresh_kernel (s : State) (num : Nat) : s.fresh.kernel num = s.kernel num := rfl
@[simp] theorem State.fresh_kernelOn (s : State) (n : Nat) : s.fresh.kernelOn n = s.kernelOn n := rfl
@[simp] theorem State.fresh_corePlace (s : State) (pa : Nat) : s.fresh.corePlace pa = s.corePlace pa := rfl
@[simp] theorem State.fresh_mbReq (s : State) (a k : Nat) : s.fresh.mbReq a k = s.mbReq a k := rfl
@[simp] theorem State.fresh_mbCmd (s : State) (a : Nat) : s.fresh.mbCmd a = s.mbCmd a := rfl
@[simp] theorem State.fresh_mbWaits (s : State) (a : Nat) : s.fresh.mbWaits a = s.mbWaits a := rfl
@[simp] theorem State.fresh_freeCores (s : State) : s.fresh.freeCores = s.freeCores := rfl
@[simp] theorem State.fresh_privateSize (s : State) : s.fresh.privateSize = s.privateSize := rfl
@[simp] theorem State.fresh_freePrivate (s : State) (n : Nat) : s.fresh.freePrivate n = s.freePrivate n := rfl
@[simp] theorem State.fresh_grantable (s : State) (q : Nat) : s.fresh.grantable q = s.grantable q := rfl
@[simp] theorem State.fresh_owner (s : State) (q : Nat) : s.fresh.owner q = s.owner q := rfl
@[simp] theorem State.fresh_queueBg (s : State) (ep q : Nat) : s.fresh.queueBg ep q = s.queueBg ep q := rfl
@[simp] theorem State.fresh_queue (s : State) (q : Nat) : s.fresh.queue q = s.queue q := rfl
@[simp] theorem State.fresh_tracker (s : State) (t : Nat) : s.fresh.tracker t = s.tracker t := rfl
@[simp] theorem State.fresh_winReg (s : State) (a : Nat) : s.fresh.winReg a = s.winReg a := rfl
@[simp] theorem State.fresh_winGet (s : State) (f : RField) : s.fresh.winGet f = s.winGet f := rfl
@[simp] theorem State.fresh_windowCovers (s : State) (n e q kind member off len : Nat) :
    s.fresh.windowCovers n e q kind member off len = s.windowCovers n e q kind member off len := rfl
@[simp] theorem State.fresh_windowGrants (s : State) (n q kind member off len bit : Nat) :
    s.fresh.windowGrants n q kind member off len bit = s.windowGrants n q kind member off len bit := rfl
@[simp] theorem State.fresh_isFenced (s : State) (m : Nat) : s.fresh.isFenced m = s.isFenced m := rfl
@[simp] theorem State.fresh_permitted (s : State) (n q r : Nat) (f : Frame) :
    s.fresh.permitted n q r f = s.permitted n q r f := rfl
@[simp] theorem State.fresh_checkRequest (s : State) (n q : Nat) (f : Frame) :
    s.fresh.checkRequest n q f = s.checkRequest n q f := rfl
@[simp] theorem State.fresh_qsbAt (s : State) (ep q : Nat) : s.fresh.qsbAt ep q = s.qsbAt ep q := rfl
@[simp] theorem State.fresh_qsbRead (s : State) (q : Nat) : s.fresh.qsbRead q = s.qsbRead q := rfl
@[simp] theorem State.fresh_nextSeq (s : State) (src dst vc : Nat) : s.fresh.nextSeq src dst vc = s.nextSeq src dst vc := rfl
@[simp] theorem State.fresh_chanOpen (s : State) (src dst vc : Nat) : s.fresh.chanOpen src dst vc = s.chanOpen src dst vc := rfl
@[simp] theorem State.fresh_stamp (s : State) (t : Tracker) : s.fresh.stamp t = s.stamp t := rfl
@[simp] theorem State.fresh_fenceHolds (s : State) (w : WaitReq) : s.fresh.fenceHolds w = s.fenceHolds w := rfl
@[simp] theorem State.fresh_proofHolds (s : State) (w : WaitReq) : s.fresh.proofHolds w = s.proofHolds w := rfl
@[simp] theorem State.fresh_freeSlot (s : State) (q : Nat) : s.fresh.freeSlot q = s.freeSlot q := rfl
@[simp] theorem State.fresh_mayTake (s : State) (w : WaitReq) : s.fresh.mayTake w = s.mayTake w := rfl
@[simp] theorem State.fresh_tainted (s : State) (t : Tracker) : s.fresh.tainted t = s.tainted t := rfl
@[simp] theorem State.fresh_covering (s : State) (t : Tracker) : s.fresh.covering t = s.covering t := rfl
@[simp] theorem State.fresh_fenceReady (s : State) (f : Fence) : s.fresh.fenceReady f = s.fenceReady f := rfl
@[simp] theorem State.fresh_memoryFrame (s : State) (ep q op addr bytes : Nat) (data : List Byte) (xfmt : Nat) (sched poison :
    Bool) : s.fresh.memoryFrame ep q op addr bytes data xfmt sched poison = s.memoryFrame ep q op addr bytes data xfmt sched poison := rfl
@[simp] theorem State.fresh_heldAt (s : State) (p c : Nat) : s.fresh.heldAt p c = s.heldAt p c := rfl
@[simp] theorem State.fresh_isOf (s : State) (m ep : Nat) : s.fresh.isOf m ep = s.isOf m ep := rfl
@[simp] theorem State.fresh_windowsDrained (s : State) (n : Nat) : s.fresh.windowsDrained n = s.windowsDrained n := rfl
@[simp] theorem State.fresh_bstate (s : State) (p : Nat) : s.fresh.bstate p = s.bstate p := rfl
@[simp] theorem State.fresh_widest (s : State) (p : Nat) : s.fresh.widest p = s.widest p := rfl
@[simp] theorem State.fresh_framesAt (s : State) (p : Nat) : s.fresh.framesAt p = s.framesAt p := rfl
@[simp] theorem State.fresh_colsAt (s : State) (p : Nat) : s.fresh.colsAt p = s.colsAt p := rfl
@[simp] theorem State.fresh_noSignal (s : State) (p : Nat) : s.fresh.noSignal p = s.noSignal p := rfl
@[simp] theorem State.fresh_portsHeld (s : State) : s.fresh.portsHeld = s.portsHeld := rfl
@[simp] theorem State.fresh_cageReady (s : State) (p : Nat) : s.fresh.cageReady p = s.cageReady p := rfl
@[simp] theorem State.fresh_attempt (s : State) (p signal : Nat) : s.fresh.attempt p signal = s.attempt p signal := rfl
@[simp] theorem State.fresh_creditLimits (s : State) (p : Nat) : s.fresh.creditLimits p = s.creditLimits p := rfl
@[simp] theorem State.fresh_codewordNow (s : State) (p : Nat) : s.fresh.codewordNow p = s.codewordNow p := rfl
@[simp] theorem State.fresh_linkContext (s : State) (p : Nat) : s.fresh.linkContext p = s.linkContext p := rfl
@[simp] theorem State.fresh_lowerEnd (s : State) (p : Nat) : s.fresh.lowerEnd p = s.lowerEnd p := rfl
@[simp] theorem State.fresh_wordSymbols (s : State) (p n lc : Nat) (g : List Granule) :
    s.fresh.wordSymbols p n lc g = s.wordSymbols p n lc g := rfl
@[simp] theorem State.fresh_identField (s : State) (p : Nat) : s.fresh.identField p = s.identField p := rfl
@[simp] theorem State.fresh_listedSoon (s : State) (p : Nat) : s.fresh.listedSoon p = s.listedSoon p := rfl
@[simp] theorem State.fresh_txWaits (s : State) (p : Nat) : s.fresh.txWaits p = s.txWaits p := rfl
@[simp] theorem State.fresh_budgetUsed (s : State) (p : Nat) : s.fresh.budgetUsed p = s.budgetUsed p := rfl
@[simp] theorem State.fresh_budgetOf (s : State) (p : Nat) : s.fresh.budgetOf p = s.budgetOf p := rfl
@[simp] theorem State.fresh_inBudget (s : State) (p n : Nat) : s.fresh.inBudget p n = s.inBudget p n := rfl
@[simp] theorem State.fresh_listedPortOk (s : State) (f : Frame) (p : Nat) : s.fresh.listedPortOk f p = s.listedPortOk f p := rfl
@[simp] theorem State.fresh_entryError (s : State) (m : MoveList) (e : MoveEntry) :
    s.fresh.entryError m e = s.entryError m e := rfl
@[simp] theorem State.fresh_dueEntry (s : State) (m : MoveList) : s.fresh.dueEntry m = s.dueEntry m := rfl
@[simp] theorem State.fresh_bufSize (s : State) (n : Nat) : s.fresh.bufSize n = s.bufSize n := rfl
@[simp] theorem State.fresh_bufState (s : State) (n i : Nat) : s.fresh.bufState n i = s.bufState n i := rfl
@[simp] theorem State.fresh_bufsUsed (s : State) (n : Nat) : s.fresh.bufsUsed n = s.bufsUsed n := rfl
@[simp] theorem State.fresh_freeBuf (s : State) (n : Nat) : s.fresh.freeBuf n = s.freeBuf n := rfl
@[simp] theorem State.fresh_poolBad (s : State) (n : Nat) : s.fresh.poolBad n = s.poolBad n := rfl
@[simp] theorem State.fresh_recv (s : State) (f : Frame) : s.fresh.recv f = s.recv f := rfl
@[simp] theorem State.fresh_msgN (s : State) (q : Nat) : s.fresh.msgN q = s.msgN q := rfl
@[simp] theorem State.fresh_sendAt (s : State) (q i : Nat) : s.fresh.sendAt q i = s.sendAt q i := rfl
@[simp] theorem State.fresh_poolFree (s : State) (n : Nat) : s.fresh.poolFree n = s.poolFree n := rfl
@[simp] theorem State.fresh_free (s : State) (w : Nat) : s.fresh.free w = s.free w := rfl
@[simp] theorem State.fresh_get (s : State) (f : RField) : s.fresh.get f = s.get f := rfl
@[simp] theorem State.fresh_flag (s : State) (f : RField) : s.fresh.flag f = s.flag f := rfl
@[simp] theorem State.fresh_now (s : State) : s.fresh.now = s.now := rfl
@[simp] theorem State.fresh_member (s : State) : s.fresh.member = s.member := rfl
@[simp] theorem State.fresh_domain (s : State) : s.fresh.domain = s.domain := rfl
@[simp] theorem State.fresh_slice (s : State) : s.fresh.slice = s.slice := rfl
@[simp] theorem State.fresh_edition (s : State) : s.fresh.edition = s.edition := rfl
@[simp] theorem State.fresh_admitted (s : State) : s.fresh.admitted = s.admitted := rfl
@[simp] theorem State.fresh_present (s : State) : s.fresh.present = s.present := rfl
@[simp] theorem State.fresh_hbmByte (s : State) (off : Nat) : s.fresh.hbmByte off = s.hbmByte off := rfl
@[simp] theorem State.fresh_hbmBytes (s : State) (off n : Nat) : s.fresh.hbmBytes off n = s.hbmBytes off n := rfl
@[simp] theorem State.fresh_hbmPoisoned (s : State) (g : Nat) : s.fresh.hbmPoisoned g = s.hbmPoisoned g := rfl
@[simp] theorem State.fresh_hbmErrors (s : State) (g : Nat) : s.fresh.hbmErrors g = s.hbmErrors g := rfl
@[simp] theorem State.fresh_hatchMode (s : State) : s.fresh.hatchMode = s.hatchMode := rfl
@[simp] theorem State.fresh_hbmDecode (s : State) (g : Nat) : s.fresh.hbmDecode g = s.hbmDecode g := rfl
@[simp] theorem State.fresh_lane (s : State) (n : Nat) : s.fresh.lane n = s.lane n := rfl
@[simp] theorem State.fresh_laneIsUp (s : State) (n : Nat) : s.fresh.laneIsUp n = s.laneIsUp n := rfl
@[simp] theorem State.fresh_priUp (s : State) : s.fresh.priUp = s.priUp := rfl
@[simp] theorem State.fresh_altUp (s : State) : s.fresh.altUp = s.altUp := rfl
@[simp] theorem State.fresh_upLane (s : State) : s.fresh.upLane = s.upLane := rfl
@[simp] theorem State.fresh_isUpstream (s : State) (n : Nat) : s.fresh.isUpstream n = s.isUpstream n := rfl
@[simp] theorem State.fresh_hasUpstream (s : State) : s.fresh.hasUpstream = s.hasUpstream := rfl
@[simp] theorem State.fresh_laneUse (s : State) (n : Nat) : s.fresh.laneUse n = s.laneUse n := rfl
@[simp] theorem State.fresh_downLanes (s : State) : s.fresh.downLanes = s.downLanes := rfl
@[simp] theorem State.fresh_treeLanes (s : State) : s.fresh.treeLanes = s.treeLanes := rfl
@[simp] theorem State.fresh_follower (s : State) : s.fresh.follower = s.follower := rfl
@[simp] theorem State.fresh_timeRoot (s : State) : s.fresh.timeRoot = s.timeRoot := rfl
@[simp] theorem State.fresh_scopeRoot (s : State) (system : Bool) : s.fresh.scopeRoot system = s.scopeRoot system := rfl
@[simp] theorem State.fresh_mine (s : State) (f : PipFrame) : s.fresh.mine f = s.mine f := rfl
@[simp] theorem State.fresh_ownSubtree (s : State) (domain : Nat) : s.fresh.ownSubtree domain = s.ownSubtree domain := rfl
@[simp] theorem State.fresh_subtreeDomains (s : State) : s.fresh.subtreeDomains = s.subtreeDomains := rfl
@[simp] theorem State.fresh_inSlice (s : State) (m slice : Nat) : s.fresh.inSlice m slice = s.inSlice m slice := rfl
@[simp] theorem State.fresh_holdsSlice (s : State) (domain bitmap slice : Nat) :
    s.fresh.holdsSlice domain bitmap slice = s.holdsSlice domain bitmap slice := rfl
@[simp] theorem State.fresh_sliceLanes (s : State) (slice : Nat) (system : Bool) :
    s.fresh.sliceLanes slice system = s.sliceLanes slice system := rfl
@[simp] theorem State.fresh_combineDone (s : State) (c : Combine) : s.fresh.combineDone c = s.combineDone c := rfl
@[simp] theorem State.fresh_resignSeen (s : State) (slice tag : Nat) :
    s.fresh.resignSeen slice tag = s.resignSeen slice tag := rfl
@[simp] theorem State.fresh_laneToward (s : State) (domain m : Nat) : s.fresh.laneToward domain m = s.laneToward domain m := rfl
@[simp] theorem State.fresh_oqN (s : State) (q : Nat) : s.fresh.oqN q = s.oqN q := rfl
@[simp] theorem State.fresh_oqHead (s : State) (q : Nat) : s.fresh.oqHead q = s.oqHead q := rfl
@[simp] theorem State.fresh_oqTail (s : State) (q : Nat) : s.fresh.oqTail q = s.oqTail q := rfl
@[simp] theorem State.fresh_oqWaiting (s : State) (q : Nat) : s.fresh.oqWaiting q = s.oqWaiting q := rfl
@[simp] theorem State.fresh_colq (s : State) : s.fresh.colq = s.colq := rfl
@[simp] theorem State.fresh_descAt (s : State) (q i : Nat) : s.fresh.descAt q i = s.descAt q i := rfl
@[simp] theorem State.fresh_cplAt (s : State) (q i : Nat) : s.fresh.cplAt q i = s.cplAt q i := rfl
@[simp] theorem State.fresh_oqGated (s : State) (q : Nat) : s.fresh.oqGated q = s.oqGated q := rfl
@[simp] theorem State.fresh_chainAt (s : State) (q : Nat) : s.fresh.chainAt q = s.chainAt q := rfl
@[simp] theorem State.fresh_oqReady (s : State) (q : Nat) : s.fresh.oqReady q = s.oqReady q := rfl
@[simp] theorem State.fresh_otherReady (s : State) (q : Nat) : s.fresh.otherReady q = s.otherReady q := rfl
@[simp] theorem State.fresh_arrayHeld (s : State) : s.fresh.arrayHeld = s.arrayHeld := rfl
@[simp] theorem State.fresh_slotFrame (s : State) : s.fresh.slotFrame = s.slotFrame := rfl
@[simp] theorem State.fresh_opBase (s : State) (o : PlateOp) : s.fresh.opBase o = s.opBase o := rfl
@[simp] theorem State.fresh_opFixed (s : State) (o : PlateOp) : s.fresh.opFixed o = s.opFixed o := rfl
@[simp] theorem State.fresh_strokeTurns (s : State) (o : PlateOp) : s.fresh.strokeTurns o = s.strokeTurns o := rfl
@[simp] theorem State.fresh_remoteKeys (s : State) (d : List Byte) (ks : List Nat) :
    s.fresh.remoteKeys d ks = s.remoteKeys d ks := rfl
@[simp] theorem State.fresh_peerPages (s : State) (o : PlateOp) (outs : GranMap) :
    s.fresh.peerPages o outs = s.peerPages o outs := rfl
@[simp] theorem State.fresh_opResult (s : State) (o : PlateOp) : s.fresh.opResult o = s.opResult o := rfl
@[simp] theorem State.fresh_hostPending (s : State) (q : Nat) : s.fresh.hostPending q = s.hostPending q := rfl
@[simp] theorem State.fresh_staggerSlot (s : State) : s.fresh.staggerSlot = s.staggerSlot := rfl
@[simp] theorem State.fresh_rampNow (s : State) : s.fresh.rampNow = s.rampNow := rfl
@[simp] theorem State.fresh_staggerOk (s : State) : s.fresh.staggerOk = s.staggerOk := rfl
@[simp] theorem State.fresh_mustYield (s : State) (q : Nat) : s.fresh.mustYield q = s.mustYield q := rfl
@[simp] theorem State.fresh_boundTo (s : State) (o : PlateOp) : s.fresh.boundTo o = s.boundTo o := rfl
@[simp] theorem State.fresh_strokeActive (s : State) (o : PlateOp) (since : Nat) :
    s.fresh.strokeActive o since = s.strokeActive o since := rfl
@[simp] theorem State.fresh_abortStrokes (s : State) (o : PlateOp) : s.fresh.abortStrokes o = s.abortStrokes o := rfl
@[simp] theorem State.fresh_polling (s : State) : s.fresh.polling = s.polling := rfl
@[simp] theorem State.fresh_chainGranule (s : State) (key : Nat) : s.fresh.chainGranule key = s.chainGranule key := rfl
@[simp] theorem State.fresh_bsetFirst (s : State) (e : Option Nat) (d : List Byte) (k : Nat) :
    s.fresh.bsetFirst e d k = s.bsetFirst e d k := rfl
@[simp] theorem State.fresh_rangeGrants (s : State) (n q kind m0 m1 off len bit : Nat) :
    s.fresh.rangeGrants n q kind m0 m1 off len bit = s.rangeGrants n q kind m0 m1 off len bit := rfl
@[simp] theorem State.fresh_bsetOf (s : State) (d : List Byte) : s.fresh.bsetOf d = s.bsetOf d := rfl
@[simp] theorem State.fresh_slotGranted (s : State) (q : Nat) (d : List Byte) (e : Option Nat) (k : Nat) :
    s.fresh.slotGranted q d e k = s.slotGranted q d e k := rfl
@[simp] theorem State.fresh_bsetHash (s : State) (e : Nat) : s.fresh.bsetHash e = s.bsetHash e := rfl
@[simp] theorem State.fresh_plateBytes (s : State) (g : Nat) : s.fresh.plateBytes g = s.plateBytes g := rfl
@[simp] theorem State.fresh_platePoisoned (s : State) (g : Nat) : s.fresh.platePoisoned g = s.platePoisoned g := rfl
@[simp] theorem State.fresh_plateGranule (s : State) (g : Nat) : s.fresh.plateGranule g = s.plateGranule g := rfl
@[simp] theorem State.fresh_railMisses (s : State) (r : Nat) : s.fresh.railMisses r = s.railMisses r := rfl
@[simp] theorem State.fresh_polledRails (s : State) : s.fresh.polledRails = s.polledRails := rfl
@[simp] theorem State.fresh_droopFrozen (s : State) : s.fresh.droopFrozen = s.droopFrozen := rfl
@[simp] theorem State.fresh_dutyFrozen (s : State) : s.fresh.dutyFrozen = s.dutyFrozen := rfl
@[simp] theorem State.fresh_stillOver (s : State) : s.fresh.stillOver = s.stillOver := rfl
@[simp] theorem State.fresh_overAgain (s : State) : s.fresh.overAgain = s.overAgain := rfl
@[simp] theorem State.fresh_warnedFor (s : State) (n : Nat) : s.fresh.warnedFor n = s.warnedFor n := rfl
@[simp] theorem State.fresh_tdiLocks (s : State) (t i off : Nat) (f : FieldDesc) :
    s.fresh.tdiLocks t i off f = s.tdiLocks t i off f := rfl
@[simp] theorem State.fresh_fieldClosed (s : State) (p : Path) (t i off : Nat) (f : FieldDesc) :
    s.fresh.fieldClosed p t i off f = s.fieldClosed p t i off f := rfl
@[simp] theorem State.fresh_pathOpen (s : State) (p : Path) : s.fresh.pathOpen p = s.pathOpen p := rfl
@[simp] theorem State.fresh_queueHeld (s : State) (q : Nat) : s.fresh.queueHeld q = s.queueHeld q := rfl
@[simp] theorem State.fresh_queuesOwned (s : State) (n : Nat) : s.fresh.queuesOwned n = s.queuesOwned n := rfl
@[simp] theorem State.fresh_pageBusy (s : State) (t i : Nat) : s.fresh.pageBusy t i = s.pageBusy t i := rfl
@[simp] theorem State.fresh_srstOk (s : State) (p : Path) (t i : Nat) : s.fresh.srstOk p t i = s.srstOk p t i := rfl
@[simp] theorem State.fresh_cmdNamesMe (s : State) (body : List Byte) : s.fresh.cmdNamesMe body = s.cmdNamesMe body := rfl
@[simp] theorem State.fresh_regPresent (s : State) (t i off : Nat) : s.fresh.regPresent t i off = s.regPresent t i off := rfl
@[simp] theorem State.fresh_regAt (s : State) (addr : Nat) : s.fresh.regAt addr = s.regAt addr := rfl
@[simp] theorem State.fresh_twnRunning (s : State) : s.fresh.twnRunning = s.twnRunning := rfl
@[simp] theorem State.fresh_pgStat (s : State) (pg : Nat) : s.fresh.pgStat pg = s.pgStat pg := rfl
@[simp] theorem State.fresh_repStat (s : State) (n : Nat) (v : Word) : s.fresh.repStat n v = s.repStat n v := rfl
@[simp] theorem State.fresh_swxOcc (s : State) (p : Nat) (v : Word) : s.fresh.swxOcc p v = s.swxOcc p v := rfl
@[simp] theorem State.fresh_rteStat (s : State) (v : Word) : s.fresh.rteStat v = s.rteStat v := rfl
@[simp] theorem State.fresh_shown (s : State) (t i off : Nat) (v : Word) : s.fresh.shown t i off v = s.shown t i off v := rfl
@[simp] theorem State.fresh_regRead (s : State) (addr : Nat) : s.fresh.regRead addr = s.regRead addr := rfl
@[simp] theorem State.fresh_acceptsRegs (s : State) (f : Frame) : s.fresh.acceptsRegs f = s.acceptsRegs f := rfl
@[simp] theorem State.fresh_drain (s : State) (e : Nat) : s.fresh.drain e = s.drain e := rfl
@[simp] theorem State.fresh_writable (s : State) (e : Nat) : s.fresh.writable e = s.writable e := rfl
@[simp] theorem State.fresh_farMap (s : State) : s.fresh.farMap = s.farMap := rfl
@[simp] theorem State.fresh_badEntry (s : State) (far : Bool) (a : Word) (ports : Nat) :
    s.fresh.badEntry far a ports = s.badEntry far a ports := rfl
@[simp] theorem State.fresh_namesPort (s : State) (ports : Nat) : s.fresh.namesPort ports = s.namesPort ports := rfl
@[simp] theorem State.fresh_stopped (s : State) : s.fresh.stopped = s.stopped := rfl
@[simp] theorem State.fresh_linksEncrypted (s : State) : s.fresh.linksEncrypted = s.linksEncrypted := rfl
@[simp] theorem State.fresh_memEncrypted (s : State) : s.fresh.memEncrypted = s.memEncrypted := rfl
@[simp] theorem State.fresh_conditions (s : State) : s.fresh.conditions = s.conditions := rfl
@[simp] theorem State.fresh_secStat (s : State) : s.fresh.secStat = s.secStat := rfl
@[simp] theorem State.fresh_isReady (s : State) : s.fresh.isReady = s.isReady := rfl
@[simp] theorem State.fresh_bsetPolicy (s : State) (h : List Byte) : s.fresh.bsetPolicy h = s.bsetPolicy h := rfl
@[simp] theorem State.fresh_boundKey (s : State) (e : Nat) : s.fresh.boundKey e = s.boundKey e := rfl
@[simp] theorem State.fresh_bsetBase (s : State) (e : Nat) : s.fresh.bsetBase e = s.bsetBase e := rfl
@[simp] theorem State.fresh_bsetFind (s : State) (off n : Nat) : s.fresh.bsetFind off n = s.bsetFind off n := rfl
@[simp] theorem State.fresh_quiet (s : State) : s.fresh.quiet = s.quiet := rfl
@[simp] theorem State.fresh_port (s : State) (p : Nat) : s.fresh.port p = s.port p := rfl
@[simp] theorem State.fresh_ep (s : State) (n : Nat) : s.fresh.ep n = s.ep n := rfl
@[simp] theorem State.fresh_isFar (s : State) (p : Nat) : s.fresh.isFar p = s.isFar p := rfl
@[simp] theorem State.fresh_inService (s : State) (p : Nat) : s.fresh.inService p = s.inService p := rfl
@[simp] theorem State.fresh_nearPorts (s : State) (e m : Nat) : s.fresh.nearPorts e m = s.nearPorts e m := rfl
@[simp] theorem State.fresh_farPorts (s : State) (e d : Nat) : s.fresh.farPorts e d = s.farPorts e d := rfl
@[simp] theorem State.fresh_choosePort (s : State) (f : Frame) (spray : Bool) (ports : Nat) :
    s.fresh.choosePort f spray ports = s.choosePort f spray ports := rfl
@[simp] theorem State.fresh_entryPorts (s : State) (f : Frame) : s.fresh.entryPorts f = s.entryPorts f := rfl
@[simp] theorem State.fresh_response (s : State) (f : Frame) (op status : Nat) :
    s.fresh.response f op status = s.response f op status := rfl
@[simp] theorem State.fresh_occ (s : State) (p : Nat) : s.fresh.occ p = s.occ p := rfl
@[simp] theorem State.fresh_occClass (s : State) (p c : Nat) : s.fresh.occClass p c = s.occClass p c := rfl
@[simp] theorem State.fresh_occArea (s : State) (p a : Nat) : s.fresh.occArea p a = s.occArea p a := rfl
@[simp] theorem State.fresh_sharedFree (s : State) (p : Nat) : s.fresh.sharedFree p = s.sharedFree p := rfl
@[simp] theorem State.fresh_spillFill (s : State) (p : Nat) : s.fresh.spillFill p = s.spillFill p := rfl
@[simp] theorem State.fresh_spillRoom (s : State) (p n : Nat) : s.fresh.spillRoom p n = s.spillRoom p n := rfl
@[simp] theorem State.fresh_throttled (s : State) (e c : Nat) : s.fresh.throttled e c = s.throttled e c := rfl
@[simp] theorem State.fresh_evictable (s : State) (p c : Nat) : s.fresh.evictable p c = s.evictable p c := rfl
@[simp] theorem State.fresh_canServe (s : State) (e : Nat) (f : Frame) : s.fresh.canServe e f = s.canServe e f := rfl
@[simp] theorem State.fresh_headOf (s : State) (e c : Nat) : s.fresh.headOf e c = s.headOf e c := rfl
@[simp] theorem State.fresh_nextFrame (s : State) (e : Nat) : s.fresh.nextFrame e = s.nextFrame e := rfl
@[simp] theorem State.fresh_logRoom (s : State) (n : Nat) : s.fresh.logRoom n = s.logRoom n := rfl
@[simp] theorem State.fresh_openOffset (s : State) (f : Frame) : s.fresh.openOffset f = s.openOffset f := rfl
@[simp] theorem State.fresh_accepts (s : State) (n : Nat) (f : Frame) : s.fresh.accepts n f = s.accepts n f := rfl
@[simp] theorem State.fresh_lineRoom (s : State) (n tries : Nat) : s.fresh.lineRoom n tries = s.lineRoom n tries := rfl
@[simp] theorem State.fresh_needsRead (s : State) (l : Nat) : s.fresh.needsRead l = s.needsRead l := rfl
@[simp] theorem State.fresh_fullWindow (s : State) (w : Nat) : s.fresh.fullWindow w = s.fullWindow w := rfl
@[simp] theorem State.fresh_twnOn (s : State) : s.fresh.twnOn = s.twnOn := rfl
@[simp] theorem State.fresh_twnStopped (s : State) : s.fresh.twnStopped = s.twnStopped := rfl
@[simp] theorem State.fresh_twnWin (s : State) (w : Nat) : s.fresh.twnWin w = s.twnWin w := rfl
@[simp] theorem State.fresh_twnLogAt (s : State) (w b : Nat) : s.fresh.twnLogAt w b = s.twnLogAt w b := rfl

end Sys2Proof.Machine
end

