-- ==== Sys2Proof/Laws/Memory.lean ====
section
/-!
SUPPORT. Every operation over registers, HBM and the plate store keeps their canonical form (State.memoryWf), and a read of one
byte of HBM after each operation that writes it.
-/
namespace Sys2Proof.Machine

/-- Reset's stores are in canonical form. -/
theorem State.reset_memoryWf : State.reset.memoryWf = true := rfl

/-! ### Registers -/

theorem State.memoryWf_iff (s : State) : s.memoryWf = true ↔
    Sparse.wf regReset s.regs = true ∧ Sparse.wf (fun _ => 0) s.hbm.bytes = true ∧
    Sparse.wf (fun _ => false) s.hbm.poison = true ∧ Sparse.wf (fun _ => []) s.hbm.errors = true ∧
    Sparse.wf (fun _ => 0) s.plate.bytes = true ∧ Sparse.wf (fun _ => false) s.plate.poison = true := by
  simp only [State.memoryWf, Bool.and_eq_true, and_assoc]

/-- A state with the same stores is in canonical form too. -/
theorem State.memoryWf_of_eq {s t : State} (h : s.memoryWf = true) (hr : t.regs = s.regs) (hh : t.hbm = s.hbm)
    (hp : t.plate = s.plate) : t.memoryWf = true := by
  rw [State.memoryWf_iff] at h ⊢
  rw [hr, hh, hp]
  exact h

theorem State.memoryWf_setReg {s : State} (h : s.memoryWf = true) (a : Nat) (v : Word) : (s.setReg a v).memoryWf = true := by
  rw [State.memoryWf_iff] at h ⊢
  exact ⟨Sparse.wf_set h.1 a v, h.2⟩

theorem State.memoryWf_put {s : State} (h : s.memoryWf = true) (f : RField) (v : Nat) : (s.put f v).memoryWf = true :=
  State.memoryWf_setReg h _ _

theorem State.memoryWf_putFlag {s : State} (h : s.memoryWf = true) (f : RField) (b : Bool) :
    (s.putFlag f b).memoryWf = true := State.memoryWf_put h f _

theorem State.memoryWf_emit {s : State} (h : s.memoryWf = true) (e : Emission) : (s.emit e).memoryWf = true :=
  State.memoryWf_of_eq h rfl rfl rfl

theorem State.memoryWf_freeNext {s : State} (h : s.memoryWf = true) : s.freeNext.memoryWf = true :=
  State.memoryWf_of_eq h rfl rfl rfl

theorem State.memoryWf_fresh {s : State} (h : s.memoryWf = true) : s.fresh.memoryWf = true :=
  State.memoryWf_of_eq h rfl rfl rfl

theorem State.memoryWf_pgCount {s : State} (h : s.memoryWf = true) (pg sel n : Nat) : (s.pgCount pg sel n).memoryWf = true := by
  unfold State.pgCount
  split
  · exact State.memoryWf_setReg h _ _
  · exact h

theorem State.memoryWf_count {s : State} (h : s.memoryWf = true) (f : RField) (n : Nat) : (s.count f n).memoryWf = true := by
  have h1 := State.memoryWf_put h f (min f.max (s.get f + n))
  simp only [State.count]
  split
  · exact h1
  · split
    · split
      · exact State.memoryWf_pgCount h1 _ _ _
      · exact h1
    · exact h1

/-! ### Events and fault records -/

theorem State.memoryWf_raiseVector {s : State} (h : s.memoryWf = true) (a v : Nat) : (s.raiseVector a v).memoryWf = true := by
  simp only [State.raiseVector]
  split
  · exact State.memoryWf_emit h _
  · exact State.memoryWf_of_eq h rfl rfl rfl

theorem State.memoryWf_ite {c : Prop} [Decidable c] {s t : State} (hs : s.memoryWf = true) (ht : t.memoryWf = true) :
    (if c then s else t).memoryWf = true := by
  split
  · exact hs
  · exact ht

theorem State.memoryWf_pageEvent {s : State} (h : s.memoryWf = true) (t i bits code : Nat) :
    (s.pageEvent t i bits code).memoryWf = true := by
  simp only [State.pageEvent]
  split
  · have h1 := State.memoryWf_ite (c := s.reg (Reg.PG_ERR (pageBase t i)) = 0)
      (State.memoryWf_setReg h (Reg.PG_ERR_FIRST (pageBase t i)) (BitVec.ofNat 64 (code * 2 ^ 48 + s.now % 2 ^ 48))) h
    have h2 := State.memoryWf_pgCount (State.memoryWf_setReg (State.memoryWf_setReg h1 (Reg.PG_ERR (pageBase t i))
      (s.reg (Reg.PG_ERR (pageBase t i)) ||| BitVec.ofNat 64 bits)) (Reg.PG_ERR_LAST (pageBase t i))
      (BitVec.ofNat 64 (code * 2 ^ 48 + s.now % 2 ^ 48))) (pageBase t i) 2 1
    exact State.memoryWf_ite (State.memoryWf_raiseVector h2 i 65) h2
  · exact h

theorem State.memoryWf_takeInjection {s : State} (h : s.memoryWf = true) (t i : Nat) :
    (s.takeInjection t i).2.memoryWf = true := by
  simp only [State.takeInjection]
  split
  · exact State.memoryWf_pageEvent (State.memoryWf_putFlag h _ _) _ _ _ _
  · exact h

/-! ### HBM -/

theorem State.memoryWf_hbmRewrite {s : State} (h : s.memoryWf = true) (g : Nat) (data : List Byte) (poison : Bool) :
    (s.hbmRewrite g data poison).memoryWf = true := by
  rw [State.memoryWf_iff] at h ⊢
  exact ⟨h.1, Sparse.wf_setBytes _ _ _ _ h.2.1, Sparse.wf_set h.2.2.1 g poison, Sparse.wf_set h.2.2.2.1 g [], h.2.2.2.2⟩

theorem State.memoryWf_writeBack {s : State} (h : s.memoryWf = true) (l : List (Nat × Nat)) :
    ({ s with hbm := { s.hbm with writeBack := l } } : State).memoryWf = true := by
  rw [State.memoryWf_iff] at h ⊢
  exact h

theorem State.memoryWf_xtsBad {s : State} (h : s.memoryWf = true) (l : List Nat) :
    ({ s with hbm := { s.hbm with xtsBad := l } } : State).memoryWf = true := by
  rw [State.memoryWf_iff] at h ⊢
  exact h

theorem State.memoryWf_setEp {s : State} (h : s.memoryWf = true) (n : Nat) (e : EpState) : (s.setEp n e).memoryWf = true :=
  State.memoryWf_of_eq h rfl rfl rfl

theorem State.memoryWf_syncCopy {s : State} (h : s.memoryWf = true) (g : Nat) (x : Granule) :
    (s.syncCopy g x).memoryWf = true := by
  simp only [State.syncCopy]
  split
  · exact State.memoryWf_setEp h _ _
  · exact h

theorem State.memoryWf_memRewrite {s : State} (h : s.memoryWf = true) (g : Nat) (data : List Byte) (poison : Bool) :
    (s.memRewrite g data poison).memoryWf = true := State.memoryWf_syncCopy (State.memoryWf_hbmRewrite h _ _ _) _ _

theorem State.memoryWf_hbmStrike {s : State} (h : s.memoryWf = true) (g : Nat) (e : SymbolErrors) :
    (s.hbmStrike g e).memoryWf = true := by
  rw [State.memoryWf_iff] at h ⊢
  exact ⟨h.1, h.2.1, h.2.2.1, Sparse.wf_set h.2.2.2.1 _ _, h.2.2.2.2⟩

theorem State.memoryWf_fltRaise {s : State} (h : s.memoryWf = true) : s.fltRaise.memoryWf = true := by
  simp only [State.fltRaise]
  apply State.memoryWf_ite
  · exact State.memoryWf_of_eq (State.memoryWf_raiseVector h _ _) rfl rfl rfl
  · exact State.memoryWf_of_eq h rfl rfl rfl

theorem State.memoryWf_fltWrite {s : State} (h : s.memoryWf = true) (r : FaultRec) : (s.fltWrite r).memoryWf = true :=
  State.memoryWf_fltRaise (State.memoryWf_put (State.memoryWf_memRewrite (State.memoryWf_memRewrite h _ _ _) _ _ _) _ _)

theorem State.memoryWf_setPark {s : State} (h : s.memoryWf = true) (p : List FaultRec) : (s.setPark p).memoryWf = true :=
  State.memoryWf_putFlag (State.memoryWf_put (State.memoryWf_of_eq h rfl rfl rfl) _ _) _ _

theorem State.memoryWf_foldl {α : Type} (f : State → α → State) (hf : ∀ s a, s.memoryWf = true → (f s a).memoryWf = true)
    (l : List α) : ∀ {s : State}, s.memoryWf = true → (l.foldl f s).memoryWf = true := by
  induction l with
  | nil => intro s h; exact h
  | cons a l ih => intro s h; exact ih (hf s a h)

theorem State.memoryWf_writeOrDrop {s : State} (h : s.memoryWf = true) (r : FaultRec) : (s.writeOrDrop r).memoryWf = true :=
  State.memoryWf_ite (State.memoryWf_putFlag (State.memoryWf_count h _ _) _ _) (State.memoryWf_fltWrite h r)

theorem State.memoryWf_flt {s : State} (h : s.memoryWf = true) (x : FaultState) : ({ s with flt := x } : State).memoryWf = true :=
  State.memoryWf_of_eq h rfl rfl rfl

theorem State.memoryWf_enterWaiting {s : State} (h : s.memoryWf = true) : s.enterWaiting.memoryWf = true :=
  State.memoryWf_ite (State.memoryWf_foldl State.writeOrDrop (fun _ r hs => State.memoryWf_writeOrDrop hs r) _
    (State.memoryWf_flt h _)) h

theorem State.memoryWf_parkStep {s : State} (h : s.memoryWf = true) : s.parkStep.memoryWf = true := by
  unfold State.parkStep
  split
  · exact h
  · apply State.memoryWf_ite h
    exact State.memoryWf_enterWaiting (State.memoryWf_fltWrite (State.memoryWf_setPark h _) _)

theorem State.memoryWf_fltEnter {s : State} (h : s.memoryWf = true) (r : FaultRec) : (s.fltEnter r).memoryWf = true := by
  simp only [State.fltEnter]
  apply State.memoryWf_ite
  · exact State.memoryWf_ite (State.memoryWf_setPark h _) h
  · apply State.memoryWf_ite (State.memoryWf_writeOrDrop h r)
    exact State.memoryWf_ite (State.memoryWf_putFlag (State.memoryWf_count h _ _) _ _) (State.memoryWf_flt h _)

theorem State.memoryWf_fault {s : State} (h : s.memoryWf = true) (cls code t i : Nat) (x : FaultArgs) :
    (s.fault cls code t i x).memoryWf = true :=
  State.memoryWf_fltEnter (State.memoryWf_put (State.memoryWf_pageEvent h _ _ _ _) _ _) _

theorem State.memoryWf_xtsFault {s : State} (h : s.memoryWf = true) (g : Nat) (isRead : Bool) :
    (s.xtsFault g isRead).memoryWf = true :=
  State.memoryWf_fault (State.memoryWf_count (State.memoryWf_xtsBad h _) _ _) _ _ _ _ _

/-- A checking point keeps the canonical form. -/
theorem State.memoryWf_checkPoint {s : State} (h : s.memoryWf = true) (corr uncorr : RField) (t i : Nat) (x : FaultArgs) (g : Granule)
    (e : SymbolErrors) : (s.checkPoint corr uncorr t i x g e).2.2.memoryWf = true := by
  unfold State.checkPoint
  generalize g.decoded s.hatchMode e = d
  obtain ⟨y, d⟩ := d
  cases d with
  | good w => exact h
  | poisoned => exact h
  | corrected w => exact State.memoryWf_count h _ _
  | uncorrectable sy => exact State.memoryWf_fault (State.memoryWf_count h _ _) _ _ _ _ _

theorem State.memoryWf_hbmSense {s : State} (h : s.memoryWf = true) (g : Nat) : (s.hbmSense g).2.2.memoryWf = true := by
  have hi := State.memoryWf_takeInjection h 8 4
  simp only [State.hbmSense]
  generalize s.takeInjection 8 4 = q at hi ⊢
  obtain ⟨inj, s1⟩ := q
  generalize hatchDecode _ _ = d
  cases d with
  | good w => exact hi
  | poisoned => exact hi
  | corrected w =>
    have h2 := State.memoryWf_count hi (F.HBM_S_ECC_CORR (hbmStack (32 * g))) 1
    simp only
    generalize s1.count (F.HBM_S_ECC_CORR (hbmStack (32 * g))) 1 = s2 at h2 ⊢
    exact State.memoryWf_ite (State.memoryWf_writeBack h2 _) h2
  | uncorrectable sy => exact State.memoryWf_fault (State.memoryWf_count hi _ _) _ _ _ _ _

theorem State.memoryWf_hbmRead {s : State} (h : s.memoryWf = true) (g : Nat) : (s.hbmRead g).2.2.memoryWf = true :=
  State.memoryWf_hbmSense h g

theorem State.memoryWf_hbmLoad {s : State} (h : s.memoryWf = true) (g : Nat) : (s.hbmLoad g).2.2.memoryWf = true := by
  have hr := State.memoryWf_hbmRead h g
  simp only [State.hbmLoad]
  generalize s.hbmRead g = q at hr ⊢
  obtain ⟨d, p, s1⟩ := q
  simp only
  split
  · exact State.memoryWf_xtsFault hr _ _
  · exact hr

theorem State.memoryWf_memLoad {s : State} (h : s.memoryWf = true) (g : Nat) : (s.memLoad g).2.2.memoryWf = true := by
  unfold State.memLoad
  split
  · exact h
  · exact State.memoryWf_hbmLoad h g

theorem State.memoryWf_hbmPut {s : State} (h : s.memoryWf = true) (g : Nat) (data : List Byte) (poison : Bool) :
    (s.hbmPut g data poison).memoryWf = true := by
  unfold State.hbmPut
  split
  · exact State.memoryWf_hbmRewrite (State.memoryWf_xtsFault h _ _) _ _ _
  · exact State.memoryWf_hbmRewrite h _ _ _

theorem State.memoryWf_memPut {s : State} (h : s.memoryWf = true) (g : Nat) (data : List Byte) (poison : Bool) :
    (s.memPut g data poison).memoryWf = true := State.memoryWf_syncCopy (State.memoryWf_hbmPut h _ _ _) _ _

theorem State.memoryWf_hbmStoreGranule {s : State} (h : s.memoryWf = true) (g lo : Nat) (data : List Byte) (poison : Bool) :
    (s.hbmStoreGranule g lo data poison).memoryWf = true := by
  simp only [State.hbmStoreGranule]
  split
  · exact State.memoryWf_memPut h _ _ _
  · exact State.memoryWf_memPut (State.memoryWf_memLoad h g) _ _ _

theorem State.memoryWf_hbmStoreAux (fuel : Nat) : ∀ {s : State} (off : Nat) (bs : List Byte) (p : Bool), s.memoryWf = true →
    (State.hbmStoreAux fuel s off bs p).memoryWf = true := by
  induction fuel with
  | zero => intro s off bs p h; exact h
  | succ n ih =>
    intro s off bs p h
    cases bs with
    | nil => exact h
    | cons b bs => exact ih _ _ _ (State.memoryWf_hbmStoreGranule h _ _ _ _)

/-- A store to HBM keeps the canonical form. -/
theorem State.memoryWf_hbmStore {s : State} (h : s.memoryWf = true) (off : Nat) (bs : List Byte) (poison : Bool) :
    (s.hbmStore off bs poison).memoryWf = true := State.memoryWf_hbmStoreAux _ _ _ _ h

theorem State.memoryWf_hbmLoads (n : Nat) : ∀ {s : State} (g : Nat), s.memoryWf = true →
    (State.hbmLoads n s g).2.2.memoryWf = true := by
  induction n with
  | zero => intro s g h; exact h
  | succ n ih => intro s g h; exact ih _ (State.memoryWf_memLoad h g)

/-- A read of HBM keeps the canonical form. -/
theorem State.memoryWf_hbmFetch {s : State} (h : s.memoryWf = true) (off n : Nat) : (s.hbmFetch off n).2.2.memoryWf = true :=
  State.memoryWf_hbmLoads _ _ h

theorem State.memoryWf_hbmScrubGranule {s : State} (h : s.memoryWf = true) (g : Nat) (bySweep : Bool) :
    (s.hbmScrubGranule g bySweep).2.memoryWf = true := by
  simp only [State.hbmScrubGranule]
  split
  · exact State.memoryWf_ite (State.memoryWf_hbmRewrite h _ _ _) h
  · exact State.memoryWf_hbmRewrite h _ _ _
  · exact State.memoryWf_hbmRewrite (State.memoryWf_count h _ _) _ _ _
  · exact State.memoryWf_fault (State.memoryWf_hbmRewrite (State.memoryWf_count h _ _) _ _ _) _ _ _ _ _

theorem State.memoryWf_fillCopies {s : State} (h : s.memoryWf = true) (a b : Nat) : (s.fillCopies a b).memoryWf = true :=
  State.memoryWf_of_eq h rfl rfl rfl

/-- A sweep keeps the canonical form. -/
theorem State.memoryWf_sweepRange {s : State} (h : s.memoryWf = true) (fill : Bool) (a b : Nat) :
    (s.sweepRange fill a b).memoryWf = true := by
  unfold State.sweepRange
  split
  · rw [State.memoryWf_iff] at h ⊢
    obtain ⟨h1, h2, h3, h4, h5⟩ := h
    exact ⟨h1, Sparse.wf_filter h2 (fun e => !(decide (a ≤ e.1) && decide (e.1 < b))),
      Sparse.wf_filter h3 (fun e => !(decide (a ≤ 32 * e.1) && decide (32 * e.1 < b))),
      Sparse.wf_filter h4 (fun e => !(decide (a ≤ 32 * e.1) && decide (32 * e.1 < b))), h5⟩
  · exact State.memoryWf_foldl (fun (s : State) (e : Nat × SymbolErrors) => (s.hbmScrubGranule e.1 true).2)
      (fun s e hs => State.memoryWf_hbmScrubGranule hs e.1 true) _ h

/-! ### The plate store -/

theorem State.memoryWf_plateRewrite {s : State} (h : s.memoryWf = true) (g : Nat) (x : Granule) :
    (s.plateRewrite g x).memoryWf = true := by
  rw [State.memoryWf_iff] at h ⊢
  exact ⟨h.1, h.2.1, h.2.2.1, h.2.2.2.1, Sparse.wf_setBytes _ _ _ _ h.2.2.2.2.1, Sparse.wf_set h.2.2.2.2.2 _ _⟩

theorem State.memoryWf_plateLoad {s : State} (h : s.memoryWf = true) (g : Nat) : (s.plateLoad g).2.memoryWf = true :=
  State.memoryWf_checkPoint (State.memoryWf_takeInjection h 9 0) _ _ _ _ _ _ _

theorem State.memoryWf_plateStoreGranule {s : State} (h : s.memoryWf = true) (g lo : Nat) (data : List Byte) (poison : Bool) :
    (s.plateStoreGranule g lo data poison).memoryWf = true := by
  simp only [State.plateStoreGranule]
  exact State.memoryWf_ite (State.memoryWf_plateRewrite h _ _) (State.memoryWf_plateRewrite h _ _)

theorem State.memoryWf_discardArray {s : State} (h : s.memoryWf = true) : s.discardArray.memoryWf = true := by
  unfold State.discardArray State.setArray
  apply State.memoryWf_setReg
  rw [State.memoryWf_iff] at h ⊢
  exact ⟨h.1, h.2.1, h.2.2.1, h.2.2.2.1, rfl, rfl⟩

/-! ### One byte after a write -/

/-- A byte of HBM after a granule is rewritten. -/
theorem State.hbmByte_hbmRewrite (s : State) (g : Nat) (data : List Byte) (poison : Bool) (a : Nat) :
    (s.hbmRewrite g data poison).hbmByte a =
      if h : 32 * g ≤ a ∧ a < 32 * g + data.length then data[a - 32 * g]'(by omega) else s.hbmByte a :=
  Sparse.get_setBytes _ _ _ _ _

/-- Bytes outside a rewritten granule read as before. -/
theorem State.hbmByte_hbmRewrite_outside (s : State) (g : Nat) (data : List Byte) (poison : Bool) {a : Nat}
    (h : a < 32 * g ∨ 32 * g + data.length ≤ a) : (s.hbmRewrite g data poison).hbmByte a = s.hbmByte a :=
  Sparse.get_setBytes_outside _ _ _ _ h

/-- A rewritten granule reads back. -/
theorem State.hbmBytes_hbmRewrite (s : State) (g : Nat) (data : List Byte) (poison : Bool) :
    (s.hbmRewrite g data poison).hbmBytes (32 * g) data.length = data := Sparse.getBytes_setBytes _ _ _ _

@[simp] theorem State.setReg_hbmByte (s : State) (r : Nat) (v : Word) (a : Nat) : (s.setReg r v).hbmByte a = s.hbmByte a := rfl
@[simp] theorem State.put_hbmByte (s : State) (f : RField) (v a : Nat) : (s.put f v).hbmByte a = s.hbmByte a := rfl
@[simp] theorem State.emit_hbmByte (s : State) (e : Emission) (a : Nat) : (s.emit e).hbmByte a = s.hbmByte a := rfl

end Sys2Proof.Machine
end

