-- ==== Sys2Proof/Laws/Run.lean ====
section
/-!
SUPPORT. How a command runs: the outcome of a command on a clocked device is its effect, settled; and a register write that
discards nothing is the register's own rule and the answer.
-/
namespace Sys2Proof.Machine

/-- A command that cannot be refused answers its effect, settled. -/
theorem runCmd_of_eq {s t : State} {f : State → State} (h : s.stopped = false) (ht : f s.fresh = t) :
    runCmd s f = .next t.settled := by
  subst ht
  simp [runCmd, State.runOn, h]

/-- A command on the RESET_N pin answers its effect with the status fields brought up to date. -/
theorem runPin_of_eq {s t : State} {f : State → State} (ht : f s.fresh = t) : runPin s f = .next t.seal := by
  subst ht
  rfl

/-- A stopped device takes nothing but RESET_N. -/
theorem runCmd_of_stopped {s : State} {f : State → State} (h : s.stopped = true) : runCmd s f = .next s.fresh := by
  simp [runCmd, State.runOn, h]

/-- A write that reaches the register's own rule with nothing discarded is that rule, answered. -/
theorem State.pathWrite_of_open {s s' : State} {p : Path} {a t i off : Nat} {data : Word} {aux : Option Nat}
    (ho : s.writeOpen p a data = true) (hp : pageOf a = some (t, i, off))
    (hk : regHook data aux t i off s (s.writeOf p a data) = s') : s.pathWrite p a data aux = s'.written p := by
  unfold State.writeOpen at ho
  unfold State.writeOf at hk
  unfold State.pathWrite State.regWrite State.written
  cases hr : s.regAt a with
  | none => simp [hr] at ho
  | some v =>
    obtain ⟨t', i', off', fs⟩ := v
    have hv : t' = t ∧ i' = i ∧ off' = off := by
      unfold State.regAt at hr
      rw [hp] at hr
      cases hf : regFields a with
      | none => simp [hf] at hr
      | some l =>
        simp only [hf] at hr
        split at hr
        · simp only [Option.some.injEq, Prod.mk.injEq] at hr
          exact ⟨hr.1.symm, hr.2.1.symm, hr.2.2.1.symm⟩
        · cases hr
    obtain ⟨rfl, rfl, rfl⟩ := hv
    simp only [hr, Bool.and_eq_true, Bool.not_eq_true', beq_iff_eq] at ho hk ⊢
    obtain ⟨⟨h1, h2⟩, ⟨h3, h5⟩, h4⟩ := ho
    simp [h1, h2, h3, h5, hk, h4]

/-- The same of a command that writes a register. -/
theorem runCmd_pathWrite_of_open {s s' : State} {p : Path} {a t i off : Nat} {data : Word} {aux : Option Nat}
    (h : s.stopped = false) (ho : s.writeOpen p a data = true) (hp : pageOf a = some (t, i, off))
    (hk : regHook data aux t i off s.fresh (s.writeOf p a data) = s') :
    runCmd s (fun s => s.pathWrite p a data aux) = .next (s'.written p).settled :=
  runCmd_of_eq h (State.pathWrite_of_open ho hp hk)

/-- The page and offset of an address, by its page number. -/
theorem pageOf_of_eq {a pg off t i : Nat} (ha : a = 0x1000000 + 0x1000 * pg + off) (ho : off < 0x1000) (ht : pg / 16 = t)
    (hi : pg % 16 = i) (h0 : t ≠ 0) (h7 : t ≠ 7) (h17 : t ≠ 0x17) (hb : (pageBlock t i).isSome = true) :
    pageOf a = some (t, i, off) := by
  have h1 : ¬ a < 0x1000000 := by omega
  have h2 : a % 0x1000 = off := by omega
  have h3 : (a - 0x1000000) / 0x1000 = pg := by omega
  unfold pageOf
  simp only [h1, h2, h3, ht, hi, h0, h7, h17, if_false]
  cases h : pageBlock t i with
  | none => simp [h] at hb
  | some _ => rfl

/-- The pages of end-points 16 to 20 and of the attach ports have other block types than their page numbers say. -/
theorem pageOf_of_rep {a i off : Nat} (ha : a = 0x1070000 + 0x1000 * i + off) (ho : off < 0x1000) (hi : i ≤ 4) :
    pageOf a = some (6, 16 + i, off) := by
  have h1 : ¬ a < 0x1000000 := by omega
  have h2 : a % 0x1000 = off := by omega
  have h3 : (a - 0x1000000) / 0x1000 = 0x70 + i := by omega
  have h4 : (0x70 + i) / 16 = 7 := by omega
  have h5 : (0x70 + i) % 16 = i := by omega
  unfold pageOf
  simp only [h1, h2, h3, h4, h5, hi, if_true, if_false]

theorem pageOf_of_att {a i off : Nat} (ha : a = 0x1170000 + 0x1000 * i + off) (ho : off < 0x1000) (hi : i < 16) :
    pageOf a = some (7, i, off) := by
  have h1 : ¬ a < 0x1000000 := by omega
  have h2 : a % 0x1000 = off := by omega
  have h3 : (a - 0x1000000) / 0x1000 = 0x170 + i := by omega
  have h4 : (0x170 + i) / 16 = 0x17 := by omega
  have h5 : (0x170 + i) % 16 = i := by omega
  unfold pageOf
  simp only [h1, h2, h3, h4, h5, if_true, if_false]
  rfl

end Sys2Proof.Machine
end

