-- ==== Sys2Proof/Tests/Slice0.lean ====
section
/-!
SUPPORT. Tests. For every statement about commands, states that meet its hypotheses, clause by clause (test_<Name>_met); for
every check of WellFormed, a command that it refuses; and single steps whose results the spec gives.
-/
open Sys2Proof Sys2Proof.Machine

namespace Sys2Proof.Tests

set_option linter.unusedVariables false
set_option maxRecDepth 100000
set_option Elab.async false

/-- The outcome is a next state. -/
def isNext : Host.Outcome State Fault Refusal → Bool
  | .next _ => true
  | .fault _ => false
  | .refused _ => false

theorem nextIs {o : Host.Outcome State Fault Refusal} (h : isNext o = true) : ∃ t, o = .next t := by
  cases o <;> first | exact ⟨_, rfl⟩ | cases h

theorem someOf {α : Type} {e : Option α} (h : e.isSome = true) : e = some (e.get h) := by
  cases e <;> first | rfl | cases h


/-- A state after reset with some fields set. -/
def having (l : List (RField × Nat)) : State := l.foldl (fun s e => s.put e.1 e.2) State.reset
/-- That state with a lane set. -/
def withLane (s : State) (n : Nat) (l : PipLane) : State := s.setLane n l
/-- That state with an end-point set. -/
def withEp (s : State) (n : Nat) (e : EpState) : State := s.setEp n e
/-- A frame of an opcode. -/
def frameOf (op : Nat) : Frame := { opcode := op }
/-- A tracker of queue 16 for a frame that has been sent. -/
def trackerOf (f : Frame) : Tracker :=
  { ep := 1, queue := 16, slot := 3, frame := { f with tag := 8195 }, origin := .none, order := 1, gen := 0, takenAt := 0, sent := true }
/-- A state with bytes in HBM. -/
def withHbm (s : State) (a : Nat) (b : List Byte) : State :=
  { s with hbm := { s.hbm with bytes := Sparse.setBytes (fun _ => 0) s.hbm.bytes a b } }
/-- A send queue 480 with one descriptor `d` waiting at HBM offset 0x100000, and a granule of data at 0x2000. -/
def sending (d : List Byte) : State :=
  withHbm (withHbm (having [(F.HBM_STAT_INIT_DONE, 1), (F.MSG_Q_CFG_EN 480, 1), (F.MSG_Q_RING_BASE 480, 0x100), (F.MSG_Q_IDX_TAIL 480, 1)])
    0x100000 d) 0x2000 (List.replicate 32 7)
/-- A send descriptor (Table 4-7). -/
def sendDesc (dst len addr : Nat) : List Byte :=
  toBytesLE 4 dst ++ [3, 0, 0, 0] ++ toBytesLE 4 len ++ toBytesLE 4 0 ++ toBytesLE 8 addr ++ toBytesLE 8 0
/-- A slot of an operation descriptor (Table 6-2). -/
def slotBytes (addr extent fmt role : Nat) : List Byte :=
  toBytesLE 8 addr ++ toBytesLE 4 extent ++ [BitVec.ofNat 8 fmt, BitVec.ofNat 8 role, 0, 0]
/-- An operation descriptor with its slots and parameters (Table 6-2). -/
def opDesc (op : Byte) (slots params : List Byte) : List Byte :=
  let d := [op] ++ List.replicate 23 0 ++ slots
  let e := d ++ List.replicate (104 - d.length) 0 ++ params
  e ++ List.replicate (128 - e.length) 0
/-- COPY of two granules within HBM. -/
def copyDesc : List Byte := opDesc 0x11 (slotBytes 0x2000 2 2 1 ++ slotBytes 0x4000 2 2 2) []
/-- COPY of two granules of another member's HBM. -/
def farDesc : List Byte := opDesc 0x11 (slotBytes (5 * 2 ^ 57 + 0x2000) 2 2 1 ++ slotBytes 0x4000 2 2 2) []
/-- UNION of two lists of U64 keys, one of another member. -/
def unsorted : List Byte :=
  opDesc 0x08 (slotBytes (5 * 2 ^ 57 + 0x2000) 1 0x81 1 ++ slotBytes 0x3000 1 0x81 1 ++ slotBytes 0x4000 2 0x81 2) (toBytesLE 8 4 ++ toBytesLE 8 4)
/-- GATHER_GEMM of one piece, which is read from another member. -/
def gatherDesc : List Byte :=
  opDesc 0x0F (slotBytes 0x2000 1 2 1 ++ slotBytes 0x3000 1 2 1 ++ slotBytes 0x5000 1 0 6 ++ slotBytes 0x4000 1 2 2)
    (toBytesLE 4 1 ++ toBytesLE 4 1 ++ toBytesLE 4 1 ++ [1, 0, 0, 0] ++ toBytesLE 8 9)
/-- A collective descriptor (Table 9-1): operation, flags, formats FP32, CSEQ, element count, SRC_ADDR, DST_ADDR and extent. -/
def colDesc (op flags cseq count src dst ext : Nat) : List Byte :=
  let d := [BitVec.ofNat 8 op, BitVec.ofNat 8 flags, 0, 0, 2, 2, 0, 0] ++ toBytesLE 4 cseq ++ List.replicate 12 0 ++ toBytesLE 8 count
  let e := d ++ List.replicate (72 - d.length) 0 ++ toBytesLE 8 src ++ toBytesLE 8 dst ++ toBytesLE 4 ext
  e ++ List.replicate (128 - e.length) 0
/-- A collective queue 384 with one descriptor waiting at HBM offset 0x100000; two members, this one rank 0. -/
def collecting (d : List Byte) (l : List (RField × Nat)) : State :=
  withHbm (having ([(F.HBM_STAT_INIT_DONE, 1), (F.COL_Q_CFG_EN 384, 1), (F.COL_Q_RING_BASE 384, 0x100), (F.COL_Q_IDX_TAIL 384, 1),
    (F.COL_CTL_EN, 1), (F.COL_TOPO_VALID, 1), (F.COL_TOPO_N, 2), (F.COL_TOPO_D, 1)] ++ l)) 0x100000 d
/-- An active collective of two members, this one rank 0. -/
def runningColl (d : List Byte) : Coll :=
  { queue := 384, index := 0, desc := d, n := 2, d := 1, rank := 0, dom := 0, step := .data, since := 0 }
/-- A frame of rank 1 of its stream to this member. -/
def colFrameOf (op tag phase goff : Nat) (g : List Granule) : Frame :=
  { opcode := op, src := 32 + 18, dst := 18, addr := colAddr tag phase 0 goff, gran := g }
/-- A state in which that collective is active and a frame waits at its end-point. -/
def collWith (c : Coll) (f : List Frame) : State :=
  withEp { (having [(F.HBM_STAT_INIT_DONE, 1), (F.COL_TOPO_VALID, 1), (F.COL_TOPO_N, 2), (F.COL_TOPO_D, 1), (F.COL_TOPO_CONSEC, 1)]) with
    col := { active := [c] } } 18 { service := f }
/-- A state with a frame of class bulk on its way through the switch core. -/
def bulkAt (e num : Nat) : SwFrame := { frame := { opcode := 1, vc := 3, gran := [] }, egress := e, num := num }
/-- A STORE move list 3 with one entry. -/
def storeList (ahead : List MoveEntry) : MoveList :=
  { mlist := 3, collective := false, queue := 16, start := 5000, base := 0x3000, entries := 2, ahead := ahead, read := ahead.length }
/-- An entry of it: offset 0, port 4, one granule, to HBM of member 5. -/
def moveEntry (p : Bool) : MoveEntry :=
  { bytes := toBytesLE 5 0 ++ [4, 1, 0] ++ toBytesLE 8 (5 * 2 ^ 57 + 0x2000) ++ toBytesLE 8 0x2000 ++ toBytesLE 8 0, poison := p, readAt := 0 }
/-- A chain frame of a body, with its CRC. -/
def chained (b : List Byte) : List Byte := b ++ toBytesLE 2 (crc16 b)
/-- A valid carrier identity memory (Table 19-2) of zeros: rack 0, domain 0. -/
def cimImage : List Byte :=
  let b := toBytesLE 4 0x49435854 ++ [1] ++ List.replicate 503 0
  b ++ toBytesLE 4 (crc32 b)
/-- K28.5 at negative running disparity, first bit first. -/
def commaBits : List Bool := [false, false, true, true, true, true, true, false, true, false]

theorem test_TurnTimeCommandsComplete_met :
    (∃ (s : State) (e : State),
      s.fresh.turnEvents = e ∧ s.stopped = false ∧ e.counting = true ∧ e.pip.load = none) ∧
    (∃ (s : State) (e : State) (v : Word),
      s.fresh.turnEvents = e ∧ s.stopped = false ∧ e.pip.load = some v) ∧
    (∃ (s : State),
      s.stopped = false ∧ s.flag F.TRN_STAT_ALIGNED = true ∧ s.now % 1000 = 0) ∧
    (∃ (s : State) (lane : Fin 16) (bytes : List Byte) (d : List Byte) (frac : Fin 1024),
      s.stopped = false ∧ s.laneIsUp lane = true ∧ checkCrc 9 bytes = some d ∧ s.follower = true ∧ s.priUp = some lane.val ∧ s.upLane = some lane.val ∧ s.flag F.TRN_STAT_SYNC_LOST = false ∧ s.pip.loaded = false ∧ s.flag F.TRN_STAT_LOCKED = true ∧ 16 ≤ (s.lane lane).echos ∧ s.farLoop lane = false ∧ s.nearLoop lane = false) ∧
    (∃ (s : State) (n : Nat),
      s.stopped = false ∧ s.follower = true ∧ s.counting = true ∧ s.now % 1000 = 500 ∧ s.priUp = some n ∧ s.altUp = none ∧ s.laneIsUp n = true) ∧
    (∃ (s : State) (lane : Fin 16) (bytes : List Byte) (d : List Byte) (hold : BitVec 32),
      s.stopped = false ∧ s.laneIsUp lane = true ∧ checkCrc 1 bytes = some d ∧ s.farLoop lane = false ∧ s.nearLoop lane = false) ∧
    (∃ (s : State) (lane : Fin 16) (bytes : List Byte) (d : List Byte) (frac : Fin 1024) (e : Nat) (t1 : Nat),
      s.stopped = false ∧ s.laneIsUp lane = true ∧ checkCrc 5 bytes = some d ∧ (s.lane lane).echo = some (e, t1) ∧ e = bytesAt d 0 1 ∧ s.upLane = some lane.val ∧ s.farLoop lane = false ∧ s.nearLoop lane = false) ∧
    (∃ (s : State) (n : Nat),
      s.stopped = false ∧ s.upLane = some n ∧ s.follower = true ∧ s.laneIsUp n = true ∧ s.flag F.TRN_STAT_LOCKED = false) ∧
    (∃ (s : State) (n : Nat),
      s.stopped = false ∧ s.upLane = some n ∧ s.follower = true ∧ s.laneIsUp n = true ∧ s.flag F.TRN_STAT_ALIGNED = false ∧ s.flag F.TRN_STAT_SYNC_LOST = false ∧ (s.lane n).upAt + 1000000 ≤ s.clk) ∧
    (∃ (s : State) (p : Nat) (a : Nat),
      s.stopped = false ∧ s.priUp = some p ∧ s.altUp = some a ∧ s.follower = true ∧ s.flag F.TRN_STAT_ALT_IN_USE = false ∧ s.laneIsUp a = true ∧ s.laneIsUp p = false ∧ (s.lane a).delays ≠ []) :=
  ⟨⟨({ State.reset with counting := true, turn := 7 }), _, rfl, by decide +kernel⟩,
   ⟨({ State.reset with pip := { load := some 100 } }), _, (100), rfl, by decide +kernel⟩,
   ⟨({ ((having [(F.TRN_STAT_ALIGNED, 1), (F.TRN_STAT_HOPS, 3), (F.PIP_STAT_UP 4, 1), (F.PIP_CTL_USE 4, 1)])) with turn := 2000 }), by decide +kernel⟩,
   ⟨({ ((having [(F.PIP_STAT_UP 2, 1), (F.PIP_STAT_ALIGNED 2, 1), (F.PIP_CTL_USE 2, 1), (F.TRN_CTL_ROLE, 1), (F.TRN_CTL_PRI_UP, 2), (F.TRN_STAT_LOCKED, 1)]).setLane 2 { echos := 16 }) with clk := 77 }), (2), (withCrc (toBytesLE 9 0x0100000000000007d0)), (toBytesLE 9 0x0100000000000007d0), (9), by decide +kernel⟩,
   ⟨({ (having [(F.PIP_STAT_UP 2, 1), (F.PIP_STAT_ALIGNED 2, 1), (F.PIP_CTL_USE 2, 1), (F.TRN_CTL_ROLE, 1), (F.TRN_CTL_PRI_UP, 2), (F.TRN_STAT_LOCKED, 1)]) with counting := true, turn := 1500, clk := 1600 }), (2), by decide +kernel⟩,
   ⟨(((having [(F.PIP_STAT_UP 2, 1), (F.PIP_STAT_ALIGNED 2, 1), (F.PIP_CTL_USE 2, 1)]).setLane 2 { rx := [] })), (2), (withCrc [9]), ([9]), (77), by decide +kernel⟩,
   ⟨({ ((having [(F.PIP_STAT_UP 2, 1), (F.PIP_STAT_ALIGNED 2, 1), (F.PIP_CTL_USE 2, 1), (F.TRN_CTL_ROLE, 1), (F.TRN_CTL_PRI_UP, 2), (F.TRN_STAT_LOCKED, 1)]).setLane 2 { echo := some (9, 1000), delays := [50, 60] }) with clk := 10 }), (2), (withCrc [9, 100, 0, 0, 0]), ([9, 100, 0, 0, 0]), (5), (9), (1000), by decide +kernel⟩,
   ⟨((having [(F.PIP_STAT_UP 2, 1), (F.PIP_STAT_ALIGNED 2, 1), (F.PIP_CTL_USE 2, 1), (F.TRN_CTL_ROLE, 1), (F.TRN_CTL_PRI_UP, 2)])), (2), by decide +kernel⟩,
   ⟨({ (having [(F.PIP_STAT_UP 2, 1), (F.PIP_STAT_ALIGNED 2, 1), (F.PIP_CTL_USE 2, 1), (F.TRN_CTL_ROLE, 1), (F.TRN_CTL_PRI_UP, 2), (F.TRN_STAT_LOCKED, 1)]) with clk := 1000000 }), (2), by decide +kernel⟩,
   ⟨(((having [(F.TRN_CTL_ROLE, 1), (F.TRN_CTL_PRI_UP, 2), (F.TRN_CTL_ALT_UP, 3), (F.PIP_STAT_UP 3, 1)]).setLane 3 { delays := [10, 30] })), (2), (3), by decide +kernel⟩⟩

theorem test_PipLaneCommandsComplete_met :
    (∃ (s : State) (lane : Fin 16) (bits : List Bool) (b : List Bool) (rd : Bool),
      s.stopped = false ∧ s.flag (F.PIP_CTL_EN lane) = true ∧ s.flag (F.PIP_STAT_ALIGNED lane) = false ∧ s.nearLoop lane = false ∧ fromComma bits = some (rd, b)) ∧
    (∃ (s : State) (lane : Fin 16) (f : PipFrame) (rest : List PipFrame),
      s.stopped = false ∧ (s.lane lane).rx = f :: rest ∧ f.type = 0x01 ∧ f.data.length = 3) ∧
    (∃ (s : State) (lane : Fin 16),
      s.stopped = false ∧ s.flag (F.PIP_STAT_ALIGNED lane) = true ∧ s.nearLoop lane = false) ∧
    (∃ (s : State) (lane : Fin 16) (groups : List (BitVec 10)) (at_ : Nat) (n : Nat),
      s.stopped = false ∧ s.flag (F.PIP_STAT_ALIGNED lane) = true ∧ s.farLoop lane = false ∧ s.nearLoop lane = false ∧ (s.lane lane).violations = [(at_, n)] ∧ s.clk < at_ + 1000 ∧ 16 ≤ n + ((decodeGroups (s.lane lane).rdRx groups).1.filter isViolation).length ∧ 0 < ((decodeGroups (s.lane lane).rdRx groups).1.filter isViolation).length) ∧
    (∃ (s : State) (lane : Fin 16) (u : PipUnacked),
      s.stopped = false ∧ (s.lane lane).unacked.find? (fun u => decide (4 ≤ u.retries)) = some u) ∧
    (∃ (s : State) (lane : Fin 16) (bytes : List Byte) (f : PipFrame),
      s.stopped = false ∧ s.flag (F.PIP_STAT_ALIGNED lane) = true ∧ pipParse bytes = some ((s.lane lane).rxSeq, f) ∧ pipTypes.contains f.type = true ∧ s.farLoop lane = false ∧ s.nearLoop lane = false) ∧
    (∃ (s : State) (lane : Fin 16) (seq : Byte) (before : List PipUnacked) (rest : List PipUnacked) (u : PipUnacked),
      s.stopped = false ∧ (s.lane lane).unacked = before ++ u :: rest ∧ u.seq = seq.toNat ∧ before.all (fun x => x.seq != seq.toNat) = true ∧ s.farLoop lane = false ∧ s.nearLoop lane = false) ∧
    (∃ (s : State) (lane : Fin 16) (seq : Byte) (rest : List PipUnacked) (u : PipUnacked),
      s.stopped = false ∧ (s.lane lane).unacked = u :: rest ∧ u.seq = seq.toNat ∧ (s.lane lane).identAcked = true ∧ s.farLoop lane = false ∧ s.nearLoop lane = false) ∧
    (∃ (s : State) (lane : Fin 16),
      s.stopped = false ∧ (s.lane lane).unacked ≠ [] ∧ (s.lane lane).again = [] ∧ (s.lane lane).timer + 64 ≤ s.clk) ∧
    (∃ (s : State) (lane : Fin 16) (bytes : List Byte) (frac : Fin 1024) (hold : BitVec 32) (seq : Byte) (bits : List Bool) (groups : List (BitVec 10)),
      s.stopped = false ∧ s.nearLoop lane = true) ∧
    (∃ (s : State) (lane : Fin 16) (bytes : List Byte) (frac : Fin 1024) (hold : BitVec 32) (seq : Byte),
      s.stopped = false ∧ s.farLoop lane = true) :=
  ⟨⟨(having [(F.PIP_CTL_EN 2, 1), (F.MGT_ID_VALID, 1)]), (2), ((true :: commaBits)), (commaBits), (false), by decide +kernel⟩,
   ⟨(((having [(F.PIP_STAT_UP 2, 1), (F.PIP_STAT_ALIGNED 2, 1), (F.PIP_CTL_USE 2, 1)]).setLane 2 { rx := [{ type := 1, data := [3, 4, 5] }] })), (2), ({ type := 1, data := [3, 4, 5] }), ([]), by decide +kernel⟩,
   ⟨(((having [(F.PIP_STAT_UP 2, 1), (F.PIP_STAT_ALIGNED 2, 1), (F.PIP_CTL_USE 2, 1)]).setLane 2 { rx := [] })), (2), by decide +kernel⟩,
   ⟨(((having [(F.PIP_STAT_ALIGNED 2, 1)]).setLane 2 { violations := [(0, 10)] })), (2), ((List.replicate 6 0)), (0), (10), by decide +kernel⟩,
   ⟨(((having []).setLane 2 { unacked := [{ seq := 1, urgent := false, bytes := [], retries := 4 }] })), (2), ({ seq := 1, urgent := false, bytes := [], retries := 4 }), by decide +kernel⟩,
   ⟨(((having [(F.PIP_STAT_UP 2, 1), (F.PIP_STAT_ALIGNED 2, 1), (F.PIP_CTL_USE 2, 1)]).setLane 2 { rx := [] })), (2), (PipFrame.bytes { type := 0x10, op := 1, data := [4] } 0), ({ type := 0x10, op := 1, data := [4] }), by decide +kernel⟩,
   ⟨((State.reset.setLane 2 { unacked := [{ seq := 1, urgent := false, bytes := [], retries := 0 }, { seq := 2, urgent := false, bytes := [], retries := 0 }] })), (2), (2), ([{ seq := 1, urgent := false, bytes := [], retries := 0 }]), ([]), ({ seq := 2, urgent := false, bytes := [], retries := 0 }), by decide +kernel⟩,
   ⟨((State.reset.setLane 2 { identAcked := true, unacked := [{ seq := 1, urgent := false, bytes := [], retries := 0 }, { seq := 2, urgent := false, bytes := [], retries := 0 }] })), (2), (1), ([{ seq := 2, urgent := false, bytes := [], retries := 0 }]), ({ seq := 1, urgent := false, bytes := [], retries := 0 }), by decide +kernel⟩,
   ⟨({ (State.reset.setLane 2 { unacked := [{ seq := 1, urgent := false, bytes := [], retries := 0 }] }) with clk := 64 }), (2), by decide +kernel⟩,
   ⟨(((having [(F.PIP_STAT_UP 2, 1), (F.PIP_STAT_ALIGNED 2, 1), (F.PIP_CTL_USE 2, 1)]).setLane 2 { rx := [] }).put (F.PIP_CTL_LOOP 2) 1), (2), (withCrc [5, 0, 1]), (3), (7), (1), (commaBits), ([0x0FA]), by decide +kernel⟩,
   ⟨(((having [(F.PIP_STAT_UP 2, 1), (F.PIP_STAT_ALIGNED 2, 1), (F.PIP_CTL_USE 2, 1)]).setLane 2 { rx := [] }).put (F.PIP_CTL_LOOP 2) 2), (2), (withCrc [5, 0, 1]), (3), (7), (1), by decide +kernel⟩⟩

theorem test_PresenceCommandsComplete_met :
    (∃ (s : State) (n : Nat),
      s.stopped = false ∧ s.upLane = some n ∧ s.follower = true ∧ s.flag F.TRN_STAT_ALIGNED = true ∧ s.pip.hbStopped = false ∧ s.laneIsUp n = true ∧ 0 < s.get F.TRN_HB_HB_PERIOD ∧ s.now % s.get F.TRN_HB_HB_PERIOD = 0) ∧
    (∃ (s : State) (lane : Fin 16) (bytes : List Byte) (d : List Byte),
      s.stopped = false ∧ s.laneIsUp lane = true ∧ s.isUpstream lane = false ∧ checkCrc 3 bytes = some d ∧ bytesAt d 1 1 = s.domain ∧ (s.lane lane).kids.find? (fun k => k.member == bytesAt d 0 1 % 128) = none ∧ s.farLoop lane = false ∧ s.nearLoop lane = false) ∧
    (∃ (s : State) (lane : Fin 16) (k : Kid),
      s.stopped = false ∧ s.flag F.TRN_STAT_ALIGNED = true ∧ 0 < s.get F.TRN_HB_HB_PERIOD ∧ s.now % s.get F.TRN_HB_HB_PERIOD = 0 ∧ (s.lane lane).kids = [k] ∧ k.lastHb + s.get F.TRN_HB_HB_PERIOD < s.clk ∧ k.judged < s.clk ∧ k.missed + 1 = s.get F.TRN_HB_HB_MISS) ∧
    (∃ (s : State) (lane : Fin 16) (f : PipFrame) (rest : List PipFrame),
      s.stopped = false ∧ (s.lane lane).rx = f :: rest ∧ f.type = 0x02 ∧ f.srcDomain = s.domain ∧ s.isUpstream lane = true ∧ s.flag F.TRN_CTL_DOM_ROOT = false ∧ bytesAt f.data 1 1 = 0) ∧
    (∃ (s : State) (lane : Fin 16) (f : PipFrame) (rest : List PipFrame),
      s.stopped = false ∧ (s.lane lane).rx = f :: rest ∧ f.type = 0x02 ∧ f.srcDomain = s.domain ∧ s.isUpstream lane = false ∧ s.flag F.TRN_CTL_DOM_ROOT = false) ∧
    (∃ (s : State) (due : Nat),
      s.stopped = false ∧ s.pip.sweepDue = some due ∧ due ≤ s.clk ∧ s.flag F.TRN_CTL_DOM_ROOT = true) ∧
    (∃ (s : State) (p : Path) (data : Word),
      s.stopped = false ∧ s.writeOpen p Reg.TRN_CTL data = true) ∧
    (∃ (s : State) (p : Path) (data : Word),
      s.stopped = false ∧ s.writeOpen p Reg.TRN_CTL data = true) ∧
    (∃ (s : State) (p : Path) (data : Word),
      s.stopped = false ∧ s.writeOpen p Reg.TRN_CTL data = true) :=
  ⟨⟨((having [(F.PIP_STAT_UP 2, 1), (F.PIP_STAT_ALIGNED 2, 1), (F.PIP_CTL_USE 2, 1), (F.TRN_CTL_ROLE, 1), (F.TRN_CTL_PRI_UP, 2), (F.TRN_STAT_LOCKED, 1)]).put F.TRN_STAT_ALIGNED 1), (2), by decide +kernel⟩,
   ⟨(((having [(F.PIP_STAT_UP 2, 1), (F.PIP_STAT_ALIGNED 2, 1), (F.PIP_CTL_USE 2, 1)]).setLane 2 { rx := [] })), (2), (withCrc [5, 0, 1]), ([5, 0, 1]), by decide +kernel⟩,
   ⟨({ (((having [(F.PIP_STAT_UP 2, 1), (F.PIP_STAT_ALIGNED 2, 1), (F.PIP_CTL_USE 2, 1)]).setLane 2 { rx := [] }).put F.TRN_STAT_ALIGNED 1).setLane 2 { kids := [{ member := 5, lastHb := 0, missed := 15 }] } with clk := 512, turn := 512 }), (2), ({ member := 5, lastHb := 0, missed := 15 }), by decide +kernel⟩,
   ⟨(((having [(F.PIP_STAT_UP 2, 1), (F.PIP_STAT_ALIGNED 2, 1), (F.PIP_CTL_USE 2, 1), (F.TRN_CTL_ROLE, 1), (F.TRN_CTL_PRI_UP, 2), (F.TRN_STAT_LOCKED, 1)]).setLane 2 { rx := [{ type := 2, data := [5, 0] }] })), (2), ({ type := 2, data := [5, 0] }), ([]), by decide +kernel⟩,
   ⟨(((having [(F.PIP_STAT_UP 2, 1), (F.PIP_STAT_ALIGNED 2, 1), (F.PIP_CTL_USE 2, 1)]).setLane 2 { rx := [{ type := 2, data := [5, 0] }] })), (2), ({ type := 2, data := [5, 0] }), ([]), by decide +kernel⟩,
   ⟨({ (having [(F.TRN_CTL_DOM_ROOT, 1)]).setPresent 6 with pip := { sweepDue := some 0 } }), (0), by decide +kernel⟩,
   ⟨({ State.reset with up := { pllLocked := true } }), (.chain), (0x1), by decide +kernel⟩,
   ⟨({ State.reset with up := { pllLocked := true } }), (.oob), (0x2), by decide +kernel⟩,
   ⟨({ State.reset with up := { pllLocked := true } }), (.chain), (0x4), by decide +kernel⟩⟩

theorem test_TreeTrafficCommandsComplete_met :
    (∃ (s : State) (lane : Fin 16) (f : PipFrame) (rest : List PipFrame),
      s.stopped = false ∧ (s.lane lane).rx = f :: rest ∧ f.type = 0x03 ∧ s.isUpstream lane = false ∧ f.data.length = 16) ∧
    (∃ (s : State) (lane : Fin 16) (f : PipFrame) (rest : List PipFrame),
      s.stopped = false ∧ (s.lane lane).rx = f :: rest ∧ f.type = 0x10 ∧ s.isUpstream lane = false ∧ pipOpOk f.op f.data.length = true) ∧
    (∃ (s : State) (lane : Fin 16) (f : PipFrame) (rest : List PipFrame),
      s.stopped = false ∧ (s.lane lane).rx = f :: rest ∧ f.type = 0x11 ∧ s.isUpstream lane = true) ∧
    (∃ (s : State) (lane : Fin 16) (f : PipFrame) (rest : List PipFrame),
      s.stopped = false ∧ (s.lane lane).rx = f :: rest ∧ f.type = 0x20 ∧ s.isUpstream lane = false ∧ s.pip.resigns = [] ∧ s.pip.decided = []) ∧
    (∃ (s : State) (lane : Fin 16) (f : PipFrame) (rest : List PipFrame),
      s.stopped = false ∧ (s.lane lane).rx = f :: rest ∧ f.type = 0x21 ∧ s.isUpstream lane = true) ∧
    (∃ (s : State) (lane : Fin 16) (f : PipFrame) (rest : List PipFrame),
      s.stopped = false ∧ (s.lane lane).rx = f :: rest ∧ f.type = 0x22 ∧ s.isUpstream lane = false) ∧
    (∃ (s : State) (lane : Fin 16) (f : PipFrame) (rest : List PipFrame),
      s.stopped = false ∧ (s.lane lane).rx = f :: rest ∧ f.type = 0x30 ∧ s.isUpstream lane = false ∧ f.isReservedNotice = false) ∧
    (∃ (s : State) (lane : Fin 16) (f : PipFrame) (rest : List PipFrame),
      s.stopped = false ∧ (s.lane lane).rx = f :: rest ∧ f.type = 0x23 ∧ s.resignSeen f.slice f.tag = false) ∧
    (∃ (s : State) (lane : Fin 16) (f : PipFrame) (rest : List PipFrame),
      s.stopped = false ∧ (s.lane lane).rx = f :: rest ∧ f.type = 0x23 ∧ s.resignSeen f.slice f.tag = true) ∧
    (∃ (s : State),
      s.stopped = false) :=
  ⟨⟨(((having [(F.PIP_STAT_UP 2, 1), (F.PIP_STAT_ALIGNED 2, 1), (F.PIP_CTL_USE 2, 1)]).setLane 2 { rx := [{ type := 3, data := List.replicate 16 1 }] })), (2), ({ type := 3, data := List.replicate 16 1 }), ([]), by decide +kernel⟩,
   ⟨(((having [(F.PIP_STAT_UP 2, 1), (F.PIP_STAT_ALIGNED 2, 1), (F.PIP_CTL_USE 2, 1)]).setLane 2 { rx := [{ type := 16, data := [4], op := 1 }] })), (2), ({ type := 16, data := [4], op := 1 }), ([]), by decide +kernel⟩,
   ⟨(((having [(F.PIP_STAT_UP 2, 1), (F.PIP_STAT_ALIGNED 2, 1), (F.PIP_CTL_USE 2, 1), (F.TRN_CTL_ROLE, 1), (F.TRN_CTL_PRI_UP, 2), (F.TRN_STAT_LOCKED, 1)]).setLane 2 { rx := [{ type := 17, data := [4], op := 1 }] })), (2), ({ type := 17, data := [4], op := 1 }), ([]), by decide +kernel⟩,
   ⟨(((having [(F.PIP_STAT_UP 2, 1), (F.PIP_STAT_ALIGNED 2, 1), (F.PIP_CTL_USE 2, 1)]).setLane 2 { rx := [{ type := 32, data := [4], op := 1 }] })), (2), ({ type := 32, data := [4], op := 1 }), ([]), by decide +kernel⟩,
   ⟨(((having [(F.PIP_STAT_UP 2, 1), (F.PIP_STAT_ALIGNED 2, 1), (F.PIP_CTL_USE 2, 1), (F.TRN_CTL_ROLE, 1), (F.TRN_CTL_PRI_UP, 2), (F.TRN_STAT_LOCKED, 1)]).setLane 2 { rx := [{ type := 33, data := [4], op := 1 }] })), (2), ({ type := 33, data := [4], op := 1 }), ([]), by decide +kernel⟩,
   ⟨(((having [(F.PIP_STAT_UP 2, 1), (F.PIP_STAT_ALIGNED 2, 1), (F.PIP_CTL_USE 2, 1)]).setLane 2 { rx := [{ type := 34, data := [4] }] })), (2), ({ type := 34, data := [4] }), ([]), by decide +kernel⟩,
   ⟨(((having [(F.PIP_STAT_UP 2, 1), (F.PIP_STAT_ALIGNED 2, 1), (F.PIP_CTL_USE 2, 1)]).setLane 2 { rx := [{ type := 48, data := [4] }] })), (2), ({ type := 48, data := [4] }), ([]), by decide +kernel⟩,
   ⟨(((having [(F.PIP_STAT_UP 2, 1), (F.PIP_STAT_ALIGNED 2, 1), (F.PIP_CTL_USE 2, 1)]).setLane 2 { rx := [{ type := 35, data := [4] }] })), (2), ({ type := 35, data := [4] }), ([]), by decide +kernel⟩,
   ⟨({ ((having [(F.PIP_STAT_UP 2, 1), (F.PIP_STAT_ALIGNED 2, 1), (F.PIP_CTL_USE 2, 1)]).setLane 2 { rx := [{ type := 35, data := [4], tag := 9 }] }) with pip := { ((having [(F.PIP_STAT_UP 2, 1), (F.PIP_STAT_ALIGNED 2, 1), (F.PIP_CTL_USE 2, 1)]).setLane 2 { rx := [{ type := 35, data := [4], tag := 9 }] }).pip with resigns := [(0, 9, 0)] } }), (2), ({ type := 35, data := [4], tag := 9 }), ([]), by decide +kernel⟩,
   ⟨({ State.reset with pip := { resigns := [(0, 1, 0), (0, 2, 5)] }, clk := 20000 }), by decide +kernel⟩⟩

theorem test_IssueCommandsComplete_met :
    (∃ (s : State) (p : Path) (n : Fin 21) (e : Fin 64) (data : Word),
      s.stopped = false ∧ s.writeOpen p (Reg.REP_WIN_A n e) data = true) ∧
    (∃ (s : State) (p : Path) (n : Fin 21) (e : Fin 64) (data : Word),
      s.stopped = false ∧ s.writeOpen p (Reg.REP_WIN_C n e) data = true ∧ s.flag (F.REP_WIN_A_VALID n e) = false) ∧
    (∃ (s : State) (p : Path) (n : Fin 21) (e : Fin 64) (data : Word),
      s.stopped = false ∧ s.writeOpen p (Reg.REP_WIN_B n e) data = true ∧ s.flag (F.REP_WIN_A_VALID n e) = true) ∧
    (∃ (s : State) (q : Fin 512) (r : Request),
      s.stopped = false ∧ isAsked r.opcode.toNat = true) ∧
    (∃ (s : State) (q : Fin 512) (w : WaitReq) (ep : Nat) (k : Nat),
      s.stopped = false ∧ s.rep.waiting.find? (fun w => w.queue == q.val && s.mayTake w) = some w ∧ s.owner q = some ep ∧ s.mayTake w = true ∧ s.freeSlot w.queue = some k) ∧
    (∃ (s : State) (ep : Fin 21) (r : Frame) (t : Tracker),
      s.stopped = false ∧ (s.ep ep).arrived.find? (fun f => isResponse f.opcode) = some r ∧ r.badReserved = false ∧ s.rep.trackers.find? (fun t => t.ep == ep.val && t.sent && t.frame.tag == r.tag && t.frame.seq == r.seq) = some t) ∧
    (∃ (s : State) (ep : Fin 21) (r : Frame),
      s.stopped = false ∧ (s.ep ep).arrived.find? (fun f => isResponse f.opcode) = some r ∧ r.badReserved = false ∧ s.rep.trackers.find? (fun t => t.ep == ep.val && t.sent && t.frame.tag == r.tag && t.frame.seq == r.seq) = none) ∧
    (∃ (s : State) (ep : Fin 21) (r : Frame),
      s.stopped = false ∧ (s.ep ep).arrived.find? (fun f => isResponse f.opcode) = some r ∧ r.badReserved = true) ∧
    (∃ (s : State) (tag : BitVec 18) (t : Tracker),
      s.stopped = false ∧ s.tracker tag.toNat = some t ∧ t.sent = true ∧ t.due = none ∧ t.proof = .notProof ∧ t.lastTx + s.get (F.REP_RETRY_TIMEOUT t.ep) ≤ s.clk ∧ isCollective t.frame.opcode = false ∧ s.resigned t.origin = false ∧ t.frame.tries + 1 ≤ s.get (F.REP_RETRY_LIMIT t.ep)) ∧
    (∃ (s : State) (tag : BitVec 18) (t : Tracker),
      s.stopped = false ∧ s.tracker tag.toNat = some t ∧ t.sent = true ∧ t.due = none ∧ t.proof = .notProof ∧ t.lastTx + s.get (F.REP_RETRY_TIMEOUT t.ep) ≤ s.clk ∧ s.get (F.REP_RETRY_LIMIT t.ep) < t.frame.tries + 1) ∧
    (∃ (s : State) (tag : BitVec 18) (t : Tracker) (d : Nat),
      s.stopped = false ∧ s.tracker tag.toNat = some t ∧ t.due = some d ∧ d ≤ s.clk ∧ s.admitted = true ∧ s.ageOf t.frame.injTurn ≤ s.ageLimit - s.get (F.REP_RETRY_TIMEOUT t.ep) ∧ s.throttleAt t = none) ∧
    (∃ (s : State) (ep : Fin 21) (vc : Fin 8) (c : TxChan),
      s.stopped = false ∧ s.rep.chans = [c] ∧ c.src = s.ownEp ep ∧ c.dst < 2 ^ 20 ∧ c.vc = vc.val ∧ s.rep.trackers = [] ∧ c.last + 2 * s.ageLimit + 128 ≤ s.clk) ∧
    (∃ (s : State) (q : Fin 512) (kind : Fin 4) (scope : Fin 4),
      s.stopped = false ∧ kind ≠ 3 ∧ scope ≠ 3) :=
  ⟨⟨({ State.reset with up := { pllLocked := true } }), (.chain), (2), (5), (0), by decide +kernel⟩,
   ⟨({ State.reset with up := { pllLocked := true } }), (.chain), (2), (5), (0x5000), by decide +kernel⟩,
   ⟨({ having [(F.REP_WIN_A_VALID 2 5, 1)] with up := { pllLocked := true } }), (.oob), (2), (5), (0x5000), by decide +kernel⟩,
   ⟨(State.reset), (16), ({ opcode := 0x01, addr := 4096, bytes := 32, data := [], xfmt := 0 }), by decide +kernel⟩,
   ⟨({ having [(F.RTE_CTL_ADMIT, 1)] with rep := { waiting := [{ queue := 16, frame := { opcode := 0x01, src := 1, dst := 16, addr := 4096, bytes := 32 }, origin := .none, order := 0 }] } }), (16), ({ queue := 16, frame := { opcode := 0x01, src := 1, dst := 16, addr := 4096, bytes := 32 }, origin := .none, order := 0 }), (1), (0), by decide +kernel⟩,
   ⟨({ withEp State.reset 1 { arrived := [{ opcode := opAck, tag := 8195, status := 1 }] } with rep := { (withEp State.reset 1 { arrived := [{ opcode := opAck, tag := 8195, status := 1 }] }).rep with trackers := [trackerOf (frameOf 1)] } }), (1), ({ opcode := opAck, tag := 8195, status := 1 }), (trackerOf (frameOf 1)), by decide +kernel⟩,
   ⟨(withEp State.reset 1 { arrived := [frameOf opAck] }), (1), (frameOf opAck), by decide +kernel⟩,
   ⟨(withEp State.reset 1 { arrived := [{ opcode := opAck, status := 1, reserved := 1 }] }), (1), ({ opcode := opAck, status := 1, reserved := 1 }), by decide +kernel⟩,
   ⟨({ { State.reset with rep := { trackers := [trackerOf (frameOf 1)] } } with clk := 6000 }), (8195), (trackerOf (frameOf 1)), by decide +kernel⟩,
   ⟨({ { having [(F.REP_RETRY_LIMIT 1, 0)] with rep := { trackers := [trackerOf (frameOf 1)] } } with clk := 6000 }), (8195), (trackerOf (frameOf 1)), by decide +kernel⟩,
   ⟨({ having [(F.RTE_CTL_ADMIT, 1)] with rep := { trackers := [{ trackerOf (frameOf 1) with due := some 0 }] } }), (8195), ({ trackerOf (frameOf 1) with due := some 0 }), (0), by decide +kernel⟩,
   ⟨({ State.reset with clk := 1000000, rep := { chans := [{ src := 2, dst := 16, vc := 1, next := 7, last := 5 }] } }), (2), (1), ({ src := 2, dst := 16, vc := 1, next := 7, last := 5 }), by decide +kernel⟩,
   ⟨(State.reset), (16), (1), (2), by decide +kernel⟩⟩

theorem test_TargetCommandsComplete_met :
    (∃ (s : State) (ep : Fin 21) (f : Frame) (c : Chan),
      s.stopped = false ∧ (s.ep ep).arrived.find? (fun f => isRequest f.opcode && f.opcode != opGo) = some f ∧ f.badReserved = false ∧ (s.ep ep).log = [] ∧ (s.ep ep).chan f.src f.vc = some c) ∧
    (∃ (s : State) (ep : Fin 21) (f : Frame),
      s.stopped = false ∧ (s.ep ep).arrived.find? (fun f => isRequest f.opcode && f.opcode != opGo) = some f ∧ f.badReserved = false ∧ (s.ep ep).chans = []) ∧
    (∃ (s : State) (line : Nat),
      s.stopped = false ∧ s.inOrder 17 line = true) ∧
    (∃ (s : State) (line : Nat),
      s.stopped = false ∧ s.inOrder 16 line = true ∧ s.slotFor (128 * line) 128 = true ∧ ((s.ep 16).line line).reading = false ∧ ((s.ep 16).line line).queue.isEmpty = false ∧ s.needsRead line = false) ∧
    (∃ (s : State) (line : Nat),
      s.stopped = false ∧ s.inOrder 16 line = true ∧ s.slotFor (128 * line) 128 = true ∧ ((s.ep 16).line line).reading = false ∧ s.needsRead line = true) ∧
    (∃ (s : State) (line : Nat),
      s.stopped = false) ∧
    (∃ (s : State) (line : Nat),
      s.stopped = false) ∧
    (∃ (s : State) (line : Nat),
      s.stopped = false ∧ ((s.ep 16).line line).reading = true ∧ s.memSlot = true ∧ s.inOrder 16 line = true) ∧
    (∃ (s : State) (line : Nat) (c : LineCopy),
      s.stopped = false ∧ ((s.ep 16).line line).copy = some c ∧ c.pinned = true ∧ c.since + s.get (F.REP_HOT_COLD 16) ≤ s.clk ∧ ((s.ep 16).line line).times = [] ∧ s.slotFor (128 * line) 128 = true ∧ 4 ≤ s.get (F.REP_HOT_THRESH 16)) ∧
    (∃ (s : State) (line : Nat) (c : LineCopy),
      s.stopped = false ∧ ((s.ep 16).line line).copy = some c ∧ c.pinned = true ∧ c.dirty.isSome = true ∧ s.slotFor (128 * line) 128 = true) ∧
    (∃ (s : State) (ep : Fin 21) (g : Frame) (p : ParkedWrite),
      s.stopped = false ∧ (s.ep ep).arrived.find? (fun f => f.opcode == opGo) = some g ∧ g.badReserved = false ∧ s.goOpen ep g = true ∧ (s.ep ep).parked g.src g.vc g.seq = some p ∧ (s.ep ep).blocked p = false) ∧
    (∃ (s : State) (ep : Fin 21) (src : BitVec 20) (vc : Fin 8) (seq : BitVec 32) (p : ParkedWrite),
      s.stopped = false ∧ (s.ep ep).parks = [p] ∧ p.src = src.toNat ∧ p.vc = vc.val ∧ p.frame.seq = seq.toNat ∧ s.ageLimit + 64 ≤ s.ageOf p.frame.injTurn) ∧
    (∃ (s : State) (ep : Fin 21) (src : BitVec 20) (vc : Fin 8) (c : Chan) (m : Frame),
      s.stopped = false ∧ (s.ep ep).chan src.toNat vc = some c ∧ c.held = [m] ∧ s.ageLimit + 64 ≤ s.ageOf m.injTurn) ∧
    (∃ (s : State) (ep : Fin 21) (src : BitVec 20) (vc : Fin 8) (c : Chan),
      s.stopped = false ∧ (s.ep ep).chan src.toNat vc = some c ∧ c.last + s.ageLimit ≤ s.clk ∧ c.held = [] ∧ c.taken = [] ∧ (s.ep ep).parks = []) ∧
    (∃ (s : State) (ep : Fin 21) (src : BitVec 20) (vc : Fin 8) (seq : BitVec 32) (l : LogEntry),
      s.stopped = false ∧ (s.ep ep).log = [l] ∧ l.src = src.toNat ∧ l.vc = vc.val ∧ l.seq = seq.toNat ∧ l.at' + s.ageLimit + 64 ≤ s.clk) :=
  ⟨⟨(withEp State.reset 16 { arrived := [{ opcode := 2, addr := 0x20, bytes := 8, src := 33, gran := [{ data := [] }] }], chans := [{ src := 33, vc := 0, next := 0, last := 0 }] }), (16), ({ opcode := 2, addr := 0x20, bytes := 8, src := 33, gran := [{ data := [] }] }), ({ src := 33, vc := 0, next := 0, last := 0 }), by decide +kernel⟩,
   ⟨(withEp State.reset 16 { arrived := [{ opcode := 2, addr := 0x20, bytes := 8, src := 33, gran := [{ data := [] }] }] }), (16), ({ opcode := 2, addr := 0x20, bytes := 8, src := 33, gran := [{ data := [] }] }), by decide +kernel⟩,
   ⟨(State.reset), (9), by decide +kernel⟩,
   ⟨(withEp (having [(F.HBM_STAT_INIT_DONE, 1)]) 16 { lines := [(3, { queue := [1] })], work := [{ id := 1, frame := { opcode := 2, addr := 384, bytes := 8 }, lines := [3] }] }), (3), by decide +kernel⟩,
   ⟨(withEp (having [(F.HBM_STAT_INIT_DONE, 1)]) 16 { lines := [(3, { queue := [1] })], work := [{ id := 1, frame := { opcode := 1, addr := 384, bytes := 8 }, lines := [3] }] }), (3), by decide +kernel⟩,
   ⟨(State.reset), (0), by decide +kernel⟩,
   ⟨(withEp State.reset 20 { service := [{ opcode := 1, addr := 3 * 2 ^ 53 + 0x0C0108, bytes := 8 }] }), (0), by decide +kernel⟩,
   ⟨(withEp (having [(F.HBM_STAT_INIT_DONE, 1)]) 16 { lines := [(3, { queue := [1], reading := true })], work := [{ id := 1, frame := { opcode := 1, addr := 384, bytes := 8 }, lines := [3] }] }), (3), by decide +kernel⟩,
   ⟨({ withEp (having [(F.HBM_STAT_INIT_DONE, 1)]) 16 { lines := [(3, { copy := some { pinned := true, since := 0, dirty := some 0 } })] } with clk := 2000000 }), (3), ({ pinned := true, since := 0, dirty := some 0 }), by decide +kernel⟩,
   ⟨(withEp (having [(F.HBM_STAT_INIT_DONE, 1)]) 16 { lines := [(3, { copy := some { pinned := true, since := 0, dirty := some 0 } })] }), (3), ({ pinned := true, since := 0, dirty := some 0 }), by decide +kernel⟩,
   ⟨(withEp State.reset 16 { arrived := [{ opcode := opGo, src := 33, vc := 2, seq := 4, addr := 0x20 }], parks := [{ src := 33, vc := 2, frame := { opcode := opProof, addr := 0x20, bytes := 8, seq := 4, src := 33, vc := 2, gran := [{ data := List.replicate 32 1 }] } }] }), (16), ({ opcode := opGo, src := 33, vc := 2, seq := 4, addr := 0x20 }), ({ src := 33, vc := 2, frame := { opcode := opProof, addr := 0x20, bytes := 8, seq := 4, src := 33, vc := 2, gran := [{ data := List.replicate 32 1 }] } }), by decide +kernel⟩,
   ⟨({ withEp State.reset 16 { parks := [{ src := 33, vc := 2, frame := { opcode := opProof, addr := 0x20, bytes := 8, seq := 4, src := 33, vc := 2, gran := [{ data := List.replicate 32 1 }] } }] } with turn := 2000000 }), (16), (33), (2), (4), ({ src := 33, vc := 2, frame := { opcode := opProof, addr := 0x20, bytes := 8, seq := 4, src := 33, vc := 2, gran := [{ data := List.replicate 32 1 }] } }), by decide +kernel⟩,
   ⟨({ withEp State.reset 16 { chans := [{ src := 33, vc := 2, next := 5, last := 0, held := [{ opcode := 2, seq := 8, src := 33, vc := 2 }] }] } with turn := 2000000 }), (16), (33), (2), ({ src := 33, vc := 2, next := 5, last := 0, held := [{ opcode := 2, seq := 8, src := 33, vc := 2 }] }), ({ opcode := 2, seq := 8, src := 33, vc := 2 }), by decide +kernel⟩,
   ⟨({ withEp State.reset 16 { chans := [{ src := 33, vc := 2, next := 5, last := 0 }] } with clk := 2000000 }), (16), (33), (2), ({ src := 33, vc := 2, next := 5, last := 0 }), by decide +kernel⟩,
   ⟨({ withEp State.reset 16 { log := [{ src := 33, vc := 2, seq := 5, status := 1, opcode := 33, prior := 0, at' := 0 }] } with clk := 2000000 }), (16), (33), (2), (5), ({ src := 33, vc := 2, seq := 5, status := 1, opcode := 33, prior := 0, at' := 0 }), by decide +kernel⟩⟩

theorem test_MessageCommandsComplete_met :
    (∃ (s : State) (q : Fin 512) (d : List Byte) (t : State),
      s.fresh.hbmFetch (s.sendAt q (s.get (F.MSG_Q_IDX_HEAD q))) 32 = (d, false, t) ∧ s.stopped = false ∧ s.owner q = some 19 ∧ s.flag (F.MSG_Q_CFG_EN q) = true ∧ ringUsed (s.msgN q) (s.get (F.MSG_Q_IDX_HEAD q)) (s.get (F.MSG_Q_IDX_TAIL q)) ≠ 0 ∧ s.rep.trackers = [] ∧ s.rep.waiting = [] ∧ s.slotFor (s.sendAt q (s.get (F.MSG_Q_IDX_HEAD q))) 32 = true ∧ s.flag F.PWR_STAT_WARN = false ∧ sendFormed d = true ∧ addrMember (bytesAt d 16 8) ≠ s.member) ∧
    (∃ (s : State) (q : Fin 512) (d : List Byte) (t : State),
      s.fresh.hbmFetch (s.sendAt q (s.get (F.MSG_Q_IDX_HEAD q))) 32 = (d, true, t) ∧ s.stopped = false ∧ s.owner q = some 19 ∧ s.flag (F.MSG_Q_CFG_EN q) = true ∧ ringUsed (s.msgN q) (s.get (F.MSG_Q_IDX_HEAD q)) (s.get (F.MSG_Q_IDX_TAIL q)) ≠ 0 ∧ s.rep.trackers = [] ∧ s.rep.waiting = [] ∧ s.slotFor (s.sendAt q (s.get (F.MSG_Q_IDX_HEAD q))) 32 = true ∧ s.flag F.PWR_STAT_WARN = false) ∧
    (∃ (s : State) (q : Fin 512) (d : List Byte) (t : State) (u : State),
      s.fresh.hbmFetch (s.sendAt q (s.get (F.MSG_Q_IDX_HEAD q))) 32 = (d, false, t) ∧ t.put (F.MSG_Q_IDX_HEAD q) ((s.get (F.MSG_Q_IDX_HEAD q) + 1) % (2 * s.msgN q)) = u ∧ s.stopped = false ∧ s.owner q = some 19 ∧ s.flag (F.MSG_Q_CFG_EN q) = true ∧ ringUsed (s.msgN q) (s.get (F.MSG_Q_IDX_HEAD q)) (s.get (F.MSG_Q_IDX_TAIL q)) ≠ 0 ∧ s.rep.trackers = [] ∧ s.rep.waiting = [] ∧ s.slotFor (s.sendAt q (s.get (F.MSG_Q_IDX_HEAD q))) 32 = true ∧ s.flag F.PWR_STAT_WARN = false ∧ sendFormed d = false) ∧
    (∃ (s : State) (q : Fin 512) (d : List Byte) (x : List Byte) (t : State) (u : State),
      s.fresh.hbmFetch (s.sendAt q (s.get (F.MSG_Q_IDX_HEAD q))) 32 = (d, false, t) ∧ (t.put (F.MSG_Q_IDX_HEAD q) ((s.get (F.MSG_Q_IDX_HEAD q) + 1) %
        (2 * s.msgN q))).readMessage (bytesAt d 16 8) (bytesAt d 8 4) = ([(x, false)], u) ∧ s.stopped = false ∧ s.owner q = some 19 ∧ s.flag (F.MSG_Q_CFG_EN q) = true ∧ ringUsed (s.msgN q) (s.get (F.MSG_Q_IDX_HEAD q)) (s.get (F.MSG_Q_IDX_TAIL q)) ≠ 0 ∧ s.rep.trackers = [] ∧ s.rep.waiting = [] ∧ s.slotFor (s.sendAt q (s.get (F.MSG_Q_IDX_HEAD q))) 32 = true ∧ s.flag F.PWR_STAT_WARN = false ∧ sendFormed d = true ∧ addrMember (bytesAt d 16 8) = s.member ∧ addrKind (bytesAt d 16 8) ≤ 1 ∧ offsetExists (addrKind (bytesAt d 16 8)) (addrOffset (bytesAt d 16 8)) (bytesAt d 8 4) = true ∧ u.msg.nextId = []) ∧
    (∃ (s : State) (src : BitVec 20) (id : BitVec 16) (r : MsgRecv),
      s.stopped = false ∧ s.msg.recvs = [r] ∧ r.src = src.toNat ∧ r.id = id.toNat ∧ r.firstAt + s.ageLimit ≤ s.clk ∧ r.refused = none ∧ s.lastArrived r = false) ∧
    (∃ (s : State) (p : Path) (data : Word),
      s.stopped = false ∧ s.writeOpen p Reg.MSG_POOL_FREE data = true) ∧
    (∃ (s : State) (p : Path) (n : Fin 64) (data : Word),
      s.stopped = false ∧ s.writeOpen p (Reg.MSG_POOL_CFG n) data = true) ∧
    (∃ (s : State) (p : Path) (n : Fin 64) (data : Word),
      s.stopped = false ∧ s.writeOpen p (Reg.MSG_POOL_RING n) data = true) :=
  ⟨⟨(sending (sendDesc 100 32 (5 * 2 ^ 57 + 0x2000))), (480), _, _, Prod.ext (rfl) (Prod.ext (by decide +kernel) (rfl)), by decide +kernel⟩,
   ⟨({ sending (sendDesc 100 32 0x2000) with hbm := { (sending (sendDesc 100 32 0x2000)).hbm with poison := [(0x8000, true)] } }), (480), _, _, Prod.ext (rfl) (Prod.ext (by decide +kernel) (rfl)), by decide +kernel⟩,
   ⟨(sending (sendDesc 100 0 0x2000)), (480), _, _, _, Prod.ext (rfl) (Prod.ext (by decide +kernel) (rfl)), rfl, by decide +kernel⟩,
   ⟨(sending (sendDesc 100 32 0x2000)), (480), _, (List.replicate 32 7), _, _, Prod.ext (rfl) (Prod.ext (by decide +kernel) (rfl)), Prod.ext (by decide +kernel) (rfl), by decide +kernel⟩,
   ⟨({ State.reset with clk := 2000000, msg := { recvs := [{ src := 33, vc := 2, id := 7, pool := 4, buf := 1, reqPool := 4, bytes := 300, firstAt := 0 }] } }), (33), (7), ({ src := 33, vc := 2, id := 7, pool := 4, buf := 1, reqPool := 4, bytes := 300, firstAt := 0 }), by decide +kernel⟩,
   ⟨({ State.reset with up := { pllLocked := true } }), (.chain), (0x3), by decide +kernel⟩,
   ⟨({ State.reset with up := { pllLocked := true } }), (.chain), (3), (0), by decide +kernel⟩,
   ⟨({ State.reset with up := { pllLocked := true } }), (.chain), (3), (0), by decide +kernel⟩⟩

theorem test_PlateSequenceCommandsComplete_met :
    (∃ (s : State) (p : Path) (q : Fin 512) (data : Word),
      s.stopped = false ∧ s.writeOpen p (Reg.PLT_OQ_IDX q) data = true ∧ q.val ≠ s.colq ∧ (s.writeOf p (Reg.PLT_OQ_IDX q) data).newF (F.PLT_OQ_IDX_TAIL q) ≠
      (s.writeOf p (Reg.PLT_OQ_IDX q) data).oldF (F.PLT_OQ_IDX_TAIL q) ∧ tailOver (s.oqN q) (s.oqHead q) ((s.writeOf p (Reg.PLT_OQ_IDX q) data).newF (F.PLT_OQ_IDX_TAIL q)) = false ∧ s.oqGated q = false) ∧
    (∃ (s : State) (q : Nat),
      s.stopped = false ∧ s.plate.phase = .idle ∧ s.arrayHeld = false ∧ s.slotFrame = true ∧ s.flag F.PLT_CTL_EN = true ∧ s.hbmOpen = true ∧ s.flag F.PWR_STAT_WARN = false ∧ s.nextQueue = some q ∧ s.staggerOk = true) ∧
    (∃ (s : State),
      s.stopped = false ∧ s.plate.phase = .idle ∧ s.arrayHeld = false ∧ s.slotFrame = true ∧ s.flag F.PLT_CTL_EN = true ∧ s.hbmOpen = true ∧ s.flag F.PWR_STAT_WARN = false ∧ s.nextQueue = none ∧ s.get F.PWR_STAT_ARRAY = 2) ∧
    (∃ (s : State),
      s.stopped = false ∧ s.plate.phase = .idle ∧ s.arrayHeld = false ∧ s.slotFrame = true ∧ s.flag F.PWR_STAT_WARN = true ∧ (s.get F.PWR_STAT_ARRAY = 1 ∨ s.get F.PWR_STAT_ARRAY = 2)) ∧
    (∃ (s : State) (o : PlateOp) (since : Nat),
      s.stopped = false ∧ s.plate.phase = .planning since ∧ s.plate.op = some o ∧ s.arrayHeld = false ∧ s.slotFrame = true ∧ since + 64 ≤ s.clk ∧ o.job = none ∧ s.plate.aborts = [] ∧ o.warned = false ∧ o.malformed = false ∧ o.fail = none ∧ o.aborted = false ∧ s.planRefused o.queue o.chain o.desc o.hold = false ∧ s.boundResigned { o with strokes := dStrokes o.desc, bset := o.hold.getD none } = false) ∧
    (∃ (s : State) (o : PlateOp) (since : Nat),
      s.stopped = false ∧ s.plate.phase = .planning since ∧ s.plate.op = some o ∧ s.arrayHeld = false ∧ s.slotFrame = true ∧ since + 64 ≤ s.clk ∧ o.job = none ∧ s.plate.aborts = [] ∧ o.warned = false ∧ o.malformed = false ∧ o.fail = none ∧ o.aborted = false ∧ s.planRefused o.queue o.chain o.desc o.hold = true) ∧
    (∃ (s : State) (o : PlateOp),
      s.stopped = false ∧ s.plate.op = some o ∧ s.plate.roundAt + s.plate.roundLen ≤ s.clk ∧ s.plate.expired = false ∧ s.otherReady o.queue = true) ∧
    (∃ (s : State) (o : PlateOp) (due : Nat),
      s.stopped = false ∧ s.plate.phase = .saving due ∧ s.plate.op = some o ∧ s.arrayHeld = false ∧ s.slotFrame = true ∧ due ≤ s.clk ∧ s.hbmOpen = true) ∧
    (∃ (s : State) (o : PlateOp) (due : Nat),
      s.stopped = false ∧ s.plate.phase = .restoring due ∧ s.plate.op = some o ∧ s.arrayHeld = false ∧ s.slotFrame = true ∧ due ≤ s.clk ∧ s.hbmOpen = true ∧ o.warned = false ∧ o.aborted = false ∧ o.strokes ≠ 0) :=
  ⟨⟨({ State.reset with up := { pllLocked := true } }), (.chain), (256), (2 ^ 32), by decide +kernel⟩,
   ⟨(having [(F.PLT_CTL_EN, 1), (F.HBM_STAT_INIT_DONE, 1), (F.PLT_OQ_CFG_EN 256, 1), (F.PLT_OQ_RING_BASE 256, 0x100), (F.PLT_OQ_IDX_TAIL 256, 1)]), (256), by decide +kernel⟩,
   ⟨(having [(F.PLT_CTL_EN, 1), (F.HBM_STAT_INIT_DONE, 1), (F.PLT_OQ_CFG_EN 256, 1), (F.PLT_OQ_RING_BASE 256, 0x100), (F.PWR_STAT_ARRAY, 2)]), by decide +kernel⟩,
   ⟨(having [(F.PWR_STAT_WARN, 1), (F.PWR_STAT_ARRAY, 1)]), by decide +kernel⟩,
   ⟨({ having [(F.PLT_CTL_EN, 1), (F.HBM_STAT_INIT_DONE, 1), (F.PLT_OQ_CFG_EN 256, 1), (F.PLT_OQ_RING_BASE 256, 0x100), (F.REP_WIN_A_VALID 17 0, 1), (F.REP_WIN_A_READ 17 0, 1), (F.REP_WIN_A_WRITE 17 0, 1), (F.REP_WIN_A_QUEUE_LAST 17 0, 511), (F.REP_WIN_A_MEMBER_LAST 17 0, 127), (F.REP_WIN_C_LIMIT 17 0, 0xFFFF)] with plate := { phase := .planning 0, op := some ({ queue := 256, index := 0, chain := [copyDesc], visible := [0] } : PlateOp) }, clk := 64 }), (({ queue := 256, index := 0, chain := [copyDesc], visible := [0] } : PlateOp)), (0), by decide +kernel⟩,
   ⟨({ having [(F.PLT_CTL_EN, 1), (F.HBM_STAT_INIT_DONE, 1), (F.PLT_OQ_CFG_EN 256, 1), (F.PLT_OQ_RING_BASE 256, 0x100)] with plate := { phase := .planning 0, op := some ({ queue := 256, index := 0, chain := [List.replicate 128 0], visible := [0] } : PlateOp) }, clk := 64 }), (({ queue := 256, index := 0, chain := [List.replicate 128 0], visible := [0] } : PlateOp)), (0), by decide +kernel⟩,
   ⟨({ having [(F.PLT_CTL_EN, 1), (F.HBM_STAT_INIT_DONE, 1), (F.PLT_OQ_CFG_EN 256, 1), (F.PLT_OQ_RING_BASE 256, 0x100), (F.PLT_OQ_CFG_EN 257, 1), (F.PLT_OQ_IDX_TAIL 257, 1)] with plate := { phase := .stroke 0, op := some ({ queue := 256, index := 0, chain := [copyDesc], visible := [0] } : PlateOp) }, clk := 4096 }), (({ queue := 256, index := 0, chain := [copyDesc], visible := [0] } : PlateOp)), by decide +kernel⟩,
   ⟨({ having [(F.PLT_CTL_EN, 1), (F.HBM_STAT_INIT_DONE, 1), (F.PLT_OQ_CFG_EN 256, 1), (F.PLT_OQ_RING_BASE 256, 0x100)] with plate := { phase := .saving 32, op := some ({ queue := 256, index := 0, chain := [copyDesc], visible := [0] } : PlateOp) }, clk := 32 }), (({ queue := 256, index := 0, chain := [copyDesc], visible := [0] } : PlateOp)), (32), by decide +kernel⟩,
   ⟨({ having [(F.PLT_CTL_EN, 1), (F.HBM_STAT_INIT_DONE, 1), (F.PLT_OQ_CFG_EN 256, 1), (F.PLT_OQ_RING_BASE 256, 0x100)] with plate := { phase := .restoring 32, op := some ({ queue := 256, index := 0, chain := [copyDesc], visible := [0], strokes := 1 } : PlateOp) }, clk := 32 }), (({ queue := 256, index := 0, chain := [copyDesc], visible := [0], strokes := 1 } : PlateOp)), (32), by decide +kernel⟩⟩

theorem test_PlateStrokeCommandsComplete_met :
    (∃ (s : State) (g : State) (a : PlateOp) (o : PlateOp) (since : Nat),
      State.gather 3 s.fresh = g ∧ s.stopped = false ∧ s.plate.phase = .stroke since ∧ s.plate.op = some a ∧ s.arrayHeld = false ∧ a.ending = false ∧ a.job = none ∧ since + dBefore s.member (s.opBase a) a.desc a.stroke / 8 ≤ s.clk ∧ s.cellsDone a / 8 ≤ s.clk ∧ g.plate.op = some o ∧ o.ending = false ∧ 2 ≤ o.stage ∧ g.hostPending o.queue = false ∧ (g.boundTo o).isSome = false ∧ (g.opResult o).fault = false) ∧
    (∃ (s : State) (g : State) (a : PlateOp) (o : PlateOp) (since : Nat),
      State.gather 3 s.fresh = g ∧ s.stopped = false ∧ s.plate.phase = .stroke since ∧ s.plate.op = some a ∧ s.arrayHeld = false ∧ a.ending = false ∧ a.job = none ∧ since + dBefore s.member (s.opBase a) a.desc a.stroke / 8 ≤ s.clk ∧ s.cellsDone a / 8 ≤ s.clk ∧ g.plate.op = some o ∧ o.ending = false ∧ 2 ≤ o.stage ∧ g.hostPending o.queue = false ∧ (g.boundTo o).isSome = false ∧ (g.opResult o).fault = true) ∧
    (∃ (s : State) (o : PlateOp) (since : Nat) (at' : Nat),
      s.stopped = false ∧ s.arrayHeld = false ∧ s.slotFrame = true ∧ s.plate.phase = .writing since at' ∧ s.plate.op = some o ∧ s.strokeDue o since at' ≤ s.clk ∧ o.pendingOut = 0 ∧ s.streamOpen o = true ∧ o.fail = none) ∧
    (∃ (s : State) (o : PlateOp) (since : Nat) (at' : Nat),
      s.stopped = false ∧ s.arrayHeld = false ∧ s.slotFrame = true ∧ s.plate.phase = .writing since at' ∧ s.plate.op = some o ∧ s.strokeDue o since at' ≤ s.clk ∧ o.pendingOut = 0 ∧ s.streamOpen o = true ∧ o.fail.isSome = true) ∧
    (∃ (s : State) (o : PlateOp) (since : Nat),
      s.stopped = false ∧ s.plate.phase = .retiring since ∧ s.plate.op = some o ∧ s.arrayHeld = false ∧ s.slotFrame = true ∧ since + 32 ≤ s.clk ∧ o.pendingOut = 0 ∧ o.wanted = [] ∧ s.hbmOpen = true ∧ o.job = none ∧ o.chain.length ≤ o.member + 1) ∧
    (∃ (s : State) (o : PlateOp) (since : Nat),
      s.stopped = false ∧ s.plate.phase = .retiring since ∧ s.plate.op = some o ∧ s.arrayHeld = false ∧ s.slotFrame = true ∧ since + 32 ≤ s.clk ∧ o.pendingOut = 0 ∧ o.wanted = [] ∧ s.hbmOpen = true ∧ o.job = none ∧ o.member + 1 < o.chain.length) ∧
    (∃ (s : State) (p : Path) (data : Word),
      s.stopped = false ∧ s.writeOpen p Reg.PLT_ABORT data = true) ∧
    (∃ (s : State) (o : PlateOp),
      s.stopped = false ∧ s.polling = some o ∧ s.arrayHeld = false ∧ s.slotFrame = true ∧ s.streamOpen o = true) ∧
    (∃ (s : State) (o : PlateOp),
      s.stopped = false ∧ s.polling = some o ∧ s.arrayHeld = false ∧ o.progressAt + s.get F.PLT_LIMIT_READY_LIMIT ≤ s.clk ∧ o.fail = none) :=
  ⟨⟨({ having [(F.PLT_CTL_EN, 1), (F.HBM_STAT_INIT_DONE, 1), (F.PLT_OQ_CFG_EN 256, 1), (F.PLT_OQ_RING_BASE 256, 0x100)] with plate := { phase := .stroke 0, op := some ({ queue := 256, index := 0, chain := [farDesc], visible := [0], strokes := 1, stage := 2, fetched := [(0, { data := List.replicate 32 5 }), (1, { data := List.replicate 32 6 })] } : PlateOp) }, clk := 4096 }), _, (({ queue := 256, index := 0, chain := [farDesc], visible := [0], strokes := 1, stage := 2, fetched := [(0, { data := List.replicate 32 5 }), (1, { data := List.replicate 32 6 })] } : PlateOp)), (((State.gather 3 ({ having [(F.PLT_CTL_EN, 1), (F.HBM_STAT_INIT_DONE, 1), (F.PLT_OQ_CFG_EN 256, 1), (F.PLT_OQ_RING_BASE 256, 0x100)] with plate := { phase := .stroke 0, op := some ({ queue := 256, index := 0, chain := [farDesc], visible := [0], strokes := 1, stage := 2, fetched := [(0, { data := List.replicate 32 5 }), (1, { data := List.replicate 32 6 })] } : PlateOp) }, clk := 4096 } : State).fresh).plate.op.getD ({ queue := 256, index := 0, chain := [farDesc], visible := [0], strokes := 1, stage := 2, fetched := [(0, { data := List.replicate 32 5 }), (1, { data := List.replicate 32 6 })] } : PlateOp))), (0), rfl, by decide +kernel⟩,
   ⟨({ having [(F.PLT_CTL_EN, 1), (F.HBM_STAT_INIT_DONE, 1), (F.PLT_OQ_CFG_EN 256, 1), (F.PLT_OQ_RING_BASE 256, 0x100)] with plate := { phase := .stroke 0, op := some ({ queue := 256, index := 0, chain := [unsorted], visible := [0], strokes := 1, stage := 2, fetched := [(0, { data := List.replicate 32 5 }), (2 ^ 40, { data := List.replicate 32 6 })] } : PlateOp) }, clk := 4096 }), _, (({ queue := 256, index := 0, chain := [unsorted], visible := [0], strokes := 1, stage := 2, fetched := [(0, { data := List.replicate 32 5 }), (2 ^ 40, { data := List.replicate 32 6 })] } : PlateOp)), (((State.gather 3 ({ having [(F.PLT_CTL_EN, 1), (F.HBM_STAT_INIT_DONE, 1), (F.PLT_OQ_CFG_EN 256, 1), (F.PLT_OQ_RING_BASE 256, 0x100)] with plate := { phase := .stroke 0, op := some ({ queue := 256, index := 0, chain := [unsorted], visible := [0], strokes := 1, stage := 2, fetched := [(0, { data := List.replicate 32 5 }), (2 ^ 40, { data := List.replicate 32 6 })] } : PlateOp) }, clk := 4096 } : State).fresh).plate.op.getD ({ queue := 256, index := 0, chain := [unsorted], visible := [0], strokes := 1, stage := 2, fetched := [(0, { data := List.replicate 32 5 }), (2 ^ 40, { data := List.replicate 32 6 })] } : PlateOp))), (0), rfl, by decide +kernel⟩,
   ⟨({ having [(F.PLT_CTL_EN, 1), (F.HBM_STAT_INIT_DONE, 1), (F.PLT_OQ_CFG_EN 256, 1), (F.PLT_OQ_RING_BASE 256, 0x100)] with plate := { phase := .writing 0 64, op := some ({ queue := 256, index := 0, chain := [copyDesc], visible := [0], strokes := 1, outs := [(2 ^ 40, { data := List.replicate 32 5 })] } : PlateOp) }, clk := 4096 }), (({ queue := 256, index := 0, chain := [copyDesc], visible := [0], strokes := 1, outs := [(2 ^ 40, { data := List.replicate 32 5 })] } : PlateOp)), (0), (64), by decide +kernel⟩,
   ⟨({ having [(F.PLT_CTL_EN, 1), (F.HBM_STAT_INIT_DONE, 1), (F.PLT_OQ_CFG_EN 256, 1), (F.PLT_OQ_RING_BASE 256, 0x100)] with plate := { phase := .writing 0 64, op := some ({ queue := 256, index := 0, chain := [copyDesc], visible := [0], fail := some 0x23 } : PlateOp) }, clk := 4096 }), (({ queue := 256, index := 0, chain := [copyDesc], visible := [0], fail := some 0x23 } : PlateOp)), (0), (64), by decide +kernel⟩,
   ⟨({ having [(F.PLT_CTL_EN, 1), (F.HBM_STAT_INIT_DONE, 1), (F.PLT_OQ_CFG_EN 256, 1), (F.PLT_OQ_RING_BASE 256, 0x100)] with plate := { phase := .retiring 0, op := some ({ queue := 256, index := 0, chain := [copyDesc], visible := [0], strokes := 1, stroke := 1 } : PlateOp) }, clk := 32 }), (({ queue := 256, index := 0, chain := [copyDesc], visible := [0], strokes := 1, stroke := 1 } : PlateOp)), (0), by decide +kernel⟩,
   ⟨({ having [(F.PLT_CTL_EN, 1), (F.HBM_STAT_INIT_DONE, 1), (F.PLT_OQ_CFG_EN 256, 1), (F.PLT_OQ_RING_BASE 256, 0x100)] with plate := { phase := .retiring 0, op := some ({ queue := 256, index := 0, chain := [copyDesc, copyDesc], visible := [0], strokes := 1, stroke := 1 } : PlateOp) }, clk := 32 }), (({ queue := 256, index := 0, chain := [copyDesc, copyDesc], visible := [0], strokes := 1, stroke := 1 } : PlateOp)), (0), by decide +kernel⟩,
   ⟨({ State.reset with up := { pllLocked := true } }), (.chain), (0x10100), by decide +kernel⟩,
   ⟨({ having [(F.PLT_CTL_EN, 1), (F.HBM_STAT_INIT_DONE, 1), (F.PLT_OQ_CFG_EN 256, 1), (F.PLT_OQ_RING_BASE 256, 0x100)] with plate := { phase := .stroke 0, op := some ({ queue := 256, index := 0, chain := [gatherDesc], visible := [0], strokes := 1 } : PlateOp) } }), (({ queue := 256, index := 0, chain := [gatherDesc], visible := [0], strokes := 1 } : PlateOp)), by decide +kernel⟩,
   ⟨({ having [(F.PLT_CTL_EN, 1), (F.HBM_STAT_INIT_DONE, 1), (F.PLT_OQ_CFG_EN 256, 1), (F.PLT_OQ_RING_BASE 256, 0x100)] with plate := { phase := .stroke 0, op := some ({ queue := 256, index := 0, chain := [gatherDesc], visible := [0], strokes := 1 } : PlateOp) }, clk := 2000000 }), (({ queue := 256, index := 0, chain := [gatherDesc], visible := [0], strokes := 1 } : PlateOp)), by decide +kernel⟩⟩

theorem test_CollectiveStartsComplete_met :
    (∃ (s : State) (s1 : State) (q : Fin 512) (off : Nat) (d : List Byte),
      s.fresh.hbmFetch off 128 = (d, false, s1) ∧ s.stopped = false ∧ s.colHead q = some off ∧ s.colRoom = true ∧ s.cseqDue (cCseq d) = true ∧ cOp d ≠ coSmall ∧ cVar d = false ∧ cSys d = false) ∧
    (∃ (s : State) (s1 : State) (q : Fin 512) (off : Nat) (d : List Byte),
      s.fresh.hbmFetch off 128 = (d, false, s1) ∧ s.stopped = false ∧ s.colHead q = some off ∧ s.colRoom = true ∧ s.cseqDue (cCseq d) = true ∧ cOp d = coSmall ∧ cVar d = false ∧ cSys d = false) ∧
    (∃ (s : State) (q : Fin 512) (off : Nat),
      s.stopped = false ∧ s.colHead q = some off ∧ s.cseqDue (cCseq (s.fresh.hbmFetch off 128).1) = false) ∧
    (∃ (s : State) (q : Fin 512) (off : Nat),
      s.stopped = false ∧ s.colHead q = some off ∧ cMlist (s.memBytes off 128) ≠ 0 ∧ s.now + 4096 > cStart (s.memBytes off 128) ∧ s.coll (cCseq (s.memBytes off 128) % 65536) = none ∧ s.earlyResign (cCseq (s.memBytes off 128) % 65536) = none) ∧
    (∃ (s : State) (p : Path) (data : Word),
      s.stopped = false ∧ s.writeOpen p Reg.COL_CTL data = true ∧ (s.writeOf p Reg.COL_CTL data).actF F.COL_CTL_RESEQ = 1) :=
  ⟨⟨(collecting (colDesc 6 0 0 0 0 0 0) []), _, (384), (0x100000), _, Prod.ext (rfl) (Prod.ext (by decide +kernel) (rfl)), by decide +kernel⟩,
   ⟨(collecting (colDesc 7 0 0 0 0 0 0) []), _, (384), (0x100000), _, Prod.ext (rfl) (Prod.ext (by decide +kernel) (rfl)), by decide +kernel⟩,
   ⟨(collecting (colDesc 6 0 0 0 0 0 0) [(F.COL_STAT_SERIES, 1), (F.COL_STAT_LAST_CSEQ, 7)]), (384), (0x100000), by decide +kernel⟩,
   ⟨(collecting (toBytesLE 48 6 ++ toBytesLE 8 3 ++ toBytesLE 8 4000 ++ List.replicate 64 0) []), (384), (0x100000), by decide +kernel⟩,
   ⟨({ State.reset with up := { pllLocked := true } }), (.chain), (0x100), by decide +kernel⟩⟩

theorem test_CollectiveRunsComplete_met :
    (∃ (s : State) (f : Frame) (c : Coll) (h : Nat) (runs : List (Nat × Nat)),
      s.stopped = false ∧ s.colNext opColData = some f ∧ s.colOf f = some (c, h) ∧ c.place (colPhaseOf f) h = some runs ∧ colGoffOf f + f.gran.length ≤ runsSize runs ∧ c.outcome = none) ∧
    (∃ (s : State) (f : Frame),
      s.stopped = false ∧ s.colNext opColData = some f ∧ s.colOf f = none) ∧
    (∃ (s : State) (f : Frame) (c : Coll) (h : Nat),
      s.stopped = false ∧ s.colNext opColEnd = some f ∧ s.colOf f = some (c, h) ∧ c.outcome = none ∧ cFix c.desc = false) ∧
    (∃ (s : State) (tag : BitVec 16) (c : Coll),
      s.stopped = false ∧ s.coll tag.toNat = some c ∧ s.partDone c = true ∧ cReady c.desc = false ∧ cOp c.desc ≠ coReduceScatter ∧ cOp c.desc ≠ coAllToAll) ∧
    (∃ (s : State) (tag : BitVec 16) (c : Coll) (o : ColOutcome),
      s.stopped = false ∧ s.coll tag.toNat = some c ∧ c.outcome = some o ∧ c.unended = 0 ∧ c.job = none ∧ c.landing = [] ∧ s.slotFor (s.get (F.COL_Q_CPL_BASE c.queue) * 4096 + 32 * (c.index % s.colN c.queue)) 32 = true ∧ o.completed = true ∧ cNotify c.desc = false ∧ s.get (F.COL_Q_CPL_BASE c.queue) * 4096 + 32 * (c.index % s.colN c.queue) + 32 ≤ hbmSize) ∧
    (∃ (s : State) (p : Path) (data : Word) (c : Coll),
      s.stopped = false ∧ s.writeOpen p Reg.COL_RESIGN data = true ∧ s.col.active.find? (fun c => cCseq c.desc == (s.writeOf p Reg.COL_RESIGN data).actF F.COL_RESIGN_CSEQ) = some c) ∧
    (∃ (s : State) (p : Path) (data : Word) (d : List Byte),
      s.stopped = false ∧ s.writeOpen p Reg.COL_RESIGN data = true ∧ s.col.active = [] ∧ s.colWaiting.find? (fun d => cCseq d == (s.writeOf p Reg.COL_RESIGN data).actF F.COL_RESIGN_CSEQ) = some d) ∧
    (∃ (s : State) (tag : BitVec 16) (c : Coll),
      s.stopped = false ∧ s.coll tag.toNat = some c ∧ c.step = .barrier ∧ c.since + s.get F.COL_TIMER_START_LIMIT ≤ s.clk) ∧
    (∃ (s : State) (tag : BitVec 16) (c : Coll),
      s.stopped = false ∧ s.coll tag.toNat = some c ∧ c.step = .data ∧ c.since + s.get F.COL_TIMER_RUN_LIMIT ≤ s.clk) ∧
    (∃ (s : State) (tag : BitVec 16) (c : Coll),
      s.stopped = false ∧ s.coll tag.toNat = some c ∧ cReady c.desc = true ∧ c.flagsWritten = false ∧ c.outcome = none ∧ c.levels ≤ c.reduced ∧ s.memSlot = true) :=
  ⟨⟨(collWith (runningColl (colDesc 3 0 5 8 0x2000 0x4000 4)) [colFrameOf opColData 5 2 0 [{ data := List.replicate 32 5 }]]), (colFrameOf opColData 5 2 0 [{ data := List.replicate 32 5 }]), (runningColl (colDesc 3 0 5 8 0x2000 0x4000 4)), (1), (((runningColl (colDesc 3 0 5 8 0x2000 0x4000 4)).place 2 1).getD []), by decide +kernel⟩,
   ⟨(collWith (runningColl (colDesc 3 0 5 8 0x2000 0x4000 4)) [colFrameOf opColData 9 0 0 []]), (colFrameOf opColData 9 0 0 []), by decide +kernel⟩,
   ⟨(collWith (runningColl (colDesc 3 0 5 8 0x2000 0x4000 4)) [colFrameOf opColEnd 5 2 0 [{ data := toBytesLE 8 0 ++ toBytesLE 8 1 ++ toBytesLE 8 8 ++ toBytesLE 8 0 }]]), (colFrameOf opColEnd 5 2 0 [{ data := toBytesLE 8 0 ++ toBytesLE 8 1 ++ toBytesLE 8 8 ++ toBytesLE 8 0 }]), (runningColl (colDesc 3 0 5 8 0x2000 0x4000 4)), (1), by decide +kernel⟩,
   ⟨(collWith ({ runningColl (colDesc 6 0 5 0 0 0 0) with step := .data }) []), (5), ({ runningColl (colDesc 6 0 5 0 0 0 0) with step := .data }), by decide +kernel⟩,
   ⟨(collWith ({ runningColl (colDesc 3 0 5 8 0x2000 0x4000 4) with step := .voted, outcome := some { completed := true, cause := 0, resigner := 0, members := 2 } }) []), (5), ({ runningColl (colDesc 3 0 5 8 0x2000 0x4000 4) with step := .voted, outcome := some { completed := true, cause := 0, resigner := 0, members := 2 } }), ({ completed := true, cause := 0, resigner := 0, members := 2 }), by decide +kernel⟩,
   ⟨({ collWith (runningColl (colDesc 3 0 5 8 0x2000 0x4000 4)) [] with up := { pllLocked := true } }), (.chain), (0x500000000), (runningColl (colDesc 3 0 5 8 0x2000 0x4000 4)), by decide +kernel⟩,
   ⟨({ collecting (colDesc 6 0 5 0 0 0 0) [] with up := { pllLocked := true } }), (.chain), (0x500000000), (colDesc 6 0 5 0 0 0 0), by decide +kernel⟩,
   ⟨({ collWith ({ runningColl (colDesc 3 0 5 8 0x2000 0x4000 4) with step := .barrier }) [] with clk := 2 ^ 40 }), (5), ({ runningColl (colDesc 3 0 5 8 0x2000 0x4000 4) with step := .barrier }), by decide +kernel⟩,
   ⟨({ collWith (runningColl (colDesc 3 0 5 8 0x2000 0x4000 4)) [] with clk := 2 ^ 40 }), (5), (runningColl (colDesc 3 0 5 8 0x2000 0x4000 4)), by decide +kernel⟩,
   ⟨(collWith ({ runningColl (colDesc 3 4 5 8 0x2000 0x4000 4) with step := .data }) []), (5), ({ runningColl (colDesc 3 4 5 8 0x2000 0x4000 4) with step := .data }), by decide +kernel⟩⟩

theorem test_SwitchFramesComplete_met :
    (∃ (s : State) (p : Fin 128) (due : Nat) (h : Granule) (rest : List (Nat × List Granule)),
      s.stopped = false ∧ (s.port p).rxFrames = (due, [h]) :: rest ∧ due ≤ s.clk ∧ h.poison = false ∧ opKnown (bitsOf (ofBytesLE h.data) 7 0) = true) ∧
    (∃ (s : State) (p : Fin 128) (due : Nat) (h : Granule) (gs : List Granule) (rest : List (Nat × List Granule)),
      s.stopped = false ∧ (s.port p).rxFrames = (due, h :: gs) :: rest ∧ due ≤ s.clk ∧ (s.port p).stale = 0 ∧ h.poison = true) ∧
    (∃ (s : State) (p : Fin 128) (c : Fin 4) (x : SwFrame),
      s.stopped = false ∧ s.sw.ready.find? (fun x => x.egress == p.val && x.frame.cls == c.val && decide (x.due ≤ s.clk)) = some x ∧ x.frame.cls = 2 ∧ x.frame.size ≤ s.sharedFree p) ∧
    (∃ (s : State) (p : Fin 128) (c : Fin 4) (x : SwFrame),
      s.stopped = false ∧ s.sw.ready.find? (fun x => x.egress == p.val && x.frame.cls == c.val && decide (x.due ≤ s.clk)) = some x ∧ x.frame.cls = 2 ∧ s.sharedFree p < x.frame.size ∧ s.evictable p x.frame.cls = []) ∧
    (∃ (s : State) (e : Fin 149) (x : SwFrame) (d : Drr),
      s.stopped = false ∧ s.admitted = true ∧ s.nextFrame e = some (x, d) ∧ s.tooOld x.frame = false) ∧
    (∃ (s : State) (e : Fin 149) (x : SwFrame) (d : Drr),
      s.stopped = false ∧ s.admitted = true ∧ s.nextFrame e = some (x, d) ∧ s.tooOld x.frame = true) ∧
    (∃ (s : State) (p : Fin 128) (x : SwFrame),
      s.stopped = false ∧ s.sw.spill.find? (fun x => x.egress == p.val) = some x ∧ 2 * s.occClass p 3 < thrBgMax (s.port p).thr ∧ x.frame.size ≤ s.sharedFree p ∧ s.ringSlot p x.ringAt x.frame.size = true ∧ s.tooOld x.frame = false) ∧
    (∃ (s : State) (e : Fin 149) (k : Nat) (x : SwFrame),
      s.stopped = false ∧ (s.sw.crossing.filter (fun x => x.egress == e.val && !x.arrived))[k]? = some x ∧ s.mayArrive x = true) :=
  ⟨⟨(State.reset.setPort 4 { rxFrames := [(0, [{ data := toBytesLE 32 1 }])] }), (4), (0), ({ data := toBytesLE 32 1 }), ([]), by decide +kernel⟩,
   ⟨(State.reset.setPort 4 { rxFrames := [(0, [{ data := toBytesLE 32 1, poison := true }])] }), (4), (0), ({ data := toBytesLE 32 1, poison := true }), ([]), ([]), by decide +kernel⟩,
   ⟨({ State.reset with sw := { ready := [bulkAt 4 7] } }), (4), (2), (bulkAt 4 7), by decide +kernel⟩,
   ⟨({ having [(F.SWX_CLASS_CTL_PUSHOUT_EN, 0)] with ports := [(4, { thr := 0xFFFF000000000000 })], sw := { ready := [bulkAt 4 7] } }), (4), (2), (bulkAt 4 7), by decide +kernel⟩,
   ⟨({ having [(F.RTE_CTL_ADMIT, 1)] with sw := { queued := [bulkAt 130 7] } }), (130), (bulkAt 130 7), (((({ having [(F.RTE_CTL_ADMIT, 1)] with sw := { queued := [bulkAt 130 7] } }).nextFrame 130).getD (bulkAt 0 0, {})).2), by decide +kernel⟩,
   ⟨({ { having [(F.RTE_CTL_ADMIT, 1)] with sw := { queued := [bulkAt 130 7] } } with turn := 2 ^ 30 }), (130), (bulkAt 130 7), (((({ having [(F.RTE_CTL_ADMIT, 1)] with sw := { queued := [bulkAt 130 7] } }).nextFrame 130).getD (bulkAt 0 0, {})).2), by decide +kernel⟩,
   ⟨({ having [(F.SWX_CLASS_CTL_SPILL_EN, 1), (F.SWX_SPILL_SIZE, 1), (F.HBM_STAT_INIT_DONE, 1)] with sw := { spill := [bulkAt 4 7] } }), (4), (bulkAt 4 7), by decide +kernel⟩,
   ⟨({ State.reset with sw := { crossing := [bulkAt 4 7] } }), (4), (0), (bulkAt 4 7), by decide +kernel⟩⟩

theorem test_SwitchControlCommandsComplete_met :
    (∃ (s : State) (p : Fin 128) (bg : Bool) (t : Tracker),
      s.stopped = false ∧ s.admitted = true ∧ s.throttled p (if bg then 3 else 2) = false ∧ nextHeld (s.heldAt p (if bg then 3 else 2))
      (Sparse.get (fun _ => 512) s.rep.lastHeld (2 * p + (if bg then 3 else 2) % 2)) = some t ∧ t.sent = false) ∧
    (∃ (s : State) (p : Path) (data : Word),
      s.stopped = false ∧ s.writeOpen p Reg.SWX_BUF_THR data = true ∧ thrRx (s.writeOf p Reg.SWX_BUF_THR data).new + thrSched (s.writeOf p Reg.SWX_BUF_THR data).new +
      thrCtrl (s.writeOf p Reg.SWX_BUF_THR data).new + 2048 ≤ 14560) ∧
    (∃ (s : State) (p : Path) (data : Word),
      s.stopped = false ∧ s.writeOpen p Reg.SWX_BUF_THR data = true ∧ 14560 < thrRx (s.writeOf p Reg.SWX_BUF_THR data).new +
      thrSched (s.writeOf p Reg.SWX_BUF_THR data).new + thrCtrl (s.writeOf p Reg.SWX_BUF_THR data).new + 2048) ∧
    (∃ (s : State) (p : Path) (data : Word),
      s.stopped = false ∧ s.writeOpen p Reg.SWX_SPILL data = true ∧ (s.writeOf p Reg.SWX_SPILL data).newF F.SWX_SPILL_SIZE ≤ 64 ∧ s.sw.spill = [] ∧ s.flag F.SWX_CLASS_CTL_SPILL_EN = false) ∧
    (∃ (s : State) (p : Path) (data : Word),
      s.stopped = false ∧ s.writeOpen p Reg.SWX_SPILL data = true ∧ 64 < (s.writeOf p Reg.SWX_SPILL data).newF F.SWX_SPILL_SIZE) ∧
    (∃ (s : State) (p : Path) (data : Word),
      s.stopped = false ∧ s.writeOpen p Reg.SWX_ML_ARM data = true ∧ s.get F.SWX_ML_TURN_START_TURN < s.now + 4096) ∧
    (∃ (s : State) (s1 : State) (p : Path) (data : Word) (d : List Byte) (m : Nat),
      s.fresh.hbmFetch (s.get F.SWX_ML_DIR_BASE * 4096 + 32 * m) 32 = (d, false, s1) ∧ s.stopped = false ∧ s.writeOpen p Reg.SWX_ML_ARM data = true ∧ (s.writeOf p Reg.SWX_ML_ARM data).actF F.SWX_ML_ARM_MLIST = m ∧ s.flag F.SWX_SCHED_ML_EN = true ∧ s.flag F.PWR_STAT_WARN = false ∧ m ≠ 0 ∧ m < 2 ^ min 12 (s.get F.SWX_ML_DIR_LOG2N) ∧ s.now + 4096 ≤ s.get F.SWX_ML_TURN_START_TURN ∧ s.sw.lists = [] ∧ s.hbmOpen = true ∧ bitAt (bytesAt d 15 1) 0 = true ∧ bytesAt d 14 1 = 0 ∧ bytesAt d 8 4 ≠ 0) ∧
    (∃ (s : State) (s1 : State) (n : BitVec 32) (m : MoveList) (d : List Byte) (bad : Bool),
      (s.fresh.activate (m.base + 32 * m.read)).hbmFetch (m.base + 32 * m.read) 32 = (d, bad, s1) ∧ s.stopped = false ∧ s.listWith n.toNat (fun m => decide (m.read < m.entries)) = some m ∧ s.slotFor (m.base + 32 * m.read) 32 = true) ∧
    (∃ (s : State) (n : BitVec 32) (m : MoveList) (e : MoveEntry),
      s.stopped = false ∧ s.listWith n.toNat (fun m => (s.dueEntry m).isSome) = some m ∧ s.dueEntry m = some e ∧ s.entryError m e = none ∧ m.collective = false) ∧
    (∃ (s : State) (n : BitVec 32) (m : MoveList) (e : MoveEntry) (c : Coll),
      s.stopped = false ∧ s.listWith n.toNat (fun m => (s.dueEntry m).isSome) = some m ∧ s.dueEntry m = some e ∧ s.entryError m e = none ∧ m.collective = true ∧ s.coll m.cseq = some c ∧ c.outcome = none) ∧
    (∃ (s : State) (n : BitVec 32) (m : MoveList) (e : MoveEntry) (err : Nat),
      s.stopped = false ∧ s.listWith n.toNat (fun m => (s.dueEntry m).isSome) = some m ∧ s.dueEntry m = some e ∧ s.entryError m e = some err ∧ m.collective = false) :=
  ⟨⟨({ having [(F.RTE_CTL_ADMIT, 1)] with rep := { trackers := [{ trackerOf { frameOf 1 with vc := 3 } with sent := false, heldFor := some 4 }] } }), (4), (false), ({ trackerOf { frameOf 1 with vc := 3 } with sent := false, heldFor := some 4 }), by decide +kernel⟩,
   ⟨({ State.reset with up := { pllLocked := true } }), (.chain), (0x0800_0C00_0400_0900), by decide +kernel⟩,
   ⟨({ State.reset with up := { pllLocked := true } }), (.chain), (0x3000_0C00_0400_0900), by decide +kernel⟩,
   ⟨({ having [(F.SWX_CLASS_CTL_SPILL_EN, 0)] with up := { pllLocked := true } }), (.chain), (5), by decide +kernel⟩,
   ⟨({ State.reset with up := { pllLocked := true } }), (.chain), (65), by decide +kernel⟩,
   ⟨({ State.reset with up := { pllLocked := true } }), (.chain), (3), by decide +kernel⟩,
   ⟨(withHbm ({ having [(F.SWX_SCHED_ML_EN, 1), (F.HBM_STAT_INIT_DONE, 1), (F.SWX_ML_DIR_LOG2N, 4), (F.SWX_ML_DIR_BASE, 0x100), (F.SWX_ML_TURN_START_TURN, 5000)] with up := { pllLocked := true } }) 0x100060 (toBytesLE 8 0x3000 ++ toBytesLE 4 2 ++ [16, 0, 0, 1] ++ List.replicate 16 0)), _, (.chain), (3), _, (3), Prod.ext (rfl) (Prod.ext (by decide +kernel) (rfl)), by decide +kernel⟩,
   ⟨({ having [(F.HBM_STAT_INIT_DONE, 1)] with sw := { lists := [storeList []] } }), _, (3), (storeList []), _, _, (Prod.eta _).symm, by decide +kernel⟩,
   ⟨({ { having [(F.HBM_STAT_INIT_DONE, 1)] with sw := { lists := [storeList [moveEntry false]] } } with turn := 6000 }), (3), (storeList [moveEntry false]), (moveEntry false), by decide +kernel⟩,
   ⟨({ collWith (runningColl (colDesc 3 0 5 8 0x2000 0x4000 4)) [] with sw := { lists := [({ storeList [({ bytes := toBytesLE 5 0 ++ [4, 1] ++ List.replicate 25 0, poison := false, readAt := 0 } : MoveEntry)] with collective := true, cseq := 5 } : MoveList)] }, turn := 6000 }), (3), (({ storeList [({ bytes := toBytesLE 5 0 ++ [4, 1] ++ List.replicate 25 0, poison := false, readAt := 0 } : MoveEntry)] with collective := true, cseq := 5 } : MoveList)), (({ bytes := toBytesLE 5 0 ++ [4, 1] ++ List.replicate 25 0, poison := false, readAt := 0 } : MoveEntry)), (runningColl (colDesc 3 0 5 8 0x2000 0x4000 4)), by decide +kernel⟩,
   ⟨({ { having [(F.HBM_STAT_INIT_DONE, 1)] with sw := { lists := [storeList [moveEntry true]] } } with turn := 6000 }), (3), (storeList [moveEntry true]), (moveEntry true), (5), by decide +kernel⟩⟩

theorem test_RouteCommandsComplete_met :
    (∃ (s : State) (p : Path) (e : Fin 2) (i : Fin 128) (w : Fin 3) (data : Word),
      s.stopped = false ∧ s.writeOpen p (Reg.RTE_NEAR_A e i + 8 * w) data = true) ∧
    (∃ (s : State) (p : Path) (e : Fin 2) (i : Fin 256) (w : Fin 3) (data : Word),
      s.stopped = false ∧ s.writeOpen p (Reg.RTE_FAR_A e i + 8 * w) data = true ∧ s.writable e = false) ∧
    (∃ (s : State) (p : Path) (k : Fin 2) (data : Word),
      s.stopped = false ∧ s.writeOpen p (Reg.RTE_PORT_FAR k) data = true) ∧
    (∃ (s : State) (p : Path) (data : Word),
      s.stopped = false ∧ s.writeOpen p Reg.RTE_ED data = true ∧ s.sw.flip = none) ∧
    (∃ (s : State) (p : Path) (data : Word),
      s.stopped = false ∧ s.writeOpen p Reg.RTE_FLIP_ARM data = true ∧ (s.writeOf p Reg.RTE_FLIP_ARM data).actF F.RTE_FLIP_ARM_ARM = 1 ∧ (s.writeOf p Reg.RTE_FLIP_ARM data).actF F.RTE_FLIP_ARM_CANCEL = 0 ∧ (s.writeOf p Reg.RTE_FLIP_ARM data).actF F.RTE_FLIP_ARM_TO = 1 ∧ s.sw.flip = none ∧ s.admitted = true ∧ s.edition = 0 ∧ s.flag F.RTE_ED_READY1 = true ∧ s.now + 4096 ≤ s.get F.RTE_FLIP_TURN_TURN) ∧
    (∃ (s : State) (p : Path) (data : Word) (e : Nat) (t : Nat),
      s.stopped = false ∧ s.writeOpen p Reg.RTE_FLIP_ARM data = true ∧ (s.writeOf p Reg.RTE_FLIP_ARM data).actF F.RTE_FLIP_ARM_ARM = 0 ∧ (s.writeOf p Reg.RTE_FLIP_ARM data).actF F.RTE_FLIP_ARM_CANCEL = 1 ∧ s.sw.flip = some (e, t) ∧ s.now < t) ∧
    (∃ (s : State) (e : Nat) (t : Nat),
      s.stopped = false ∧ s.sw.flip = some (e, t) ∧ s.now ≠ t) ∧
    (∃ (s : State) (e : Nat) (t : Nat),
      s.stopped = false ∧ s.sw.flip = some (e, t) ∧ s.now = t) ∧
    (∃ (s : State) (p : Path) (data : Word),
      s.stopped = false ∧ s.writeOpen p Reg.RTE_CTL data = true ∧ s.admitted = false ∧ (s.writeOf p Reg.RTE_CTL data).newF F.RTE_CTL_CUR ≠ (s.writeOf p Reg.RTE_CTL data).oldF F.RTE_CTL_CUR ∧ (s.writeOf p Reg.RTE_CTL data).newF F.RTE_CTL_SLICE = (s.writeOf p Reg.RTE_CTL data).oldF F.RTE_CTL_SLICE ∧ (s.writeOf p Reg.RTE_CTL data).newF F.RTE_CTL_ADMIT = 0) ∧
    (∃ (s : State) (p : Path) (data : Word),
      s.stopped = false ∧ s.writeOpen p Reg.RTE_CTL data = true ∧ s.admitted = true ∧ (s.writeOf p Reg.RTE_CTL data).newF F.RTE_CTL_CUR ≠ (s.writeOf p Reg.RTE_CTL data).oldF F.RTE_CTL_CUR) ∧
    (∃ (s : State) (p : Path) (data : Word),
      s.stopped = false ∧ s.writeOpen p Reg.RTE_CTL data = true ∧ (s.writeOf p Reg.RTE_CTL data).newF F.RTE_CTL_ADMIT = 1 ∧ s.flag F.SEC_BURN_ACTIVE = true) ∧
    (∃ (s : State) (p : Path) (data : Word),
      s.stopped = false ∧ s.writeOpen p Reg.RTE_CTL data = true ∧ (s.writeOf p Reg.RTE_CTL data).newF F.RTE_CTL_ADMIT = 1 ∧ (s.writeOf p Reg.RTE_CTL data).newF F.RTE_CTL_CUR = (s.writeOf p Reg.RTE_CTL data).oldF F.RTE_CTL_CUR ∧ (s.writeOf p Reg.RTE_CTL data).newF F.RTE_CTL_SLICE = (s.writeOf p Reg.RTE_CTL data).oldF F.RTE_CTL_SLICE ∧ s.flag F.SEC_BURN_ACTIVE = false ∧ s.get F.SEC_BURN_RESULT ≠ 2 ∧ s.sec.burnStart = none) ∧
    (∃ (s : State) (p : Path) (data : Word),
      s.stopped = false ∧ s.writeOpen p Reg.RTE_CTL data = true ∧ (s.writeOf p Reg.RTE_CTL data).newF F.RTE_CTL_SLICE ≠ (s.writeOf p Reg.RTE_CTL data).oldF F.RTE_CTL_SLICE ∧ (s.writeOf p Reg.RTE_CTL data).newF F.RTE_CTL_CUR = (s.writeOf p Reg.RTE_CTL data).oldF F.RTE_CTL_CUR ∧ (s.writeOf p Reg.RTE_CTL data).newF F.RTE_CTL_ADMIT = 0 ∧ s.admitted = false ∧ s.sec.sliceFree = true) ∧
    (∃ (s : State) (p : Path) (data : Word),
      s.stopped = false ∧ s.writeOpen p Reg.RTE_CTL data = true ∧ (s.writeOf p Reg.RTE_CTL data).newF F.RTE_CTL_SLICE ≠ (s.writeOf p Reg.RTE_CTL data).oldF F.RTE_CTL_SLICE ∧ s.sec.sliceFree = false) ∧
    (∃ (s : State) (p : Path) (n : Fin 128) (data : Word),
      s.stopped = false ∧ s.writeOpen p (Reg.RTE_NBR_EXP n) data = true) :=
  ⟨⟨({ State.reset with up := { pllLocked := true } }), (.chain), (0), (5), (1), (3), by decide +kernel⟩,
   ⟨({ having [(F.RTE_CTL_ADMIT, 1)] with up := { pllLocked := true } }), (.chain), (0), (5), (1), (3), by decide +kernel⟩,
   ⟨({ State.reset with up := { pllLocked := true } }), (.chain), (1), (0x10), by decide +kernel⟩,
   ⟨({ State.reset with up := { pllLocked := true } }), (.chain), (3), by decide +kernel⟩,
   ⟨({ having [(F.RTE_CTL_ADMIT, 1), (F.RTE_ED_READY1, 1), (F.RTE_FLIP_TURN_TURN, 5000)] with up := { pllLocked := true } }), (.chain), (3), by decide +kernel⟩,
   ⟨({ having [(F.RTE_CTL_ADMIT, 1)] with up := { pllLocked := true }, sw := { flip := some (1, 5000) } }), (.chain), (4), (1), (5000), by decide +kernel⟩,
   ⟨({ State.reset with sw := { flip := some (1, 5000) }, turn := 5001 }), (1), (5000), by decide +kernel⟩,
   ⟨({ State.reset with sw := { flip := some (1, 5000) }, turn := 5000 }), (1), (5000), by decide +kernel⟩,
   ⟨({ State.reset with up := { pllLocked := true } }), (.chain), (1), by decide +kernel⟩,
   ⟨({ having [(F.RTE_CTL_ADMIT, 1)] with up := { pllLocked := true } }), (.chain), (0x10001), by decide +kernel⟩,
   ⟨({ having [(F.SEC_BURN_ACTIVE, 1)] with up := { pllLocked := true } }), (.chain), (0x10000), by decide +kernel⟩,
   ⟨({ State.reset with up := { pllLocked := true } }), (.chain), (0x10000), by decide +kernel⟩,
   ⟨({ having [(F.RTE_CTL_ADMIT, 0)] with up := { pllLocked := true }, sec := { sliceFree := true } }), (.chain), (0x500), by decide +kernel⟩,
   ⟨({ State.reset with up := { pllLocked := true }, sec := { sliceFree := false } }), (.chain), (0x500), by decide +kernel⟩,
   ⟨({ State.reset with up := { pllLocked := true } }), (.chain), (9), (0x10), by decide +kernel⟩⟩

theorem test_LinkBringupCommandsComplete_met :
    (∃ (s : State) (t : State) (p : Fin 128) (lanes : BitVec 4) (nonce : BitVec 128) (w : Nat) (l : Nat),
      (setBitsList lanes.toNat 4).foldl (fun (s : State) l =>
      (s.putFlag (F.VGL_STAT_SIGNAL p l) true).putFlag (F.VGL_STAT_CDR_LOCK p l) true) s.fresh = t ∧ s.stopped = false ∧ t.flag (F.VPT_CTL_EN p) = true ∧ t.bstate p = 1 ∧ (t.port p).notBefore = 0 ∧ t.portsHeld = false ∧ t.cageReady p = true ∧ t.flag F.TRN_STAT_LOCKED = true ∧ t.get (F.VPT_CTL_STATE_REQ p) ≠ 2 ∧ t.get (F.VPT_CTL_LOOP p) = 0 ∧ (t.port p).feWaiting = false ∧ t.up.detachAt = none ∧ t.attempt p lanes.toNat = some (w, l)) ∧
    (∃ (s : State) (p : Fin 128) (own : BitVec 4) (peer : BitVec 4) (lanes : List (BitVec 30 × Byte × Byte)),
      s.stopped = false ∧ s.bstate p = 2) ∧
    (∃ (s : State) (p : Fin 128) (inverted : BitVec 4),
      s.stopped = false ∧ s.bstate p = 3) ∧
    (∃ (s : State) (p : Fin 128) (markers : List (BitVec 20)),
      s.stopped = false ∧ s.bstate p = 4 ∧ checkFailed (setBitsList (s.port p).lanes 4) (markers.map (·.toNat)) ≠ 0) ∧
    (∃ (s : State) (p : Fin 128) (m : BitVec 20) (l : Nat),
      s.stopped = false ∧ s.bstate p = 4 ∧ setBitsList (s.port p).lanes 4 = [l] ∧ markerCheckOk m.toNat = true) ∧
    (∃ (s : State) (p : Fin 128) (skew : Nat),
      s.stopped = false ∧ s.bstate p = 5) ∧
    (∃ (s : State) (p : Fin 128),
      s.stopped = false ∧ s.bstate p = 6 ∧ 64 ≤ (s.port p).fecRun) ∧
    (∃ (s : State) (p : Fin 128) (i : LinkIdent),
      s.stopped = false ∧ s.bstate p = 7 ∧ (s.port p).refused ≠ some i ∧ i.encReq = false) ∧
    (∃ (s : State) (p : Fin 128) (limits : List Nat) (echoed : Bool),
      s.stopped = false ∧ s.bstate p = 8 ∧ limits.all creditOk = false) ∧
    (∃ (s : State) (p : Fin 128) (limits : List Nat),
      s.stopped = false ∧ s.bstate p = 8 ∧ (s.creditLimits p).all creditOk = true ∧ (s.creditLimits p).foldl (· + ·) 0 ≤ s.get F.SWX_BUF_THR_RX_RES ∧ limits.length = 8 ∧ limits.all creditOk = true ∧ s.flag F.TRN_STAT_ALIGNED = true) ∧
    (∃ (s : State) (p : Fin 128) (n : Nat) (cause : Nat),
      s.stopped = false ∧ bringupLimit (s.bstate p) = some (n, cause) ∧ (s.port p).enteredAt + n < s.clk ∧ (s.port p).stuck = false) ∧
    (∃ (s : State) (p : Fin 128),
      s.stopped = false ∧ s.bstate p = 1 ∧ (s.port p).notBefore ≤ s.clk) :=
  ⟨⟨(having [(F.VPT_CTL_EN 4, 1), (F.MGT_CAGE_PRESENT 2, 1), (F.MGT_CAGE_FLAT 2, 1), (F.TRN_STAT_LOCKED, 1), (F.VPT_CTL_WIDTH 4, 2)]), _, (4), (15), (77), (2), (15), rfl, by decide +kernel⟩,
   ⟨((having [(F.VPT_STAT_BSTATE 4, 2), (F.VPT_CTL_EN 4, 1), (F.VPT_STAT_UP 4, 0), (F.VPT_CTL_WIDTH 4, 2)]).setPort 4 { lanes := 15 }), (4), (15), (15), ([]), by decide +kernel⟩,
   ⟨((having [(F.VPT_STAT_BSTATE 4, 3), (F.VPT_CTL_EN 4, 1), (F.VPT_STAT_UP 4, 0)]).setPort 4 { lanes := 15 }), (4), (2), by decide +kernel⟩,
   ⟨((having [(F.VPT_STAT_BSTATE 4, 4), (F.VPT_CTL_EN 4, 1), (F.VPT_STAT_UP 4, 0)]).setPort 4 { lanes := 1 }), (4), ([7]), by decide +kernel⟩,
   ⟨((having [(F.VPT_STAT_BSTATE 4, 4), (F.VPT_CTL_EN 4, 1), (F.VPT_STAT_UP 4, 0)]).setPort 4 { lanes := 1 }), (4), (2044), (0), by decide +kernel⟩,
   ⟨(having [(F.VPT_STAT_BSTATE 4, 5), (F.VPT_CTL_EN 4, 1), (F.VPT_STAT_UP 4, 0)]), (4), (600), by decide +kernel⟩,
   ⟨((having [(F.VPT_STAT_BSTATE 4, 6), (F.VPT_CTL_EN 4, 1), (F.VPT_STAT_UP 4, 0)]).setPort 4 { fecRun := 64 }), (4), by decide +kernel⟩,
   ⟨(having [(F.VPT_STAT_BSTATE 4, 7), (F.VPT_CTL_EN 4, 1), (F.VPT_STAT_UP 4, 0)]), (4), ({ domain := 0, member := 5, port := 9, keyFamily := 0, keySlot := 0, encReq := false, freeRun := false, nonce := 3 }), by decide +kernel⟩,
   ⟨(having [(F.VPT_STAT_BSTATE 4, 8), (F.VPT_CTL_EN 4, 1), (F.VPT_STAT_UP 4, 0)]), (4), ([5]), (true), by decide +kernel⟩,
   ⟨(having [(F.VPT_STAT_BSTATE 4, 8), (F.VPT_CTL_EN 4, 1), (F.VPT_STAT_UP 4, 0), (F.TRN_STAT_ALIGNED, 1)]), (4), ([18, 18, 18, 18, 18, 18, 18, 18]), by decide +kernel⟩,
   ⟨({ having [(F.VPT_STAT_BSTATE 4, 5), (F.VPT_CTL_EN 4, 1), (F.VPT_STAT_UP 4, 0)] with clk := 3000 }), (4), (2500), (4), by decide +kernel⟩,
   ⟨({ having [(F.VPT_STAT_BSTATE 4, 1), (F.VPT_CTL_EN 4, 1), (F.VPT_STAT_UP 4, 0)] with clk := 30000 }), (4), by decide +kernel⟩⟩

theorem test_LinkCodewordCommandsComplete_met :
    (∃ (s : State) (p : Fin 128) (n : Nat),
      s.stopped = false ∧ s.codewordNow p = some n ∧ s.bstate p = 9 ∧ (s.port p).cwNext ≤ n ∧ (s.port p).quietTx = false ∧ n % 8192 = 0) ∧
    (∃ (s : State) (p : Fin 128) (n : Nat),
      s.stopped = false ∧ s.codewordNow p = some n ∧ s.bstate p = 9 ∧ (s.port p).cwNext ≤ n ∧ (s.port p).quietTx = false ∧ n % 8192 ≠ 0 ∧ (s.port p).markNext = false) ∧
    (∃ (s : State) (p : Fin 128) (corrected : List Nat),
      s.stopped = false ∧ s.bstate p = 9) ∧
    (∃ (s : State) (t : State) (p : Fin 128) (cw : LinkCodeword) (authentic : Bool) (corrected : List Nat),
      s.fresh.countCorrected p corrected = t ∧ s.stopped = false ∧ s.bstate p = 6 ∧ t.flag (F.VPT_STAT_ENC p) = false ∧ 3 < cw.type) ∧
    (∃ (s : State) (t : State) (p : Fin 128) (cw : LinkCodeword) (authentic : Bool) (corrected : List Nat),
      s.fresh.countCorrected p corrected = t ∧ s.stopped = false ∧ s.bstate p = 9 ∧ t.flag (F.VPT_STAT_ENC p) = false ∧ cw.type = 0) ∧
    (∃ (s : State) (t : State) (p : Fin 128) (cw : LinkCodeword) (corrected : List Nat),
      s.fresh.countCorrected p corrected = t ∧ s.stopped = false ∧ s.bstate p = 9 ∧ t.flag (F.VPT_STAT_ENC p) = true ∧ (t.port p).authRx < 64) ∧
    (∃ (s : State) (p : Fin 128),
      s.stopped = false ∧ s.bstate p = 9 ∧ (s.port p).unacked ≠ [] ∧ (s.port p).progressAt + s.get (F.VPT_RETRY_ACK_TIMEOUT p) ≤ s.clk) ∧
    (∃ (s : State) (t : State) (p : Fin 128) (lanes : BitVec 4),
      (setBitsList lanes.toNat 4).foldl (fun (s : State) l =>
      (s.putFlag (F.VGL_STAT_SIGNAL p l) false).putFlag (F.VGL_STAT_CDR_LOCK p l) false) s.fresh = t ∧ s.stopped = false ∧ (s.port p).lanes &&& lanes.toNat ≠ 0 ∧ t.flag (F.VPT_STAT_UP p) = true) ∧
    (∃ (s : State) (p : Fin 128),
      s.stopped = false ∧ s.flag (F.VPT_STAT_UP p) = true ∧ s.get (F.VPT_RETRY_LIMIT p) ≤ (s.port p).replays ∧ (s.port p).replay = none ∧ (s.port p).unacked ≠ [] ∧ (s.port p).progressAt + s.get (F.VPT_RETRY_ACK_TIMEOUT p) ≤ s.clk) :=
  ⟨⟨(having [(F.VPT_STAT_BSTATE 4, 9), (F.VPT_CTL_EN 4, 1), (F.VPT_STAT_UP 4, 1), (F.VPT_STAT_WIDTH 4, 2)]), (4), (0), by decide +kernel⟩,
   ⟨({ having [(F.VPT_STAT_BSTATE 4, 9), (F.VPT_CTL_EN 4, 1), (F.VPT_STAT_UP 4, 1), (F.VPT_STAT_WIDTH 4, 2)] with turn := 1000 }), (4), ((({ having [(F.VPT_STAT_BSTATE 4, 9), (F.VPT_CTL_EN 4, 1), (F.VPT_STAT_UP 4, 1), (F.VPT_STAT_WIDTH 4, 2)] with turn := 1000 } : State).codewordNow 4).getD 0), by decide +kernel⟩,
   ⟨(having [(F.VPT_STAT_BSTATE 4, 9), (F.VPT_CTL_EN 4, 1), (F.VPT_STAT_UP 4, 1), (F.VPT_STAT_WIDTH 4, 2)]), (4), ([1]), by decide +kernel⟩,
   ⟨(having [(F.VPT_STAT_BSTATE 4, 6), (F.VPT_CTL_EN 4, 1), (F.VPT_STAT_UP 4, 0)]), _, (4), ({ type := 5, lseq := 0, request := 0, ackSeq := 0, nak := false, credit := [], hdrMap := 0, idleMap := 0x1FFFF, granules := [] }), (true), ([]), rfl, by decide +kernel⟩,
   ⟨(having [(F.VPT_STAT_BSTATE 4, 9), (F.VPT_CTL_EN 4, 1), (F.VPT_STAT_UP 4, 1), (F.VPT_STAT_WIDTH 4, 2)]), _, (4), ({ type := 0, lseq := 0, request := 0, ackSeq := 0, nak := false, credit := [], hdrMap := 0, idleMap := 0x1FFFF, granules := [] }), (true), ([]), rfl, by decide +kernel⟩,
   ⟨(having [(F.VPT_STAT_BSTATE 4, 9), (F.VPT_CTL_EN 4, 1), (F.VPT_STAT_UP 4, 1), (F.VPT_STAT_ENC 4, 1)]), _, (4), ({ type := 0, lseq := 0, request := 0, ackSeq := 0, nak := false, credit := [], hdrMap := 0, idleMap := 0x1FFFF, granules := [] }), ([]), rfl, by decide +kernel⟩,
   ⟨({ (having [(F.VPT_STAT_BSTATE 4, 9), (F.VPT_CTL_EN 4, 1), (F.VPT_STAT_UP 4, 1), (F.VPT_STAT_WIDTH 4, 2)]).setPort 4 { unacked := [{ lseq := 0, request := 0, hdrMap := 0, idleMap := 0, gran := [], col := [], slots := [] }] } with clk := 1000000 }), (4), by decide +kernel⟩,
   ⟨((having [(F.VPT_STAT_BSTATE 4, 9), (F.VPT_CTL_EN 4, 1), (F.VPT_STAT_UP 4, 1), (F.VPT_STAT_WIDTH 4, 2)]).setPort 4 { lanes := 15 }), _, (4), (1), rfl, by decide +kernel⟩,
   ⟨({ (having [(F.VPT_STAT_BSTATE 4, 9), (F.VPT_CTL_EN 4, 1), (F.VPT_STAT_UP 4, 1), (F.VPT_STAT_WIDTH 4, 2)]).setPort 4 { replays := 255, unacked := [{ lseq := 0, request := 0, hdrMap := 0, idleMap := 0, gran := [], col := [], slots := [] }] } with clk := 1000000 }), (4), by decide +kernel⟩⟩

theorem test_LinkStateCommandsComplete_met :
    (∃ (s : State) (p : Fin 128) (rest : List Nat),
      s.stopped = false ∧ (s.port p).stateIn = 1 :: rest) ∧
    (∃ (s : State) (p : Fin 128) (n : Nat),
      s.stopped = false ∧ s.bstate p = 9 ∧ (s.port p).quietTx = false ∧ s.get (F.VPT_CTL_QUIET_IDLE p) ≠ 0 ∧ (s.port p).busyAt + s.get (F.VPT_CTL_QUIET_IDLE p) ≤ s.clk ∧ (s.port p).unacked = [] ∧ s.txWaits p = false ∧ s.listedSoon p = false ∧ s.codewordNow p = some n ∧ (s.port p).cwNext ≤ n ∧ (s.port p).markerAt 9 n = false) ∧
    (∃ (s : State) (p : Fin 128),
      s.stopped = false ∧ s.bstate p = 9 ∧ (s.port p).quietTx = true ∧ s.txWaits p = true) ∧
    (∃ (s : State) (p : Fin 128) (rest : List Nat),
      s.stopped = false ∧ (s.port p).stateIn = 2 :: rest) ∧
    (∃ (s : State) (p : Fin 128) (rest : List Nat),
      s.stopped = false ∧ (s.port p).stateIn = 3 :: rest ∧ s.flag (F.VPT_CTL_FE_ALLOW p) = true) ∧
    (∃ (s : State) (p : Fin 128) (rest : List Nat),
      s.stopped = false ∧ (s.port p).stateIn = 3 :: rest ∧ s.flag (F.VPT_CTL_FE_ALLOW p) = false) ∧
    (∃ (s : State) (p : Fin 128),
      s.stopped = false ∧ (s.port p).feWaiting = true ∧ s.get (F.VPT_CTL_LOOP p) = 3) ∧
    (∃ (s : State) (p : Fin 128),
      s.stopped = false ∧ (s.port p).feWaiting = true) ∧
    (∃ (s : State) (p : Path) (n : Fin 128) (data : Word) (w : RegWrite),
      s.writeOf p (Reg.VPT_CTL n) data = w ∧ s.stopped = false ∧ s.writeOpen p (Reg.VPT_CTL n) data = true ∧ (s.port n).stuck = false ∧ s.up.detachAt = none ∧ w.newF (F.VPT_CTL_EN n) = 1 ∧ w.oldF (F.VPT_CTL_EN n) = 1 ∧ w.newF (F.VPT_CTL_LOOP n) = 0 ∧ w.oldF (F.VPT_CTL_LOOP n) = 0 ∧ w.newF (F.VPT_CTL_STATE_REQ n) = 2 ∧ w.oldF (F.VPT_CTL_STATE_REQ n) ≠ 2) ∧
    (∃ (s : State) (t : State) (p : Path) (n : Fin 128) (data : Word) (w : RegWrite),
      s.writeOf p (Reg.VPT_CTL n) data = w ∧ s.fresh.takeWrite w = t ∧ s.stopped = false ∧ s.writeOpen p (Reg.VPT_CTL n) data = true ∧ (s.port n).stuck = false ∧ s.up.detachAt = none ∧ t.portsHeld = false ∧ w.newF (F.VPT_CTL_EN n) = 1 ∧ w.newF (F.VPT_CTL_LOOP n) = 1 ∧ w.oldF (F.VPT_CTL_LOOP n) = 0) ∧
    (∃ (s : State) (p : Path) (n : Fin 128) (data : Word) (w : RegWrite),
      s.writeOf p (Reg.VPT_CTL n) data = w ∧ s.stopped = false ∧ s.writeOpen p (Reg.VPT_CTL n) data = true ∧ (s.port n).stuck = false ∧ s.up.detachAt = none ∧ w.newF (F.VPT_CTL_EN n) = 0 ∧ w.oldF (F.VPT_CTL_EN n) = 1) ∧
    (∃ (s : State) (p : Path) (n : Fin 128) (data : Word) (w : RegWrite),
      s.writeOf p (Reg.VPT_CTL n) data = w ∧ s.stopped = false ∧ s.writeOpen p (Reg.VPT_CTL n) data = true ∧ s.up.detachAt ≠ none) ∧
    (∃ (s : State) (p : Path) (n : Fin 128) (data : Word) (w : RegWrite),
      s.writeOf p (Reg.VPT_CTL n) data = w ∧ s.stopped = false ∧ s.writeOpen p (Reg.VPT_CTL n) data = true ∧ s.up.detachAt = none ∧ (s.port n).stuck = true ∧ w.new = w.old ∧ w.newF (F.VPT_CTL_EN n) = 1 ∧ w.newF (F.VPT_CTL_LOOP n) = 0 ∧ w.newF (F.VPT_CTL_STATE_REQ n) = 0) :=
  ⟨⟨((having [(F.VPT_STAT_BSTATE 4, 9), (F.VPT_CTL_EN 4, 1), (F.VPT_STAT_UP 4, 1), (F.VPT_STAT_WIDTH 4, 2)]).setPort 4 { stateIn := [1] }), (4), ([]), by decide +kernel⟩,
   ⟨({ having [(F.VPT_STAT_BSTATE 4, 9), (F.VPT_CTL_EN 4, 1), (F.VPT_STAT_UP 4, 1), (F.VPT_STAT_WIDTH 4, 2), (F.VPT_CTL_QUIET_IDLE 4, 10)] with clk := 1000, turn := 1000 }), (4), ((({ having [(F.VPT_STAT_BSTATE 4, 9), (F.VPT_CTL_EN 4, 1), (F.VPT_STAT_UP 4, 1), (F.VPT_STAT_WIDTH 4, 2), (F.VPT_CTL_QUIET_IDLE 4, 10)] with clk := 1000, turn := 1000 } : State).codewordNow 4).getD 0), by decide +kernel⟩,
   ⟨((having [(F.VPT_STAT_BSTATE 4, 9), (F.VPT_CTL_EN 4, 1), (F.VPT_STAT_UP 4, 1), (F.VPT_STAT_WIDTH 4, 2)]).setPort 4 { quietTx := true, ackDue := true }), (4), by decide +kernel⟩,
   ⟨((having [(F.VPT_STAT_BSTATE 4, 9), (F.VPT_CTL_EN 4, 1), (F.VPT_STAT_UP 4, 1), (F.VPT_STAT_WIDTH 4, 2)]).setPort 4 { stateIn := [2] }), (4), ([]), by decide +kernel⟩,
   ⟨((having [(F.VPT_STAT_BSTATE 4, 9), (F.VPT_CTL_EN 4, 1), (F.VPT_STAT_UP 4, 1), (F.VPT_CTL_FE_ALLOW 4, 1)]).setPort 4 { stateIn := [3] }), (4), ([]), by decide +kernel⟩,
   ⟨((having [(F.VPT_STAT_BSTATE 4, 9), (F.VPT_CTL_EN 4, 1), (F.VPT_STAT_UP 4, 1), (F.VPT_STAT_WIDTH 4, 2)]).setPort 4 { stateIn := [3] }), (4), ([]), by decide +kernel⟩,
   ⟨((having [(F.VPT_STAT_BSTATE 4, 1), (F.VPT_CTL_EN 4, 1), (F.VPT_STAT_UP 4, 0), (F.VPT_CTL_LOOP 4, 3)]).setPort 4 { feWaiting := true }), (4), by decide +kernel⟩,
   ⟨((having [(F.VPT_STAT_BSTATE 4, 1), (F.VPT_CTL_EN 4, 1), (F.VPT_STAT_UP 4, 0), (F.VPT_CTL_LOOP 4, 3)]).setPort 4 { feWaiting := true }), (4), by decide +kernel⟩,
   ⟨({ having [(F.VPT_STAT_BSTATE 4, 9), (F.VPT_CTL_EN 4, 1), (F.VPT_STAT_UP 4, 1), (F.VPT_STAT_WIDTH 4, 2)] with up := { pllLocked := true } }), (.chain), (4), (2 ^ 27 + 1), _, rfl, by decide +kernel⟩,
   ⟨({ having [(F.VPT_STAT_BSTATE 4, 9), (F.VPT_CTL_EN 4, 1), (F.VPT_STAT_UP 4, 1), (F.VPT_STAT_WIDTH 4, 2)] with up := { pllLocked := true } }), _, (.chain), (4), (2 ^ 36 + 1), _, rfl, rfl, by decide +kernel⟩,
   ⟨({ having [(F.VPT_STAT_BSTATE 4, 9), (F.VPT_CTL_EN 4, 1), (F.VPT_STAT_UP 4, 1), (F.VPT_STAT_WIDTH 4, 2)] with up := { pllLocked := true } }), (.chain), (4), (0), _, rfl, by decide +kernel⟩,
   ⟨({ having [(F.VPT_STAT_BSTATE 4, 9), (F.VPT_CTL_EN 4, 1), (F.VPT_STAT_UP 4, 1), (F.VPT_STAT_WIDTH 4, 2)] with up := { pllLocked := true, detachAt := some 5 } }), (.chain), (4), (0), _, rfl, by decide +kernel⟩,
   ⟨({ ((having [(F.VPT_STAT_BSTATE 4, 7), (F.VPT_CTL_EN 4, 1), (F.VPT_STAT_UP 4, 0), (F.VPT_CTL_WIDTH 4, 0)]).setPort 4 { stuck := true }) with up := { pllLocked := true } }), (.chain), (4), (({ ((having [(F.VPT_STAT_BSTATE 4, 7), (F.VPT_CTL_EN 4, 1), (F.VPT_STAT_UP 4, 0), (F.VPT_CTL_WIDTH 4, 0)]).setPort 4 { stuck := true }) with up := { pllLocked := true } } : State).reg (Reg.VPT_CTL 4)), _, rfl, by decide +kernel⟩⟩

theorem test_HbmControlCommandsComplete_met :
    (∃ (s : State) (t : State) (p : Path) (data : Word),
      s.fresh.takeWrite ((s.writeOf p Reg.HBM_SWEEP data).setNew F.HBM_SWEEP_START 0) = t ∧ s.stopped = false ∧ s.writeOpen p Reg.HBM_SWEEP data = true ∧ (s.writeOf p Reg.HBM_SWEEP data).actF F.HBM_SWEEP_START = 1 ∧ t.flag F.HBM_STAT_SWEEP_ACTIVE = false ∧ t.get F.HBM_SWEEP_FIRST_REGION ≤ t.get F.HBM_SWEEP_LAST_REGION ∧ t.get F.HBM_SWEEP_LAST_REGION < regionCount ∧ t.flag (F.HBM_SLOT_STAT_RETIRED (t.get F.HBM_SWEEP_NEW_SLOT)) = false ∧ t.flag F.HBM_SWEEP_MODE = false ∧ t.flag F.HBM_SWEEP_ALL_SLOTS = false) ∧
    (∃ (s : State) (t : State) (p : Path) (data : Word),
      s.fresh.takeWrite ((s.writeOf p Reg.HBM_SWEEP data).setNew F.HBM_SWEEP_START 0) = t ∧ s.stopped = false ∧ s.writeOpen p Reg.HBM_SWEEP data = true ∧ (s.writeOf p Reg.HBM_SWEEP data).actF F.HBM_SWEEP_START = 1 ∧ t.flag F.HBM_STAT_SWEEP_ACTIVE = true) ∧
    (∃ (s : State) (w : Sweep),
      s.stopped = false ∧ s.hbm.sweep = some w ∧ s.inBackground [3, 11] = true) ∧
    (∃ (s : State) (p : Path) (data : Word) (w : RegWrite),
      s.writeOf p Reg.HBM_CTL data = w ∧ s.stopped = false ∧ s.writeOpen p Reg.HBM_CTL data = true ∧ w.actF F.HBM_CTL_INIT = 1 ∧ w.newF F.HBM_CTL_HATCH_MODE = w.oldF F.HBM_CTL_HATCH_MODE ∧ s.flag F.HBM_STAT_INIT_DONE = false ∧ (s.fresh.takeWrite w).flag F.HBM_STAT_INIT_DONE = false ∧ (s.fresh.takeWrite w).flag F.HBM_STAT_SWEEP_ACTIVE = false) ∧
    (∃ (s : State) (p : Path) (data : Word) (w : RegWrite),
      s.writeOf p Reg.HBM_CTL data = w ∧ s.stopped = false ∧ s.writeOpen p Reg.HBM_CTL data = true ∧ s.flag F.HBM_STAT_INIT_DONE = true ∧ w.newF F.HBM_CTL_ENC_EN ≠ w.oldF F.HBM_CTL_ENC_EN ∧ w.newF F.HBM_CTL_HATCH_MODE = w.oldF F.HBM_CTL_HATCH_MODE ∧ w.actF F.HBM_CTL_INIT = 0) ∧
    (∃ (s : State) (p : Path) (data : Word) (w : RegWrite),
      s.writeOf p Reg.HBM_CTL data = w ∧ s.stopped = false ∧ s.writeOpen p Reg.HBM_CTL data = true ∧ s.flag F.HBM_STAT_INIT_DONE = false ∧ w.newF F.HBM_CTL_HATCH_MODE = w.oldF F.HBM_CTL_HATCH_MODE ∧ w.actF F.HBM_CTL_INIT = 0) ∧
    (∃ (s : State) (p : Path) (data : Word) (w : RegWrite),
      s.writeOf p Reg.HBM_CTL data = w ∧ s.stopped = false ∧ s.writeOpen p Reg.HBM_CTL data = true ∧ w.newF F.HBM_CTL_ENC_EN = w.oldF F.HBM_CTL_ENC_EN ∧ w.newF F.HBM_CTL_HATCH_MODE ≠ w.oldF F.HBM_CTL_HATCH_MODE ∧ w.actF F.HBM_CTL_INIT = 0) ∧
    (∃ (s : State) (t : State) (p : Path) (n : Fin 16) (data : Word),
      s.fresh.takeWrite (((s.writeOf p (Reg.HBM_SLOT_STAT n) data).setNew (F.HBM_SLOT_STAT_RETIRE n) 0).setNew
      (F.HBM_SLOT_STAT_REARM n) 0) = t ∧ s.stopped = false ∧ s.writeOpen p (Reg.HBM_SLOT_STAT n) data = true ∧ (s.writeOf p (Reg.HBM_SLOT_STAT n) data).actF (F.HBM_SLOT_STAT_RETIRE n) = 1 ∧ (s.writeOf p (Reg.HBM_SLOT_STAT n) data).actF (F.HBM_SLOT_STAT_REARM n) = 0) ∧
    (∃ (s : State) (t : State) (p : Path) (n : Fin 16) (data : Word),
      s.fresh.takeWrite (((s.writeOf p (Reg.HBM_SLOT_STAT n) data).setNew (F.HBM_SLOT_STAT_RETIRE n) 0).setNew
      (F.HBM_SLOT_STAT_REARM n) 0) = t ∧ s.stopped = false ∧ s.writeOpen p (Reg.HBM_SLOT_STAT n) data = true ∧ (s.writeOf p (Reg.HBM_SLOT_STAT n) data).actF (F.HBM_SLOT_STAT_RETIRE n) = 0 ∧ (s.writeOf p (Reg.HBM_SLOT_STAT n) data).actF (F.HBM_SLOT_STAT_REARM n) = 1 ∧ t.flag (F.HBM_SLOT_STAT_RETIRED n) = true) :=
  ⟨⟨({ State.reset with up := { pllLocked := true } }), _, (.chain), (2 ^ 44 + 2 ^ 4 + 2), rfl, by decide +kernel⟩,
   ⟨({ having [(F.HBM_STAT_SWEEP_ACTIVE, 1)] with up := { pllLocked := true } }), _, (.chain), (2 ^ 44 + 2 ^ 4 + 2), rfl, by decide +kernel⟩,
   ⟨({ having [(F.HBM_STAT_SWEEP_ACTIVE, 1)] with turn := 63, hbm := { sweep := some { first := 0, last := 1, fill := false, all := false, newSlot := 2, kind := 0 } } }), ({ first := 0, last := 1, fill := false, all := false, newSlot := 2, kind := 0 }), by decide +kernel⟩,
   ⟨({ State.reset with up := { pllLocked := true } }), (.chain), ((State.reset.reg Reg.HBM_CTL) ||| 4), _, rfl, by decide +kernel⟩,
   ⟨({ having [(F.HBM_STAT_INIT_DONE, 1)] with up := { pllLocked := true } }), (.chain), ((State.reset.reg Reg.HBM_CTL) ^^^ 2), _, rfl, by decide +kernel⟩,
   ⟨({ State.reset with up := { pllLocked := true } }), (.chain), ((State.reset.reg Reg.HBM_CTL) ^^^ 2), _, rfl, by decide +kernel⟩,
   ⟨({ State.reset with up := { pllLocked := true } }), (.chain), ((State.reset.reg Reg.HBM_CTL) ^^^ 1), _, rfl, by decide +kernel⟩,
   ⟨({ State.reset with up := { pllLocked := true } }), _, (.chain), (3), (2 ^ 62), rfl, by decide +kernel⟩,
   ⟨({ having [(F.HBM_SLOT_STAT_RETIRED 3, 1)] with up := { pllLocked := true } }), _, (.chain), (3), (2 ^ 61), rfl, by decide +kernel⟩⟩

theorem test_HbmBackgroundCommandsComplete_met :
    (∃ (r : Nat),
      r < 2 ^ 21) ∧
    (∃ (s : State),
      s.stopped = false ∧ s.inBackground [0, 2, 4, 6, 8, 10, 12, 14] = true) ∧
    (∃ (s : State) (t : Fin 24),
      s.stopped = false ∧ s.inBackground [1, 5, 9, 13] = true ∧ s.hbm.writeBack = [] ∧ s.flag F.HBM_CTL_SCRUB_EN = true ∧ s.get (F.HBM_S_SCRUB_POS t) + min 256 (s.get F.HBM_CTL_SCRUB_RATE) < stackGranules) ∧
    (∃ (s : State) (t : State) (n : Fin 24) (struck : List (Nat × SymbolErrors)),
      struck.foldl (fun (s : State) e => s.hbmStrike (stackGranule n (e.1 % stackGranules)) e.2) s.fresh = t ∧ s.stopped = false ∧ t.inBackground [1, 5, 9, 13] = false) ∧
    (∃ (s : State) (t : Fin 24) (a : HbmRow),
      s.stopped = false ∧ s.inBackground [7] = true ∧ s.flag F.HBM_WEAR_EN = true ∧ s.get F.HBM_WEAR_DIST = 1 ∧ s.hbm.aggressors = [a] ∧ a.1 = t.val ∧ 1 ≤ a.2.2) ∧
    (∃ (s : State) (t : Fin 24) (pc : Fin 32) (r : HbmRow) (n : Nat),
      s.stopped = false ∧ s.inBackground [15] = true ∧ s.hbm.rowFix.find? (fun e => e.1.1 = t.val ∧ e.1.2.1 = pc.val ∧ s.get (F.HBM_S_REPAIR_PPR_THRESH t) ≤ e.2) = some (r, n)) ∧
    (∃ (s : State) (t : Fin 24) (pc : Fin 32) (r : HbmRow) (n : Nat),
      s.stopped = false ∧ s.inBackground [15] = true ∧ s.hbm.rowFix.find? (fun e => e.1.1 = t.val ∧ e.1.2.1 = pc.val ∧ s.get (F.HBM_S_REPAIR_PPR_THRESH t) ≤ e.2) = some (r, n)) ∧
    (∃ (s : State) (t : Fin 24) (pc : Fin 32) (row : Nat),
      s.stopped = false ∧ s.admitted = false ∧ s.get F.MGT_STAT_BOOT = 1 ∧ 0 < s.get (F.HBM_S_REPAIR_HARD_LEFT t)) ∧
    (∃ (s : State) (t : Fin 24) (mfr : Byte) (part : BitVec 16) (date : BitVec 16) (height : Byte) (density : Byte) (hardLeft : BitVec 16),
      s.stopped = false ∧ s.up.pllLocked = true) :=
  ⟨⟨(2097151), by decide +kernel⟩,
   ⟨({ having [] with turn := 47, clk := 4000000 }), by decide +kernel⟩,
   ⟨({ having [(F.HBM_STAT_INIT_DONE, 1), (F.HBM_CTL_SCRUB_EN, 1)] with turn := 31 }), (3), by decide +kernel⟩,
   ⟨(State.reset), _, (3), ([(5, [(1, 7)])]), rfl, by decide +kernel⟩,
   ⟨({ having [(F.HBM_WEAR_EN, 1), (F.HBM_WEAR_DIST, 1)] with turn := 127, hbm := { aggressors := [(3, 1, 7)] } }), (3), ((3, 1, 7)), by decide +kernel⟩,
   ⟨({ having [(F.HBM_STAT_INIT_DONE, 1)] with turn := 255, hbm := { rowFix := [((3, 1, 7), 1000000)] } }), (3), (1), ((3, 1, 7)), (1000000), by decide +kernel⟩,
   ⟨({ having [(F.HBM_STAT_INIT_DONE, 1)] with turn := 255, hbm := { rowFix := [((3, 1, 7), 1000000)] } }), (3), (1), ((3, 1, 7)), (1000000), by decide +kernel⟩,
   ⟨(having [(F.MGT_STAT_BOOT, 1), (F.HBM_S_REPAIR_HARD_LEFT 3, 2)]), (3), (1), (9), by decide +kernel⟩,
   ⟨({ State.reset with up := { pllLocked := true } }), (3), (1), (2), (3), (16), (32), (9), by decide +kernel⟩⟩

theorem test_HostRequestCommandsComplete_met :
    (∃ (s : State) (a : Fin 16) (p : Nat) (tag : BitVec 14) (off : BitVec 42) (len : Nat) (addr : Nat) (q : Nat),
      s.stopped = false ∧ s.servingPort a = p ∧ s.barOpen p = some true ∧ s.bar2Slot p off.toNat = some (addr, q)) ∧
    (∃ (s : State) (a : Fin 16) (p : Nat) (tag : BitVec 14) (off : BitVec 42) (len : Nat),
      s.stopped = false ∧ s.servingPort a = p ∧ s.barOpen p = some true ∧ s.bar2Slot p off.toNat = none) ∧
    (∃ (s : State) (a : Fin 16) (p : Nat) (off : BitVec 42) (data : List Byte) (poison : Bool) (addr : Nat) (q : Nat),
      s.stopped = false ∧ s.servingPort a = p ∧ s.barOpen p = some true ∧ s.bar2Slot p off.toNat = some (addr, q)) ∧
    (∃ (s : State) (a : Fin 16) (p : Nat) (tag : BitVec 14) (off : BitVec 42) (x : Word) (addr : Nat) (q : Nat),
      s.stopped = false ∧ s.servingPort a = p ∧ s.barOpen p = some true ∧ s.bar2Slot p off.toNat = some (addr, q)) ∧
    (∃ (s : State) (a : Fin 16) (p : Nat) (tag : BitVec 14) (off : BitVec 42),
      s.stopped = false ∧ s.servingPort a = p ∧ s.barOpen p = some true) ∧
    (∃ (s : State) (p : Path) (q : Fin 512) (data : Word),
      s.stopped = false ∧ s.writeOpen p (Reg.MSG_Q_IDX q) data = true ∧ tailOver (s.msgN q) (s.get (F.MSG_Q_IDX_HEAD q)) ((s.writeOf p (Reg.MSG_Q_IDX q) data).newF (F.MSG_Q_IDX_TAIL q)) = false) ∧
    (∃ (s : State) (a : Fin 16) (p : Nat) (q : Fin 512) (pasid : Option (BitVec 20)) (data : Word),
      s.stopped = false ∧ s.servingPort a = p ∧ s.barOpen p = some true ∧ s.owner q = some 17 ∧ q.val ≠ s.colq ∧ s.ringTakes p pasid (F.PLT_OQ_CFG_EN q) (F.PLT_OQ_CFG_PORT q) (F.PLT_OQ_CFG_PASID q) = true ∧ tailOver (s.oqN q) (s.oqHead q) (fieldGet data 16 0) = false ∧ s.oqGated q = false) ∧
    (∃ (s : State) (a : Fin 16) (p : Nat) (q : Fin 512) (pasid : Option (BitVec 20)) (data : Word),
      s.stopped = false ∧ s.servingPort a = p ∧ s.barOpen p = some true ∧ s.owner q = some 17 ∧ q.val ≠ s.colq ∧ s.ringTakes p pasid (F.PLT_OQ_CFG_EN q) (F.PLT_OQ_CFG_PORT q) (F.PLT_OQ_CFG_PASID q) = false) ∧
    (∃ (s : State) (a : Fin 16) (p : Nat) (q : Fin 512) (pasid : Option (BitVec 20)) (data : Word) (j : Nat),
      s.stopped = false ∧ s.servingPort a = p ∧ s.barOpen p = some true ∧ s.fqEntry p q pasid = some j) ∧
    (∃ (s : State) (a : Fin 16) (p : Nat) (q : Fin 512) (pasid : Option (BitVec 20)) (data : Word) (j : Nat),
      s.stopped = false ∧ s.servingPort a = p ∧ s.barOpen p = some true ∧ s.fqEntry p q pasid = some j ∧ tailOver (s.fqN p j) (s.get (F.ATT_FQ_D_HEAD p j)) (fieldGet data 16 0) = false) ∧
    (∃ (s : State) (a : Fin 16) (speed : Byte) (width : Fin 17),
      s.stopped = false ∧ s.up.pllLocked = true ∧ s.flag (F.ATT_CTL_EN a) = true ∧ s.flag (F.ATT_LINK_BONDED a) = false ∧ s.flag (F.ATT_LINK_UP a) = false) ∧
    (∃ (s : State) (a : Fin 16) (req : ConfigReq),
      s.stopped = false ∧ s.portOn a = true ∧ s.cfgWaits a = true ∧ s.mem4 a req = none) ∧
    (∃ (s : State) (a : Fin 16),
      s.stopped = false ∧ s.portOn a = true ∧ s.cfgWaits a = false) ∧
    (∃ (s : State) (a : Fin 16) (on : Bool) (alloc : Nat),
      s.stopped = false ∧ s.portOn a = true ∧ s.cfgWaits a = false) ∧
    (∃ (s : State) (a : Fin 16),
      s.stopped = false ∧ s.portOn a = true ∧ s.cfgWaits a = false) ∧
    (∃ (s : State) (a : Fin 16),
      s.stopped = false ∧ s.portOn a = true ∧ s.cfgWaits a = false) ∧
    (∃ (s : State) (a : Fin 16) (tag : BitVec 14) (k : BitVec 19),
      s.stopped = false ∧ s.barOpen a = some true ∧ k.toNat < 0x40000) :=
  ⟨⟨(having [(F.ATT_LINK_UP 2, 1), (F.ATT_CTL_EN 2, 1), (F.MGT_STAT_BOOT, 1), (F.ATT_B2_WIN_VALID 2 0, 1), (F.ATT_B2_WIN_QUEUE 2 0, 32), (F.ATT_B2_WIN_BASE 2 0, 16)]), (2), (2), (5), (64), (32), ((((having [(F.ATT_LINK_UP 2, 1), (F.ATT_CTL_EN 2, 1), (F.MGT_STAT_BOOT, 1), (F.ATT_B2_WIN_VALID 2 0, 1), (F.ATT_B2_WIN_QUEUE 2 0, 32), (F.ATT_B2_WIN_BASE 2 0, 16)] : State)).bar2Slot 2 64).getD (0, 0) |>.1), ((((having [(F.ATT_LINK_UP 2, 1), (F.ATT_CTL_EN 2, 1), (F.MGT_STAT_BOOT, 1), (F.ATT_B2_WIN_VALID 2 0, 1), (F.ATT_B2_WIN_QUEUE 2 0, 32), (F.ATT_B2_WIN_BASE 2 0, 16)] : State)).bar2Slot 2 64).getD (0, 0) |>.2), by decide +kernel⟩,
   ⟨(having [(F.ATT_LINK_UP 2, 1), (F.ATT_CTL_EN 2, 1), (F.MGT_STAT_BOOT, 1)]), (2), (2), (5), (64), (32), by decide +kernel⟩,
   ⟨(having [(F.ATT_LINK_UP 2, 1), (F.ATT_CTL_EN 2, 1), (F.MGT_STAT_BOOT, 1), (F.ATT_B2_WIN_VALID 2 0, 1), (F.ATT_B2_WIN_QUEUE 2 0, 32), (F.ATT_B2_WIN_BASE 2 0, 16)]), (2), (2), (64), ([1, 2, 3, 4]), (false), ((((having [(F.ATT_LINK_UP 2, 1), (F.ATT_CTL_EN 2, 1), (F.MGT_STAT_BOOT, 1), (F.ATT_B2_WIN_VALID 2 0, 1), (F.ATT_B2_WIN_QUEUE 2 0, 32), (F.ATT_B2_WIN_BASE 2 0, 16)] : State)).bar2Slot 2 64).getD (0, 0) |>.1), ((((having [(F.ATT_LINK_UP 2, 1), (F.ATT_CTL_EN 2, 1), (F.MGT_STAT_BOOT, 1), (F.ATT_B2_WIN_VALID 2 0, 1), (F.ATT_B2_WIN_QUEUE 2 0, 32), (F.ATT_B2_WIN_BASE 2 0, 16)] : State)).bar2Slot 2 64).getD (0, 0) |>.2), by decide +kernel⟩,
   ⟨(having [(F.ATT_LINK_UP 2, 1), (F.ATT_CTL_EN 2, 1), (F.MGT_STAT_BOOT, 1), (F.ATT_B2_WIN_VALID 2 0, 1), (F.ATT_B2_WIN_QUEUE 2 0, 32), (F.ATT_B2_WIN_BASE 2 0, 16)]), (2), (2), (5), (64), (9), ((((having [(F.ATT_LINK_UP 2, 1), (F.ATT_CTL_EN 2, 1), (F.MGT_STAT_BOOT, 1), (F.ATT_B2_WIN_VALID 2 0, 1), (F.ATT_B2_WIN_QUEUE 2 0, 32), (F.ATT_B2_WIN_BASE 2 0, 16)] : State)).bar2Slot 2 64).getD (0, 0) |>.1), ((((having [(F.ATT_LINK_UP 2, 1), (F.ATT_CTL_EN 2, 1), (F.MGT_STAT_BOOT, 1), (F.ATT_B2_WIN_VALID 2 0, 1), (F.ATT_B2_WIN_QUEUE 2 0, 32), (F.ATT_B2_WIN_BASE 2 0, 16)] : State)).bar2Slot 2 64).getD (0, 0) |>.2), by decide +kernel⟩,
   ⟨(having [(F.ATT_LINK_UP 2, 1), (F.ATT_CTL_EN 2, 1), (F.MGT_STAT_BOOT, 1)]), (2), (2), (5), (64), by decide +kernel⟩,
   ⟨({ having [(F.MGT_STAT_BOOT, 1)] with up := { attachOpen := true, pllLocked := true } }), (.chain), (480), (2 ^ 32), by decide +kernel⟩,
   ⟨(having [(F.ATT_LINK_UP 2, 1), (F.ATT_CTL_EN 2, 1), (F.MGT_STAT_BOOT, 1), (F.PLT_OQ_CFG_EN 256, 1), (F.PLT_OQ_CFG_PORT 256, 2), (F.PLT_OQ_CFG_PASID 256, 7)]), (2), (2), (256), (some 7), (1), by decide +kernel⟩,
   ⟨(having [(F.ATT_LINK_UP 2, 1), (F.ATT_CTL_EN 2, 1), (F.MGT_STAT_BOOT, 1), (F.PLT_OQ_CFG_EN 256, 1), (F.PLT_OQ_CFG_PORT 256, 2), (F.PLT_OQ_CFG_PASID 256, 7)]), (2), (2), (256), (some 8), (1), by decide +kernel⟩,
   ⟨(having [(F.ATT_LINK_UP 2, 1), (F.ATT_CTL_EN 2, 1), (F.MGT_STAT_BOOT, 1), (F.ATT_FQ_A_VALID 2 3, 1), (F.ATT_FQ_A_QUEUE 2 3, 32), (F.ATT_FQ_B_PASID 2 3, 7), (F.ATT_FQ_D_TAIL 2 3, 1), (F.ATT_FQ_C_LOG2N 2 3, 4), (F.ATT_FQ_C_RING 2 3, 5)]), (2), (2), (32), (some 7), (5), (3), by decide +kernel⟩,
   ⟨(having [(F.ATT_LINK_UP 2, 1), (F.ATT_CTL_EN 2, 1), (F.MGT_STAT_BOOT, 1), (F.ATT_FQ_A_VALID 2 3, 1), (F.ATT_FQ_A_QUEUE 2 3, 32), (F.ATT_FQ_B_PASID 2 3, 7), (F.ATT_FQ_D_TAIL 2 3, 1), (F.ATT_FQ_C_LOG2N 2 3, 4), (F.ATT_FQ_C_RING 2 3, 5)]), (2), (2), (32), (some 7), (2), (3), by decide +kernel⟩,
   ⟨({ having [(F.ATT_CTL_EN 2, 1)] with up := { pllLocked := true } }), (2), (4), (8), by decide +kernel⟩,
   ⟨(having [(F.ATT_LINK_UP 2, 1), (F.ATT_CTL_EN 2, 1), (F.MGT_STAT_BOOT, 1)]), (2), (.read .classCode), by decide +kernel⟩,
   ⟨({ having [(F.ATT_LINK_UP 2, 1), (F.ATT_CTL_EN 2, 1), (F.MGT_STAT_BOOT, 1)] with up := { attachOpen := true, pllLocked := true } }), (2), by decide +kernel⟩,
   ⟨({ having [(F.ATT_LINK_UP 2, 1), (F.ATT_CTL_EN 2, 1), (F.MGT_STAT_BOOT, 1)] with up := { attachOpen := true, pllLocked := true } }), (2), (true), (9), by decide +kernel⟩,
   ⟨({ having [(F.ATT_LINK_UP 2, 1), (F.ATT_CTL_EN 2, 1), (F.MGT_STAT_BOOT, 1)] with up := { attachOpen := true, pllLocked := true } }), (2), by decide +kernel⟩,
   ⟨({ having [(F.ATT_LINK_UP 2, 1), (F.ATT_CTL_EN 2, 1), (F.MGT_STAT_BOOT, 1)] with up := { attachOpen := true, pllLocked := true } }), (2), by decide +kernel⟩,
   ⟨(having [(F.ATT_LINK_UP 2, 1), (F.ATT_CTL_EN 2, 1), (F.MGT_STAT_BOOT, 1)]), (2), (5), (7), by decide +kernel⟩⟩

theorem test_HostAccessCommandsComplete_met :
    (∃ (s : State) (a : Fin 16) (j : Fin 32),
      s.stopped = false ∧ s.mayHost a = true ∧ s.flag (F.ATT_FQ_A_VALID a j) = true ∧ s.portOwns a (s.get (F.ATT_FQ_A_QUEUE a j)) = true ∧ (s.attach a).jobs = [] ∧ s.ringHeld a (s.get (F.ATT_FQ_A_QUEUE a j)) = false ∧ s.get (F.ATT_FQ_D_HEAD a j) % (2 * s.fqN a j) ≠ s.get (F.ATT_FQ_D_TAIL a j) % (2 * s.fqN a j)) ∧
    (∃ (s : State) (a : Fin 16) (j : Fin 32) (job : DmaJob) (k : Nat) (p : DmaPart),
      s.stopped = false ∧ (s.attach a).jobs.find? (fun y => y.entry == j.val) = some job ∧ job.parts.findIdx? (fun p => p.step == 1) = some k ∧ job.parts[k]? = some p ∧ s.mayHost a = true ∧ dmaToHost job.desc = true) ∧
    (∃ (s : State) (a : Fin 16) (j : Fin 32) (job : DmaJob),
      s.stopped = false ∧ (s.attach a).jobs.find? (fun y => y.entry == j.val) = some job ∧ job.desc ≠ [] ∧ job.ending = false ∧ dmaFlagEn job.desc = true ∧ job.parts ≠ [] ∧ job.flagReady = true ∧ job.fail = none ∧ job.flags.contains job.tile = false ∧ job.done ≤ job.tile) ∧
    (∃ (s : State) (a : Fin 16) (tag : BitVec 14) (h : HostAccess) (bytes : List Byte) (poison : Bool),
      s.stopped = false ∧ (s.attach a).byTag tag.toNat = some h) ∧
    (∃ (s : State) (a : Fin 16) (tag : BitVec 14) (h : HostAccess),
      s.stopped = false ∧ (s.attach a).byTag tag.toNat = some h) ∧
    (∃ (s : State) (a : Fin 16) (tag : BitVec 14) (h : HostAccess) (x : Nat) (since : Nat),
      s.stopped = false ∧ (s.attach a).byTag tag.toNat = some h ∧ h.step = .sent x since ∧ since + max 256 (s.get (F.ATT_CTL_CPL_TO a)) ≤ s.clk) ∧
    (∃ (s : State) (a : Fin 16) (pasid : BitVec 20) (page : BitVec 52) (r : AtsResult),
      s.stopped = false ∧ (s.attach a).atsOut.contains (pasid.toNat, page.toNat) = true) ∧
    (∃ (s : State) (a : Fin 16) (itag : Fin 32) (pasid : Option (BitVec 20)),
      s.stopped = false ∧ s.portOn a = true ∧ (s.attach a).accesses = []) ∧
    (∃ (s : State) (a : Fin 16) (i : Invalidation),
      s.stopped = false ∧ (s.attach a).invals.find? (fun i => i.waits.all (fun w => !(s.attach a).accesses.any (fun h => h.id == w))) = some i) ∧
    (∃ (s : State) (a : Fin 16) (group : BitVec 9),
      s.stopped = false ∧ (s.attach a).pageOut.any (fun o => o.1 == group.toNat) = true) ∧
    (∃ (s : State) (a : Fin 16) (h : HostAccess),
      s.stopped = false ∧ (s.attach a).accesses.find? (fun (h : HostAccess) => h.group.isSome && h.use.way == .page false &&
      decide (h.heldAt.getD s.clk + s.get (F.ATT_PRI_HOLD a) < s.clk)) = some h) ∧
    (∃ (s : State) (a : Fin 16),
      s.stopped = false ∧ max 1 (s.get (F.ATT_PRI_BATCH_N a)) ≤ (s.attach a).faults.length) ∧
    (∃ (s : State) (a : Fin 16) (j : Fin 32),
      s.stopped = false ∧ s.ringHeld a (s.get (F.ATT_FQ_A_QUEUE a j)) = true) ∧
    (∃ (s : State) (a : Fin 16) (p : PendingFault),
      s.stopped = false ∧ (s.attach a).faults = [p] ∧ p.since + s.get (F.ATT_PRI_BATCH_T a) ≤ s.clk ∧ p.dma = false) :=
  ⟨⟨(having [(F.ATT_LINK_UP 2, 1), (F.ATT_CTL_EN 2, 1), (F.MGT_STAT_BOOT, 1), (F.ATT_FQ_A_VALID 2 3, 1), (F.ATT_FQ_A_QUEUE 2 3, 32), (F.ATT_FQ_B_PASID 2 3, 7), (F.ATT_FQ_D_TAIL 2 3, 1), (F.ATT_FQ_C_LOG2N 2 3, 4), (F.ATT_FQ_C_RING 2 3, 5)]), (2), (3), by decide +kernel⟩,
   ⟨((having [(F.ATT_LINK_UP 2, 1), (F.ATT_CTL_EN 2, 1), (F.MGT_STAT_BOOT, 1)]).setAttach 2 { jobs := [({ entry := 3, queue := 32, pasid := 7, index := 0, desc := List.replicate 28 0 ++ [1] ++ List.replicate 35 0, parts := [{ host := 4096, fabric := 0x2000, len := 512, step := 1, left := 512 }] } : DmaJob)] }), (2), (3), (({ entry := 3, queue := 32, pasid := 7, index := 0, desc := List.replicate 28 0 ++ [1] ++ List.replicate 35 0, parts := [{ host := 4096, fabric := 0x2000, len := 512, step := 1, left := 512 }] } : DmaJob)), (0), ({ host := 4096, fabric := 0x2000, len := 512, step := 1, left := 512 }), by decide +kernel⟩,
   ⟨((having [(F.ATT_LINK_UP 2, 1), (F.ATT_CTL_EN 2, 1), (F.MGT_STAT_BOOT, 1)]).setAttach 2 { jobs := [({ entry := 3, queue := 32, pasid := 7, index := 0, desc := List.replicate 28 0 ++ [4] ++ List.replicate 35 0, parts := [{ host := 4096, fabric := 0x2000, len := 512, step := 3, left := 0 }] } : DmaJob)] }), (2), (3), (({ entry := 3, queue := 32, pasid := 7, index := 0, desc := List.replicate 28 0 ++ [4] ++ List.replicate 35 0, parts := [{ host := 4096, fabric := 0x2000, len := 512, step := 3, left := 0 }] } : DmaJob)), by decide +kernel⟩,
   ⟨((having [(F.ATT_LINK_UP 2, 1), (F.ATT_CTL_EN 2, 1), (F.MGT_STAT_BOOT, 1)]).setAttach 2 { accesses := [({ id := 0, pasid := 7, iova := 4096, bytes := 32, write := false, use := .peer ({ opcode := opLoad, src := 33, dst := 2, bytes := 32 } : Frame), step := .sent 5 0, since := 0 } : HostAccess)] }), (2), (5), (({ id := 0, pasid := 7, iova := 4096, bytes := 32, write := false, use := .peer ({ opcode := opLoad, src := 33, dst := 2, bytes := 32 } : Frame), step := .sent 5 0, since := 0 } : HostAccess)), (List.replicate 32 9), (false), by decide +kernel⟩,
   ⟨((having [(F.ATT_LINK_UP 2, 1), (F.ATT_CTL_EN 2, 1), (F.MGT_STAT_BOOT, 1)]).setAttach 2 { accesses := [({ id := 0, pasid := 7, iova := 4096, bytes := 32, write := false, use := .peer ({ opcode := opLoad, src := 33, dst := 2, bytes := 32 } : Frame), step := .sent 5 0, since := 0 } : HostAccess)] }), (2), (5), (({ id := 0, pasid := 7, iova := 4096, bytes := 32, write := false, use := .peer ({ opcode := opLoad, src := 33, dst := 2, bytes := 32 } : Frame), step := .sent 5 0, since := 0 } : HostAccess)), by decide +kernel⟩,
   ⟨({ (having [(F.ATT_LINK_UP 2, 1), (F.ATT_CTL_EN 2, 1), (F.MGT_STAT_BOOT, 1)]).setAttach 2 { accesses := [({ id := 0, pasid := 7, iova := 4096, bytes := 32, write := false, use := .peer ({ opcode := opLoad, src := 33, dst := 2, bytes := 32 } : Frame), step := .sent 5 0, since := 0 } : HostAccess)] } with clk := 1000000 }), (2), (5), (({ id := 0, pasid := 7, iova := 4096, bytes := 32, write := false, use := .peer ({ opcode := opLoad, src := 33, dst := 2, bytes := 32 } : Frame), step := .sent 5 0, since := 0 } : HostAccess)), (5), (0), by decide +kernel⟩,
   ⟨((having [(F.ATT_LINK_UP 2, 1), (F.ATT_CTL_EN 2, 1), (F.MGT_STAT_BOOT, 1)]).setAttach 2 { atsOut := [(7, 1)], atsEnabled := true, accesses := [({ id := 0, pasid := 7, iova := 4096, bytes := 32, write := false, use := .peer ({ opcode := opLoad, src := 33, dst := 2, bytes := 32 } : Frame), step := .translating, since := 0 } : HostAccess)] }), (2), (7), (1), ({ log2 := 0, addr := 0x9000, read := true, write := false }), by decide +kernel⟩,
   ⟨((having [(F.ATT_LINK_UP 2, 1), (F.ATT_CTL_EN 2, 1), (F.MGT_STAT_BOOT, 1)]).setAttach 2 { atc := [{ pasid := 7, page := 1, log2 := 0, addr := 0, read := true, write := true }] }), (2), (4), (some 7), by decide +kernel⟩,
   ⟨((having [(F.ATT_LINK_UP 2, 1), (F.ATT_CTL_EN 2, 1), (F.MGT_STAT_BOOT, 1)]).setAttach 2 { invals := [({ itag := 4, pasid := none, waits := [] } : Invalidation)] }), (2), (({ itag := 4, pasid := none, waits := [] } : Invalidation)), by decide +kernel⟩,
   ⟨((having [(F.ATT_LINK_UP 2, 1), (F.ATT_CTL_EN 2, 1), (F.MGT_STAT_BOOT, 1)]).setAttach 2 { pageOut := [(3, 7, 1)], accesses := [({ id := 0, pasid := 7, iova := 4096, bytes := 32, write := false, use := .peer ({ opcode := opLoad, src := 33, dst := 2, bytes := 32 } : Frame), step := .paging 3, since := 0, heldAt := some 0 } : HostAccess)] }), (2), (3), by decide +kernel⟩,
   ⟨({ (having [(F.ATT_LINK_UP 2, 1), (F.ATT_CTL_EN 2, 1), (F.MGT_STAT_BOOT, 1)]).setAttach 2 { pageOut := [(3, 7, 1)], accesses := [({ id := 0, pasid := 7, iova := 4096, bytes := 32, write := false, use := .peer ({ opcode := opLoad, src := 33, dst := 2, bytes := 32 } : Frame), step := .paging 3, since := 0, heldAt := some 0 } : HostAccess)] } with clk := 10000000000 }), (2), (({ id := 0, pasid := 7, iova := 4096, bytes := 32, write := false, use := .peer ({ opcode := opLoad, src := 33, dst := 2, bytes := 32 } : Frame), step := .paging 3, since := 0, heldAt := some 0 } : HostAccess)), by decide +kernel⟩,
   ⟨((having [(F.ATT_LINK_UP 2, 1), (F.ATT_CTL_EN 2, 1), (F.MGT_STAT_BOOT, 1), (F.ATT_PRI_BATCH_N 2, 1)]).setAttach 2 { faults := [{ pasid := 7, page := 1, write := false, dma := false, queue := 32, index := 0, since := 0, turn := 0 }] }), (2), by decide +kernel⟩,
   ⟨(({ having [(F.ATT_LINK_UP 2, 1), (F.ATT_CTL_EN 2, 1), (F.MGT_STAT_BOOT, 1), (F.ATT_FQ_A_VALID 2 3, 1), (F.ATT_FQ_A_QUEUE 2 3, 32), (F.ATT_FQ_B_PASID 2 3, 7), (F.ATT_FQ_D_TAIL 2 3, 1), (F.ATT_FQ_C_LOG2N 2 3, 4), (F.ATT_FQ_C_RING 2 3, 5)] with flt := { park := List.replicate 1024 { cls := 2, code := 0x20, block := 7, inst := 2, turn := 0, seq := 0 } } }).setAttach 2 { faults := [{ pasid := 7, page := 1, write := false, dma := true, queue := 32, index := 0, since := 0, turn := 0, held := true }] }), (2), (3), by decide +kernel⟩,
   ⟨({ (having [(F.ATT_LINK_UP 2, 1), (F.ATT_CTL_EN 2, 1), (F.MGT_STAT_BOOT, 1)]).setAttach 2 { faults := [{ pasid := 7, page := 1, write := false, dma := false, queue := 32, index := 0, since := 0, turn := 0 }] } with clk := 100000000 }), (2), ({ pasid := 7, page := 1, write := false, dma := false, queue := 32, index := 0, since := 0, turn := 0 }), by decide +kernel⟩⟩

theorem test_AttachPortCommandsComplete_met :
    (∃ (s : State) (p : Path) (a : Fin 16) (data : Word),
      s.stopped = false ∧ s.writeOpen p (Reg.ATT_ATC a) data = true ∧ (s.writeOf p (Reg.ATT_ATC a) data).actF (F.ATT_ATC_INV_ALL a) = 0 ∧ (s.writeOf p (Reg.ATT_ATC a) data).actF (F.ATT_ATC_INV a) = 1) ∧
    (∃ (s : State) (p : Path) (a : Fin 16) (data : Word),
      s.stopped = false ∧ s.writeOpen p (Reg.ATT_ATC a) data = true ∧ (s.writeOf p (Reg.ATT_ATC a) data).actF (F.ATT_ATC_INV_ALL a) = 1) ∧
    (∃ (s : State) (p : Path) (a : Fin 16) (data : Word),
      s.stopped = false ∧ s.writeOpen p (Reg.ATT_PRI a) data = true ∧ (s.writeOf p (Reg.ATT_PRI a) data).actF (F.ATT_PRI_RESUME_PRI a) = 1) ∧
    (∃ (s : State) (p : Path) (a : Fin 16) (data : Word) (w : RegWrite),
      s.writeOf p (Reg.ATT_FLT_RES a) data = w ∧ s.stopped = false ∧ s.writeOpen p (Reg.ATT_FLT_RES a) data = true ∧ w.actF (F.ATT_FLT_RES_ACTION a) = 0) ∧
    (∃ (s : State) (p : Path) (a : Fin 16) (data : Word) (w : RegWrite),
      s.writeOf p (Reg.ATT_FLT_RES a) data = w ∧ s.stopped = false ∧ s.writeOpen p (Reg.ATT_FLT_RES a) data = true ∧ w.actF (F.ATT_FLT_RES_ACTION a) = 1) ∧
    (∃ (s : State) (a : Fin 16),
      s.stopped = false ∧ s.flag (F.ATT_LINK_UP a) = true) ∧
    (∃ (s : State) (a : Fin 16),
      s.stopped = false) ∧
    (∃ (s : State) (a : Fin 16) (i : Fin 5),
      s.stopped = false ∧ (s.attach a).ide.getD i 0 = 2) :=
  ⟨⟨(({ having [(F.ATT_LINK_UP 2, 1), (F.ATT_CTL_EN 2, 1), (F.MGT_STAT_BOOT, 1)] with up := { attachOpen := true, pllLocked := true } }).setAttach 2 { accesses := [({ id := 0, pasid := 7, iova := 4096, bytes := 32, write := false, use := .peer ({ opcode := opLoad, src := 33, dst := 2, bytes := 32 } : Frame), step := .batched, since := 0 } : HostAccess)], atc := [{ pasid := 7, page := 1, log2 := 0, addr := 0, read := true, write := true }] }), (.chain), (2), (7 * 2 ^ 32 + 2 ^ 30), by decide +kernel⟩,
   ⟨(({ having [(F.ATT_LINK_UP 2, 1), (F.ATT_CTL_EN 2, 1), (F.MGT_STAT_BOOT, 1)] with up := { attachOpen := true, pllLocked := true } }).setAttach 2 { accesses := [({ id := 0, pasid := 7, iova := 4096, bytes := 32, write := false, use := .peer ({ opcode := opLoad, src := 33, dst := 2, bytes := 32 } : Frame), step := .batched, since := 0 } : HostAccess)], atc := [{ pasid := 7, page := 1, log2 := 0, addr := 0, read := true, write := true }] }), (.chain), (2), (2 ^ 31), by decide +kernel⟩,
   ⟨(({ having [(F.ATT_LINK_UP 2, 1), (F.ATT_CTL_EN 2, 1), (F.MGT_STAT_BOOT, 1)] with up := { attachOpen := true, pllLocked := true } }).setAttach 2 { accesses := [({ id := 0, pasid := 7, iova := 4096, bytes := 32, write := false, use := .peer ({ opcode := opLoad, src := 33, dst := 2, bytes := 32 } : Frame), step := .batched, since := 0 } : HostAccess)], atc := [{ pasid := 7, page := 1, log2 := 0, addr := 0, read := true, write := true }] }), (.chain), (2), (1), by decide +kernel⟩,
   ⟨(({ having [(F.ATT_LINK_UP 2, 1), (F.ATT_CTL_EN 2, 1), (F.MGT_STAT_BOOT, 1)] with up := { attachOpen := true, pllLocked := true } }).setAttach 2 { accesses := [({ id := 0, pasid := 7, iova := 4096, bytes := 32, write := false, use := .peer ({ opcode := opLoad, src := 33, dst := 2, bytes := 32 } : Frame), step := .batched, since := 0 } : HostAccess)], atc := [{ pasid := 7, page := 1, log2 := 0, addr := 0, read := true, write := true }] }), (.chain), (2), (7), _, rfl, by decide +kernel⟩,
   ⟨(({ having [(F.ATT_LINK_UP 2, 1), (F.ATT_CTL_EN 2, 1), (F.MGT_STAT_BOOT, 1)] with up := { attachOpen := true, pllLocked := true } }).setAttach 2 { accesses := [({ id := 0, pasid := 7, iova := 4096, bytes := 32, write := false, use := .peer ({ opcode := opLoad, src := 33, dst := 2, bytes := 32 } : Frame), step := .batched, since := 0 } : HostAccess)], atc := [{ pasid := 7, page := 1, log2 := 0, addr := 0, read := true, write := true }] }), (.chain), (2), (7 + 2 ^ 20), _, rfl, by decide +kernel⟩,
   ⟨((having [(F.ATT_LINK_UP 2, 1), (F.ATT_CTL_EN 2, 1), (F.MGT_STAT_BOOT, 1)]).setAttach 2 { accesses := [({ id := 0, pasid := 7, iova := 4096, bytes := 32, write := false, use := .peer ({ opcode := opLoad, src := 33, dst := 2, bytes := 32 } : Frame), step := .sent 5 0, since := 0 } : HostAccess)] }), (2), by decide +kernel⟩,
   ⟨((having [(F.ATT_LINK_UP 2, 1), (F.ATT_CTL_EN 2, 1), (F.MGT_STAT_BOOT, 1)]).setAttach 2 { accesses := [({ id := 0, pasid := 7, iova := 4096, bytes := 32, write := false, use := .peer ({ opcode := opLoad, src := 33, dst := 2, bytes := 32 } : Frame), step := .sent 5 0, since := 0 } : HostAccess)] }), (2), by decide +kernel⟩,
   ⟨((having [(F.ATT_LINK_UP 2, 1), (F.ATT_CTL_EN 2, 1), (F.MGT_STAT_BOOT, 1)]).setAttach 2 { ide := [0, 2, 0, 0, 0] }), (2), (1), by decide +kernel⟩⟩

theorem test_SpdmCommandsComplete_met :
    (∃ (s : State) (a : Fin 16),
      s.stopped = false ∧ s.portOn a = true ∧ s.cfgWaits a = false) ∧
    (∃ (s : State) (a : Fin 16),
      s.stopped = false ∧ s.portOn a = true ∧ s.cfgWaits a = false ∧ (s.attach a).spdmStep = 1) ∧
    (∃ (s : State) (a : Fin 16),
      s.stopped = false ∧ s.portOn a = true ∧ s.cfgWaits a = false ∧ (s.attach a).spdmStep = 2) ∧
    (∃ (s : State) (a : Fin 16),
      s.stopped = false ∧ s.portOn a = true ∧ s.cfgWaits a = false ∧ (s.attach a).spdmStep ≠ 3) ∧
    (∃ (s : State) (a : Fin 16),
      s.stopped = false ∧ s.portOn a = true ∧ s.cfgWaits a = false ∧ (s.attach a).spdmStep = 3) ∧
    (∃ (s : State) (a : Fin 16) (off : BitVec 16) (len : BitVec 16),
      s.stopped = false ∧ s.portOn a = true ∧ s.cfgWaits a = false ∧ (s.attach a).spdmStep = 3) ∧
    (∃ (s : State) (a : Fin 16) (nonce : BitVec 256),
      s.stopped = false ∧ s.portOn a = true ∧ s.cfgWaits a = false ∧ (s.attach a).spdmStep = 3) ∧
    (∃ (s : State) (a : Fin 16) (i : Byte) (nonce : BitVec 256),
      s.stopped = false ∧ s.portOn a = true ∧ s.cfgWaits a = false ∧ (s.attach a).spdmStep = 3 ∧ 1 ≤ i.toNat ∧ i.toNat ≤ 6) ∧
    (∃ (s : State) (a : Fin 16) (share : List Byte),
      s.stopped = false ∧ s.portOn a = true ∧ s.cfgWaits a = false ∧ (s.attach a).spdmStep = 3 ∧ (s.attach a).session = 0) ∧
    (∃ (s : State) (a : Fin 16),
      s.stopped = false ∧ s.portOn a = true ∧ s.cfgWaits a = false ∧ (s.attach a).spdmStep = 3 ∧ (s.attach a).session = 1) ∧
    (∃ (s : State) (a : Fin 16),
      s.stopped = false ∧ s.portOn a = true ∧ s.cfgWaits a = false ∧ (s.attach a).spdmStep = 3 ∧ (s.attach a).session = 2) ∧
    (∃ (s : State) (a : Fin 16),
      s.stopped = false ∧ s.portOn a = true ∧ s.cfgWaits a = false ∧ (s.attach a).spdmStep = 3 ∧ (s.attach a).session = 2) ∧
    (∃ (s : State) (a : Fin 16) (nonce : BitVec 256),
      s.stopped = false ∧ s.portOn a = true ∧ s.cfgWaits a = false ∧ (s.attach a).spdmStep = 3 ∧ (s.attach a).session = 2 ∧ s.get (F.ATT_SEC_TDI_STATE a) = 0) ∧
    (∃ (s : State) (a : Fin 16) (nonce : BitVec 256),
      s.stopped = false ∧ s.portOn a = true ∧ s.cfgWaits a = false ∧ (s.attach a).spdmStep = 3 ∧ (s.attach a).session = 2 ∧ s.get (F.ATT_SEC_TDI_STATE a) = 1 ∧ (s.attach a).tdiNonce = some nonce) ∧
    (∃ (s : State) (a : Fin 16) (i : Fin 5) (set : Bool) (tx : Bool) (sub : Fin 3) (key : BitVec 256) (iv : Word),
      s.stopped = false ∧ s.portOn a = true ∧ s.cfgWaits a = false ∧ (s.attach a).spdmStep = 3 ∧ (s.attach a).session = 2 ∧ (s.attach a).ide.getD i 0 = 2) :=
  ⟨⟨(({ having [(F.ATT_LINK_UP 2, 1), (F.ATT_CTL_EN 2, 1), (F.MGT_STAT_BOOT, 1)] with up := { attachOpen := true, pllLocked := true } }).setAttach 2 { spdmStep := 0 }), (2), by decide +kernel⟩,
   ⟨(({ having [(F.ATT_LINK_UP 2, 1), (F.ATT_CTL_EN 2, 1), (F.MGT_STAT_BOOT, 1)] with up := { attachOpen := true, pllLocked := true } }).setAttach 2 { spdmStep := 1 }), (2), by decide +kernel⟩,
   ⟨(({ having [(F.ATT_LINK_UP 2, 1), (F.ATT_CTL_EN 2, 1), (F.MGT_STAT_BOOT, 1)] with up := { attachOpen := true, pllLocked := true } }).setAttach 2 { spdmStep := 2 }), (2), by decide +kernel⟩,
   ⟨(({ having [(F.ATT_LINK_UP 2, 1), (F.ATT_CTL_EN 2, 1), (F.MGT_STAT_BOOT, 1)] with up := { attachOpen := true, pllLocked := true } }).setAttach 2 { spdmStep := 2 }), (2), by decide +kernel⟩,
   ⟨(({ having [(F.ATT_LINK_UP 2, 1), (F.ATT_CTL_EN 2, 1), (F.MGT_STAT_BOOT, 1)] with up := { attachOpen := true, pllLocked := true } }).setAttach 2 { spdmStep := 3 }), (2), by decide +kernel⟩,
   ⟨(({ having [(F.ATT_LINK_UP 2, 1), (F.ATT_CTL_EN 2, 1), (F.MGT_STAT_BOOT, 1)] with up := { attachOpen := true, pllLocked := true } }).setAttach 2 { spdmStep := 3 }), (2), (0), (100), by decide +kernel⟩,
   ⟨(({ having [(F.ATT_LINK_UP 2, 1), (F.ATT_CTL_EN 2, 1), (F.MGT_STAT_BOOT, 1)] with up := { attachOpen := true, pllLocked := true } }).setAttach 2 { spdmStep := 3 }), (2), (77), by decide +kernel⟩,
   ⟨(({ having [(F.ATT_LINK_UP 2, 1), (F.ATT_CTL_EN 2, 1), (F.MGT_STAT_BOOT, 1)] with up := { attachOpen := true, pllLocked := true } }).setAttach 2 { spdmStep := 3 }), (2), (2), (77), by decide +kernel⟩,
   ⟨(({ having [(F.ATT_LINK_UP 2, 1), (F.ATT_CTL_EN 2, 1), (F.MGT_STAT_BOOT, 1)] with up := { attachOpen := true, pllLocked := true } }).setAttach 2 { spdmStep := 3 }), (2), ([1, 2]), by decide +kernel⟩,
   ⟨(({ having [(F.ATT_LINK_UP 2, 1), (F.ATT_CTL_EN 2, 1), (F.MGT_STAT_BOOT, 1)] with up := { attachOpen := true, pllLocked := true } }).setAttach 2 { spdmStep := 3, session := 1 }), (2), by decide +kernel⟩,
   ⟨(({ having [(F.ATT_LINK_UP 2, 1), (F.ATT_CTL_EN 2, 1), (F.MGT_STAT_BOOT, 1)] with up := { attachOpen := true, pllLocked := true } }).setAttach 2 { spdmStep := 3, session := 2 }), (2), by decide +kernel⟩,
   ⟨(({ having [(F.ATT_LINK_UP 2, 1), (F.ATT_CTL_EN 2, 1), (F.MGT_STAT_BOOT, 1)] with up := { attachOpen := true, pllLocked := true } }).setAttach 2 { spdmStep := 3, session := 2 }), (2), by decide +kernel⟩,
   ⟨(({ having [(F.ATT_LINK_UP 2, 1), (F.ATT_CTL_EN 2, 1), (F.MGT_STAT_BOOT, 1), (F.ATT_SEC_TDI_STATE 2, 0)] with up := { attachOpen := true, pllLocked := true } }).setAttach 2 { spdmStep := 3, session := 2 }), (2), (99), by decide +kernel⟩,
   ⟨(({ having [(F.ATT_LINK_UP 2, 1), (F.ATT_CTL_EN 2, 1), (F.MGT_STAT_BOOT, 1), (F.ATT_SEC_TDI_STATE 2, 1)] with up := { attachOpen := true, pllLocked := true } }).setAttach 2 { spdmStep := 3, session := 2, tdiNonce := some 99 }), (2), (99), by decide +kernel⟩,
   ⟨(({ having [(F.ATT_LINK_UP 2, 1), (F.ATT_CTL_EN 2, 1), (F.MGT_STAT_BOOT, 1), (F.ATT_SEC_TDI_STATE 2, 0)] with up := { attachOpen := true, pllLocked := true } }).setAttach 2 { spdmStep := 3, session := 2, ide := [0, 2, 0, 0, 0] }), (2), (1), (true), (false), (1), (77), (5), by decide +kernel⟩⟩

theorem test_CoreAccessCommandsComplete_met :
    (∃ (s : State) (n : Fin 32) (pa : BitVec 64) (access : CoreAccess),
      s.stopped = false ∧ s.kernelOn n = none ∧ (coreParts pa.toNat access).all s.partOk = true ∧ s.memSlot = true) ∧
    (∃ (s : State) (n : Fin 32) (pa : BitVec 64) (k : Nat) (w : Nat),
      s.stopped = false ∧ s.kernelOn n = none ∧ [1, 2, 4, 8].contains k = true ∧ pa.toNat % k = 0 ∧ 2 ^ 55 ≤ pa.toNat ∧ (pa.toNat - 2 ^ 55) / 2 ^ 44 = w ∧ w < 64 ∧ s.flag (F.ILX_FWIN_A_VALID w) = true) ∧
    (∃ (s : State) (n : Fin 32) (pa : BitVec 64) (d : List Byte) (w : Nat),
      s.stopped = false ∧ s.kernelOn n = none ∧ [1, 2, 4, 8].contains d.length = true ∧ pa.toNat % d.length = 0 ∧ 2 ^ 55 ≤ pa.toNat ∧ (pa.toNat - 2 ^ 55) / 2 ^ 44 = w ∧ w < 64 ∧ s.flag (F.ILX_FWIN_A_VALID w) = true) ∧
    (∃ (s : State) (n : Fin 32) (pa : BitVec 64) (f : Fin 9) (x : Word) (w : Nat),
      s.stopped = false ∧ s.kernelOn n = none ∧ pa.toNat % 8 = 0 ∧ 2 ^ 55 ≤ pa.toNat ∧ (pa.toNat - 2 ^ 55) / 2 ^ 44 = w ∧ w < 64 ∧ s.flag (F.ILX_FWIN_A_VALID w) = true) ∧
    (∃ (s : State) (n : Fin 32) (pa : BitVec 64) (k : Nat) (w : Nat) (d : List Byte),
      s.stopped = false ∧ 2 ^ 55 ≤ pa.toNat ∧ (pa.toNat - 2 ^ 55) / 2 ^ 44 = w ∧ w < 64 ∧ s.kernelOn n = none ∧ s.flag (F.ILX_FWIN_A_VALID w) = false) ∧
    (∃ (s : State) (n : Fin 32) (pa : BitVec 64) (k : Nat) (d : List Byte) (f : Fin 9) (x : BitVec 32),
      s.stopped = false ∧ 2 ^ 55 ≤ pa.toNat ∧ s.kernelOn n = none) ∧
    (∃ (s : State) (n : Fin 32) (pa : BitVec 64) (k : Nat),
      s.stopped = false ∧ 2 ^ 55 ≤ pa.toNat ∧ s.kernelOn n = none ∧ pa.toNat % k ≠ 0) ∧
    (∃ (s : State) (n : Fin 32) (pa : BitVec 64) (access : CoreAccess) (k : Kernel),
      s.stopped = false ∧ s.kernelOn n = some k ∧ (coreParts pa.toNat access).all k.maps = false) ∧
    (∃ (s : State) (n : Fin 32) (pa : BitVec 64),
      s.stopped = false ∧ s.kernelOn n = none ∧ 0x1000000 ≤ pa.toNat ∧ pa.toNat + 8 ≤ 0x5000000 ∧ pa.toNat % 8 = 0) ∧
    (∃ (s : State) (n : Fin 32) (pa : BitVec 64) (k : Nat) (x : Nat),
      s.stopped = false ∧ s.kernelOn n = none ∧ s.memSlot = true ∧ pa.toNat = 0x1000000000 + x ∧ x + k ≤ min s.privateSize (2 ^ 36)) ∧
    (∃ (s : State) (n : Fin 32) (pa : BitVec 64) (d : List Byte) (x : Nat),
      s.stopped = false ∧ s.kernelOn n = none ∧ s.memSlot = true ∧ pa.toNat = 0x1000000000 + x ∧ x + d.length ≤ min s.privateSize (2 ^ 36)) ∧
    (∃ (s : State) (n : Fin 32) (pa : BitVec 64) (d : List Byte) (x : Nat),
      s.stopped = false ∧ s.kernelOn n = none ∧ s.memSlot = true ∧ pa.toNat = 0x1000000000 + x ∧ [4, 8].contains d.length = true ∧ pa.toNat % d.length = 0 ∧ x + d.length ≤ min s.privateSize (2 ^ 36) ∧ s.ilx.reserved.contains (n.val, x, d.length) = true) ∧
    (∃ (s : State) (n : Fin 32) (pa : BitVec 64) (d : List Byte) (x : Nat),
      s.stopped = false ∧ s.kernelOn n = none ∧ s.memSlot = true ∧ pa.toNat = 0x1000000000 + x ∧ [4, 8].contains d.length = true ∧ pa.toNat % d.length = 0 ∧ x + d.length ≤ min s.privateSize (2 ^ 36) ∧ s.ilx.reserved.contains (n.val, x, d.length) = false) ∧
    (∃ (s : State) (p : Path) (n : Fin 32) (data : Word) (w : RegWrite),
      s.writeOf p (Reg.ILX_C_FENCE n) data = w ∧ s.stopped = false ∧ s.writeOpen p (Reg.ILX_C_FENCE n) data = true) ∧
    (∃ (s : State) (t : State),
      s.fresh.loseMailboxes.resetCores.count F.ILX_WDOG_RESETS 1 = t ∧ s.stopped = false ∧ s.firmwareRuns = true ∧ s.ilx.wdogAt + s.get F.ILX_WDOG_PERIOD ≤ s.clk) ∧
    (∃ (s : State) (t : State) (p : Path) (data : Word),
      s.fresh.takeWrite (s.writeOf p Reg.ILX_WDOG data) = t ∧ s.stopped = false ∧ s.writeOpen p Reg.ILX_WDOG data = true ∧ Path.management p = false) ∧
    (∃ (s : State) (t : State) (p : Path) (data : Word),
      s.fresh.takeWrite (s.writeOf p Reg.ILX_WDOG data) = t ∧ s.stopped = false ∧ s.writeOpen p Reg.ILX_WDOG data = true ∧ Path.management p = true) :=
  ⟨⟨({ having [(F.HBM_STAT_INIT_DONE, 1), (F.ILX_FWIN_A_VALID 4, 1), (F.ILX_FWIN_A_QUEUE 4, 490), (F.ILX_FWIN_B_BASE 4, 16)] with turn := 2 }), (9), (2 ^ 55 + 4 * 2 ^ 44 + 64), (.elementLoad 8 [0, 64]), by decide +kernel⟩,
   ⟨(having [(F.ILX_FWIN_A_VALID 4, 1), (F.ILX_FWIN_A_QUEUE 4, 490), (F.ILX_FWIN_B_BASE 4, 16)]), (9), (2 ^ 55 + 4 * 2 ^ 44 + 64), (8), (4), by decide +kernel⟩,
   ⟨(having [(F.ILX_FWIN_A_VALID 4, 1), (F.ILX_FWIN_A_QUEUE 4, 490), (F.ILX_FWIN_B_BASE 4, 16)]), (9), (2 ^ 55 + 4 * 2 ^ 44 + 64), ([1, 2]), (4), by decide +kernel⟩,
   ⟨(having [(F.ILX_FWIN_A_VALID 4, 1), (F.ILX_FWIN_A_QUEUE 4, 490), (F.ILX_FWIN_B_BASE 4, 16)]), (9), (2 ^ 55 + 4 * 2 ^ 44 + 64), (1), (77), (4), by decide +kernel⟩,
   ⟨(having []), (9), (2 ^ 55 + 4 * 2 ^ 44 + 64), (8), (4), ([1]), by decide +kernel⟩,
   ⟨(having [(F.ILX_FWIN_A_VALID 4, 1), (F.ILX_FWIN_A_QUEUE 4, 490), (F.ILX_FWIN_B_BASE 4, 16)]), (9), (2 ^ 55 + 4 * 2 ^ 44 + 64), (8), ([1]), (0), (3), by decide +kernel⟩,
   ⟨(having [(F.ILX_FWIN_A_VALID 4, 1), (F.ILX_FWIN_A_QUEUE 4, 490), (F.ILX_FWIN_B_BASE 4, 16)]), (9), (2 ^ 55 + 4 * 2 ^ 44 + 64 + 1), (8), by decide +kernel⟩,
   ⟨({ having [(F.ILX_FWIN_A_VALID 4, 1), (F.ILX_FWIN_A_QUEUE 4, 490), (F.ILX_FWIN_B_BASE 4, 16)] with ilx := { kernels := [({ num := 3, cores := [9, 10], memAt := 0, memSize := 2 ^ 24, windows := 0, queues := [256, 480], state := 2 } : Kernel)] } }), (9), (2 ^ 55 + 4 * 2 ^ 44 + 64), (.store [1]), (({ num := 3, cores := [9, 10], memAt := 0, memSize := 2 ^ 24, windows := 0, queues := [256, 480], state := 2 } : Kernel)), by decide +kernel⟩,
   ⟨({ having [(F.MGT_STAT_BOOT, 1)] with up := { pllLocked := true } }), (9), (0x1000000 + 0x40), by decide +kernel⟩,
   ⟨({ having [(F.HBM_STAT_INIT_DONE, 1), (F.ILX_MEM_SIZE, 1), (F.ILX_MEM_BASE, 2)] with turn := 2 }), (9), (0x1000000000 + 40), (8), (40), by decide +kernel⟩,
   ⟨({ having [(F.HBM_STAT_INIT_DONE, 1), (F.ILX_MEM_SIZE, 1), (F.ILX_MEM_BASE, 2)] with turn := 2 }), (9), (0x1000000000 + 40), ([1, 2, 3]), (40), by decide +kernel⟩,
   ⟨({ { having [(F.HBM_STAT_INIT_DONE, 1), (F.ILX_MEM_SIZE, 1), (F.ILX_MEM_BASE, 2)] with turn := 2 } with ilx := { reserved := [(9, 40, 8)] } }), (9), (0x1000000000 + 40), (List.replicate 8 7), (40), by decide +kernel⟩,
   ⟨({ having [(F.HBM_STAT_INIT_DONE, 1), (F.ILX_MEM_SIZE, 1), (F.ILX_MEM_BASE, 2)] with turn := 2 }), (9), (0x1000000000 + 40), (List.replicate 8 7), (40), by decide +kernel⟩,
   ⟨({ having [(F.MGT_STAT_BOOT, 1)] with up := { pllLocked := true } }), (.chain), (9), (490 * 16 + 1), _, rfl, by decide +kernel⟩,
   ⟨({ having [(F.MGT_STAT_BOOT, 1)] with clk := 2 ^ 40 }), _, rfl, by decide +kernel⟩,
   ⟨({ having [(F.MGT_STAT_BOOT, 1), (F.ATT_LINK_UP 2, 1), (F.ATT_CTL_EN 2, 1)] with up := { pllLocked := true, attachOpen := true } }), _, (.bar0 2), (77777777), rfl, by decide +kernel⟩,
   ⟨({ having [(F.MGT_STAT_BOOT, 1)] with up := { pllLocked := true } }), _, (.chain), (77777777), rfl, by decide +kernel⟩⟩

theorem test_MailboxCommandsComplete_met :
    (∃ (s : State) (a : Fin 16),
      s.stopped = false ∧ s.mbWaits a = true ∧ s.mbCmd a = 1) ∧
    (∃ (s : State) (a : Fin 16) (t : State) (u : State) (v : State) (c : List Byte) (g : List Byte) (b : List Byte) (bad : Bool) (num : Nat) (len : Nat) (n : Nat) (size : Nat) (wins : Nat) (cnt : Nat) (m : Nat) (qs : List Nat),
      s.fresh.hbmFetch (s.mbReq a 6) 2 = (c, false, t) ∧ t.hbmFetch (s.mbReq a 6 + 2) (2 * cnt) = (g, false, u) ∧ u.hbmFetch (s.mbReq a 2) len = (b, bad, v) ∧ s.stopped = false ∧ s.mbWaits a = true ∧ s.mbCmd a = 2 ∧ s.hbmOpen = true ∧ s.mbReq a 1 = num ∧ s.mbReq a 3 = len ∧ s.mbReq a 4 % 32 = n ∧ bitsOf (s.mbReq a 4) 47 32 * 2 ^ 20 = size ∧ s.mbReq a 5 = wins ∧ s.flag F.ILX_CTL_KERNEL_EN = true ∧ num ≤ 27 ∧ s.kernel num = none ∧ 0 < len ∧ len ≤ size ∧ s.mbReq a 2 + len ≤ hbmSize ∧ 1 ≤ n ∧ n ≤ 8 ∧ 16 * 2 ^ 20 ≤ size ∧ size ≤ 1024 * 2 ^ 20 ∧ s.mbReq a 6 + 2 ≤ hbmSize ∧ (setBitsList wins 64).all (fun w => s.flag (F.ILX_FWIN_A_VALID w)) = true ∧ bytesAt c 0 2 = cnt ∧ cnt ≤ 64 ∧ s.mbReq a 6 + 2 + 2 * cnt ≤ hbmSize ∧ (List.range cnt).map (fun i => bytesAt g (2 * i) 2) = qs ∧ qs.all (fun q => decide (q < 512) && u.grantable q) = true ∧ u.freePrivate size = some m ∧ n ≤ u.freeCores.length) ∧
    (∃ (s : State) (a : Fin 16),
      s.stopped = false ∧ s.mbWaits a = true ∧ s.mbCmd a = 2 ∧ s.hbmOpen = true ∧ s.flag F.ILX_CTL_KERNEL_EN = false) ∧
    (∃ (s : State) (a : Fin 16) (k : Kernel),
      s.stopped = false ∧ s.mbWaits a = true ∧ s.mbCmd a = 3 ∧ s.kernel (s.mbReq a 1) = some k ∧ k.state = 1) ∧
    (∃ (s : State) (a : Fin 16) (k : Kernel),
      s.stopped = false ∧ s.mbWaits a = true ∧ s.mbCmd a = 4 ∧ s.kernel (s.mbReq a 1) = some k ∧ k.state ≠ 3 ∧ bitAt (s.mbReq a 2) 0 = false) ∧
    (∃ (s : State) (t : State) (a : Fin 16) (k : Kernel),
      k.queues.foldl State.abortQueue s.fresh = t ∧ s.stopped = false ∧ s.mbWaits a = true ∧ s.mbCmd a = 4 ∧ s.kernel (s.mbReq a 1) = some k ∧ k.state ≠ 3 ∧ bitAt (s.mbReq a 2) 0 = true) ∧
    (∃ (s : State) (a : Fin 16) (k : Kernel),
      s.stopped = false ∧ s.mbWaits a = true ∧ s.mbCmd a = 5 ∧ s.mbReq a 1 ≤ 27 ∧ s.kernel (s.mbReq a 1) = some k) ∧
    (∃ (s : State) (a : Fin 16),
      s.stopped = false ∧ s.mbWaits a = true ∧ s.mbCmd a = 6 ∧ 6 ≤ s.mbReq a 2 % 32 ∧ s.mbReq a 2 % 32 ≤ 20 ∧ s.mbReq a 1 + 64 * 2 ^ (s.mbReq a 2 % 32) ≤ hbmSize) ∧
    (∃ (s : State) (a : Fin 16),
      s.stopped = false ∧ s.mbWaits a = true ∧ 6 < s.mbCmd a) ∧
    (∃ (s : State) (t : State) (a : Fin 16) (st : Nat),
      (s.fresh.setRsp a 0 (bitsOf (s.mbReq a 0) 31 16 * 2 ^ 16 + st * 2 ^ 8)).putFlag (F.ILX_MB_CTL_BUSY a) false = t ∧ s.stopped = false ∧ s.ilx.answers.find? (fun x => x.1 == a.val) = some (a.val, st)) :=
  ⟨⟨((having [(F.MGT_STAT_BOOT, 1), (F.HBM_STAT_INIT_DONE, 1), (F.ILX_MB_CTL_BUSY 2, 1)]).setReg (Reg.ILX_MB_REQ 2 0) (1 + 7 * 2 ^ 16)), (2), by decide +kernel⟩,
   ⟨(withHbm ((((((((having [(F.MGT_STAT_BOOT, 1), (F.HBM_STAT_INIT_DONE, 1), (F.ILX_MB_CTL_BUSY 2, 1), (F.ILX_CTL_KERNEL_EN, 1)]).setReg (Reg.ILX_MB_REQ 2 0) (2 + 7 * 2 ^ 16)).setReg (Reg.ILX_MB_REQ 2 1) (3)).setReg (Reg.ILX_MB_REQ 2 2) (0x2000)).setReg (Reg.ILX_MB_REQ 2 3) (64)).setReg (Reg.ILX_MB_REQ 2 4) (2 + 16 * 2 ^ 32)).setReg (Reg.ILX_MB_REQ 2 5) (0)).setReg (Reg.ILX_MB_REQ 2 6) (0x4000)) 0x4000 (toBytesLE 2 1 ++ toBytesLE 2 256)), (2), _, _, _, _, _, _, _, (3), (64), (2), (16 * 2 ^ 20), (0), (1), (0), ([256]), Prod.ext (rfl) (Prod.ext (by decide +kernel) (rfl)), Prod.ext (rfl) (Prod.ext (by decide +kernel) (rfl)), (Prod.eta _).symm, by decide +kernel⟩,
   ⟨((having [(F.MGT_STAT_BOOT, 1), (F.HBM_STAT_INIT_DONE, 1), (F.ILX_MB_CTL_BUSY 2, 1), (F.ILX_CTL_KERNEL_EN, 0)]).setReg (Reg.ILX_MB_REQ 2 0) (2 + 7 * 2 ^ 16)), (2), by decide +kernel⟩,
   ⟨({ (((having [(F.MGT_STAT_BOOT, 1), (F.HBM_STAT_INIT_DONE, 1), (F.ILX_MB_CTL_BUSY 2, 1)]).setReg (Reg.ILX_MB_REQ 2 0) (3 + 7 * 2 ^ 16)).setReg (Reg.ILX_MB_REQ 2 1) (3)).setReg (Reg.ILX_MB_REQ 2 2) (5) with ilx := { kernels := [({ num := 3, cores := [9, 10], memAt := 0, memSize := 2 ^ 24, windows := 0, queues := [256, 480], state := 1 } : Kernel)] } }), (2), (({ num := 3, cores := [9, 10], memAt := 0, memSize := 2 ^ 24, windows := 0, queues := [256, 480], state := 1 } : Kernel)), by decide +kernel⟩,
   ⟨({ (((having [(F.MGT_STAT_BOOT, 1), (F.HBM_STAT_INIT_DONE, 1), (F.ILX_MB_CTL_BUSY 2, 1)]).setReg (Reg.ILX_MB_REQ 2 0) (4 + 7 * 2 ^ 16)).setReg (Reg.ILX_MB_REQ 2 1) (3)).setReg (Reg.ILX_MB_REQ 2 2) (0) with ilx := { kernels := [({ num := 3, cores := [9, 10], memAt := 0, memSize := 2 ^ 24, windows := 0, queues := [256, 480], state := 2 } : Kernel)] } }), (2), (({ num := 3, cores := [9, 10], memAt := 0, memSize := 2 ^ 24, windows := 0, queues := [256, 480], state := 2 } : Kernel)), by decide +kernel⟩,
   ⟨({ (((having [(F.MGT_STAT_BOOT, 1), (F.HBM_STAT_INIT_DONE, 1), (F.ILX_MB_CTL_BUSY 2, 1)]).setReg (Reg.ILX_MB_REQ 2 0) (4 + 7 * 2 ^ 16)).setReg (Reg.ILX_MB_REQ 2 1) (3)).setReg (Reg.ILX_MB_REQ 2 2) (1) with ilx := { kernels := [({ num := 3, cores := [9, 10], memAt := 0, memSize := 2 ^ 24, windows := 0, queues := [256, 480], state := 2 } : Kernel)] } }), _, (2), (({ num := 3, cores := [9, 10], memAt := 0, memSize := 2 ^ 24, windows := 0, queues := [256, 480], state := 2 } : Kernel)), rfl, by decide +kernel⟩,
   ⟨({ ((having [(F.MGT_STAT_BOOT, 1), (F.HBM_STAT_INIT_DONE, 1), (F.ILX_MB_CTL_BUSY 2, 1)]).setReg (Reg.ILX_MB_REQ 2 0) (5 + 7 * 2 ^ 16)).setReg (Reg.ILX_MB_REQ 2 1) (3) with ilx := { kernels := [({ num := 3, cores := [9, 10], memAt := 0, memSize := 2 ^ 24, windows := 0, queues := [256, 480], state := 2 } : Kernel)] } }), (2), (({ num := 3, cores := [9, 10], memAt := 0, memSize := 2 ^ 24, windows := 0, queues := [256, 480], state := 2 } : Kernel)), by decide +kernel⟩,
   ⟨((((having [(F.MGT_STAT_BOOT, 1), (F.HBM_STAT_INIT_DONE, 1), (F.ILX_MB_CTL_BUSY 2, 1)]).setReg (Reg.ILX_MB_REQ 2 0) (6 + 7 * 2 ^ 16)).setReg (Reg.ILX_MB_REQ 2 1) (0x8000)).setReg (Reg.ILX_MB_REQ 2 2) (6)), (2), by decide +kernel⟩,
   ⟨((having [(F.MGT_STAT_BOOT, 1), (F.HBM_STAT_INIT_DONE, 1), (F.ILX_MB_CTL_BUSY 2, 1)]).setReg (Reg.ILX_MB_REQ 2 0) (9 + 7 * 2 ^ 16)), (2), by decide +kernel⟩,
   ⟨({ (having [(F.MGT_STAT_BOOT, 1), (F.HBM_STAT_INIT_DONE, 1), (F.ILX_MB_CTL_BUSY 2, 1)]).setReg (Reg.ILX_MB_REQ 2 0) (5 + 7 * 2 ^ 16) with ilx := { answers := [(2, 0x23)] } }), _, (2), (0x23), rfl, by decide +kernel⟩⟩

theorem test_KernelCommandsComplete_met :
    (∃ (s : State) (n : Fin 32) (queue : Word) (tail : Word) (k : Kernel),
      s.stopped = false ∧ s.kernelOn n = some k ∧ k.queues.contains queue.toNat = true ∧ s.owner queue.toNat = some 17 ∧ tailOver (s.oqN queue.toNat) (s.oqHead queue.toNat) (tail.toNat % 2 ^ 17) = false ∧ s.oqGated queue.toNat = false) ∧
    (∃ (s : State) (n : Fin 32) (queue : Word) (tail : Word) (k : Kernel),
      s.stopped = false ∧ s.kernelOn n = some k ∧ k.queues.contains queue.toNat = true ∧ s.owner queue.toNat = some 19 ∧ tailOver (s.msgN queue.toNat) (s.get (F.MSG_Q_IDX_HEAD queue.toNat)) (tail.toNat % 2 ^ 17) = false) ∧
    (∃ (s : State) (n : Fin 32) (queue : Word) (tail : Word) (k : Kernel),
      s.stopped = false ∧ s.kernelOn n = some k ∧ k.queues.contains queue.toNat = false) ∧
    (∃ (s : State) (n : Fin 32) (queue : Word) (kind : Word) (scope : Word) (k : Kernel),
      s.stopped = false ∧ s.kernelOn n = some k ∧ k.queues.contains queue.toNat = true ∧ kind.toNat ≤ 3 ∧ scope.toNat ≤ 3) ∧
    (∃ (s : State) (n : Fin 32) (k : Kernel),
      s.stopped = false ∧ s.kernelOn n = some k) ∧
    (∃ (s : State) (n : Fin 32) (code : Word) (k : Kernel),
      s.stopped = false ∧ s.kernelOn n = some k) ∧
    (∃ (s : State) (n : Fin 32) (cause : Word) (k : Kernel),
      s.stopped = false ∧ s.kernelOn n = some k ∧ cause ≠ 8) ∧
    (∃ (s : State) (n : Fin 32),
      s.stopped = false) ∧
    (∃ (s : State) (t : State) (u : State) (addr : BitVec 32) (count : Fin 7) (off : Nat) (log2 : Nat) (vs : List Word),
      s.fresh.sampleRegs (min 6 count.val) addr.toNat = (vs, t) ∧ t.hbmStore (off + 64 * (s.ilx.written % 2 ^ log2)) (sliceD 0 (toBytesLE 8 s.now ++ toBytesLE 4 addr.toNat ++
      toBytesLE 4 (min 6 count.val) ++ vs.flatMap (fun v => toBytesLE 8 v.toNat)) 0 64) false = u ∧ s.stopped = false ∧ s.ilx.ring = some (off, log2) ∧ s.firmwareRuns = true ∧ s.memSlot = true ∧ addr.toNat % 8 = 0 ∧ s.ilx.sampledAt + max 25000 (s.get F.ILX_TEL_PERIOD) ≤ s.clk) :=
  ⟨⟨({ having [] with ilx := { kernels := [({ num := 3, cores := [9, 10], memAt := 0, memSize := 2 ^ 24, windows := 0, queues := [256, 480], state := 2 } : Kernel)] } }), (9), (256), (1), (({ num := 3, cores := [9, 10], memAt := 0, memSize := 2 ^ 24, windows := 0, queues := [256, 480], state := 2 } : Kernel)), by decide +kernel⟩,
   ⟨({ having [] with ilx := { kernels := [({ num := 3, cores := [9, 10], memAt := 0, memSize := 2 ^ 24, windows := 0, queues := [256, 480], state := 2 } : Kernel)] } }), (9), (480), (1), (({ num := 3, cores := [9, 10], memAt := 0, memSize := 2 ^ 24, windows := 0, queues := [256, 480], state := 2 } : Kernel)), by decide +kernel⟩,
   ⟨({ having [] with ilx := { kernels := [({ num := 3, cores := [9, 10], memAt := 0, memSize := 2 ^ 24, windows := 0, queues := [256, 480], state := 2 } : Kernel)] } }), (9), (300), (1), (({ num := 3, cores := [9, 10], memAt := 0, memSize := 2 ^ 24, windows := 0, queues := [256, 480], state := 2 } : Kernel)), by decide +kernel⟩,
   ⟨({ having [] with ilx := { kernels := [({ num := 3, cores := [9, 10], memAt := 0, memSize := 2 ^ 24, windows := 0, queues := [256, 480], state := 2 } : Kernel)] } }), (9), (256), (1), (2), (({ num := 3, cores := [9, 10], memAt := 0, memSize := 2 ^ 24, windows := 0, queues := [256, 480], state := 2 } : Kernel)), by decide +kernel⟩,
   ⟨({ having [] with ilx := { kernels := [({ num := 3, cores := [9, 10], memAt := 0, memSize := 2 ^ 24, windows := 0, queues := [256, 480], state := 2 } : Kernel)] } }), (9), (({ num := 3, cores := [9, 10], memAt := 0, memSize := 2 ^ 24, windows := 0, queues := [256, 480], state := 2 } : Kernel)), by decide +kernel⟩,
   ⟨({ having [] with ilx := { kernels := [({ num := 3, cores := [9, 10], memAt := 0, memSize := 2 ^ 24, windows := 0, queues := [256, 480], state := 2 } : Kernel)] } }), (9), (5), (({ num := 3, cores := [9, 10], memAt := 0, memSize := 2 ^ 24, windows := 0, queues := [256, 480], state := 2 } : Kernel)), by decide +kernel⟩,
   ⟨({ having [] with ilx := { kernels := [({ num := 3, cores := [9, 10], memAt := 0, memSize := 2 ^ 24, windows := 0, queues := [256, 480], state := 2 } : Kernel)] } }), (9), (2), (({ num := 3, cores := [9, 10], memAt := 0, memSize := 2 ^ 24, windows := 0, queues := [256, 480], state := 2 } : Kernel)), by decide +kernel⟩,
   ⟨({ having [] with ilx := { kernels := [({ num := 3, cores := [9, 10], memAt := 0, memSize := 2 ^ 24, windows := 0, queues := [256, 480], state := 2 } : Kernel)] } }), (9), by decide +kernel⟩,
   ⟨({ having [(F.MGT_STAT_BOOT, 1), (F.HBM_STAT_INIT_DONE, 1)] with ilx := { ring := some (0x8000, 6) }, clk := 50000000, turn := 2 }), _, _, (0x1020100), (2), (0x8000), (6), _, (Prod.eta _).symm, rfl, by decide +kernel⟩⟩

theorem test_LockAndBoundSetCommandsComplete_met :
    (∃ (s : State) (p : Path) (data : Word),
      s.stopped = false ∧ s.writeOpen p Reg.SEC_LOCK data = true ∧ (s.writeOf p Reg.SEC_LOCK data).actF F.SEC_LOCK_LOCK = 1) ∧
    (∃ (s : State) (p : Path) (data : Word) (e : Nat),
      s.stopped = false ∧ s.writeOpen p Reg.SEC_BS_CMD data = true ∧ (s.writeOf p Reg.SEC_BS_CMD data).actF F.SEC_BS_CMD_OP = 1 ∧ (s.writeOf p Reg.SEC_BS_CMD data).actF F.SEC_BS_CMD_ENTRY = e ∧ s.get (F.SEC_BS_ENT_A_STATE e) = 0) ∧
    (∃ (s : State) (p : Path) (data : Word) (e : Nat),
      s.stopped = false ∧ s.writeOpen p Reg.SEC_BS_CMD data = true ∧ (s.writeOf p Reg.SEC_BS_CMD data).actF F.SEC_BS_CMD_OP = 1 ∧ (s.writeOf p Reg.SEC_BS_CMD data).actF F.SEC_BS_CMD_ENTRY = e ∧ s.get (F.SEC_BS_ENT_A_STATE e) ≠ 0) ∧
    (∃ (s : State) (e : Fin 8) (base : Nat),
      s.stopped = false ∧ s.hbmOpen = true ∧ s.sec.loading.find? (fun x => x.1 == e.val) = some (e.val, base)) ∧
    (∃ (s : State) (p : Path) (data : Word) (e : Nat),
      s.stopped = false ∧ s.writeOpen p Reg.SEC_BS_CMD data = true ∧ (s.writeOf p Reg.SEC_BS_CMD data).actF F.SEC_BS_CMD_OP = 2 ∧ (s.writeOf p Reg.SEC_BS_CMD data).actF F.SEC_BS_CMD_ENTRY = e ∧ s.get (F.SEC_BS_ENT_A_STATE e) = 2) :=
  ⟨⟨({ having [] with up := { pllLocked := true, firmwareTried := true } }), (.chain), (1), by decide +kernel⟩,
   ⟨({ having [(F.SEC_BS_SRC_BASE, 16)] with up := { pllLocked := true, firmwareTried := true } }), (.chain), (3 + 2 ^ 8 * 1), (3), by decide +kernel⟩,
   ⟨({ having [(F.SEC_BS_ENT_A_STATE 3, 2)] with up := { pllLocked := true, firmwareTried := true } }), (.chain), (3 + 2 ^ 8 * 1), (3), by decide +kernel⟩,
   ⟨({ having [(F.HBM_STAT_INIT_DONE, 1)] with sec := { loading := [(3, 0x10000)] } }), (3), (0x10000), by decide +kernel⟩,
   ⟨({ having [(F.SEC_BS_ENT_A_STATE 3, 2)] with up := { pllLocked := true, firmwareTried := true } }), (.chain), (3 + 2 ^ 8 * 2), (3), by decide +kernel⟩⟩

theorem test_BurnishCommandsComplete_met :
    (∃ (s : State) (t : State) (p : Path) (data : Word),
      ((List.range 16).foldl State.burnAttach
      (((s.fresh.clearAdmit.discardArray.dropMailboxes.resetCores).colResignAll 1).setActive []).loseStandin).dropFrames = t ∧ s.stopped = false ∧ s.writeOpen p Reg.SEC_BURN data = true ∧ (s.writeOf p Reg.SEC_BURN data).actF F.SEC_BURN_START = 1 ∧ s.flag F.SEC_BURN_ACTIVE = false) ∧
    (∃ (s : State) (p : Path) (data : Word),
      s.stopped = false ∧ s.writeOpen p Reg.SEC_BURN data = true ∧ s.flag F.SEC_BURN_ACTIVE = true) ∧
    (∃ (s : State) (t : State) (u : State),
      (List.range 16).foldl (fun (s : State) n => s.put (F.HBM_SLOT_STAT_REFS n) (if n = 0 then regionCount else 0))
      (State.newSalts 16 s.fresh.endSweep) = t ∧ (List.range 8).foldl State.eraseSet
      { t with
        hbm := { t.hbm with
          keyMap := []
          fillDone := false }
        sec := { t.sec with
          burnStep := 2
          loading := []
          sets := [] } } = u ∧ s.stopped = false ∧ s.sec.burnStep = 1 ∧ 2500 ≤ s.burnAge) ∧
    (∃ (s : State) (z : Bool),
      s.stopped = false ∧ s.sec.burnStep = 2) ∧
    (∃ (s : State) (t : State),
      (((s.fresh.burnRegs.disarm.putFlag F.SEC_BURN_ACTIVE false).put F.SEC_BURN_RESULT 1).put F.SEC_BURN_COUNT
      (min 65535 (s.get F.SEC_BURN_COUNT + 1))).put F.SEC_BURN_LAST_TURNS (min (2 ^ 32 - 1) s.burnAge) = t ∧ s.stopped = false ∧ s.sec.burnStep = 3 ∧ s.hbm.fillDone = true ∧ s.up.firmwareTried = true ∧ s.sec.burnReadback = true ∧ s.get F.SEC_BURN_RESULT ≠ 2) ∧
    (∃ (s : State) (t : State) (u : State),
      (((s.fresh.burnRegs.disarm.putFlag F.SEC_BURN_ACTIVE false).put F.SEC_BURN_RESULT 2).put F.SEC_BURN_COUNT
      (min 65535 (s.get F.SEC_BURN_COUNT + 1))).put F.SEC_BURN_LAST_TURNS (min (2 ^ 32 - 1) s.burnAge) = t ∧ (List.range 16).foldl (fun (s : State) a => (s.putFlag (F.ATT_SEC_RRS a) false).flushVectors a)
      { t with sec := { t.sec with burnStep := 0 } } = u ∧ s.stopped = false ∧ s.sec.burnStep = 3 ∧ s.hbm.fillDone = true ∧ s.up.firmwareTried = true ∧ s.sec.burnReadback = false) :=
  ⟨⟨({ having [] with up := { pllLocked := true, firmwareTried := true } }), _, (.chain), (1), rfl, by decide +kernel⟩,
   ⟨({ having [(F.SEC_BURN_ACTIVE, 1)] with up := { pllLocked := true, firmwareTried := true } }), (.chain), (1), by decide +kernel⟩,
   ⟨({ (having []) with sec := { burnStart := some 0, burnStep := 1 }, clk := 5000 }), _, _, rfl, rfl, by decide +kernel⟩,
   ⟨({ State.reset with sec := { burnStep := 2 } }), (false), by decide +kernel⟩,
   ⟨({ having [(F.SEC_BURN_ACTIVE, 1)] with up := { pllLocked := true, firmwareTried := true }, hbm := { fillDone := true }, sec := { burnStart := some 0, burnStep := 3, burnReadback := true }, clk := 5000 }), _, rfl, by decide +kernel⟩,
   ⟨({ having [(F.SEC_BURN_ACTIVE, 1)] with up := { pllLocked := true, firmwareTried := true }, hbm := { fillDone := true }, sec := { burnStart := some 0, burnStep := 3, burnReadback := false }, clk := 5000 }), _, _, rfl, rfl, by decide +kernel⟩⟩

theorem test_CrossingCommandsComplete_met :
    (∃ (s : State) (t : State) (depths : List (Option (Fin 16))) (d : List (Option (Fin 16))) (a : Nat) (k : Nat) (raw : List Nat),
      (List.range 13).foldl (fun (s : State) j => s.setReg (Reg.TRN_CDC_DEPTH j)
      (BitVec.ofNat 64 ((sliceD 0 raw (16 * j) 16).foldr (fun n v => v * 16 + n) 0))) (s.fresh.put F.TRN_CDC_STAT_ATTEMPTS (k + 1)) = t ∧ s.stopped = false ∧ s.pip.alignAt = some a ∧ s.get F.TRN_CDC_STAT_ATTEMPTS = k ∧ s.flag F.TRN_CDC_STAT_DONE = false ∧ s.flag F.TRN_CDC_STAT_FAILED = false ∧ k < 8 ∧ a + 1000 * k + 272 ≤ s.clk ∧ sliceD none depths 0 204 = d ∧ (List.range 204).find? (fun i => !cdcPasses i (d.getD i none)) = none ∧ d.map (fun x => match x with | some y => y.val | none => 0) = raw) ∧
    (∃ (s : State) (depths : List (Option (Fin 16))) (a : Nat) (k : Nat) (i : Nat),
      s.stopped = false ∧ s.pip.alignAt = some a ∧ s.get F.TRN_CDC_STAT_ATTEMPTS = k ∧ s.flag F.TRN_CDC_STAT_DONE = false ∧ s.flag F.TRN_CDC_STAT_FAILED = false ∧ k < 7 ∧ a + 1000 * k + 272 ≤ s.clk ∧ (List.range 204).find? (fun i => !cdcPasses i ((sliceD none depths 0 204).getD i none)) = some i) ∧
    (∃ (s : State) (crossing : Fin 204) (damaged : List (Nat × Nat)),
      s.stopped = false ∧ s.flag F.TRN_CDC_STAT_DONE = true) :=
  ⟨⟨({ having [] with clk := 5000, pip := { alignAt := some 0 } }), _, (List.replicate 204 (some 4)), (List.replicate 204 (some 4)), (0), (0), (List.replicate 204 4), rfl, by decide +kernel⟩,
   ⟨({ having [] with clk := 5000, pip := { alignAt := some 0 } }), ([some 4, none]), (0), (0), (1), by decide +kernel⟩,
   ⟨(having [(F.TRN_CDC_STAT_DONE, 1)]), (15), ([(1, 0)]), by decide +kernel⟩⟩

theorem test_CounterproofCommandsComplete_met :
    (∃ (s : State) (p : Path) (data : Word) (w : RegWrite),
      s.writeOf p Reg.TWN_CTL data = w ∧ s.stopped = false ∧ s.writeOpen p Reg.TWN_CTL data = true ∧ w.oldF F.TWN_CTL_EN = 0 ∧ w.newF F.TWN_CTL_EN = 1 ∧ s.get F.TWN_START_START_TURN % 1024 = 0 ∧ s.now < s.get F.TWN_START_START_TURN) ∧
    (∃ (s : State) (p : Path) (data : Word) (w : RegWrite),
      s.writeOf p Reg.TWN_CTL data = w ∧ s.stopped = false ∧ s.writeOpen p Reg.TWN_CTL data = true ∧ w.oldF F.TWN_CTL_EN = 0 ∧ w.newF F.TWN_CTL_EN = 1 ∧ s.get F.TWN_START_START_TURN ≤ s.now) ∧
    (∃ (s : State) (t : State) (w : Nat) (x : TwnWindow),
      (({ s.fresh with twn := { s.twn with
      next := w + 1
      open' := s.twn.open' ++ [w]
      brkSeen := s.twn.brkSeen || x.brk
      wins := s.twn.wins.filter (fun y => decide (w ≤ y.w + 4)) } } : State).setTwnWin x).twnSend (x.record false 0) = t ∧ s.stopped = false ∧ s.twnOn = true ∧ s.twn.next = w ∧ s.get F.TWN_START_START_TURN ≤ 1024 * w ∧ 1024 * (w + 1) ≤ s.now ∧ s.twnWin w = x) ∧
    (∃ (s : State) (w : Nat) (ws : List Nat),
      s.stopped = false ∧ s.twnOn = true ∧ s.twn.open' = w :: ws ∧ 1024 * (w + 1) + 768 ≤ s.now) ∧
    (∃ (s : State) (t : State) (w : Nat) (cause : Nat) (sig : Nat),
      ((((s.fresh.put F.TWN_STAT_WINDOW w).put F.TWN_STAT_CAUSE cause).put F.TWN_STAT_SIG sig).putFlag
      F.TWN_STAT_STOPPED true).putFlag F.TWN_STAT_MISMATCH true = t ∧ s.stopped = false ∧ s.twn.stop = some (w, cause, sig) ∧ s.twnOn = true ∧ 1024 * (w + 3) ≤ s.now) ∧
    (∃ (s : State) (t : State) (peer : Word) (w : Nat) (cause : Nat) (sig : Nat) (lo : Nat) (hi : Nat) (own : List Byte) (bad : Bool),
      s.fresh.hbmFetch (s.twnLogAt w ((lo + hi) / 2)) 8 = (own, bad, t) ∧ s.stopped = false ∧ s.twn.stop = some (w, cause, sig) ∧ s.twn.locate = some (lo, hi) ∧ s.twnStopped = true ∧ lo < hi ∧ ofBytesLE own = peer.toNat ∧ (lo + hi) / 2 + 1 < hi) ∧
    (∃ (s : State) (t : State) (peer : Word) (w : Nat) (cause : Nat) (sig : Nat) (lo : Nat) (hi : Nat) (own : List Byte) (bad : Bool),
      s.fresh.hbmFetch (s.twnLogAt w ((lo + hi) / 2)) 8 = (own, bad, t) ∧ s.stopped = false ∧ s.twn.stop = some (w, cause, sig) ∧ s.twn.locate = some (lo, hi) ∧ s.twnStopped = true ∧ lo < hi ∧ ofBytesLE own ≠ peer.toNat ∧ (lo + hi) / 2 = lo) ∧
    (∃ (s : State) (t : State) (p : Path) (data : Word) (w : RegWrite),
      s.writeOf p Reg.TWN_REL data = w ∧ s.fresh.takeWrite w = t ∧ s.stopped = false ∧ s.writeOpen p Reg.TWN_REL data = true ∧ w.newF F.TWN_REL_TURN % 16 = 0 ∧ s.now + 4096 ≤ w.newF F.TWN_REL_TURN) ∧
    (∃ (s : State) (p : Path) (data : Word) (w : RegWrite),
      s.writeOf p Reg.TWN_REL data = w ∧ s.stopped = false ∧ s.writeOpen p Reg.TWN_REL data = true ∧ w.newF F.TWN_REL_TURN < s.now + 4096) ∧
    (∃ (s : State),
      s.stopped = false ∧ s.twn.relArmed = true ∧ s.get F.TWN_REL_TURN ≤ s.now) ∧
    (∃ (s : State) (p : Path) (data : Word) (w : RegWrite),
      s.writeOf p Reg.TWN_CTL data = w ∧ s.stopped = false ∧ s.writeOpen p Reg.TWN_CTL data = true ∧ w.oldF F.TWN_CTL_EN = 1 ∧ w.newF F.TWN_CTL_EN = 0) :=
  ⟨⟨({ having [(F.TWN_START_START_TURN, 8192)] with up := { pllLocked := true } }), (.chain), (1), _, rfl, by decide +kernel⟩,
   ⟨({ having [(F.TWN_START_START_TURN, 8192)] with up := { pllLocked := true }, turn := 9000 }), (.chain), (1), _, rfl, by decide +kernel⟩,
   ⟨({ having [(F.TWN_CTL_EN, 1), (F.TWN_CTL_PEER_MEMBER, 5), (F.TWN_START_START_TURN, 8192)] with turn := 10000, twn := { next := 8 } }), _, (8), ((({ w := 8 } : TwnWindow))), rfl, by decide +kernel⟩,
   ⟨({ having [(F.TWN_CTL_EN, 1), (F.TWN_CTL_PEER_MEMBER, 5), (F.TWN_START_START_TURN, 8192)] with turn := 10000, twn := { open' := [8] } }), (8), ([]), by decide +kernel⟩,
   ⟨({ having [(F.TWN_CTL_EN, 1), (F.TWN_CTL_PEER_MEMBER, 5), (F.TWN_START_START_TURN, 8192)] with turn := 12000, twn := { stop := some (8, 3, 0) } }), _, (8), (3), (0), rfl, by decide +kernel⟩,
   ⟨({ having [(F.TWN_CTL_EN, 1), (F.TWN_CTL_PEER_MEMBER, 5), (F.TWN_START_START_TURN, 8192), (F.TWN_STAT_STOPPED, 1), (F.HBM_STAT_INIT_DONE, 1)] with twn := { stop := some (8, 1, 1), locate := some (0, 9) } }), _, (BitVec.ofNat 64 (ofBytesLE (({ having [(F.TWN_CTL_EN, 1), (F.TWN_CTL_PEER_MEMBER, 5), (F.TWN_START_START_TURN, 8192), (F.TWN_STAT_STOPPED, 1), (F.HBM_STAT_INIT_DONE, 1)] with twn := { stop := some (8, 1, 1), locate := some (0, 9) } } : State).fresh.hbmFetch (({ having [(F.TWN_CTL_EN, 1), (F.TWN_CTL_PEER_MEMBER, 5), (F.TWN_START_START_TURN, 8192), (F.TWN_STAT_STOPPED, 1), (F.HBM_STAT_INIT_DONE, 1)] with twn := { stop := some (8, 1, 1), locate := some (0, 9) } } : State).twnLogAt 8 4) 8).1)), (8), (1), (1), (0), (9), _, _, (Prod.eta _).symm, by decide +kernel⟩,
   ⟨({ having [(F.TWN_CTL_EN, 1), (F.TWN_CTL_PEER_MEMBER, 5), (F.TWN_START_START_TURN, 8192), (F.TWN_STAT_STOPPED, 1), (F.HBM_STAT_INIT_DONE, 1)] with twn := { stop := some (8, 1, 1), locate := some (4, 5) } }), _, (BitVec.ofNat 64 (ofBytesLE (({ having [(F.TWN_CTL_EN, 1), (F.TWN_CTL_PEER_MEMBER, 5), (F.TWN_START_START_TURN, 8192), (F.TWN_STAT_STOPPED, 1), (F.HBM_STAT_INIT_DONE, 1)] with twn := { stop := some (8, 1, 1), locate := some (4, 5) } } : State).fresh.hbmFetch (({ having [(F.TWN_CTL_EN, 1), (F.TWN_CTL_PEER_MEMBER, 5), (F.TWN_START_START_TURN, 8192), (F.TWN_STAT_STOPPED, 1), (F.HBM_STAT_INIT_DONE, 1)] with twn := { stop := some (8, 1, 1), locate := some (4, 5) } } : State).twnLogAt 8 4) 8).1 + 1)), (8), (1), (1), (4), (5), _, _, (Prod.eta _).symm, by decide +kernel⟩,
   ⟨({ having [] with up := { pllLocked := true } }), _, (.chain), (8192), _, rfl, rfl, by decide +kernel⟩,
   ⟨({ having [] with up := { pllLocked := true } }), (.chain), (16), _, rfl, by decide +kernel⟩,
   ⟨({ having [(F.TWN_REL_TURN, 16)] with turn := 16, twn := { relArmed := true } }), by decide +kernel⟩,
   ⟨({ having [(F.TWN_CTL_EN, 1), (F.TWN_CTL_PEER_MEMBER, 5), (F.TWN_START_START_TURN, 8192)] with up := { pllLocked := true } }), (.chain), (0), _, rfl, by decide +kernel⟩⟩

theorem test_FaultQueueCommandsComplete_met :
    (∃ (s : State) (r : FaultRec) (p : List FaultRec),
      s.stopped = false ∧ s.flt.park = r :: p ∧ s.fltFull = false ∧ s.flt.parkedAt ≠ some s.clk) ∧
    (∃ (s : State),
      s.stopped = false ∧ s.flt.parkedAt = some s.clk) ∧
    (∃ (s : State) (p : Path) (data : Word),
      s.stopped = false ∧ s.writeOpen p Reg.FLT_Q_IDX data = true) ∧
    (∃ (s : State) (p : Path) (data : Word),
      s.stopped = false ∧ s.writeOpen p Reg.FLT_Q_HEADF data = true) ∧
    (∃ (s : State) (t : Nat),
      s.stopped = false ∧ s.flt.lastRaise = some t ∧ s.flt.raiseHeld = true ∧ t + s.get F.FLT_Q_CFG_COAL ≤ s.clk ∧ s.get F.FLT_Q_IDX_HEAD_H % (2 * s.fltN) ≠ s.get F.FLT_Q_IDX_TAIL % (2 * s.fltN)) ∧
    (∃ (s : State) (t : Nat),
      s.stopped = false ∧ s.flt.lastRaise = some t ∧ s.flt.raiseHeld = true ∧ t + s.get F.FLT_Q_CFG_COAL ≤ s.clk ∧ s.get F.FLT_Q_IDX_HEAD_H % (2 * s.fltN) = s.get F.FLT_Q_IDX_TAIL % (2 * s.fltN)) :=
  ⟨⟨({ having [(F.FLT_Q_CFG_EN, 1)] with flt := { park := [({ cls := 2, code := 0x10, block := 6, inst := 1, turn := 3, seq := 4 } : FaultRec)] } }), (({ cls := 2, code := 0x10, block := 6, inst := 1, turn := 3, seq := 4 } : FaultRec)), ([]), by decide +kernel⟩,
   ⟨({ having [] with clk := 5, flt := { parkedAt := some 5 } }), by decide +kernel⟩,
   ⟨({ having [] with up := { pllLocked := true } }), (.chain), (3), by decide +kernel⟩,
   ⟨({ having [] with up := { pllLocked := true } }), (.chain), (3), by decide +kernel⟩,
   ⟨({ having [(F.FLT_Q_CFG_EN, 1), (F.FLT_Q_IDX_TAIL, 1), (F.FLT_Q_CFG_COAL, 5)] with clk := 50, flt := { lastRaise := some 1, raiseHeld := true } }), (1), by decide +kernel⟩,
   ⟨({ having [(F.FLT_Q_CFG_EN, 1), (F.FLT_Q_CFG_COAL, 5)] with clk := 50, flt := { lastRaise := some 1, raiseHeld := true } }), (1), by decide +kernel⟩⟩

theorem test_FenceAndNoticeCommandsComplete_met :
    (∃ (s : State) (p : Path) (k : Fin 2) (data : Word) (ms : List Nat),
      s.stopped = false ∧ s.writeOpen p (Reg.FLT_FENCE k) data = true ∧ (setBitsList (s.writeOf p (Reg.FLT_FENCE k) data).act.toNat 64).map (64 * k.val + ·) = ms ∧ ms.all s.mayFence = true) ∧
    (∃ (s : State) (p : Path) (k : Fin 2) (data : Word) (m : Nat),
      s.stopped = false ∧ s.writeOpen p (Reg.FLT_FENCE k) data = true ∧ (setBitsList (s.writeOf p (Reg.FLT_FENCE k) data).act.toNat 64).map (64 * k.val + ·) = [m] ∧ s.mayFence m = false) ∧
    (∃ (s : State) (t : State) (u : State) (f : PipFrame) (r : Nat),
      s.fresh.takeNotice 1 = some (f, t) ∧ t.noteFence false f.srcMember = u ∧ s.stopped = false ∧ Reg.FLT_FENCED_BY (f.srcMember / 64) = r ∧ bitAt (t.reg r).toNat (f.srcMember % 64) = false) ∧
    (∃ (s : State) (m : Nat),
      m < 128 ∧ s.isFenced m = true) ∧
    (∃ (s : State) (t : State) (f : PipFrame) (m : Nat),
      s.fresh.takeNotice 2 = some (f, t) ∧ s.stopped = false ∧ bytesAt f.data 1 1 % 128 = m ∧ (bytesAt f.data 1 1 != bytesAt f.data 2 1) = true ∧ bitAt (t.openReturn m).present m = true) ∧
    (∃ (s : State) (t : State) (f : PipFrame),
      s.fresh.takeNotice 2 = some (f, t) ∧ s.stopped = false ∧ bytesAt f.data 1 1 = bytesAt f.data 2 1) ∧
    (∃ (s : State) (t : State) (f : PipFrame) (m : Nat),
      s.fresh.takeNotice 3 = some (f, t) ∧ s.stopped = false ∧ bytesAt f.data 1 1 % 128 = m ∧ (t.openReturn m).pip.claims.find? (fun r => r.2 == m) = none) ∧
    (∃ (s : State) (t : State) (f : PipFrame) (m : Nat) (parent : Nat),
      s.fresh.takeNotice 3 = some (f, t) ∧ s.stopped = false ∧ bytesAt f.data 1 1 % 128 = m ∧ (t.openReturn m).pip.claims.find? (fun r => r.2 == m) = some (parent, m)) :=
  ⟨⟨({ having [(F.RTE_NEAR_A_VALID 0 5, 1), (F.MGT_ID_MEMBER, 2)] with up := { pllLocked := true } }), (.chain), (0), (2 ^ 5), ([5]), by decide +kernel⟩,
   ⟨({ having [(F.RTE_NEAR_A_VALID 0 5, 1), (F.MGT_ID_MEMBER, 2)] with up := { pllLocked := true } }), (.chain), (0), (2 ^ 6), (6), by decide +kernel⟩,
   ⟨({ having [] with pip := { notes := [({ type := 0x30, srcMember := 9, data := [1, 5, 0, 0, 0, 0, 0, 0] } : PipFrame)] } }), _, _, _, (Reg.FLT_FENCED_BY 0), someOf (by decide +kernel), rfl, by decide +kernel⟩,
   ⟨(having [(⟨Reg.FLT_FENCE 0, 63, 0⟩, 32)]), (5), by decide +kernel⟩,
   ⟨({ having [(⟨Reg.TRN_PRES0, 63, 0⟩, 0x2F)] with pip := { notes := [({ type := 0x30, srcMember := 9, data := [2, 5, 9, 0, 0, 0, 0, 0] } : PipFrame)] } }), _, _, (5), someOf (by decide +kernel), by decide +kernel⟩,
   ⟨({ having [] with pip := { notes := [({ type := 0x30, srcMember := 9, data := [2, 5, 5, 0, 0, 0, 0, 0] } : PipFrame)] } }), _, _, someOf (by decide +kernel), by decide +kernel⟩,
   ⟨({ having [] with pip := { notes := [({ type := 0x30, srcMember := 9, data := [3, 5, 0, 0, 0, 0, 0, 0] } : PipFrame)] } }), _, _, (5), someOf (by decide +kernel), by decide +kernel⟩,
   ⟨({ having [] with pip := { claims := [(2, 5)], notes := [({ type := 0x30, srcMember := 9, data := [3, 5, 0, 0, 0, 0, 0, 0] } : PipFrame)] } }), _, _, (5), (2), someOf (by decide +kernel), by decide +kernel⟩⟩

theorem test_StandinAndRejoinCommandsComplete_met :
    (∃ (s : State) (t : State) (u : State) (v : State) (p : Path) (data : Word) (w : RegWrite) (m : Nat),
      s.writeOf p Reg.FLT_STANDIN data = w ∧ s.fresh.takeWrite (w.setNew F.FLT_STANDIN_GO 0) = t ∧ (t.put F.FLT_BUDGET_TOKENS (t.get F.FLT_BUDGET_TOKENS - 1)).putFlag F.FLT_STANDIN_BUSY true = u ∧ (u.standinRecord m t.member false).routePip (u.notice 2 m t.member 0) = v ∧ s.stopped = false ∧ s.writeOpen p Reg.FLT_STANDIN data = true ∧ w.newF F.FLT_STANDIN_GO = 1 ∧ w.newF F.FLT_STANDIN_MEMBER = m ∧ t.spareReady = true ∧ t.flag F.FLT_STANDIN_BUSY = false ∧ bitAt (t.reg (Reg.FLT_GROUP (m / 64))).toNat (m % 64) = true ∧ t.get F.FLT_BUDGET_TOKENS ≠ 0) ∧
    (∃ (s : State) (t : State) (p : Path) (data : Word) (w : RegWrite) (m : Nat),
      s.writeOf p Reg.FLT_STANDIN data = w ∧ s.fresh.takeWrite (w.setNew F.FLT_STANDIN_GO 0) = t ∧ s.stopped = false ∧ s.writeOpen p Reg.FLT_STANDIN data = true ∧ w.newF F.FLT_STANDIN_GO = 1 ∧ w.newF F.FLT_STANDIN_MEMBER = m ∧ t.spareReady = true ∧ t.flag F.FLT_STANDIN_BUSY = false ∧ bitAt (t.reg (Reg.FLT_GROUP (m / 64))).toNat (m % 64) = true ∧ t.get F.FLT_BUDGET_TOKENS = 0) ∧
    (∃ (s : State) (t : State) (m : Nat) (prev : Nat),
      (s.fresh.put F.MGT_ID_MEMBER m).dueSticky.retrainNear = t ∧ s.stopped = false ∧ s.flt.standin = .expelling m prev ∧ bitAt s.present m = false) ∧
    (∃ (s : State) (t : State) (m : Nat) (prev : Nat),
      s.fresh.routePip (s.notice 2 m m 0) = t ∧ s.stopped = false ∧ s.flt.standin = .admitting m prev ∧ s.admitted = true) ∧
    (∃ (s : State) (t : State) (p : Path) (data : Word),
      s.fresh.routePip (s.notice 3 s.member 0 0) = t ∧ s.stopped = false ∧ s.writeOpen p Reg.FLT_REJOIN data = true ∧ (s.writeOf p Reg.FLT_REJOIN data).newF F.FLT_REJOIN_GO = 1 ∧ s.flag F.TRN_STAT_ALIGNED = true ∧ s.admitted = false ∧ s.flag (if s.edition = 1 then F.RTE_ED_READY1 else F.RTE_ED_READY0) = true ∧ bitAt s.present s.member = false) ∧
    (∃ (s : State) (p : Path) (data : Word),
      s.stopped = false ∧ s.writeOpen p Reg.FLT_REJOIN data = true ∧ (s.writeOf p Reg.FLT_REJOIN data).newF F.FLT_REJOIN_GO = 1 ∧ s.admitted = true) ∧
    (∃ (s : State) (t : Nat),
      s.stopped = false ∧ s.flt.rejoinAt = some t ∧ t + rejoinLimit ≤ s.clk) ∧
    (∃ (s : State),
      s.stopped = false ∧ s.flt.lastRefill + s.get F.FLT_BUDGET_REFILL ≤ s.clk) :=
  ⟨⟨({ having [(F.FLT_SPARE_ROLE, 1), (F.FLT_SPARE_ARM, 1), (F.TRN_STAT_ALIGNED, 1), (F.HBM_STAT_INIT_DONE, 1), (F.SEC_STAT_BURNISHED, 1), (⟨Reg.FLT_GROUP 0, 63, 0⟩, 32), (F.MGT_ID_MEMBER, 9), (F.FLT_BUDGET_TOKENS, 2)] with up := { pllLocked := true } }), _, _, _, (.chain), (2 ^ 7 + 5), _, (5), rfl, rfl, rfl, rfl, by decide +kernel⟩,
   ⟨({ having [(F.FLT_SPARE_ROLE, 1), (F.FLT_SPARE_ARM, 1), (F.TRN_STAT_ALIGNED, 1), (F.HBM_STAT_INIT_DONE, 1), (F.SEC_STAT_BURNISHED, 1), (⟨Reg.FLT_GROUP 0, 63, 0⟩, 32), (F.MGT_ID_MEMBER, 9), (F.FLT_BUDGET_TOKENS, 0)] with up := { pllLocked := true } }), _, (.chain), (2 ^ 7 + 5), _, (5), rfl, rfl, by decide +kernel⟩,
   ⟨({ having [] with flt := { standin := .expelling 5 9 } }), _, (5), (9), rfl, by decide +kernel⟩,
   ⟨({ having [(F.RTE_CTL_ADMIT, 1)] with flt := { standin := .admitting 5 9 } }), _, (5), (9), rfl, by decide +kernel⟩,
   ⟨({ having [(F.TRN_STAT_ALIGNED, 1), (F.RTE_ED_READY0, 1), (F.MGT_ID_MEMBER, 9)] with up := { pllLocked := true } }), _, (.chain), (1), rfl, by decide +kernel⟩,
   ⟨({ having [(F.RTE_CTL_ADMIT, 1)] with up := { pllLocked := true } }), (.chain), (1), by decide +kernel⟩,
   ⟨({ having [] with clk := 200000, flt := { rejoinAt := some 1 } }), (1), by decide +kernel⟩,
   ⟨({ having [] with clk := 2 ^ 50 }), by decide +kernel⟩⟩

theorem test_BringupCommandsComplete_met :
    (∃ (s : State) (n : Nat),
      s.up.resetLow = true ∧ s.up.tripped = false ∧ 2500 ≤ n) ∧
    (∃ (s : State) (n : Nat),
      s.up.resetLow = true ∧ s.up.tripped = true) ∧
    (∃ (s : State) (t : State),
      State.newSalts 16 (((s.fresh.put F.MGT_DEV_ID_STEPPING Config.fusedStepping.toNat).put F.MGT_DEV_SN_SERIAL
      Config.fusedSerial.toNat).put F.SEC_ID_KEY_FAMILY (Config.fusedKeyFamily.toNat % 10000)) = t ∧ s.stopped = false ∧ s.up.pllLocked = false) ∧
    (∃ (s : State) (t : State) (a : List Byte) (b : List Byte),
      ({ s.fresh with up := { s.up with
      firmwareTried := true
      attachOpen := true } } : State) = t ∧ s.stopped = false ∧ s.up.pllLocked = true ∧ s.up.firmwareTried = false ∧ s.coresHeld = false) ∧
    (∃ (s : State) (b : List Byte),
      s.stopped = false ∧ s.up.pllLocked = true ∧ s.up.cimRead = false ∧ cimValid b = true) ∧
    (∃ (s : State),
      s.stopped = false ∧ s.up.pllLocked = true ∧ s.up.cimRead = false ∧ s.up.heldChain = []) :=
  ⟨⟨({ State.reset with up := { resetLow := true } }), (2500), by decide +kernel⟩,
   ⟨({ State.reset with up := { resetLow := true, tripped := true } }), (9000), by decide +kernel⟩,
   ⟨(State.reset), _, rfl, by decide +kernel⟩,
   ⟨({ having [] with up := { pllLocked := true } }), _, ([1]), ([2]), rfl, by decide +kernel⟩,
   ⟨({ having [] with up := { pllLocked := true } }), (cimImage), by decide +kernel⟩,
   ⟨({ having [] with up := { pllLocked := true } }), by decide +kernel⟩⟩

theorem test_ChainCommandsComplete_met :
    (∃ (s : State) (bytes : List Byte) (body : List Byte),
      s.stopped = false ∧ s.up.bypassHigh = true ∧ chainBody bytes = some body ∧ bytesAt body 0 1 = 1 ∧ 54 ≤ body.length ∧ s.up.cimRead = true ∧ s.enumerates body = true ∧ s.flag F.MGT_ID_VALID = true) ∧
    (∃ (s : State) (bytes : List Byte) (body : List Byte),
      s.stopped = false ∧ s.up.bypassHigh = true ∧ chainBody bytes = some body ∧ bytesAt body 0 1 = 1 ∧ 54 ≤ body.length ∧ s.up.cimRead = false) ∧
    (∃ (s : State) (t : State) (bytes : List Byte) (body : List Byte) (held : BitVec 128) (fixed : BitVec 128) (m : Nat) (src : Nat),
      s.fresh.takeNumber m = t ∧ s.stopped = false ∧ s.up.bypassHigh = true ∧ chainBody bytes = some body ∧ bytesAt body 0 1 = 2 ∧ 22 ≤ body.length ∧ s.up.cimRead = true ∧ s.enumerates body = true ∧ s.flag F.MGT_ID_VALID = false ∧ s.chooseNumber (bytesAt body 6 16) held.toNat fixed.toNat = (some m, src)) ∧
    (∃ (s : State) (bytes : List Byte) (body : List Byte) (addr : Nat),
      s.stopped = false ∧ s.up.bypassHigh = true ∧ chainBody bytes = some body ∧ body.length = 18 ∧ bytesAt body 0 1 = 0x10 ∧ s.cmdNamesMe body = true ∧ bytesAt body 5 1 = 1 ∧ bytesAt body 6 4 = addr ∧ badAccess .chain addr = false) ∧
    (∃ (s : State) (t : State) (bytes : List Byte) (body : List Byte) (addr : Nat) (gone : Bool),
      (s.fresh.chainSend body).busWrite .chain addr (BitVec.ofNat 64 (bytesAt body 10 8)) = (gone, t) ∧ s.stopped = false ∧ s.up.bypassHigh = true ∧ chainBody bytes = some body ∧ body.length = 18 ∧ bytesAt body 0 1 = 0x10 ∧ s.cmdNamesMe body = true ∧ bytesAt body 5 1 = 2 ∧ bytesAt body 6 4 = addr ∧ badAccess .chain addr = false) ∧
    (∃ (s : State) (bytes : List Byte) (body : List Byte),
      s.stopped = false ∧ s.up.bypassHigh = true ∧ chainBody bytes = some body ∧ s.cmdNamesMe body = false) ∧
    (∃ (s : State) (bytes : List Byte) (body : List Byte),
      s.stopped = false ∧ s.up.bypassHigh = true ∧ chainBody bytes = some body) ∧
    (∃ (s : State) (bytes : List Byte),
      s.stopped = false ∧ s.up.bypassHigh = true ∧ chainBody bytes = none) ∧
    (∃ (s : State) (c : List Byte),
      s.stopped = false ∧ s.up.writeBackDue = true ∧ s.stickyCim = c) ∧
    (∃ (s : State) (t : State) (bytes : List Byte),
      (s.fresh.accessAux (bytesAt bytes 0 4)).2.pathWrite .oob (bytesAt bytes 0 4) (BitVec.ofNat 64 (bytesAt bytes 4 8)) (s.fresh.accessAux (bytesAt bytes 0 4)).1 = t ∧ s.stopped = false ∧ s.up.pllLocked = true ∧ bytes.length = 12) ∧
    (∃ (s : State) (bytes : List Byte),
      s.stopped = false ∧ s.up.pllLocked = true) ∧
    (∃ (s : State) (bytes : List Byte) (addr : Nat),
      s.stopped = false ∧ s.up.pllLocked = true ∧ bytes.length = 4 ∧ bytesAt bytes 0 4 = addr ∧ badAccess .oob addr = false) :=
  ⟨⟨({ having [(F.MGT_STAT_CIM_OK, 1), (F.MGT_ID_VALID, 1), (F.MGT_ID_MEMBER, 9)] with up := { pllLocked := true, bypassHigh := true, cimRead := true } }), (chained ([1, 7, 0, 0, 0, 0] ++ List.replicate 48 0)), (([1, 7, 0, 0, 0, 0] ++ List.replicate 48 0)), by decide +kernel⟩,
   ⟨({ having [] with up := { pllLocked := true, bypassHigh := true } }), (chained ([1, 7, 0, 0, 0, 0] ++ List.replicate 48 0)), (([1, 7, 0, 0, 0, 0] ++ List.replicate 48 0)), by decide +kernel⟩,
   ⟨({ having [(F.MGT_STAT_CIM_OK, 1)] with up := { pllLocked := true, bypassHigh := true, cimRead := true } }), _, (chained ([2, 7, 0, 0, 0, 0] ++ toBytesLE 16 3)), (([2, 7, 0, 0, 0, 0] ++ toBytesLE 16 3)), (0), (0), (2), (3), rfl, by decide +kernel⟩,
   ⟨({ having [(F.MGT_STAT_CIM_OK, 1), (F.MGT_ID_VALID, 1), (F.MGT_ID_MEMBER, 9)] with up := { pllLocked := true, bypassHigh := true, cimRead := true } }), (chained ([0x10, 7, 0, 0, 9, 1] ++ toBytesLE 4 Reg.TRN_NOW ++ toBytesLE 8 0)), (([0x10, 7, 0, 0, 9, 1] ++ toBytesLE 4 Reg.TRN_NOW ++ toBytesLE 8 0)), (Reg.TRN_NOW), by decide +kernel⟩,
   ⟨({ having [(F.MGT_STAT_CIM_OK, 1), (F.MGT_ID_VALID, 1), (F.MGT_ID_MEMBER, 9)] with up := { pllLocked := true, bypassHigh := true, cimRead := true } }), _, (chained ([0x10, 7, 0, 0, 9, 2] ++ toBytesLE 4 Reg.TRN_CTL ++ toBytesLE 8 0)), (([0x10, 7, 0, 0, 9, 2] ++ toBytesLE 4 Reg.TRN_CTL ++ toBytesLE 8 0)), (Reg.TRN_CTL), _, (Prod.eta _).symm, by decide +kernel⟩,
   ⟨({ having [(F.MGT_STAT_CIM_OK, 1), (F.MGT_ID_VALID, 1), (F.MGT_ID_MEMBER, 9)] with up := { pllLocked := true, bypassHigh := true, cimRead := true } }), (chained ([0x10, 7, 0, 0, 8, 1] ++ toBytesLE 4 Reg.TRN_NOW ++ toBytesLE 8 0)), (([0x10, 7, 0, 0, 8, 1] ++ toBytesLE 4 Reg.TRN_NOW ++ toBytesLE 8 0)), by decide +kernel⟩,
   ⟨({ having [(F.MGT_STAT_CIM_OK, 1), (F.MGT_ID_VALID, 1), (F.MGT_ID_MEMBER, 9)] with up := { pllLocked := true, bypassHigh := true, cimRead := true } }), (chained ([0x11, 0, 0, 0, 0, 0])), (([0x11, 0, 0, 0, 0, 0])), by decide +kernel⟩,
   ⟨({ having [(F.MGT_STAT_CIM_OK, 1), (F.MGT_ID_VALID, 1), (F.MGT_ID_MEMBER, 9)] with up := { pllLocked := true, bypassHigh := true, cimRead := true } }), ([1, 2, 3]), by decide +kernel⟩,
   ⟨({ having [(F.MGT_STAT_CIM_OK, 1), (F.MGT_ID_VALID, 1), (F.MGT_ID_MEMBER, 9)] with up := { pllLocked := true, writeBackDue := true } }), (({ having [(F.MGT_STAT_CIM_OK, 1), (F.MGT_ID_VALID, 1), (F.MGT_ID_MEMBER, 9)] with up := { pllLocked := true, writeBackDue := true } } : State).stickyCim), by decide +kernel⟩,
   ⟨({ having [] with up := { pllLocked := true } }), _, (toBytesLE 4 Reg.FLT_Q_HEADF ++ toBytesLE 8 3), rfl, by decide +kernel⟩,
   ⟨({ having [] with up := { pllLocked := true } }), (toBytesLE 4 Reg.FLT_Q_HEADF ++ toBytesLE 8 3), by decide +kernel⟩,
   ⟨({ having [] with up := { pllLocked := true } }), (toBytesLE 4 Reg.TRN_NOW), (Reg.TRN_NOW), by decide +kernel⟩⟩

theorem test_IdentityCommandsComplete_met :
    (∃ (s : State) (c : Fin 64) (lower : List Byte) (upper : List Byte),
      s.stopped = false) ∧
    (∃ (s : State) (c : Fin 64) (lower : List Byte) (upper : List Byte),
      s.stopped = false ∧ s.flag (F.MGT_CAGE_PRESENT c) = true ∧ ((s.up.cageAt.find? (fun x => x.1 == c.val)).map (·.2)).getD 0 + 250000 ≤ s.clk) ∧
    (∃ (s : State) (c : Fin 64),
      s.stopped = false ∧ s.flag (F.MGT_CAGE_PRESENT c) = true ∧ ((s.up.cageAt.find? (fun x => x.1 == c.val)).map (·.2)).getD 0 + 250000 ≤ s.clk) ∧
    (∃ (s : State) (c : Fin 64),
      s.stopped = false ∧ s.flag (F.MGT_CAGE_PRESENT c) = true ∧ ((s.up.cageAt.find? (fun x => x.1 == c.val)).map (·.2)).getD 0 + 250000 ≤ s.clk) ∧
    (∃ (s : State) (t : State) (p : Path) (data : Word) (byte : Byte) (w : RegWrite),
      s.writeOf p Reg.MGT_CAGE_ACC data = w ∧ (s.fresh.takeWrite w).putFlag F.MGT_CAGE_ACC_DONE true = t ∧ s.stopped = false ∧ s.writeOpen p Reg.MGT_CAGE_ACC data = true ∧ w.newF F.MGT_CAGE_ACC_OP = 1) ∧
    (∃ (s : State) (t : State) (p : Path) (data : Word) (byte : Byte) (w : RegWrite),
      s.writeOf p Reg.MGT_CAGE_ACC data = w ∧ (s.fresh.takeWrite w).putFlag F.MGT_CAGE_ACC_DONE true = t ∧ s.stopped = false ∧ s.writeOpen p Reg.MGT_CAGE_ACC data = true ∧ w.newF F.MGT_CAGE_ACC_OP = 2) ∧
    (∃ (s : State) (t : State) (p : Path) (data : Word) (byte : Byte) (w : RegWrite),
      s.writeOf p Reg.MGT_CIM_ACC data = w ∧ (s.fresh.takeWrite w).putFlag F.MGT_CIM_ACC_DONE true = t ∧ s.stopped = false ∧ s.writeOpen p Reg.MGT_CIM_ACC data = true ∧ w.newF F.MGT_CIM_ACC_OP = 1) ∧
    (∃ (s : State) (t : State) (p : Path) (data : Word) (w : RegWrite),
      s.writeOf p Reg.MGT_CIM_ACC data = w ∧ (s.fresh.takeWrite w).putFlag F.MGT_CIM_ACC_DONE true = t ∧ s.stopped = false ∧ s.writeOpen p Reg.MGT_CIM_ACC data = true ∧ w.newF F.MGT_CIM_ACC_OP = 2) ∧
    (∃ (s : State) (p : Path) (data : Word),
      s.stopped = false ∧ s.writeOpen p Reg.MGT_CTL data = true ∧ (s.writeOf p Reg.MGT_CTL data).actF F.MGT_CTL_KF_OVERRIDE = 1 ∧ (s.writeOf p Reg.MGT_CTL data).actF F.MGT_CTL_DETACH = 0 ∧ s.portsHeld = false) ∧
    (∃ (s : State) (p : Path) (data : Word),
      s.stopped = false ∧ s.writeOpen p Reg.MGT_CTL data = true ∧ (s.writeOf p Reg.MGT_CTL data).actF F.MGT_CTL_KF_OVERRIDE = 1 ∧ (s.writeOf p Reg.MGT_CTL data).actF F.MGT_CTL_DETACH = 0 ∧ s.portsHeld = true ∧ s.flag F.MGT_STAT_CIM_BAD = false) ∧
    (∃ (s : State) (t : State) (p : Path) (data : Word),
      s.fresh.putFlag F.MGT_CTL_DETACH true = t ∧ s.stopped = false ∧ s.writeOpen p Reg.MGT_CTL data = true ∧ (s.writeOf p Reg.MGT_CTL data).actF F.MGT_CTL_KF_OVERRIDE = 0 ∧ (s.writeOf p Reg.MGT_CTL data).actF F.MGT_CTL_DETACH = 1 ∧ s.up.detachAt = none) ∧
    (∃ (s : State) (t : Nat),
      s.stopped = false ∧ s.up.detachAt = some t ∧ t + relayTurns ≤ s.clk) :=
  ⟨⟨({ having [] with up := { pllLocked := true } }), (3), ([0x1E, 0, 0, 6]), (List.replicate 53 7), by decide +kernel⟩,
   ⟨({ having [(F.MGT_CAGE_PRESENT 3, 1)] with clk := 300000 }), (3), ([0x1E, 0, 0, 6]), (List.replicate 53 7), by decide +kernel⟩,
   ⟨({ having [(F.MGT_CAGE_PRESENT 3, 1)] with clk := 300000 }), (3), by decide +kernel⟩,
   ⟨({ having [(F.MGT_CAGE_PRESENT 3, 1)] with clk := 300000 }), (3), by decide +kernel⟩,
   ⟨({ having [] with up := { pllLocked := true } }), _, (.chain), ((fieldPut 0 F.MGT_CAGE_ACC_OP.hi F.MGT_CAGE_ACC_OP.lo 1)), (9), _, rfl, rfl, by decide +kernel⟩,
   ⟨({ having [] with up := { pllLocked := true } }), _, (.chain), ((fieldPut 0 F.MGT_CAGE_ACC_OP.hi F.MGT_CAGE_ACC_OP.lo 2)), (9), _, rfl, rfl, by decide +kernel⟩,
   ⟨({ having [] with up := { pllLocked := true } }), _, (.chain), ((fieldPut 0 F.MGT_CIM_ACC_OP.hi F.MGT_CIM_ACC_OP.lo 1)), (9), _, rfl, rfl, by decide +kernel⟩,
   ⟨({ having [] with up := { pllLocked := true } }), _, (.chain), ((fieldPut 0 F.MGT_CIM_ACC_OP.hi F.MGT_CIM_ACC_OP.lo 2)), _, rfl, rfl, by decide +kernel⟩,
   ⟨({ having [] with up := { pllLocked := true } }), (.chain), ((fieldPut 0 F.MGT_CTL_KF_OVERRIDE.hi F.MGT_CTL_KF_OVERRIDE.lo 1)), by decide +kernel⟩,
   ⟨({ having [(F.MGT_STAT_KF_MISMATCH, 1), (F.VPT_CTL_EN 4, 1), (F.VPT_CTL_LOOP 4, 1)] with up := { pllLocked := true } }), (.chain), ((fieldPut 0 F.MGT_CTL_KF_OVERRIDE.hi F.MGT_CTL_KF_OVERRIDE.lo 1)), by decide +kernel⟩,
   ⟨({ having [] with up := { pllLocked := true } }), _, (.chain), ((fieldPut 0 F.MGT_CTL_DETACH.hi F.MGT_CTL_DETACH.lo 1)), rfl, by decide +kernel⟩,
   ⟨({ having [] with clk := 600000, up := { detachAt := some 1 } }), (1), by decide +kernel⟩⟩

theorem test_PowerSupplyCommandsComplete_met :
    (∃ (s : State) (answers : List (Option (BitVec 16 × BitVec 16 × Byte × BitVec 16))),
      s.stopped = false ∧ s.up.cimRead = true ∧ s.pwr.polledAt + 25000 ≤ s.clk) ∧
    (∃ (s : State) (status : List (Option (BitVec 16))),
      s.stopped = false) ∧
    (∃ (s : State) (t : State) (p : Path) (data : Word) (v : Option (BitVec 16)) (w : RegWrite),
      s.writeOf p Reg.PWR_PMB_ACC data = w ∧ (s.fresh.takeWrite w).putFlag F.PWR_PMB_ACC_DONE false = t ∧ s.stopped = false ∧ s.writeOpen p Reg.PWR_PMB_ACC data = true ∧ Path.management p = true ∧ w.newF F.PWR_PMB_ACC_OP = 1) ∧
    (∃ (s : State) (t : State) (p : Path) (data : Word) (v : Option (BitVec 16)) (w : RegWrite),
      s.writeOf p Reg.PWR_PMB_ACC data = w ∧ (s.fresh.takeWrite w).putFlag F.PWR_PMB_ACC_DONE false = t ∧ s.stopped = false ∧ s.writeOpen p Reg.PWR_PMB_ACC data = true ∧ Path.management p = true ∧ w.newF F.PWR_PMB_ACC_OP = 2) ∧
    (∃ (s : State) (op : Nat) (a : Option Nat),
      s.pwr.access = some (op, a)) ∧
    (∃ (s : State) (v : Nat),
      s.pwr.access = some (1, some v)) ∧
    (∃ (s : State),
      s.stopped = false ∧ s.flag F.PWR_STAT_FROZEN = false ∧ s.get F.PWR_STAT_ARRAY = 1 ∧ s.pwr.rampAt + 64 ≤ s.clk) ∧
    (∃ (s : State),
      s.stopped = false ∧ s.flag F.PWR_STAT_FROZEN = false ∧ s.get F.PWR_STAT_ARRAY = 3 ∧ s.pwr.rampAt + 8 * s.pwr.rampStep ≤ s.clk) ∧
    (∃ (s : State) (t : State),
      ((((s.fresh.count F.PWR_CNT_FROZEN_TURNS 1).count F.TWN_TBRK0_STRETCH_TURNS 1).count F.PWR_DROOP_EVENTS 1).putFlag
      F.PWR_STAT_STRETCH true).freeze.twnBreak = t ∧ s.stopped = false ∧ s.pwr.stretchAt = none ∧ s.pwr.freezeAt = none ∧ s.dutyFrozen = false) ∧
    (∃ (s : State) (t : State) (a : Nat) (f : Nat),
      (s.fresh.putFlag F.PWR_STAT_STRETCH true).freeze.twnBreak = t ∧ s.stopped = false ∧ s.pwr.stretchAt = some a ∧ s.pwr.freezeAt = some f ∧ s.droopFrozen = true) ∧
    (∃ (s : State) (t : State) (a : Nat) (f : Nat),
      s.fresh.putFlag F.PWR_STAT_STRETCH false = t ∧ s.stopped = false ∧ s.pwr.stretchAt = some a ∧ s.pwr.frozenAt = some f ∧ a + max 1 (s.get F.PWR_DROOP_HOLD) ≤ s.clk) ∧
    (∃ (s : State) (t : State) (f : Nat),
      (s.fresh.thawArray (s.clk - f)).putFlag F.PWR_STAT_FROZEN false = t ∧ s.stopped = false ∧ s.pwr.frozenAt = some f ∧ s.pwr.stretchAt = none ∧ s.droopFrozen = false ∧ s.dutyFrozen = false ∧ s.get F.PWR_STAT_ARRAY = 2) :=
  ⟨⟨({ having [(F.PWR_LIM_LIMIT 3, 500)] with up := { cimRead := true }, clk := 30000 }), ([none, none, none, some (900, 600, 50, 0)]), by decide +kernel⟩,
   ⟨(having [(F.PWR_LIM_LIMIT 3, 500)]), ([none, none, none, some 5]), by decide +kernel⟩,
   ⟨({ having [] with up := { pllLocked := true } }), _, (.chain), ((fieldPut 0 F.PWR_PMB_ACC_OP.hi F.PWR_PMB_ACC_OP.lo 1)), (some 77), _, rfl, rfl, by decide +kernel⟩,
   ⟨({ having [] with up := { pllLocked := true } }), _, (.chain), ((fieldPut 0 F.PWR_PMB_ACC_OP.hi F.PWR_PMB_ACC_OP.lo 2)), (none), _, rfl, rfl, by decide +kernel⟩,
   ⟨({ State.reset with pwr := { access := some (2, none) } }), (2), (none), by decide +kernel⟩,
   ⟨({ State.reset with pwr := { access := some (1, some 70000) } }), (70000), by decide +kernel⟩,
   ⟨({ having [(F.PWR_STAT_ARRAY, 1)] with clk := 100 }), by decide +kernel⟩,
   ⟨({ having [(F.PWR_STAT_ARRAY, 3)] with clk := 100 }), by decide +kernel⟩,
   ⟨(State.reset), _, rfl, by decide +kernel⟩,
   ⟨({ having [(F.PWR_STAT_STRETCH, 1)] with clk := 5000, pwr := { stretchAt := some 3, frozenAt := some 3, freezeAt := some 3 } }), _, (3), (3), rfl, by decide +kernel⟩,
   ⟨({ having [(F.PWR_STAT_STRETCH, 1)] with clk := 5000, pwr := { stretchAt := some 3, frozenAt := some 3, freezeAt := some 3 } }), _, (3), (3), rfl, by decide +kernel⟩,
   ⟨({ having [(F.PWR_STAT_FROZEN, 1), (F.PWR_STAT_ARRAY, 2)] with clk := 5000, pwr := { frozenAt := some 3 } }), _, (3), rfl, by decide +kernel⟩⟩

theorem test_ThermalAndWarningCommandsComplete_met :
    (∃ (s : State) (t : State) (sensors : List Byte) (temps : List Byte) (j : Nat) (e : Nat),
      s.fresh.stackTemps temps = t ∧ s.stopped = false ∧ s.clk % 256 = 0 ∧ maxOf (sensors.map (·.toNat)) = j ∧ min 255 (max j (maxOf ((List.range 24).map (fun n => t.get (F.HBM_S_TEMP_TEMP n))) + 10)) = e) ∧
    (∃ (s : State) (n : Byte),
      s.stopped = false ∧ s.get F.PWR_THERM_TRIP ≤ n.toNat) ∧
    (∃ (s : State) (t : State) (f : Nat),
      ((s.fresh.putFlag F.PWR_STAT_OVERCURRENT s.overAgain).put F.PWR_STAT_DUTY_F f).putFlag F.PWR_STAT_DUTY (decide (0 < f)) = t ∧ s.stopped = false ∧ s.now % 4096 = 512 * s.staggerSlot ∧ s.pwr.windowAt ≠ some s.clk ∧ (if s.overAgain then max 4 (dutyF (s.get F.PWR_STAT_TJ_EFF) (s.get F.PWR_THERM_DUTY_ON))
      else dutyF (s.get F.PWR_STAT_TJ_EFF) (s.get F.PWR_THERM_DUTY_ON)) = f) ∧
    (∃ (s : State) (p : Path) (data : Word),
      s.stopped = false ∧ s.writeOpen p Reg.PWR_THERM data = true ∧ (s.writeOf p Reg.PWR_THERM data).newF F.PWR_THERM_DUTY_ON ≤ s.pwr.classDuty) ∧
    (∃ (s : State) (p : Path) (data : Word),
      s.stopped = false ∧ s.writeOpen p Reg.PWR_THERM data = true ∧ s.pwr.classDuty < (s.writeOf p Reg.PWR_THERM data).newF F.PWR_THERM_DUTY_ON) ∧
    (∃ (s : State) (t : State),
      ((s.fresh.putFlag F.PWR_STAT_WARN true).put F.PWR_STAT_WARN_STEP 1).count F.PWR_CNT_WARNS 1 = t ∧ s.stopped = false ∧ s.flag F.PWR_CTL_WARN_EN = true ∧ s.flag F.PWR_STAT_WARN = false) ∧
    (∃ (s : State) (o : PlateOp) (x : Nat),
      s.stopped = false ∧ s.warnedFor 250000 = true ∧ s.plate.phase = .stroke x ∧ s.plate.op = some o) ∧
    (∃ (s : State),
      s.stopped = false ∧ s.warnedFor 375000 = true ∧ s.get F.PWR_STAT_WARN_STEP ≠ 3) ∧
    (∃ (s : State) (t : State),
      (s.fresh.putFlag F.PWR_STAT_WARN false).put F.PWR_STAT_WARN_STEP 0 = t ∧ s.stopped = false ∧ s.flag F.PWR_STAT_WARN = true ∧ s.warnedFor 375000 = false) :=
  ⟨⟨({ having [] with turn := 0, clk := 512 }), _, ([70, 40]), ([50, 60]), (70), (70), rfl, by decide +kernel⟩,
   ⟨(State.reset), (200), by decide +kernel⟩,
   ⟨({ having [(F.PWR_STAT_TJ_EFF, 110), (F.PWR_THERM_DUTY_ON, 97)] with turn := 0 }), _, (12), rfl, by decide +kernel⟩,
   ⟨({ having [] with up := { pllLocked := true } }), (.chain), ((fieldPut 0 F.PWR_THERM_DUTY_ON.hi F.PWR_THERM_DUTY_ON.lo 90)), by decide +kernel⟩,
   ⟨({ having [] with up := { pllLocked := true } }), (.chain), ((fieldPut 0 F.PWR_THERM_DUTY_ON.hi F.PWR_THERM_DUTY_ON.lo 120)), by decide +kernel⟩,
   ⟨(having [(F.PWR_CTL_WARN_EN, 1)]), _, rfl, by decide +kernel⟩,
   ⟨({ State.reset with clk := 300000, pwr := { warnAt := some 0 }, plate := { phase := .stroke 5, op := some ({ queue := 256, index := 0, chain := [copyDesc], visible := [0] } : PlateOp) } }), (({ queue := 256, index := 0, chain := [copyDesc], visible := [0] } : PlateOp)), (5), by decide +kernel⟩,
   ⟨({ State.reset with clk := 400000, pwr := { warnAt := some 0 } }), by decide +kernel⟩,
   ⟨({ having [(F.PWR_STAT_WARN, 1), (F.PWR_STAT_WARN_STEP, 1)] with pwr := { warnAt := some 0 } }), _, rfl, by decide +kernel⟩⟩

theorem test_RegisterCommandsComplete_met :
    (∃ (s : State) (t : State) (p : Path) (addr : BitVec 32) (data : Word) (gone : Bool),
      s.fresh.busWrite p addr.toNat data = (gone, t) ∧ s.stopped = false ∧ s.pathOpen p = true ∧ badAccess p addr.toNat = false) ∧
    (∃ (s : State) (p : Path) (addr : BitVec 32),
      s.stopped = false ∧ s.pathOpen p = true ∧ badAccess p addr.toNat = false ∧ s.flag (F.PG_INJ_ARM (pageBase 17 0)) = false) ∧
    (∃ (s : State) (p : Path) (acc : RegAccess) (data : Word),
      s.stopped = false ∧ s.pathOpen p = true ∧ (acc.bytes ≠ 8 ∨ badAccess p acc.addr.toNat = true)) ∧
    (∃ (s : State) (p : Path) (t : Byte) (i : Byte) (data : Word) (w : RegWrite),
      s.writeOf p (pageBase t.toNat i.toNat + 0x10) data = w ∧ s.stopped = false ∧ pageAt t.toNat i.toNat = some (pageBase t.toNat i.toNat) ∧ s.writeOpen p (pageBase t.toNat i.toNat + 0x10) data = true ∧ fieldGet w.act 1 1 = 1) ∧
    (∃ (s : State) (p : Path) (t : Byte) (i : Byte) (data : Word) (w : RegWrite),
      s.writeOf p (pageBase t.toNat i.toNat + 0x10) data = w ∧ s.stopped = false ∧ pageAt t.toNat i.toNat = some (pageBase t.toNat i.toNat) ∧ s.writeOpen p (pageBase t.toNat i.toNat + 0x10) data = true ∧ fieldGet w.act 1 1 = 0) ∧
    (∃ (s : State) (p : Path) (t : Byte) (i : Byte) (data : Word) (w : RegWrite),
      s.writeOf p (pageBase t.toNat i.toNat + 0x40) data = w ∧ s.stopped = false ∧ pageAt t.toNat i.toNat = some (pageBase t.toNat i.toNat) ∧ s.writeOpen p (pageBase t.toNat i.toNat + 0x40) data = true ∧ w.newF (F.PG_INJ_KIND (pageBase t.toNat i.toNat)) ≤ 3 ∧ injSymPage t.toNat i.toNat = true) ∧
    (∃ (s : State) (p : Path) (t : Byte) (i : Byte) (data : Word) (w : RegWrite) (pg : Nat) (cls : Nat),
      s.writeOf p (pg + 0x40) data = w ∧ s.stopped = false ∧ pageAt t.toNat i.toNat = some pg ∧ pageBase t.toNat i.toNat = pg ∧ s.writeOpen p (pg + 0x40) data = true ∧ w.newF (F.PG_INJ_ARM pg) = 1 ∧ w.newF (F.PG_INJ_KIND pg) = 4 ∧ codeClass (w.newF (F.PG_INJ_CODE pg)) = some cls) ∧
    (∃ (s : State) (p : Path) (t : Byte) (i : Byte) (data : Word),
      s.stopped = false ∧ pageAt t.toNat i.toNat = some (pageBase t.toNat i.toNat) ∧ s.writeOpen p (pageBase t.toNat i.toNat + 0x48) data = true) :=
  ⟨⟨({ having [] with up := { pllLocked := true } }), _, (.chain), (BitVec.ofNat 32 Reg.FLT_Q_HEADF), (5), _, (Prod.eta _).symm, by decide +kernel⟩,
   ⟨({ having [] with up := { pllLocked := true } }), (.chain), (BitVec.ofNat 32 Reg.TRN_NOW), by decide +kernel⟩,
   ⟨({ having [] with up := { pllLocked := true } }), (.fabric), (⟨BitVec.ofNat 32 Reg.TRN_NOW, 4⟩), (7), by decide +kernel⟩,
   ⟨({ having [] with up := { pllLocked := true } }), (.chain), (8), (4), (3), _, rfl, by decide +kernel⟩,
   ⟨({ having [] with up := { pllLocked := true } }), (.chain), (8), (4), (5), _, rfl, by decide +kernel⟩,
   ⟨({ having [] with up := { pllLocked := true } }), (.chain), (4), (0), ((fieldPut (fieldPut 0 (F.PG_INJ_ARM 0).hi (F.PG_INJ_ARM 0).lo 1) (F.PG_INJ_KIND 0).hi (F.PG_INJ_KIND 0).lo 2)), _, rfl, by decide +kernel⟩,
   ⟨({ having [] with up := { pllLocked := true } }), (.chain), (8), (4), ((fieldPut (fieldPut (fieldPut 0 (F.PG_INJ_ARM 0).hi (F.PG_INJ_ARM 0).lo 1) (F.PG_INJ_KIND 0).hi (F.PG_INJ_KIND 0).lo 4) (F.PG_INJ_CODE 0).hi (F.PG_INJ_CODE 0).lo 0x42)), _, (pageBase 8 4), (4), rfl, by decide +kernel⟩,
   ⟨({ having [] with up := { pllLocked := true } }), (.chain), (8), (4), (0x10), by decide +kernel⟩⟩

/-! ### The statements about the machine -/

/-- A clocked device with its PLL locked. -/
def locked : State := { State.reset with up := { pllLocked := true } }
/-- That device with a field set. -/
def lockedWith (l : List (RField × Nat)) : State := { having l with up := { pllLocked := true } }
/-- A command's next state. -/
def nextOf : Host.Outcome State Fault Refusal → State
  | .next t => t
  | .fault _ => State.reset
  | .refused _ => State.reset

theorem test_StepRunsTheFrontCommand_met : State.reset.pending = [] := rfl

theorem test_StepKeepsStatusFields_met : ∃ s t : State, s.upToDate ∧ step s = .next t :=
  ⟨State.reset, _, by decide +kernel, rfl⟩

theorem test_StoppedDeviceDoesNothing_met :
    ∃ (c : Instr) (s : State), s.stopped = true ∧ c ≠ .resetNAssert ∧ (∀ n, c ≠ .resetNRelease n) :=
  ⟨.turnBoundary, { State.reset with up := { resetLow := true } }, by decide +kernel, nofun, nofun⟩

theorem test_line_code_met : ∃ (_ : Bool) (l : List Nat), l.all (fun x => decide (x < 256) || controlSymbols.contains x) = true :=
  ⟨true, 255 :: controlSymbols, by decide +kernel⟩

theorem test_PipFrameRoundTrip_met : ∃ (f : PipFrame) (seq : Nat), seq < 256 ∧ f.type < 256 ∧ f.op < 16 ∧ f.slice < 256 ∧
    f.tag < 2 ^ 16 ∧ f.srcDomain < 256 ∧ f.srcMember < 128 ∧ f.dstDomain < 256 ∧ f.dstMember < 128 ∧ f.count < 2 ^ 16 ∧
    (f.data.length ≤ 8 ∨ f.data.length = 16 ∨ f.data.length = 32 ∨ f.data.length = 64) :=
  ⟨{ type := 0x30, op := 15, slice := 255, tag := 65535, srcDomain := 255, srcMember := 127, dstMember := 127, count := 65535,
     data := List.replicate 64 1 }, 255, by decide +kernel⟩

theorem test_FrameHeaderRoundTrip_met : ∃ f : Frame, f.opcode < 2 ^ 8 ∧ f.vc < 8 ∧ f.edition < 2 ∧ f.reserved < 2 ^ 8 ∧
    f.slice < 2 ^ 8 ∧ f.src < 2 ^ 20 ∧ f.dst < 2 ^ 20 ∧ f.tag < 2 ^ 18 ∧ f.status < 2 ^ 8 ∧ f.seq < 2 ^ 32 ∧ f.addr < 2 ^ 64 ∧
    f.bytes < 2 ^ 9 ∧ f.xfmt < 8 ∧ f.gran.length < 16 ∧ f.tries < 2 ^ 8 ∧ f.injTurn < 2 ^ 40 :=
  ⟨{ opcode := 255, vc := 7, edition := 1, reserved := 255, slice := 255, src := 2 ^ 20 - 1, dst := 2 ^ 20 - 1,
     tag := 2 ^ 18 - 1, status := 255, seq := 2 ^ 32 - 1, addr := 2 ^ 64 - 1, bytes := 511, xfmt := 7, tries := 255,
     injTurn := 2 ^ 40 - 1 }, by decide +kernel⟩

theorem test_HatchCorrectsOneSymbol_met : ∃ (j : Nat) (e : Byte), j < 36 ∧ e ≠ 0 := ⟨35, 255, by decide +kernel⟩

theorem test_HbmOffsetMap_met : (∃ off, off < hbmSize) ∧ (∃ st sa, st < 24 ∧ sa < 2 ^ 36) :=
  ⟨⟨hbmSize - 1, by decide +kernel⟩, ⟨23, 2 ^ 36 - 1, by decide +kernel⟩⟩

theorem test_HbmStoreFrame_met : ∃ s : State, s.hbm.errors = [] ∧ s.hbm.xtsBad = [] ∧ s.get (F.PG_INJ_KIND (pageBase 8 4)) = 0 :=
  ⟨State.reset, by decide +kernel⟩

theorem test_RegisterPageMap_met : ∃ (s : State) (p : Path) (addr : BitVec 32), s.stopped = false ∧ s.pathOpen p = true ∧
    badAccess p addr.toNat = false ∧ s.regAt addr.toNat = none :=
  ⟨locked, .chain, 0x1010F00, by decide +kernel⟩

theorem test_FieldAccessRules_met :
    (∃ a fs f, regFields a = some fs ∧ f ∈ fs ∧ f.acc = .ro) ∧ (∃ a fs f, regFields a = some fs ∧ f ∈ fs ∧ f.acc = .rw) ∧
    (∃ a fs f, regFields a = some fs ∧ f ∈ fs ∧ f.acc = .rwl) ∧ (∃ a fs f, regFields a = some fs ∧ f ∈ fs ∧ f.acc = .w1c) ∧
    (∃ a fs f, regFields a = some fs ∧ f ∈ fs ∧ f.acc = .rc) ∧
    (∃ (s : State) (p : Path) (f : FieldDesc), f.acc = .rwl ∧ s.flag F.SEC_LOCK_LOCK = true ∧ Path.management p = false) := by
  refine ⟨⟨Reg.TRN_NOW, _, ⟨63, 0, .ro, 0⟩, rfl, by decide +kernel, rfl⟩,
    ⟨Reg.FLT_Q_HEADF, _, ⟨16, 0, .rw, 0⟩, rfl, by decide +kernel, rfl⟩,
    ⟨Reg.HBM_CTL, _, ⟨0, 0, .rwl, 0⟩, rfl, by decide +kernel, rfl⟩,
    ⟨pageBase 8 4 + 0x20, _, ⟨0, 0, .w1c, 0⟩, rfl, by decide +kernel, rfl⟩,
    ⟨Reg.PWR_CNT, _, ⟨63, 32, .rc, 0⟩, rfl, by decide +kernel, rfl⟩,
    ⟨having [(F.SEC_LOCK_LOCK, 1)], .bar0 3, ⟨0, 0, .rwl, 0⟩, rfl, by decide +kernel, rfl⟩⟩

theorem test_FaultRecordPlacement_met :
    (∃ s : State, s.fltFull = false ∧ s.flt.park = [] ∧ s.get F.FLT_Q_IDX_TAIL < 2 * s.fltN) ∧
    (∃ (s : State) (r : FaultRec), r.cls = 2 ∧ (s.fltFull = true ∨ s.flt.park ≠ [])) ∧
    (∃ (s : State) (r : FaultRec), r.cls ≠ 2 ∧ s.fltFull = true) :=
  ⟨⟨having [(F.FLT_Q_CFG_EN, 1), (F.FLT_Q_IDX_TAIL, 127), (F.FLT_Q_IDX_HEAD_H, 64), (F.FLT_Q_HEADF_HEAD_F, 64)], by decide +kernel⟩,
   ⟨State.reset, { cls := 2, code := 0x10, block := 6, inst := 1, turn := 3, seq := 4 }, by decide +kernel⟩,
   ⟨State.reset, { cls := 3, code := 1, block := 8, inst := 1, turn := 3, seq := 4 }, by decide +kernel⟩⟩

theorem test_NothingFollowsInACalmDevice_met : ∃ s : State, s.calm ∧ s.flag F.SEC_STAT_CONDITIONS = false :=
  ⟨locked, by decide +kernel⟩

theorem test_RegisterWriteFrames_met : ∃ (s : State) (p : Path) (data : Word), s.steady ∧
    (s.writeOpen p Reg.FLT_Q_IDX data = true ∧ ∃ t, exec (.headHWrite p data) s = .next t) ∧
    (s.writeOpen p Reg.FLT_Q_HEADF data = true ∧ ∃ t, exec (.headFWrite p data) s = .next t) ∧
    (s.writeOpen p Reg.SEC_LOCK data = true ∧ ∃ t, exec (.secLock p data) s = .next t) ∧
    (s.writeOpen p Reg.PWR_THERM data = true ∧ (s.writeOf p Reg.PWR_THERM data).newF F.PWR_THERM_DUTY_ON ≤ s.pwr.classDuty ∧
      ∃ t, exec (.dutyOnWrite p data) s = .next t) ∧
    (s.writeOpen p Reg.MGT_CIM_ACC data = true ∧ ∃ t, exec (.cimAccessWrite p data) s = .next t) ∧
    (s.writeOpen p Reg.MGT_CAGE_ACC data = true ∧ ∃ t, exec (.cageAccess p data 7) s = .next t) :=
  ⟨locked, .chain, 1, by decide +kernel, ⟨by decide +kernel, nextIs (by decide +kernel)⟩, ⟨by decide +kernel, nextIs (by decide +kernel)⟩,
    ⟨by decide +kernel, nextIs (by decide +kernel)⟩, ⟨by decide +kernel, by decide +kernel, nextIs (by decide +kernel)⟩, ⟨by decide +kernel, nextIs (by decide +kernel)⟩,
    ⟨by decide +kernel, nextIs (by decide +kernel)⟩⟩

theorem test_EventFrames_met : ∃ s t : State, s.steady ∧ exec .arrayRampEnd s = .next t := ⟨State.reset, _, by decide +kernel, rfl⟩

theorem test_TelemetryFrame_met : ∃ (s t : State) (addr : BitVec 32) (count : Fin 7) (off log2 : Nat), s.steady ∧
    s.ilx.ring = some (off, log2) ∧ s.hbm.xtsBad = [] ∧ (off + 64 * (s.ilx.written % 2 ^ log2)) % 32 = 0 ∧
    exec (.telemetrySample addr count) s = .next t :=
  ⟨{ State.reset with ilx := { ring := some (0x8000, 6) } }, _, 0, 3, 0x8000, 6, by decide +kernel, rfl, rfl, by decide +kernel, rfl⟩

/-! ### Examples of the spec -/

/-- Example 13-1: the check bytes of a granule whose byte 31 is 1, and those of its poisoned form. -/
theorem test_hatch_check_bytes : hatchCheck (List.replicate 31 0 ++ [1]) = [0x0F, 0x36, 0x78, 0x40] ∧
    (hatchCheck (List.replicate 31 0 ++ [1])).zipWith (· ^^^ ·) poisonMask = [0xAA, 0xF5, 0x44, 0x1A] := by decide +kernel

/-- Example 7-1: FP32 to E4M3. -/
theorem test_convert_e4m3 :
    [(300, .rne, true), (300, .rne, false), (460, .rne, true), (500, .rne, true), (500, .rne, false), (-500, .rne, true),
     (-500, .rne, false), (500, .rtz, true), (500, .rtz, false)].map
      (fun (e : Int × Mode × Bool) => FloatKind.e4m3.ofNum { mode := e.2.1, sat := e.2.2, sr := 0 } (Num.ofInt e.1)) =
      [0x79, 0x79, 0x7E, 0x7E, 0x7F, 0xFE, 0x7F, 0x7E, 0x7F] := by decide +kernel

/-- Example 7-2: the scale and the element codes of an MXFP4 block (x_2 and x_3 as FP32 gives them to 24 bits). -/
theorem test_mx_block :
    mxBlock .e2m1 (fun _ => { mode := .rne, sat := true, sr := 0 })
      [.fin false 11 (-1), .fin false 5 (-1), .fin true 10066330 (-25), .fin false 13421773 (-26), .fin false 5 (-2)] =
      (127, [0b0111, 0b0100, 0b1001, 0b0000, 0b0010]) := by decide +kernel

/-- Example 7-3: three FP32 values summed in two orders, and exactly. -/
theorem test_sums :
    let a := Num.ofInt 16777216
    let b := Num.ofInt 1
    let c := Num.ofInt (-16777216)
    let r : Rnd := { mode := .rne, sat := false, sr := 0 }
    let f := FloatKind.fp32
    f.ofNum r (f.add r (f.add r a b) c) = 0 ∧ f.ofNum r (f.add r (f.add r c b) a) = 0x3F800000 ∧
      (xaSum [a, b, c]).bits xa640Bits / 2 ^ 298 = 1 := by decide +kernel

/-- Example 21-1: the address of VPT_STAT of port 44. -/
theorem test_vpt_stat_address : Reg.VPT_STAT 44 = 0x1021408 ∧ pageOf (Reg.VPT_STAT 44) = some (2, 1, 0x408) := by decide +kernel

/-- R14: the queues of attach port A05. -/
theorem test_queue_owner : State.reset.owner 80 = some 5 ∧ State.reset.owner 50 = some 3 := by decide +kernel

/-- R30: a turn boundary increments the turn counter. -/
theorem test_turn_boundary : (nextOf (exec .turnBoundary { State.reset with turn := 7, counting := true })).turn = 8 := by
  decide +kernel

/-- R357: SEC_LOCK.LOCK is set by a 1 and not cleared by a 0. -/
theorem test_lock : (nextOf (exec (.secLock .chain 1) locked)).flag F.SEC_LOCK_LOCK = true ∧
    (nextOf (exec (.secLock .chain 0) (lockedWith [(F.SEC_LOCK_LOCK, 1)]))).flag F.SEC_LOCK_LOCK = true := by decide +kernel

/-- R357, R473: once locked, a RWL field is closed to BAR0. -/
theorem test_locked_field :
    (State.writeOpen { having [(F.SEC_LOCK_LOCK, 1), (F.ATT_LINK_UP 2, 1), (F.ATT_CTL_EN 2, 1), (F.MGT_STAT_BOOT, 1)] with
      up := { pllLocked := true, attachOpen := true } } (.bar0 2) Reg.HBM_CTL (State.reset.reg Reg.HBM_CTL ^^^ 1)) = false := by
  decide +kernel

/-- R453: at 110 degrees the device trips, and nothing is clocked. -/
theorem test_thermtrip : (nextOf (exec (.thermtrip 110) State.reset)).stopped = true ∧
    (nextOf (exec (.thermtrip 109) State.reset)).stopped = false := by decide +kernel

/-- R461: reserved space reads zero. -/
theorem test_no_register : State.reset.regRead 0x1010F00 = 0 ∧ State.reset.regAt 0x1010F00 = none := by decide +kernel

/-- R61: consecutive 2 KiB blocks lie on consecutive stacks, and block 24 returns to the first. -/
theorem test_interleave : hbmStack 2047 = 0 ∧ hbmStack 2048 = 1 ∧ hbmStack 49151 = 23 ∧ hbmStack 49152 = 0 ∧
    hbmSaddr 49152 = 2048 := by decide +kernel

/-- Table 18-3: a record is 64 bytes, with class, PHASE and DEST, and code first. -/
theorem test_record : let b := FaultRec.bytes { cls := 3, code := 1, block := 8, inst := 2, turn := 5, seq := 9 } 1
    b.length = 64 ∧ b.take 4 = [3, 7, 1, 0] := by decide +kernel

/-- Table 17-7: a droop stretch leaves the record replay-equal, with a larger ACTIVE; another DIGEST does not. -/
theorem test_replay_equal :
    let r := fun (flags active digest : Nat) => toBytesLE 1 1 ++ toBytesLE 1 flags ++ toBytesLE 4 0 ++ toBytesLE 2 7 ++
      toBytesLE 12 0 ++ toBytesLE 4 active ++ toBytesLE 8 digest
    plateReplayEqual true (r 1 900 5) (r 3 1156 5) none none = true ∧
    plateReplayEqual true (r 1 900 5) (r 1 901 5) none none = false ∧
    plateReplayEqual true (r 1 900 5) (r 1 900 6) none none = false := by decide +kernel

/-- R431: a chain frame begins with K28.0 and its last symbol before the idle set is K29.7. -/
theorem test_chain_groups : ((chainGroups [1]).head? = some (encodeSymbol false 0x11C)) ∧ (chainGroups [1]).length = 7 := by
  decide +kernel

/-- R414: a fence of this turn does not bind in it, and binds from the next. -/
theorem test_fence_next_turn :
    let s := State.noteFence { having [(⟨Reg.FLT_FENCE 0, 63, 0⟩, 32)] with clk := 9 } true 5
    s.isFenced 5 = false ∧ State.isFenced { s with clk := 10 } 5 = true := by decide +kernel

/-- R448: two stretched turns do the work of one in the switch core. -/
theorem test_stretch :
    let s : State := { having [(F.PWR_STAT_STRETCH, 1)] with clk := 4, sw := { queued := [{ frame := { opcode := 1 }, egress := 3, due := 9 }] } }
    (s.stretchTick.sw.queued.map (·.due)) = [9] ∧ (s.stretchTick.stretchTick.sw.queued.map (·.due)) = [10] := by decide +kernel

/-- R424: the flash pins are released while RESET_N is low. -/
theorem test_flash_pins : (nextOf (exec .resetNAssert State.reset)).flashReleased = true ∧ State.reset.flashReleased = false := by
  decide +kernel

/-! ### WellFormed: each check refuses an ill-formed command -/

/-- A codeword with too few granules. -/
def shortCodeword : LinkCodeword :=
  { type := 0, lseq := 0, request := 0, ackSeq := 0, nak := false, credit := List.replicate 8 0, hdrMap := 0, idleMap := 0,
    granules := [] }

theorem test_ill_formed :
    ([.turnMarkReceive 0 [] 0, .echoReqReceive 0 [] 0, .echoRspReceive 0 [] 0, .hbReceive 0 [],
     .requestIssue 0 { opcode := 1, addr := 0, bytes := 0, data := [], xfmt := 0 },
     .requestIssue 0 { opcode := 2, addr := 0, bytes := 8, data := [1], xfmt := 0 },
     .lineQueueService 16 hbmLines, .hbmReadComplete hbmLines ⟨[], []⟩, .hbmReadComplete 0 ⟨[(4, [])], []⟩, .hbmReadComplete 0 ⟨[(0, [(36, 1)])], []⟩,
     .hbmReadComplete 0 ⟨[], [4 * hbmLines]⟩,
     .lineUnpin hbmLines, .pinnedWriteBack hbmLines, .frameReceive 0 [(17, [])], .trainDone 0 0 0 [],
     .laneOrderDone 0 [0, 0, 0, 0, 0], .creditInitReceive 0 [] false, .creditInitReceive 0 (List.replicate 8 65536) false,
     .codewordReceive 0 (.codeword shortCodeword true) [], .codewordReceive 0 .uncorrectable [0, 0, 0, 0, 0],
     .scrubSlot 0 [(2 ^ 31, [])], .bar2Read 0 0 0 0, .bar2Read 0 0 0 4097, .bar2Write 0 0 [] false,
     .fabricWindowAccess 0 0 (.load 0), .fabricWindowAccess 0 0 (.store []), .fabricWindowAccess 0 0 (.vectorLoad 0 8), .fabricWindowAccess 0 0 (.vectorLoad 1 0),
     .fabricWindowAccess 0 0 (.lr 3), .fabricWindowAccess 0 0 (.sc [1]), .fabricWindowAccess 0 0 (.vectorStore 0 [1]),
     .fabricWindowAccess 0 0 (.vectorStore 1 []), .fabricWindowAccess 0 0 (.elementLoad 0 []),
     .fabricWindowAccess 0 0 (.elementStore [(0, [])]), .alignmentAttempt []] : List Instr).all (fun c => !c.wf) = true := by decide +kernel

theorem test_ill_formed_late :
    (Instr.oobWrite [] true).wf = false ∧ (Instr.oobRead [] true).wf = false ∧ (Instr.moduleInsert 0 [] []).wf = false ∧
    (Instr.pmbusPoll []).wf = false ∧ (Instr.pmbAlert []).wf = false ∧ (Instr.thermalSample [] []).wf = false := by decide +kernel

end Sys2Proof.Tests
end

/-! ### How a command runs -/

namespace Sys2Proof.Machine

/-- The pin RESET_N is the only way into a stopped device (R424, R425): every other command is an effect that the device runs
while it is clocked. The effect is the same function whatever the state. -/
theorem exec_eq_runCmd {c : Instr} (ha : c ≠ .resetNAssert) (hr : ∀ n, c ≠ .resetNRelease n) :
    ∃ f : State → State, ∀ s, exec c s = runCmd s f := by
  cases c with
  | resetNAssert => exact absurd rfl ha
  | resetNRelease n => exact absurd rfl (hr n)
  | _ => exact ⟨_, fun _ => rfl⟩

theorem exec_resetNAssert (s : State) : exec .resetNAssert s = runPin s State.doResetNAssert := rfl

theorem exec_resetNRelease (n : Nat) (s : State) :
    exec (.resetNRelease n) s = runPin s (fun s => s.doResetNRelease n) := rfl

/-- The two ways a command runs, on a clocked device or on the RESET_N pin, are all there are. -/
theorem exec_eq_runCmd_or_runPin (c : Instr) :
    ∃ f : State → State, (∀ s, exec c s = runCmd s f) ∨ (∀ s, exec c s = runPin s f) := by
  by_cases ha : c = .resetNAssert
  · subst ha
    exact ⟨_, .inr exec_resetNAssert⟩
  by_cases hr : ∃ n, c = .resetNRelease n
  · obtain ⟨n, rfl⟩ := hr
    exact ⟨_, .inr (exec_resetNRelease n)⟩
  · obtain ⟨f, hf⟩ := exec_eq_runCmd ha (not_exists.mp hr)
    exact ⟨f, .inl hf⟩

/-- Settles O6: each command is an effect on a clocked device or on the RESET_N pin, and neither way of running has an outcome
other than a next state. -/
theorem everyCommandCompletes : Obligations.EveryCommandCompletes := by
  intro c s
  obtain ⟨f, hf | hf⟩ := exec_eq_runCmd_or_runPin c
  · exact ⟨s.runOn f, hf s⟩
  · exact ⟨(f s.fresh).seal, hf s⟩

end Sys2Proof.Machine

/-! ### The queues of each end-point at reset (R14) -/

namespace Sys2Proof.Machine

/-- The end-point that Table 1-3 gives queue `q` at reset. -/
def tableOwner (q : Nat) : Nat :=
  if q < 256 then q / 16 else if q < 384 then 17 else if q < 480 then 18 else 19

theorem tableOwner_lt {q : Nat} (hq : q < 512) : tableOwner q < 21 := by
  unfold tableOwner
  repeat' split
  all_goals omega

/-- Table 1-3 by end-point. -/
theorem eq_tableOwner_iff {n q : Nat} (hq : q < 512) :
    n = tableOwner q ↔ (n ≤ 15 ∧ 16 * n ≤ q ∧ q < 16 * n + 16) ∨ (n = 17 ∧ 256 ≤ q ∧ q < 384) ∨
      (n = 18 ∧ 384 ≤ q ∧ q < 480) ∨ (n = 19 ∧ 480 ≤ q) := by
  unfold tableOwner
  repeat' split
  all_goals omega

theorem bitAt_eq_testBit (v i : Nat) : bitAt v i = v.testBit i := by
  rw [Nat.testBit_eq_decide_div_mod_eq]
  rfl

/-- A run of `w` ones from bit `lo` up. -/
theorem bitAt_run (w lo i : Nat) : bitAt ((2 ^ w - 1) * 2 ^ lo) i = decide (lo ≤ i ∧ i < lo + w) := by
  rw [bitAt_eq_testBit, Nat.testBit_mul_two_pow, Nat.testBit_two_pow_sub_one, ← Bool.decide_and, decide_eq_decide]
  omega

/-- REP_QOWN of end-point `n` is register 0x110 of its REP page, which lies where R13 says. -/
theorem pageOf_REP_QOWN {n k : Nat} (hn : n < 21) (hk : k < 8) :
    pageOf (Reg.REP_QOWN n k) = some (6, n, 0x110 + 8 * k) := by
  by_cases h : n < 16
  · have hb : (pageBlock 6 n).isSome = true := by simp [pageBlock, show n ≤ 20 by omega]
    exact pageOf_of_eq (pg := 0x60 + n) (by unfold Reg.REP_QOWN; omega) (by omega) (by omega) (by omega) (by decide)
      (by decide) (by decide) hb
  · obtain ⟨m, rfl⟩ : ∃ m, n = 16 + m := ⟨n - 16, by omega⟩
    exact pageOf_of_rep (by unfold Reg.REP_QOWN; omega) (by omega) (by omega)

theorem regReset_REP_QOWN {n k : Nat} (hn : n < 21) (hk : k < 8) :
    regReset (Reg.REP_QOWN n k) = BitVec.ofNat 64 (qownReset n k) := by
  have hs : specialReset 6 n (0x110 + 8 * k) = some (qownReset n k) := by
    unfold specialReset
    have h0 : 0x110 + 8 * k ≠ 0x000 := by omega
    have h8 : 0x110 + 8 * k ≠ 0x008 := by omega
    have hr : 0x110 + 8 * k < 0x150 ∧ (0x110 + 8 * k) % 8 = 0 := by omega
    simp [h8, hr]
  simp only [regReset, pageOf_REP_QOWN hn hk, hs]

theorem qownReset_lt (n k : Nat) : qownReset n k < 2 ^ 64 := by
  have hm : 2 ^ (16 * (n % 4)) ≤ 2 ^ 48 := Nat.pow_le_pow_right (by decide) (by omega)
  unfold qownReset
  repeat' split
  all_goals omega

@[simp] theorem bitAt_zero (i : Nat) : bitAt 0 i = false := by simp [bitAt]

theorem bitAt_qownReset_of_att {n q : Nat} (hn : n ≤ 15) :
    bitAt (qownReset n (q / 64)) (q % 64) = decide (16 * n ≤ q ∧ q < 16 * n + 16) := by
  rw [qownReset, if_pos hn]
  split
  · rw [show 0xFFFF = 2 ^ 16 - 1 from rfl, bitAt_run, decide_eq_decide]
    omega
  · rw [bitAt_zero, eq_comm, decide_eq_false_iff_not]
    omega

theorem bitAt_qownReset_plate (q : Nat) :
    bitAt (qownReset 17 (q / 64)) (q % 64) = decide (256 ≤ q ∧ q < 384) := by
  simp only [qownReset, Nat.reduceLeDiff, if_false, if_true]
  split
  · rw [show 0xFFFFFFFFFFFFFFFF = (2 ^ 64 - 1) * 2 ^ 0 from rfl, bitAt_run, decide_eq_decide]
    omega
  · rw [bitAt_zero, eq_comm, decide_eq_false_iff_not]
    omega

theorem bitAt_qownReset_collective (q : Nat) :
    bitAt (qownReset 18 (q / 64)) (q % 64) = decide (384 ≤ q ∧ q < 480) := by
  simp only [qownReset, Nat.reduceLeDiff, Nat.reduceEqDiff, if_false, if_true]
  split
  · rw [show 0xFFFFFFFFFFFFFFFF = (2 ^ 64 - 1) * 2 ^ 0 from rfl, bitAt_run, decide_eq_decide]
    omega
  · split
    · rw [show 0xFFFFFFFF = (2 ^ 32 - 1) * 2 ^ 0 from rfl, bitAt_run, decide_eq_decide]
      omega
    · rw [bitAt_zero, eq_comm, decide_eq_false_iff_not]
      omega

theorem bitAt_qownReset_message (q : Nat) :
    bitAt (qownReset 19 (q / 64)) (q % 64) = decide (480 ≤ q ∧ q < 512) := by
  simp only [qownReset, Nat.reduceLeDiff, Nat.reduceEqDiff, if_false, if_true]
  split
  · rw [show 0xFFFFFFFF00000000 = (2 ^ 32 - 1) * 2 ^ 32 from rfl, bitAt_run, decide_eq_decide]
    omega
  · rw [bitAt_zero, eq_comm, decide_eq_false_iff_not]
    omega

/-- The memory and the Ilnyx end-points own no queue at reset. -/
theorem qownReset_of_none {n : Nat} (h : 15 < n) (h17 : n ≠ 17) (h18 : n ≠ 18) (h19 : n ≠ 19) (k : Nat) :
    qownReset n k = 0 := by
  simp [qownReset, h17, h18, h19, Nat.not_le.mpr h]

/-- The reset words of REP_QOWN give each queue to the end-point of Table 1-3, and to no other. -/
theorem bitAt_qownReset (n : Nat) {q : Nat} (hq : q < 512) :
    bitAt (qownReset n (q / 64)) (q % 64) = decide (n = tableOwner q) := by
  by_cases hn : n ≤ 15
  · rw [bitAt_qownReset_of_att hn, decide_eq_decide, eq_tableOwner_iff hq]
    omega
  by_cases h17 : n = 17
  · rw [h17, bitAt_qownReset_plate, decide_eq_decide, eq_tableOwner_iff hq]
    omega
  by_cases h18 : n = 18
  · rw [h18, bitAt_qownReset_collective, decide_eq_decide, eq_tableOwner_iff hq]
    omega
  by_cases h19 : n = 19
  · rw [h19, bitAt_qownReset_message, decide_eq_decide, eq_tableOwner_iff hq]
    omega
  · rw [qownReset_of_none (Nat.not_le.mp hn) h17 h18 h19, bitAt_zero, eq_comm, decide_eq_false_iff_not,
      eq_tableOwner_iff hq]
    omega

theorem State.reset_owner {q : Nat} (hq : q < 512) : State.reset.owner q = some (tableOwner q) := by
  have hbit {n : Nat} (hn : n < 21) :
      (decide (q < 512) && bitAt (State.reset.reg (Reg.REP_QOWN n (q / 64))).toNat (q % 64)) = decide (n = tableOwner q) := by
    have hreg : State.reset.reg (Reg.REP_QOWN n (q / 64)) = BitVec.ofNat 64 (qownReset n (q / 64)) :=
      regReset_REP_QOWN hn (by omega)
    rw [hreg, BitVec.toNat_ofNat, Nat.mod_eq_of_lt (qownReset_lt _ _), bitAt_qownReset n hq, decide_eq_true hq,
      Bool.true_and]
  have ho := tableOwner_lt hq
  refine List.find?_range_eq_some.mpr ⟨by simp [hbit ho], List.mem_range.mpr ho, fun j hj => ?_⟩
  simp [hbit (Nat.lt_trans hj ho), Nat.ne_of_lt hj]

/-- Settles O2: nothing is listed after reset, so that every register reads its reset value; the status fields are bits of such
values, and the owner of a queue is the one end-point whose REP_QOWN holds the queue's bit. -/
theorem resetState : Obligations.ResetState := by
  refine ⟨rfl, rfl, rfl, rfl, rfl, rfl, rfl, fun _ => rfl, by decide +kernel, by decide +kernel,
    by decide +kernel, by decide +kernel, by decide +kernel, by decide +kernel, by decide +kernel, ?_, ?_, ?_, ?_⟩
  · intro q hq
    rw [State.reset_owner (by omega), tableOwner, if_pos hq]
  · intro q h1 h2
    rw [State.reset_owner (by omega), tableOwner, if_neg (by omega), if_pos h2]
  · intro q h1 h2
    rw [State.reset_owner (by omega), tableOwner, if_neg (by omega), if_neg (by omega), if_pos h2]
  · intro q h1 h2
    rw [State.reset_owner (by omega), tableOwner, if_neg (by omega), if_neg (by omega), if_neg (by omega)]

end Sys2Proof.Machine

/-! ### Sparse data written twice -/

namespace Sys2Proof.Machine

section
variable {α : Type}

theorem Sparse.erase_erase (m : List (Nat × α)) (k : Nat) : Sparse.erase (Sparse.erase m k) k = Sparse.erase m k := by
  induction m with
  | nil => rfl
  | cons e m ih =>
    by_cases hk : k = e.1
    · rw [Sparse.erase, if_pos hk, ih]
    · simp [Sparse.erase, hk, ih]

theorem Sparse.erase_insert (m : List (Nat × α)) (k : Nat) (v : α) :
    Sparse.erase (Sparse.insert m k v) k = Sparse.erase m k := by
  induction m with
  | nil => simp [Sparse.insert, Sparse.erase]
  | cons e m ih =>
    by_cases hk : k < e.1
    · simp [Sparse.insert, Sparse.erase, hk]
    · simp [Sparse.insert, Sparse.erase, hk, ih]

/-- Of two writes to one key the second stands. -/
theorem Sparse.set_set [DecidableEq α] (d : Nat → α) (m : List (Nat × α)) (k : Nat) (v w : α) :
    Sparse.set d (Sparse.set d m k v) k w = Sparse.set d m k w := by
  have he : Sparse.erase (Sparse.set d m k v) k = Sparse.erase m k := by
    unfold Sparse.set
    split
    · exact Sparse.erase_erase m k
    · rw [Sparse.erase_insert, Sparse.erase_erase]
  rw [Sparse.set, he, Sparse.set]

end

end Sys2Proof.Machine

/-! ### What the state of a lane and of the pip trees leaves alone -/

namespace Sys2Proof.Machine

@[simp] theorem State.setLane_setLane (s : State) (n : Nat) (l k : PipLane) : (s.setLane n l).setLane n k = s.setLane n k := by
  simp [State.setLane, Sparse.set_set]

@[simp] theorem State.setLane_get (s : State) (n : Nat) (l : PipLane) (f : RField) : (s.setLane n l).get f = s.get f := rfl

@[simp] theorem State.setLane_flag (s : State) (n : Nat) (l : PipLane) (f : RField) : (s.setLane n l).flag f = s.flag f := rfl

@[simp] theorem State.setLane_domain (s : State) (n : Nat) (l : PipLane) : (s.setLane n l).domain = s.domain := rfl

@[simp] theorem State.setLane_upLane (s : State) (n : Nat) (l : PipLane) : (s.setLane n l).upLane = s.upLane := rfl

@[simp] theorem State.setLane_isUpstream (s : State) (n : Nat) (l : PipLane) (k : Nat) :
    (s.setLane n l).isUpstream k = s.isUpstream k := rfl

/-- What no lane holds of the pip trees: the counter's load, the resigns remembered, the commits decided. -/
@[simp] theorem State.setLane_pip_loaded (s : State) (n : Nat) (l : PipLane) : (s.setLane n l).pip.loaded = s.pip.loaded := rfl

@[simp] theorem State.setLane_pip_decided (s : State) (n : Nat) (l : PipLane) :
    (s.setLane n l).pip.decided = s.pip.decided := rfl

@[simp] theorem State.setLane_resignSeen (s : State) (n : Nat) (l : PipLane) (slice tag : Nat) :
    (s.setLane n l).resignSeen slice tag = s.resignSeen slice tag := rfl

@[simp] theorem State.putFlag_lane (s : State) (f : RField) (b : Bool) (n : Nat) : (s.putFlag f b).lane n = s.lane n := rfl

/-- The device's own number and the present members are registers. -/
theorem State.setPip_member (s : State) (x : PipState) : ({ s with pip := x } : State).member = s.member := rfl

theorem State.setPip_present (s : State) (x : PipState) : ({ s with pip := x } : State).present = s.present := rfl

/-! ### Lanes in a loop (PIP_CTL.LOOP) -/

/-- PIP_CTL.LOOP closes one loop at a time. -/
theorem State.nearLoop_of_farLoop {s : State} {n : Nat} (h : s.farLoop n = true) : s.nearLoop n = false := by
  have hl : s.get (F.PIP_CTL_LOOP n) = 2 := by simpa [State.farLoop] using h
  simp [State.nearLoop, hl]

/-- Only a lane in the far-end loop sends back what it receives. -/
theorem State.pipRepeat_of_not_farLoop {s : State} {n : Nat} (h : s.farLoop n = false) (e : Emission) :
    s.pipRepeat n e = s := by
  simp [State.pipRepeat, h]

theorem State.fromPins_of_nearLoop {s : State} {n : Nat} (h : s.nearLoop n = true) (e : Emission) (f : State → State) :
    s.fromPins n e f = s := by
  simp [State.fromPins, h]

theorem State.fromPins_of_farLoop {s : State} {n : Nat} (h : s.farLoop n = true) (e : Emission) (f : State → State) :
    s.fromPins n e f = f (s.pipRepeat n e) := by
  simp [State.fromPins, State.nearLoop_of_farLoop h]

theorem State.fromPins_of_no_loop {s : State} {n : Nat} (hf : s.farLoop n = false) (hn : s.nearLoop n = false)
    (e : Emission) (f : State → State) : s.fromPins n e f = f s := by
  simp [State.fromPins, hn, State.pipRepeat_of_not_farLoop hf]

end Sys2Proof.Machine

/-! ### Turn counter and time keeping (R30, R33, R35, R36, R37, R39) -/

namespace Sys2Proof.Machine

section
variable {s e : State} {lane : Fin 16} {bytes d : List Byte} {frac : Fin 1024}

/-- The boundary of a turn that counts and loads nothing. -/
theorem State.doTurnBoundary_of_counting (he : s.turnEvents = e) (hc : e.counting = true) (hl : e.pip.load = none) :
    s.doTurnBoundary = (let t := e.pipTick
      ({ t with
        clk := t.clk + 1
        turn := e.turn + 1
        counting := t.counting || t.pip.load.isSome
        pip := { t.pip with load := none } } : State).nbrTurn.powerTick.countTurnPages.countHeldTurns.pipLoops) := by
  subst he
  simp [State.doTurnBoundary, hc, hl]

/-- The boundary at which a first turn mark's value is loaded (R36). -/
theorem State.doTurnBoundary_of_load {v : Word} (he : s.turnEvents = e) (hl : e.pip.load = some v) :
    s.doTurnBoundary = (let t := e.pipTick
      ({ t with
        clk := t.clk + 1
        turn := v
        counting := t.counting || t.pip.load.isSome
        pip := { t.pip with load := none } } : State).nbrTurn.powerTick.countTurnPages.countHeldTurns.pipLoops) := by
  subst he
  simp [State.doTurnBoundary, hl]

/-- An aligned device sends turn marks at a multiple of 1,000 (R33). -/
theorem State.doTurnMarkSend_of_aligned (ha : s.flag F.TRN_STAT_ALIGNED = true) (hn : s.now % 1000 = 0) :
    s.doTurnMarkSend = s.downLanes.foldl (fun t n =>
      t.pipEmit n (.turnMark n (withCrc (toBytesLE 8 t.now ++ toBytesLE 1 (t.get F.TRN_STAT_HOPS))))) s := by
  simp [State.doTurnMarkSend, State.marksTime, ha, hn]

theorem State.isUpstream_of_priUp {n : Nat} (h : s.priUp = some n) : s.isUpstream n = true := by simp [State.isUpstream, h]

/-- The first good mark after frequency lock and 16 echo exchanges is what the counter is loaded with (R36). -/
theorem State.takeMark_of_first (hu : s.laneIsUp lane = true) (hd : checkCrc 9 bytes = some d) (hf : s.follower = true)
    (hp : s.priUp = some lane.val) (hup : s.upLane = some lane.val) (hs : s.flag F.TRN_STAT_SYNC_LOST = false)
    (hl : s.pip.loaded = false) (hk : s.flag F.TRN_STAT_LOCKED = true) (he : 16 ≤ (s.lane lane).echos) :
    s.takeMark lane bytes frac =
      (let m := s.setLane lane { s.lane lane with lastMark := s.clk }
        let t := m.put F.TRN_STAT_HOPS (bytesAt d 8 1 + 1)
        ({ t with pip := { t.pip with
          loaded := true
          load := some (BitVec.ofNat 64 (bytesAt d 0 8 + s.get F.TRN_DELAY_DELAY / 1024))
          alignAt := some (s.clk + 1) } } : State)) := by
  simp [State.takeMark, hd, hu, State.isUpstream_of_priUp hp, hf, hl, hup, hs, hk, he]

/-- The lanes that echo requests leave on, where only a primary upstream lane is named. -/
theorem State.upstream_lanes_of_primary {n : Nat} (hp : s.priUp = some n) (ha : s.altUp = none) (hu : s.laneIsUp n = true) :
    lanes16.filter (fun k => s.isUpstream k && s.laneIsUp k) = [n] := by
  have hn : n < 16 := by
    unfold State.priUp at hp
    split at hp
    · simp only [Option.some.injEq] at hp
      omega
    · cases hp
  have hk (k : Nat) : (s.isUpstream k && s.laneIsUp k) = (k == n) := by
    by_cases h : k = n
    · simp [h, State.isUpstream_of_priUp hp, hu]
    · rw [State.isUpstream, hp, ha, beq_eq_false_iff_ne.mpr h]
      simp [Ne.symm h]
  simp only [hk, lanes16]
  rw [List.filter_beq, List.count_range, if_pos hn]
  rfl

/-- A follower sends its echo requests at 500 past a multiple of 1,000 (R35). -/
theorem State.doEchoReqSend_of_primary {n : Nat} (hf : s.follower = true) (hc : s.counting = true) (hn : s.now % 1000 = 500)
    (hp : s.priUp = some n) (ha : s.altUp = none) (hu : s.laneIsUp n = true) :
    s.doEchoReqSend = (({ s with pip := { s.pip with eseq := (s.pip.eseq + 1) % 256 } } : State).setLane n
      { s.lane n with echo := some (s.pip.eseq, s.clk * 1024) }).pipEmit n (.echoReq n (withCrc (toBytesLE 1 s.pip.eseq))) := by
  simp only [State.doEchoReqSend, hf, hc, hn, State.upstream_lanes_of_primary hp ha hu, if_true, BEq.rfl, Bool.and_self,
    List.foldl_cons, List.foldl_nil]
  rfl

/-- An up lane answers an echo request with its hold time (R35). -/
theorem State.takeEchoReq_of_up {hold : BitVec 32} (hu : s.laneIsUp lane = true) (hd : checkCrc 1 bytes = some d) :
    s.takeEchoReq lane bytes hold = s.pipEmit lane (.echoRsp lane (withCrc (d ++ toBytesLE 4 hold.toNat))) := by
  simp [State.takeEchoReq, hd, hu]

/-- The response to the echo request that is out, on the upstream lane in use, gives TRN_DELAY (R35). -/
theorem State.takeEchoRsp_of_upLane {q t1 : Nat} (hu : s.laneIsUp lane = true) (hd : checkCrc 5 bytes = some d)
    (ho : (s.lane lane).echo = some (q, t1)) (he : q = bytesAt d 0 1) (hup : s.upLane = some lane.val) :
    s.takeEchoRsp lane bytes frac =
      (let ds := ((s.clk * 1024 + frac.val - t1 - bytesAt d 1 4) / 2 :: (s.lane lane).delays).take 16
       (s.setLane lane { s.lane lane with
          echo := none
          delays := ds
          echos := if s.flag F.TRN_STAT_LOCKED then (s.lane lane).echos + 1 else (s.lane lane).echos }).put
         F.TRN_DELAY_DELAY (meanOf ds)) := by
  simp [State.takeEchoRsp, hd, hu, ho, he, hup]

/-- A follower locks to its upstream lane, once (R36). -/
theorem State.doFrequencyLock_of_follower {n : Nat} (hup : s.upLane = some n) (hf : s.follower = true)
    (hu : s.laneIsUp n = true) (hk : s.flag F.TRN_STAT_LOCKED = false) :
    s.doFrequencyLock = (s.putFlag F.TRN_STAT_LOCKED true).setLane n { s.lane n with echos := 0 } := by
  simp [State.doFrequencyLock, hup, hf, hu, hk]

/-- A follower not aligned 1,000,000 turns after lane-up loses synchronisation (R36). -/
theorem State.doAlignTimeout_of_late {n : Nat} (hup : s.upLane = some n) (hf : s.follower = true) (hu : s.laneIsUp n = true)
    (ha : s.flag F.TRN_STAT_ALIGNED = false) (hs : s.flag F.TRN_STAT_SYNC_LOST = false)
    (ht : (s.lane n).upAt + 1000000 ≤ s.clk) : s.doAlignTimeout = s.syncLost 1 := by
  simp [State.doAlignTimeout, hup, hf, hu, ha, hs, ht]

/-- A follower whose primary lane is down takes the alternate lane, with the delay measured on it (R39). -/
theorem State.doUpstreamSwitch_of_primary_down {p a : Nat} (hp : s.priUp = some p) (ha : s.altUp = some a)
    (hf : s.follower = true) (hs : s.flag F.TRN_STAT_ALT_IN_USE = false) (hua : s.laneIsUp a = true)
    (hup : s.laneIsUp p = false) (hd : (s.lane a).delays ≠ []) :
    s.doUpstreamSwitch = ((s.putFlag F.TRN_STAT_ALT_IN_USE true).put F.TRN_DELAY_DELAY
      (meanOf (s.lane a).delays)).upstreamChanged := by
  simp [State.doUpstreamSwitch, hp, ha, hf, hs, hua, hup, hd]

end

/-- Settles O20: each command's effect where its trigger is met, by the lemma about that effect; what arrives at the pins of a
lane in no loop goes to its receiver alone. -/
theorem turnTimeCommandsComplete : Obligations.TurnTimeCommandsComplete := by
  refine ⟨?_, ?_, ?_, ?_, ?_, ?_, ?_, ?_, ?_, ?_⟩
  · intro s e hs he hc hl
    exact runCmd_of_eq hs (State.doTurnBoundary_of_counting he hc hl)
  · intro s e v hs he hl
    exact runCmd_of_eq hs (State.doTurnBoundary_of_load he hl)
  · intro s hs ha hn
    exact runCmd_of_eq hs (State.doTurnMarkSend_of_aligned (s := s.fresh) ha hn)
  · intro s lane bytes d frac hs hu hd hf hp hup hsl hl hk he hfl hnl
    exact runCmd_of_eq hs ((State.fromPins_of_no_loop (s := s.fresh) hfl hnl _ _).trans
      (State.takeMark_of_first (s := s.fresh) hu hd hf hp hup hsl hl hk he))
  · intro s n hs hf hc hn hp ha hu
    exact runCmd_of_eq hs (State.doEchoReqSend_of_primary (s := s.fresh) hf hc hn hp ha hu)
  · intro s lane bytes d hold hs hu hd hfl hnl
    exact runCmd_of_eq hs ((State.fromPins_of_no_loop (s := s.fresh) hfl hnl _ _).trans
      (State.takeEchoReq_of_up (s := s.fresh) hu hd))
  · intro s lane bytes d frac e t1 hs hu hd ho he hup hfl hnl
    exact runCmd_of_eq hs ((State.fromPins_of_no_loop (s := s.fresh) hfl hnl _ _).trans
      (State.takeEchoRsp_of_upLane (s := s.fresh) hu hd ho he hup))
  · intro s n hs hup hf hu hk
    exact runCmd_of_eq hs (State.doFrequencyLock_of_follower (s := s.fresh) hup hf hu hk)
  · intro s n hs hup hf hu ha hsl ht
    exact runCmd_of_eq hs (State.doAlignTimeout_of_late (s := s.fresh) hup hf hu ha hsl ht)
  · intro s p a hs hp ha hf hsl hua hup hd
    exact runCmd_of_eq hs (State.doUpstreamSwitch_of_primary_down (s := s.fresh) hp ha hf hsl hua hup hd)

end Sys2Proof.Machine

/-! ### Pip lanes: alignment, frames and link retry (R43, R46) -/

namespace Sys2Proof.Machine

section
variable {s : State} {lane : Fin 16} {seq : Byte}

/-! #### Accepted frames -/

/-- An accepted frame is taken by the command of its type. -/
theorem State.takePip_of_rx {n t : Nat} {f : PipFrame} {rest : List PipFrame} (hr : (s.lane n).rx = f :: rest)
    (ht : f.type = t) : s.takePip n t = some (f, s.setLane n { s.lane n with rx := rest }) := by
  simp [State.takePip, hr, ht]

/-- What a frame that parses is: long enough, with a good CRC, and the SEQ is its second byte (Table 2-4). -/
theorem pipParse_eq_some {bytes : List Byte} {q : Nat} {f : PipFrame} (h : pipParse bytes = some (q, f)) :
    15 ≤ bytes.length ∧ crc16 (bytes.take (bytes.length - 2)) = bytesAt bytes (bytes.length - 2) 2 ∧
      bytesAt bytes 1 1 = q := by
  unfold pipParse at h
  split at h
  · cases h
  next hlen =>
    simp only at h
    split at h
    · cases h
    next hcrc =>
      split at h
      · cases h
      · split at h
        · cases h
        · simp only [Option.some.injEq, Prod.mk.injEq] at h
          exact ⟨Nat.le_of_not_lt hlen, Decidable.of_not_not hcrc, h.1⟩

/-- The frame expected next is acknowledged and kept (R46). -/
theorem State.takeFrame_of_next {bytes : List Byte} {f : PipFrame} (ha : s.flag (F.PIP_STAT_ALIGNED lane) = true)
    (hp : pipParse bytes = some ((s.lane lane).rxSeq, f)) (ht : pipTypes.contains f.type = true) :
    s.takeFrame lane bytes =
      (let u := s.setLane lane { s.lane lane with rxSeq := ((s.lane lane).rxSeq + 1) % 256 }
       let t := u.pipEmit lane (.pipAck lane (s.lane lane).rxSeq)
       t.setLane lane { t.lane lane with rx := (t.lane lane).rx ++ [f] }) := by
  obtain ⟨hlen, hcrc, hseq⟩ := pipParse_eq_some hp
  have hbad : ¬ (bytes.length < 15 ∨ crc16 (bytes.take (bytes.length - 2)) ≠ bytesAt bytes (bytes.length - 2) 2) := by
    rintro (h | h)
    · omega
    · exact h hcrc
  simp only [State.takeFrame, ha, Bool.not_true, Bool.false_eq_true, if_false, hbad, hseq, ne_eq, not_true_eq_false, hp, ht,
    if_true]

/-! #### Alignment, IDENT and lane-down -/

/-- A lane that is not aligned aligns to the first comma (R43). -/
theorem State.takeBits_of_comma {n : Nat} {bits b : List Bool} {rd : Bool} (he : s.flag (F.PIP_CTL_EN n) = true)
    (ha : s.flag (F.PIP_STAT_ALIGNED n) = false) (hc : fromComma bits = some (rd, b)) :
    s.takeBits n bits = (((s.putFlag (F.PIP_STAT_ALIGNED n) true).setLane n { s.lane n with
      rdRx := rd
      idles := 0 }).receiveGroups n (groupsOfBits b)).sendIdent n := by
  simp [State.takeBits, he, ha, hc]

/-- A near-end loop has taken the receiver off the pins' bits. -/
theorem State.doCommaAlignment_of_nearLoop {rx : LaneBits} (hn : s.nearLoop rx.lane = true) : s.doCommaAlignment rx = s := by
  simp [State.doCommaAlignment, hn]

theorem State.doCommaAlignment_of_not_nearLoop {rx : LaneBits} (hn : s.nearLoop rx.lane = false) :
    s.doCommaAlignment rx = s.takeBits rx.lane rx.bits := by
  simp [State.doCommaAlignment, hn]

/-- An IDENT gives the peer's identity and is answered by one (R43). -/
theorem State.doIdentReceive_of_ident {f : PipFrame} {rest : List PipFrame} (hr : (s.lane lane).rx = f :: rest)
    (ht : f.type = 0x01) (hd : f.data.length = 3) :
    s.doIdentReceive lane =
      (let m := s.setLane lane { s.lane lane with rx := rest }
       let t := (m.put (F.PIP_STAT_PEER_DOMAIN lane) (bytesAt f.data 0 1)).put (F.PIP_STAT_PEER_MEMBER lane) (bytesAt f.data 1 1)
       let u := t.put (F.PIP_STAT_PEER_LANE lane) (bytesAt f.data 2 1)
       let l := { u.lane lane with
         identRcvd := true
         kids := (u.lane lane).kids.map (fun k => { k with known := false }) }
       ((u.setLane lane l).sendIdent lane).laneCheckUp lane) := by
  simp [State.doIdentReceive, State.takePip_of_rx hr ht, hd]

/-- An aligned lane that loses its signal goes down (R43). -/
theorem State.doPipLaneDown_of_lossOfSignal (ha : s.flag (F.PIP_STAT_ALIGNED lane) = true) (hn : s.nearLoop lane = false) :
    s.doPipLaneDown lane .lossOfSignal = s.laneDown lane := by
  simp [State.doPipLaneDown, ha, hn]

theorem State.doPipLaneDown_of_codeViolations {groups : List (BitVec 10)} (ha : s.flag (F.PIP_STAT_ALIGNED lane) = true)
    (hn : s.nearLoop lane = false) : s.doPipLaneDown lane (.codeViolations groups) = s.receiveGroups lane groups := by
  simp [State.doPipLaneDown, ha, hn]

/-- A near-end loop has no signal from its pins to lose, and takes no code groups from them. -/
theorem State.doPipLaneDown_lossOfSignal_of_nearLoop (hn : s.nearLoop lane = true) :
    s.doPipLaneDown lane .lossOfSignal = s := by
  simp [State.doPipLaneDown, hn]

theorem State.doPipLaneDown_codeViolations_of_nearLoop {groups : List (BitVec 10)} (hn : s.nearLoop lane = true) :
    s.doPipLaneDown lane (.codeViolations groups) = s := by
  simp [State.doPipLaneDown, hn]

/-- The violations of these code groups bring those of the last 1,000 turns to 16 or more: the lane goes down (R43). -/
theorem State.receiveGroups_of_violations {m at_ n : Nat} {groups : List (BitVec 10)} (hf : s.farLoop m = false)
    (hv : (s.lane m).violations = [(at_, n)]) (ht : s.clk < at_ + 1000)
    (h16 : 16 ≤ n + ((decodeGroups (s.lane m).rdRx groups).1.filter isViolation).length)
    (hk : 0 < ((decodeGroups (s.lane m).rdRx groups).1.filter isViolation).length) :
    s.receiveGroups m groups =
      (let r := decodeGroups (s.lane m).rdRx groups
       let k := (r.1.filter isViolation).length
       ((s.setLane m { s.lane m with
         rdRx := r.2
         violations := [(at_, n), (s.clk, k)]
         idles := if 64 ≤ (s.lane m).idles then 64 else min 64 (idleRun (s.lane m).idles r.1) }).count
           (F.PIP_ERRCNT_CODE_VIOL m) k).laneDown m) := by
  have hlog : (s.lane m).violations.filter (fun e => decide (s.clk < e.1 + 1000)) = [(at_, n)] := by simp [hv, ht]
  simp only [State.receiveGroups, hlog, Nat.ne_of_gt hk, hf, if_false, Bool.false_eq_true, List.append_nil, List.cons_append,
    List.nil_append, List.foldl_cons, List.foldl_nil, Nat.zero_add, h16, if_true]

/-- A frame sent again four times fails the lane (R46). -/
theorem State.doPipLaneDown_of_retryFailure {u : PipUnacked}
    (hu : (s.lane lane).unacked.find? (fun u => decide (4 ≤ u.retries)) = some u) :
    s.doPipLaneDown lane .retryFailure = s.laneFail lane u.seq := by
  simp [State.doPipLaneDown, hu]

/-! #### Link retry (R46) -/

/-- The frames held are split before the first with the SEQ. -/
theorem splitAtSeq_append {before rest : List PipUnacked} {u : PipUnacked} {q : Nat} (hu : u.seq = q)
    (hb : before.all (fun x => x.seq != q) = true) : splitAtSeq (before ++ u :: rest) q = (before, u :: rest) := by
  have hne : ∀ x ∈ before, decide (x.seq ≠ q) = true := by simpa using hb
  rw [splitAtSeq, List.takeWhile_append_of_pos hne, List.dropWhile_append_of_pos hne]
  simp [hu]

theorem any_seq_append {before rest : List PipUnacked} {u : PipUnacked} {q : Nat} (hu : u.seq = q) :
    (before ++ u :: rest).any (fun x => x.seq == q) = true := by
  simp [hu]

/-- An ACK releases the frames up to its SEQ. -/
theorem State.takeAck_of_held {before rest : List PipUnacked} {u : PipUnacked}
    (hl : (s.lane lane).unacked = before ++ u :: rest) (hu : u.seq = seq.toNat)
    (hb : before.all (fun x => x.seq != seq.toNat) = true) :
    s.takeAck lane seq = s.pipRelease lane (before ++ [u]) rest := by
  simp only [State.takeAck, hl, any_seq_append hu, splitAtSeq_append hu hb, if_true]
  rfl

/-- A NAK for the oldest frame held has every frame held sent again. -/
theorem State.takeNak_of_oldest {rest : List PipUnacked} {u : PipUnacked} (hl : (s.lane lane).unacked = u :: rest)
    (hu : u.seq = seq.toNat) (hi : (s.lane lane).identAcked = true) :
    s.takeNak lane seq =
      (let t := (s.setLane lane { s.lane lane with
         unacked := u :: rest
         identAcked := true }).pipResend lane
       t.pipRelease lane [] (t.lane lane).unacked) := by
  have hsplit : splitAtSeq (u :: rest) seq.toNat = ([], u :: rest) := splitAtSeq_append (before := []) hu rfl
  have hany : (u :: rest).any (fun x => x.seq == seq.toNat) = true := any_seq_append (before := []) hu
  simp only [State.takeNak, hl, hany, hsplit, hi, Bool.true_or, if_true]

/-- After 64 turns without an ACK every frame held is sent again. -/
theorem State.doPipRetransmitTimeout_of_late (hu : (s.lane lane).unacked ≠ []) (ha : (s.lane lane).again = [])
    (ht : (s.lane lane).timer + 64 ≤ s.clk) : s.doPipRetransmitTimeout lane = s.pipResend lane := by
  have hempty : (s.lane lane).unacked.isEmpty = false := List.isEmpty_eq_false_iff.mpr hu
  have hlate : decide (s.clk < (s.lane lane).timer + 64) = false := decide_eq_false (Nat.not_lt.mpr ht)
  simp only [State.doPipRetransmitTimeout, hempty, ha, hlate, List.isEmpty_nil, Bool.not_true, Bool.or_self, Bool.false_eq_true,
    if_false]

end

/-- Settles O21: each command's effect where its trigger is met; a near-end loop takes nothing from the pins, and a far-end loop
sends back what the receiver then takes. -/
theorem pipLaneCommandsComplete : Obligations.PipLaneCommandsComplete := by
  refine ⟨?_, ?_, ?_, ?_, ?_, ?_, ?_, ?_, ?_, ?_, ?_⟩
  · intro s lane bits b rd hs he ha hn hc
    exact runCmd_of_eq hs ((State.doCommaAlignment_of_not_nearLoop (s := s.fresh) (rx := ⟨lane, bits⟩) hn).trans
      (State.takeBits_of_comma (s := s.fresh) he ha hc))
  · intro s lane f rest hs hr ht hd
    exact runCmd_of_eq hs (State.doIdentReceive_of_ident (s := s.fresh) hr ht hd)
  · intro s lane hs ha hn
    exact runCmd_of_eq hs (State.doPipLaneDown_of_lossOfSignal (s := s.fresh) ha hn)
  · intro s lane groups at_ n hs ha hf hn hv ht h16 hk
    exact runCmd_of_eq hs ((State.doPipLaneDown_of_codeViolations (s := s.fresh) ha hn).trans
      (State.receiveGroups_of_violations (s := s.fresh) hf hv ht h16 hk))
  · intro s lane u hs hu
    exact runCmd_of_eq hs (State.doPipLaneDown_of_retryFailure (s := s.fresh) hu)
  · intro s lane bytes f hs ha hp ht hf hn
    exact runCmd_of_eq hs ((State.fromPins_of_no_loop (s := s.fresh) hf hn _ _).trans
      (State.takeFrame_of_next (s := s.fresh) ha hp ht))
  · intro s lane seq before rest u hs hl hu hb hf hn
    exact runCmd_of_eq hs ((State.fromPins_of_no_loop (s := s.fresh) hf hn _ _).trans
      (State.takeAck_of_held (s := s.fresh) hl hu hb))
  · intro s lane seq rest u hs hl hu hi hf hn
    exact runCmd_of_eq hs ((State.fromPins_of_no_loop (s := s.fresh) hf hn _ _).trans
      (State.takeNak_of_oldest (s := s.fresh) hl hu hi))
  · intro s lane hs hu ha ht
    exact runCmd_of_eq hs (State.doPipRetransmitTimeout_of_late (s := s.fresh) hu ha ht)
  · intro s lane bytes frac hold seq bits groups hs hn
    have hpins (e : Emission) (f : State → State) : s.fresh.fromPins lane e f = s.fresh :=
      State.fromPins_of_nearLoop (s := s.fresh) hn e f
    exact ⟨runCmd_of_eq hs (hpins _ _), runCmd_of_eq hs (hpins _ _), runCmd_of_eq hs (hpins _ _), runCmd_of_eq hs (hpins _ _),
      runCmd_of_eq hs (hpins _ _), runCmd_of_eq hs (hpins _ _), runCmd_of_eq hs (hpins _ _),
      runCmd_of_eq hs (State.doCommaAlignment_of_nearLoop (s := s.fresh) (rx := ⟨lane, bits⟩) hn),
      runCmd_of_eq hs (State.doPipLaneDown_lossOfSignal_of_nearLoop (s := s.fresh) hn),
      runCmd_of_eq hs (State.doPipLaneDown_codeViolations_of_nearLoop (s := s.fresh) hn)⟩
  · intro s lane bytes frac hold seq hs hf
    have hpins (e : Emission) (f : State → State) : s.fresh.fromPins lane e f = f (s.fresh.pipRepeat lane e) :=
      State.fromPins_of_farLoop (s := s.fresh) hf e f
    exact ⟨runCmd_of_eq hs (hpins _ _), runCmd_of_eq hs (hpins _ _), runCmd_of_eq hs (hpins _ _), runCmd_of_eq hs (hpins _ _),
      runCmd_of_eq hs (hpins _ _), runCmd_of_eq hs (hpins _ _), runCmd_of_eq hs (hpins _ _)⟩

end Sys2Proof.Machine

/-! ### Heartbeats, presence and the roots (R41, R53, R54, R55, R57, R476) -/

namespace Sys2Proof.Machine

section
variable {s : State} {lane : Fin 16} {f : PipFrame} {rest : List PipFrame}

/-- An aligned follower sends its heartbeat at a multiple of HB_PERIOD (R53). -/
theorem State.doHbSend_of_due {n : Nat} (hup : s.upLane = some n) (hf : s.follower = true)
    (ha : s.flag F.TRN_STAT_ALIGNED = true) (hs : s.pip.hbStopped = false) (hu : s.laneIsUp n = true)
    (hp : 0 < s.get F.TRN_HB_HB_PERIOD) (ht : s.now % s.get F.TRN_HB_HB_PERIOD = 0) :
    s.doHbSend = ({ s with pip := { s.pip with hseq := (s.pip.hseq + 1) % 256 } } : State).pipEmit n
      (.heartbeat n (withCrc (toBytesLE 1 s.member ++ toBytesLE 1 s.domain ++ toBytesLE 1 s.pip.hseq))) := by
  simp [State.doHbSend, hup, hf, ha, hs, hu, hp, ht]

/-- The first heartbeat of a member of the own domain below makes it a child, reported present (R53). -/
theorem State.takeHeartbeat_of_first {bytes d : List Byte} (hu : s.laneIsUp lane = true) (hi : s.isUpstream lane = false)
    (hd : checkCrc 3 bytes = some d) (hm : bytesAt d 1 1 = s.domain)
    (hk : (s.lane lane).kids.find? (fun k => k.member == bytesAt d 0 1 % 128) = none) :
    s.takeHeartbeat lane bytes = (s.setLane lane { s.lane lane with
      kids := (s.lane lane).kids.filter (fun k => k.member ≠ bytesAt d 0 1 % 128) ++
        [{ member := bytesAt d 0 1 % 128, lastHb := s.clk, judged := 0 }] }).reportKid (bytesAt d 0 1 % 128) true := by
  simp only [State.takeHeartbeat, hd, hu, hi, hm, hk, Bool.not_true, bne_self_eq_false, Bool.or_self, Bool.false_eq_true,
    if_false, Option.map_none, Option.getD_none]

/-- The heartbeat of an only child due a period before has not come, and the misses reach HB_MISS: the child is reported
absent (R53). -/
theorem State.doHbMissing_of_last_miss {k : Kid} (ha : s.flag F.TRN_STAT_ALIGNED = true) (hp : 0 < s.get F.TRN_HB_HB_PERIOD)
    (ht : s.now % s.get F.TRN_HB_HB_PERIOD = 0) (hk : (s.lane lane).kids = [k])
    (hl : k.lastHb + s.get F.TRN_HB_HB_PERIOD < s.clk) (hj : k.judged < s.clk)
    (hm : k.missed + 1 = s.get F.TRN_HB_HB_MISS) :
    s.doHbMissing lane = (((s.setLane lane { s.lane lane with
      kids := [{ k with missed := k.missed + 1, judged := s.clk, absent := true }] }).count
        (F.PIP_ERRCNT_MISSED_HB lane) 1).reportKid k.member false).forgetSubtree lane := by
  simp [State.doHbMissing, ha, hp, ht, hk, hl, hj, hm]

/-- A decision of absence taken here holds against later presence (R55). -/
theorem State.takePresence_absent (s : State) (m : Nat) : s.takePresence m false =
    ({ s.setPresent (setBitAt s.present m false) with pip := { s.pip with
      presNews := s.pip.presNews ++ [(m, false, false)]
      sticky := setBitAt s.pip.sticky m true } } : State) := rfl

/-- A flood of absence from above is passed on down the domain tree and taken (R54, R55). -/
theorem State.doPresenceReceive_of_absence_from_above (hr : (s.lane lane).rx = f :: rest) (ht : f.type = 0x02)
    (hd : f.srcDomain = s.domain) (hi : s.isUpstream lane = true) (hroot : s.flag F.TRN_CTL_DOM_ROOT = false)
    (hp : bytesAt f.data 1 1 = 0) :
    s.doPresenceReceive lane =
      (let t := s.setLane lane { s.lane lane with rx := rest }
       let u := t.pipSendAll (t.treeLanes.filter (fun k => t.laneUse k == 1)) f
       let m := bytesAt f.data 0 1 % 128
       ({ u.setPresent (setBitAt u.present m false) with pip := { u.pip with
         presNews := u.pip.presNews ++ [(m, false, false)]
         sticky := setBitAt u.pip.sticky m true } } : State)) := by
  have hb : (bytesAt f.data 1 1 == 1) = false := by simp [hp]
  simp only [State.doPresenceReceive, State.takePip_of_rx hr ht, State.setLane_domain, hd, ne_eq, not_true_eq_false, if_false,
    State.setLane_isUpstream, hi, if_true, State.setLane_flag, hroot, hb, Bool.false_and, Bool.false_eq_true,
    State.takePresence_absent]

/-- A report of presence from below goes on to the domain root (R54). -/
theorem State.doPresenceReceive_from_below (hr : (s.lane lane).rx = f :: rest) (ht : f.type = 0x02)
    (hd : f.srcDomain = s.domain) (hi : s.isUpstream lane = false) (hroot : s.flag F.TRN_CTL_DOM_ROOT = false) :
    s.doPresenceReceive lane = (s.setLane lane { s.lane lane with rx := rest }).pipSendUp f := by
  simp [State.doPresenceReceive, State.takePip_of_rx hr ht, hd, hi, hroot]

/-- The sweep of a new domain root, once due (R476). -/
theorem State.doRootAbsenceSweep_of_due {due : Nat} (hd : s.pip.sweepDue = some due) (ht : due ≤ s.clk)
    (hroot : s.flag F.TRN_CTL_DOM_ROOT = true) :
    s.doRootAbsenceSweep =
      ((setBitsList s.present 128).filter (fun m => m != s.member && !bitAt s.pip.reportedSince m)).foldl
        (fun t m => if bitAt t.present m then State.markAbsent 128 t m else t)
        ({ s with pip := { s.pip with sweepDue := none } } : State) := by
  simp only [State.doRootAbsenceSweep, hd, hroot, Nat.not_lt.mpr ht, Bool.true_eq_false, or_self, if_false,
    State.setPip_member, State.setPip_present]

end

/-- TRN_CTL is register 0x100 of the TRN page. -/
theorem pageOf_TRN_CTL : pageOf Reg.TRN_CTL = some (12, 0, 0x100) :=
  pageOf_of_eq (pg := 0xC0) rfl (by decide) rfl rfl (by decide) (by decide) (by decide) rfl

/-- A write of TRN_CTL that discards nothing acts by the register's rule (Table 2-9). -/
theorem runCmd_pathWrite_TRN_CTL {s : State} {p : Path} {data : Word} (hs : s.stopped = false)
    (ho : s.writeOpen p Reg.TRN_CTL data = true) :
    runCmd s (fun s => s.pathWrite p Reg.TRN_CTL data none) =
      .next ((hookTrnCtl s.fresh (s.writeOf p Reg.TRN_CTL data)).written p).settled :=
  runCmd_pathWrite_of_open hs ho pageOf_TRN_CTL rfl

/-- Settles O22: each command's effect where its trigger is met, and the one write rule of the three commands that write
TRN_CTL. -/
theorem presenceCommandsComplete : Obligations.PresenceCommandsComplete := by
  refine ⟨?_, ?_, ?_, ?_, ?_, ?_, ?_, ?_, ?_⟩
  · intro s n hs hup hf ha hst hu hp ht
    exact runCmd_of_eq hs (State.doHbSend_of_due (s := s.fresh) hup hf ha hst hu hp ht)
  · intro s lane bytes d hs hu hi hd hm hk hf hn
    exact runCmd_of_eq hs ((State.fromPins_of_no_loop (s := s.fresh) hf hn _ _).trans
      (State.takeHeartbeat_of_first (s := s.fresh) hu hi hd hm hk))
  · intro s lane k hs ha hp ht hk hl hj hm
    exact runCmd_of_eq hs (State.doHbMissing_of_last_miss (s := s.fresh) ha hp ht hk hl hj hm)
  · intro s lane f rest hs hr ht hd hi hroot hp
    exact runCmd_of_eq hs (State.doPresenceReceive_of_absence_from_above (s := s.fresh) hr ht hd hi hroot hp)
  · intro s lane f rest hs hr ht hd hi hroot
    exact runCmd_of_eq hs (State.doPresenceReceive_from_below (s := s.fresh) hr ht hd hi hroot)
  · intro s due hs hd ht hroot
    exact runCmd_of_eq hs (State.doRootAbsenceSweep_of_due (s := s.fresh) hd ht hroot)
  all_goals
    intro s p data hs ho
    exact runCmd_pathWrite_TRN_CTL hs ho

end Sys2Proof.Machine

/-! ### Tree traffic and resignation (R48, R49, R50, R52, R213, R220) -/

namespace Sys2Proof.Machine

section
variable {s : State} {lane : Fin 16} {f : PipFrame} {rest : List PipFrame}

/-- A lane that reports the same members below as before leaves this device's SUBTREE as it is. -/
theorem State.ownSubtree_setLane_of_subtree {n : Nat} {l : PipLane} (h : l.subtree = (s.lane n).subtree) (domain : Nat) :
    (s.setLane n l).ownSubtree domain = s.ownSubtree domain := by
  have hsub (k : Nat) : ((s.setLane n l).lane k).subtree = (s.lane k).subtree := by
    by_cases hk : k = n
    · rw [hk, State.setLane_lane_self, h]
    · rw [State.setLane_lane_of_ne s l hk]
  have hlanes : (s.setLane n l).subtreeLanes = s.subtreeLanes := rfl
  have hid : (s.setLane n l).member = s.member := rfl
  simp only [State.ownSubtree, hsub, hlanes, hid, State.setLane_domain, State.setLane_flag]

/-- A SUBTREE from below takes the place of the lane's last of its domain, and goes upstream where it changes what this device
reports (R48). -/
theorem State.doSubtreeReceive_from_below (hr : (s.lane lane).rx = f :: rest) (ht : f.type = 0x03)
    (hi : s.isUpstream lane = false) (hd : f.data.length = 16) :
    s.doSubtreeReceive lane =
      (let l := { s.lane lane with
         rx := rest
         subtree := (s.lane lane).subtree.filter (fun e => e.1 ≠ f.srcDomain) ++ [(f.srcDomain, ofBytesLE f.data)] }
       let t := s.setLane lane l
       if t.ownSubtree f.srcDomain = s.ownSubtree f.srcDomain then t else t.sendSubtree f.srcDomain) := by
  have hown : (s.setLane lane { s.lane lane with rx := rest }).ownSubtree f.srcDomain = s.ownSubtree f.srcDomain :=
    State.ownSubtree_setLane_of_subtree (l := { s.lane lane with rx := rest }) rfl f.srcDomain
  simp only [State.doSubtreeReceive, State.takePip_of_rx hr ht, State.setLane_isUpstream, hi, Bool.false_eq_true, if_false, hd,
    ne_eq, not_true_eq_false, hown, State.setLane_lane_self, State.setLane_setLane]

/-- A contribution from below with a LEN that its OP permits joins its combine (R48). -/
theorem State.doScUpReceive_from_below (hr : (s.lane lane).rx = f :: rest) (ht : f.type = 0x10)
    (hi : s.isUpstream lane = false) (ho : pipOpOk f.op f.data.length = true) :
    s.doScUpReceive lane = (s.setLane lane { s.lane lane with rx := rest }).addPart (some lane.val) f := by
  simp [State.doScUpReceive, State.takePip_of_rx hr ht, hi, ho]

/-- A result from above goes down (R48). -/
theorem State.doScDownReceive_from_above (hr : (s.lane lane).rx = f :: rest) (ht : f.type = 0x11)
    (hi : s.isUpstream lane = true) :
    s.doScDownReceive lane = (s.setLane lane { s.lane lane with rx := rest }).sendDown f := by
  simp [State.doScDownReceive, State.takePip_of_rx hr ht, hi]

/-- A vote from below joins its combine, where its collective is neither resigned nor decided (R49, R220). -/
theorem State.doCommitUpReceive_from_below (hr : (s.lane lane).rx = f :: rest) (ht : f.type = 0x20)
    (hi : s.isUpstream lane = false) (hs : s.resignSeen f.slice f.tag = false)
    (hd : s.pip.decided.any (fun d => d.1 == f.slice && d.2.1 == f.tag) = false) :
    s.doCommitUpReceive lane = (s.setLane lane { s.lane lane with rx := rest }).addPart (some lane.val) f := by
  simp [State.doCommitUpReceive, State.takePip_of_rx hr ht, hi, hs, hd]

/-- With no RESIGN remembered, no collective is resigned (R52). -/
theorem State.resignSeen_of_resigns_nil (h : s.pip.resigns = []) (slice tag : Nat) : s.resignSeen slice tag = false := by
  simp [State.resignSeen, h]

/-- A decision from above goes down (R220). -/
theorem State.doCommitDownReceive_from_above (hr : (s.lane lane).rx = f :: rest) (ht : f.type = 0x21)
    (hi : s.isUpstream lane = true) :
    s.doCommitDownReceive lane = (s.setLane lane { s.lane lane with rx := rest }).sendDown f := by
  simp [State.doCommitDownReceive, State.takePip_of_rx hr ht, hi]

/-- A frame from below that is no reserved notice is moved on, wherever it goes (R50). -/
theorem State.routeFrom_from_below {n : Nat} (hi : s.isUpstream n = false) (hf : f.isReservedNotice = false) :
    s.routeFrom n f = s.routePip f := by
  simp [State.routeFrom, hi, hf]

/-- Only a P2P frame is a notice. -/
theorem PipFrame.isReservedNotice_of_not_p2p (h : f.type ≠ 0x30) : f.isReservedNotice = false := by
  simp [PipFrame.isReservedNotice, h]

theorem State.doCountsReceive_of_rx (hr : (s.lane lane).rx = f :: rest) (ht : f.type = 0x22) :
    s.doCountsReceive lane = (s.setLane lane { s.lane lane with rx := rest }).routeFrom lane.val f := by
  simp [State.doCountsReceive, State.takePip_of_rx hr ht]

theorem State.doP2pReceive_of_rx (hr : (s.lane lane).rx = f :: rest) (ht : f.type = 0x30) :
    s.doP2pReceive lane = (s.setLane lane { s.lane lane with rx := rest }).routeFrom lane.val f := by
  simp [State.doP2pReceive, State.takePip_of_rx hr ht]

/-- The first copy of a RESIGN is flooded (R52). -/
theorem State.doResignReceive_of_first (hr : (s.lane lane).rx = f :: rest) (ht : f.type = 0x23)
    (hs : s.resignSeen f.slice f.tag = false) :
    s.doResignReceive lane = (s.setLane lane { s.lane lane with rx := rest }).floodResign (some lane.val) f := by
  simp [State.doResignReceive, State.takePip_of_rx hr ht, hs]

/-- A later copy of a RESIGN is dropped (R52). -/
theorem State.doResignReceive_of_seen (hr : (s.lane lane).rx = f :: rest) (ht : f.type = 0x23)
    (hs : s.resignSeen f.slice f.tag = true) :
    s.doResignReceive lane = s.setLane lane { s.lane lane with rx := rest } := by
  simp [State.doResignReceive, State.takePip_of_rx hr ht, hs]

/-- Resigns and decisions are kept for `resignMemory` turns, and no longer (R52). -/
theorem State.doResignMemoryExpiry_eq (s : State) : s.doResignMemoryExpiry = ({ s with pip := { s.pip with
    resigns := s.pip.resigns.filter (fun r => decide (s.clk < r.2.2 + 20000))
    decided := s.pip.decided.filter (fun r => decide (s.clk < r.2.2 + 20000)) } } : State) := rfl

end

/-- Settles O23: the oldest frame that a lane has accepted is taken by the command of its type, and what becomes of it goes by
whether the lane is an upstream one. -/
theorem treeTrafficCommandsComplete : Obligations.TreeTrafficCommandsComplete := by
  refine ⟨?_, ?_, ?_, ?_, ?_, ?_, ?_, ?_, ?_, ?_⟩
  · intro s lane f rest hs hr ht hi hd
    exact runCmd_of_eq hs (State.doSubtreeReceive_from_below (s := s.fresh) hr ht hi hd)
  · intro s lane f rest hs hr ht hi ho
    exact runCmd_of_eq hs (State.doScUpReceive_from_below (s := s.fresh) hr ht hi ho)
  · intro s lane f rest hs hr ht hi
    exact runCmd_of_eq hs (State.doScDownReceive_from_above (s := s.fresh) hr ht hi)
  · intro s lane f rest hs hr ht hi hres hdec
    have hd : s.fresh.pip.decided.any (fun d => d.1 == f.slice && d.2.1 == f.tag) = false := by simp [hdec]
    exact runCmd_of_eq hs (State.doCommitUpReceive_from_below (s := s.fresh) hr ht hi
      (State.resignSeen_of_resigns_nil (s := s.fresh) hres _ _) hd)
  · intro s lane f rest hs hr ht hi
    exact runCmd_of_eq hs (State.doCommitDownReceive_from_above (s := s.fresh) hr ht hi)
  · intro s lane f rest hs hr ht hi
    have hn : f.isReservedNotice = false := PipFrame.isReservedNotice_of_not_p2p (by rw [ht]; decide)
    exact runCmd_of_eq hs ((State.doCountsReceive_of_rx (s := s.fresh) hr ht).trans (State.routeFrom_from_below hi hn))
  · intro s lane f rest hs hr ht hi hn
    exact runCmd_of_eq hs ((State.doP2pReceive_of_rx (s := s.fresh) hr ht).trans (State.routeFrom_from_below hi hn))
  · intro s lane f rest hs hr ht hseen
    exact runCmd_of_eq hs (State.doResignReceive_of_first (s := s.fresh) hr ht hseen)
  · intro s lane f rest hs hr ht hseen
    exact runCmd_of_eq hs (State.doResignReceive_of_seen (s := s.fresh) hr ht hseen)
  · intro s hs
    exact runCmd_of_eq hs s.fresh.doResignMemoryExpiry_eq

end Sys2Proof.Machine

/-! ### HBM offsets and stack addresses (R61, R62) -/

namespace Sys2Proof.Machine

theorem hbmSize_eq_mul : hbmSize = 805306368 * 2048 := rfl

theorem hbmStack_lt (off : Nat) : hbmStack off < 24 := Nat.mod_lt _ (by decide)

/-- R61's formula for the stack, in its shifts. -/
theorem hbmStack_eq_shiftRight (off : Nat) : hbmStack off = (off >>> 11) % 24 := by
  rw [hbmStack, Nat.shiftRight_eq_div_pow]

/-- R61's formula for the stack address, in its shifts: the parts below and above bit 11 share no bit. -/
theorem hbmSaddr_eq_shiftLeft_or (off : Nat) :
    hbmSaddr off = (((off >>> 11) / 24) <<< 11) ||| (off &&& 0x7FF) := by
  have hlow : off &&& 0x7FF = off % 2 ^ 11 := Nat.and_two_pow_sub_one_eq_mod off 11
  rw [hlow, ← Nat.shiftLeft_add_eq_or_of_lt (Nat.mod_lt off (by decide)), Nat.shiftLeft_eq, Nat.shiftRight_eq_div_pow, hbmSaddr]

theorem hbmSaddr_lt {off : Nat} (h : off < hbmSize) : hbmSaddr off < 2 ^ 36 := by
  simp only [hbmSaddr, hbmSize] at *
  omega

theorem hbmOffset_lt {st sa : Nat} (hst : st < 24) (hsa : sa < 2 ^ 36) : hbmOffset st sa < hbmSize := by
  simp only [hbmOffset, hbmSize]
  omega

/-- An offset is the one its stack and stack address name. -/
theorem hbmOffset_hbmStack_hbmSaddr (off : Nat) : hbmOffset (hbmStack off) (hbmSaddr off) = off := by
  simp only [hbmOffset, hbmStack, hbmSaddr]
  omega

theorem hbmStack_hbmOffset {st : Nat} (hst : st < 24) (sa : Nat) : hbmStack (hbmOffset st sa) = st := by
  simp only [hbmStack, hbmOffset]
  omega

theorem hbmSaddr_hbmOffset {st : Nat} (hst : st < 24) (sa : Nat) : hbmSaddr (hbmOffset st sa) = sa := by
  simp only [hbmSaddr, hbmOffset]
  omega

/-- Piece `b` of 2 KiB of a run of 48 KiB from a 48 KiB boundary lies in stack `b`. -/
theorem hbmStack_run (k : Nat) {b : Nat} (hb : b < 24) : hbmStack (49152 * k + 2048 * b) = b := by
  simp only [hbmStack]
  omega

/-- Settles O10: R61's map and its inverse are division with remainder, by 2,048 and by 24. -/
theorem hbmOffsetMap : Obligations.HbmOffsetMap := by
  refine ⟨?_, ?_, hbmSize_eq_mul, by decide, ?_, by decide⟩
  · intro off h
    exact ⟨hbmStack_eq_shiftRight off, hbmSaddr_eq_shiftLeft_or off, hbmStack_lt off, hbmSaddr_lt h,
      hbmOffset_hbmStack_hbmSaddr off⟩
  · intro st sa hst hsa
    exact ⟨hbmOffset_lt hst hsa, hbmStack_hbmOffset hst sa, hbmSaddr_hbmOffset hst sa⟩
  · intro k st hst
    refine ⟨st, hst, hbmStack_run k hst, fun c hc h => ?_⟩
    rw [← h, hbmStack_run k hc]

end Sys2Proof.Machine

/-! ### The issuing side of an end-point (R70, R79, R80, R84, R88, R89) -/

namespace Sys2Proof.Machine

/-! #### The registers of a window table -/

/-- The page of end-point `n` lies where R13 says. -/
theorem pageOf_repPage {n off : Nat} (hn : n < 21) (ho : off < 0x1000) :
    pageOf (0x1060000 + 0x1000 * n + off) = some (6, n, off) := by
  by_cases h : n < 16
  · have hb : (pageBlock 6 n).isSome = true := by simp [pageBlock, show n ≤ 20 by omega]
    exact pageOf_of_eq (pg := 0x60 + n) (by omega) ho (by omega) (by omega) (by decide) (by decide) (by decide) hb
  · obtain ⟨m, rfl⟩ : ∃ m, n = 16 + m := ⟨n - 16, by omega⟩
    exact pageOf_of_rep (by omega) ho (by omega)

section
variable {n e : Nat}

theorem pageOf_REP_WIN_A (hn : n < 21) (he : e < 64) : pageOf (Reg.REP_WIN_A n e) = some (6, n, 0x400 + 0x18 * e) := by
  rw [← pageOf_repPage hn (by omega), Reg.REP_WIN_A, Nat.add_assoc _ 0x400]

theorem pageOf_REP_WIN_B (hn : n < 21) (he : e < 64) : pageOf (Reg.REP_WIN_B n e) = some (6, n, 0x408 + 0x18 * e) := by
  rw [← pageOf_repPage hn (by omega), Reg.REP_WIN_B, Nat.add_assoc _ 0x408]

theorem pageOf_REP_WIN_C (hn : n < 21) (he : e < 64) : pageOf (Reg.REP_WIN_C n e) = some (6, n, 0x410 + 0x18 * e) := by
  rw [← pageOf_repPage hn (by omega), Reg.REP_WIN_C, Nat.add_assoc _ 0x410]

end

section
variable {data : Word} {aux : Option Nat} {i off e : Nat} {s : State} {w : RegWrite}

theorem regHook_repPage (h : 0x100 ≤ off) : regHook data aux 6 i off s w = hookRep data i off s w := by
  simp [regHook, Nat.not_lt.mpr h]

/-- From offset 0x400 up a page of an end-point holds its window table, entries of three registers. -/
theorem regHook_REP_WIN_A : regHook data aux 6 i (0x400 + 0x18 * e) s w = hookWinA i e data s w := by
  have hq : ¬ (0x110 ≤ 0x400 + 0x18 * e ∧ 0x400 + 0x18 * e < 0x150) := by omega
  have hw : 0x400 ≤ 0x400 + 0x18 * e := by omega
  rw [regHook_repPage (by omega), hookRep, if_neg hq, if_pos hw, if_pos (by omega), Nat.add_sub_cancel_left,
    Nat.mul_div_cancel_left e (by decide)]

theorem regHook_REP_WIN_BC {r : Nat} (hr : r = 0x408 ∨ r = 0x410) :
    regHook data aux 6 i (r + 0x18 * e) s w = hookWinBC i e s w := by
  have hq : ¬ (0x110 ≤ r + 0x18 * e ∧ r + 0x18 * e < 0x150) := by omega
  have hw : 0x400 ≤ r + 0x18 * e := by omega
  have he : (r + 0x18 * e - 0x400) / 0x18 = e := by omega
  rw [regHook_repPage (by omega), hookRep, if_neg hq, if_pos hw, if_neg (by omega), he]

theorem hookWinBC_of_not_valid (h : s.flag (F.REP_WIN_A_VALID i e) = false) :
    hookWinBC i e s w = (s.winKeep w.addr).setReg w.addr w.new := by
  simp [hookWinBC, h, State.takeWrite]

theorem hookWinBC_of_valid (h : s.flag (F.REP_WIN_A_VALID i e) = true) : hookWinBC i e s w = s.windowRejected i e := by
  simp [hookWinBC, h]

end

section
variable {s : State} {p : Path} {n : Fin 21} {e : Fin 64} {data : Word}

/-- The bounds of a window that is not valid are written (R70). -/
theorem State.doRepWinBCWrite_limit_of_not_valid (ho : s.writeOpen p (Reg.REP_WIN_C n e) data = true)
    (hv : s.flag (F.REP_WIN_A_VALID n e) = false) :
    s.doRepWinBCWrite p n e true data = ((s.winKeep (Reg.REP_WIN_C n e)).setReg (Reg.REP_WIN_C n e)
      (s.writeOf p (Reg.REP_WIN_C n e) data).new).written p := by
  rw [State.doRepWinBCWrite, if_pos rfl]
  refine State.pathWrite_of_open ho (pageOf_REP_WIN_C n.isLt e.isLt) ?_
  rw [regHook_REP_WIN_BC (.inr rfl), hookWinBC_of_not_valid hv, State.writeOf_addr]

/-- A write to the bounds of a valid window is rejected (R70). -/
theorem State.doRepWinBCWrite_base_of_valid (ho : s.writeOpen p (Reg.REP_WIN_B n e) data = true)
    (hv : s.flag (F.REP_WIN_A_VALID n e) = true) :
    s.doRepWinBCWrite p n e false data = (s.windowRejected n e).written p := by
  rw [State.doRepWinBCWrite, if_neg Bool.false_ne_true]
  refine State.pathWrite_of_open ho (pageOf_REP_WIN_B n.isLt e.isLt) ?_
  rw [regHook_REP_WIN_BC (.inl rfl), hookWinBC_of_valid hv]

end

/-! #### Requests, responses and fences -/

/-- The requests that are out are no part of an end-point's own state. -/
@[simp] theorem State.setEp_rep_trackers (s : State) (n : Nat) (e : EpState) :
    (s.setEp n e).rep.trackers = s.rep.trackers := rfl

section
variable {s : State} {q : Fin 512} {ep : Fin 21} {r : Frame} {t : Tracker}

theorem State.doRequestIssue_of_asked {x : Request} (h : isAsked x.opcode.toNat = true) :
    s.doRequestIssue q x = s.issueMemory q x.opcode.toNat x.addr.toNat x.bytes x.data x.xfmt .none := by
  simp [State.doRequestIssue, h]

theorem State.takeOrWait_of_free {w : WaitReq} {ep k : Nat} (hm : s.mayTake w = true) (hk : s.freeSlot w.queue = some k) :
    s.takeOrWait w ep = s.takeTracker w ep k := by
  simp [State.takeOrWait, hm, hk]

/-- The oldest waiting request that may go on takes a free tracker (R79). -/
theorem State.doTrackerWaitRelease_of_free {w : WaitReq} {ep k : Nat}
    (hw : s.rep.waiting.find? (fun w => w.queue == q.val && s.mayTake w) = some w) (ho : s.owner q = some ep)
    (hm : s.mayTake w = true) (hk : s.freeSlot w.queue = some k) :
    s.doTrackerWaitRelease q = (s.takeTracker w ep k).settleQ q := by
  simp only [State.doTrackerWaitRelease, State.releaseWaiting, hw, ho, State.takeOrWait_of_free hm hk]

/-- What becomes of a good response goes by the tracker that it matches by TAG and SEQ (R89). -/
theorem State.doResponseReceive_of_match
    (hr : (s.ep ep).arrived.find? (fun f => isResponse f.opcode) = some r) (hb : r.badReserved = false)
    (ht : s.rep.trackers.find? (fun t => t.ep == ep.val && t.sent && t.frame.tag == r.tag && t.frame.seq == r.seq) = some t) :
    s.doResponseReceive ep = (s.setEp ep { s.ep ep with arrived := (s.ep ep).arrived.erase r }).respond t r := by
  simp [State.doResponseReceive, State.responseReceive, hr, hb, ht]

theorem State.doResponseReceive_of_no_match
    (hr : (s.ep ep).arrived.find? (fun f => isResponse f.opcode) = some r) (hb : r.badReserved = false)
    (ht : s.rep.trackers.find? (fun t => t.ep == ep.val && t.sent && t.frame.tag == r.tag && t.frame.seq == r.seq) = none) :
    s.doResponseReceive ep = s.setEp ep { s.ep ep with arrived := (s.ep ep).arrived.erase r } := by
  simp [State.doResponseReceive, State.responseReceive, hr, hb, ht]

/-- A response with a reserved field set is discarded, whatever it matches (R76). -/
theorem State.doResponseReceive_of_badReserved
    (hr : (s.ep ep).arrived.find? (fun f => isResponse f.opcode) = some r) (hb : r.badReserved = true) :
    s.doResponseReceive ep = (s.setEp ep { s.ep ep with arrived := (s.ep ep).arrived.erase r }).countDiscard ep := by
  simp [State.doResponseReceive, State.responseReceive, hr, hb]

/-- A fence with a KIND and a SCOPE of the tables stands behind every earlier request of its queue (R84). -/
theorem State.placeFence_of_legal {kind scope : Nat} {o : FenceOrigin} (hk : kind ≠ 3) (hs : scope ≠ 3) (q : Nat) :
    s.placeFence q kind scope o = (({ s with rep := { s.rep with
      nextOrder := s.rep.nextOrder + 1
      fences := s.rep.fences ++ [{ queue := q, kind := kind, scope := scope, origin := o, order := s.rep.nextOrder }]
      } } : State).settleQ q) := by
  rw [State.placeFence, if_neg (not_or.mpr ⟨hk, hs⟩)]

end

/-! #### Timeouts, retries and channels -/

/-! What the last command put out is in no lookup: shown by rewriting step by step, as comparing the two lookups by computation
would unfold the port sets, sums with 2^64. -/

@[simp] theorem State.fresh_nearStep (s : State) (f : Frame) (m : Nat) : s.fresh.nearStep f m = s.nearStep f m := by
  unfold State.nearStep
  dsimp only
  rw [State.fresh_flag, State.fresh_flag, State.fresh_get, State.fresh_choosePort, State.fresh_nearPorts]

@[simp] theorem State.fresh_lookup_of_local (s : State) (f : Frame) : s.fresh.lookup f none = s.lookup f none := by
  unfold State.lookup
  dsimp only
  rw [State.fresh_domain, State.fresh_flag, State.fresh_flag, State.fresh_get, State.fresh_get, State.fresh_get,
    State.fresh_choosePort, State.fresh_farPorts, State.fresh_member, State.fresh_nearStep, State.fresh_nearStep]

@[simp] theorem State.fresh_throttleAt (s : State) (t : Tracker) : s.fresh.throttleAt t = s.throttleAt t := by
  unfold State.throttleAt
  rw [State.fresh_stamp, State.fresh_lookup_of_local]
  rfl

section
variable {s : State} {tag : BitVec 18} {t : Tracker}

theorem State.doResponseTimeout_of_tracker (h : s.tracker tag.toNat = some t) : s.doResponseTimeout tag = s.timeout t := by
  simp only [State.doResponseTimeout, h]

theorem State.doRetrySend_of_tracker (h : s.tracker tag.toNat = some t) : s.doRetrySend tag = s.retrySend t := by
  simp only [State.doRetrySend, h]

/-- A request that is no proof write and has no response within TIMEOUT ends Lost at once as a collective frame, and is
otherwise retried or ended (R88, R216). -/
theorem State.timeout_of_late (hs : t.sent = true) (hd : t.due = none) (hp : t.proof = .notProof)
    (hl : t.lastTx + s.get (F.REP_RETRY_TIMEOUT t.ep) ≤ s.clk) :
    s.timeout t = if isCollective t.frame.opcode then s.finish t 0x14 [] false else s.retryOrEnd t 0x14 := by
  simp [State.timeout, hs, hd, hp, hl]

/-- A retry is due BACKOFF x k turns later, up to LIMIT (R88). -/
theorem State.retryOrEnd_of_le_limit {st : Nat} (hr : s.resigned t.origin = false)
    (hl : t.frame.tries + 1 ≤ s.get (F.REP_RETRY_LIMIT t.ep)) :
    s.retryOrEnd t st = s.setTracker { t with
      due := some (s.clk + s.get (F.REP_RETRY_BACKOFF t.ep) * (t.frame.tries + 1)) } := by
  simp [State.retryOrEnd, hr, Nat.not_lt.mpr hl]

theorem State.retryOrEnd_of_limit_lt {st : Nat} (hp : t.proof = .notProof)
    (hl : s.get (F.REP_RETRY_LIMIT t.ep) < t.frame.tries + 1) : s.retryOrEnd t st = s.finish t st [] false := by
  simp [State.retryOrEnd, hp, hl]

/-- A due retry that is young enough and not throttled leaves with TRIES counted up (R88, R89). -/
theorem State.retrySend_of_due {d : Nat} (hd : t.due = some d) (ht : d ≤ s.clk) (ha : s.admitted = true)
    (hage : s.ageOf t.frame.injTurn ≤ s.ageLimit - s.get (F.REP_RETRY_TIMEOUT t.ep)) (hth : s.throttleAt t = none) :
    s.retrySend t = (s.count (F.REP_CNT_RETRIES t.ep) 1).transmit { t with
      frame := { t.frame with tries := t.frame.tries + 1 } } := by
  have hwait : ¬ (s.clk < d ∨ s.admitted = false) := by simp [ha, ht]
  have hold : ¬ (t.proof ≠ .waiting ∧ s.ageLimit - s.get (F.REP_RETRY_TIMEOUT t.ep) < s.ageOf t.frame.injTurn) :=
    fun h => Nat.not_lt.mpr hage h.2
  simp only [State.retrySend, hd, if_neg hwait, if_neg hold, hth]

/-- The only channel, with no request open and silent for 2A + 128 turns, is forgotten: its next SEQ is 0 (R80). -/
theorem State.doChannelSeqReset_of_silent {ep : Fin 21} {vc : Fin 8} {c : TxChan} (hc : s.rep.chans = [c])
    (hs : c.src = s.ownEp ep) (hd : c.dst < 2 ^ 20) (hv : c.vc = vc.val) (ht : s.rep.trackers = [])
    (hl : c.last + 2 * s.ageLimit + 128 ≤ s.clk) :
    s.doChannelSeqReset ep (BitVec.ofNat 20 c.dst) vc = ({ s with rep := { s.rep with chans := [] } } : State) := by
  have hdst : (BitVec.ofNat 20 c.dst).toNat = c.dst := by rw [BitVec.toNat_ofNat, Nat.mod_eq_of_lt hd]
  have hopen : s.chanOpen (s.ownEp ep) c.dst vc = 0 := by simp [State.chanOpen, ht]
  simp [State.doChannelSeqReset, hc, hs, hdst, hv, hopen, hl]

end

/-- Settles O24: each command's effect where its trigger is met, by the lemma about that effect; a window's registers by their
write rules. -/
theorem issueCommandsComplete : Obligations.IssueCommandsComplete := by
  refine ⟨?_, ?_, ?_, ?_, ?_, ?_, ?_, ?_, ?_, ?_, ?_, ?_, ?_⟩
  · intro s p n e data hs ho
    exact runCmd_pathWrite_of_open hs ho (pageOf_REP_WIN_A n.isLt e.isLt) regHook_REP_WIN_A
  · intro s p n e data hs ho hv
    exact runCmd_of_eq hs (State.doRepWinBCWrite_limit_of_not_valid (s := s.fresh) ho hv)
  · intro s p n e data hs ho hv
    exact runCmd_of_eq hs (State.doRepWinBCWrite_base_of_valid (s := s.fresh) ho hv)
  · intro s q r hs ha
    exact runCmd_of_eq hs (State.doRequestIssue_of_asked (s := s.fresh) ha)
  · intro s q w ep k hs hw ho hm hk
    exact runCmd_of_eq hs (State.doTrackerWaitRelease_of_free (s := s.fresh) hw ho hm hk)
  · intro s ep r t hs hr hb ht
    exact runCmd_of_eq hs (State.doResponseReceive_of_match (s := s.fresh) hr hb ht)
  · intro s ep r hs hr hb ht
    exact runCmd_of_eq hs (State.doResponseReceive_of_no_match (s := s.fresh) hr hb ht)
  · intro s ep r hs hr hb
    exact runCmd_of_eq hs (State.doResponseReceive_of_badReserved (s := s.fresh) hr hb)
  · intro s tag t hs ht hsent hd hp hl hc hres hlim
    refine runCmd_of_eq hs ((State.doResponseTimeout_of_tracker (s := s.fresh) ht).trans ?_)
    rw [State.timeout_of_late (s := s.fresh) hsent hd hp hl, hc]
    exact State.retryOrEnd_of_le_limit (s := s.fresh) hres hlim
  · intro s tag t hs ht hsent hd hp hl hlim
    refine runCmd_of_eq hs ((State.doResponseTimeout_of_tracker (s := s.fresh) ht).trans ?_)
    rw [State.timeout_of_late (s := s.fresh) hsent hd hp hl, State.retryOrEnd_of_limit_lt (s := s.fresh) hp hlim, ite_self]
  · intro s tag t d hs ht hd hdue ha hage hth
    exact runCmd_of_eq hs ((State.doRetrySend_of_tracker (s := s.fresh) ht).trans
      (State.retrySend_of_due (s := s.fresh) hd hdue ha hage ((State.fresh_throttleAt s t).trans hth)))
  · intro s ep vc c hs hc hsrc hd hv ht hl
    exact runCmd_of_eq hs (State.doChannelSeqReset_of_silent (s := s.fresh) hc hsrc hd hv ht hl)
  · intro s q kind scope hs hk hsc
    have hkind : kind.val ≠ 3 := fun h => hk (Fin.ext h)
    have hscope : scope.val ≠ 3 := fun h => hsc (Fin.ext h)
    exact runCmd_of_eq hs (State.placeFence_of_legal (s := s.fresh) hkind hscope q)

end Sys2Proof.Machine

/-! ### Attach port control, resets and IDE (R72, R327, R329, R330, R331, R332, R333) -/

namespace Sys2Proof.Machine

/-- The page of attach port `a` lies where R13 says. -/
theorem pageOf_attPage {a off : Nat} (ha : a < 16) (ho : off < 0x1000) :
    pageOf (0x1170000 + 0x1000 * a + off) = some (7, a, off) := pageOf_of_att rfl ho ha

section
variable {data : Word} {aux : Option Nat} {a : Nat} {s : State} {w : RegWrite}

theorem regHook_ATT_ATC : regHook data aux 7 a 0x120 s w = hookAttAtc a s w := by simp [regHook, hookAtt]

theorem regHook_ATT_PRI : regHook data aux 7 a 0x128 s w = hookAttPri a s w := by simp [regHook, hookAtt]

theorem regHook_ATT_FLT_RES : regHook data aux 7 a 0x130 s w = hookAttFltRes a s w := by simp [regHook, hookAtt]

/-- INV alone drops the translations of the PASID that the write names (R329). -/
theorem hookAttAtc_of_inv (hall : w.actF (F.ATT_ATC_INV_ALL a) = 0) (hinv : w.actF (F.ATT_ATC_INV a) = 1) :
    hookAttAtc a s w = (let t := s.setReg w.addr w.new
      (t.dropAtc a (some (t.get (F.ATT_ATC_INV_PASID a)))).attPump a) := by
  simp [hookAttAtc, hall, hinv, State.takeWrite]

theorem hookAttAtc_of_invAll (hall : w.actF (F.ATT_ATC_INV_ALL a) = 1) :
    hookAttAtc a s w = ((s.setReg w.addr w.new).dropAtc a none).attPump a := by
  simp [hookAttAtc, hall, State.takeWrite]

theorem hookAttPri_of_resume (h : w.actF (F.ATT_PRI_RESUME_PRI a) = 1) :
    hookAttPri a s w = (s.setReg w.addr w.new).putFlag (F.ATT_PRI_FALLBACK a) false := by
  simp [hookAttPri, h, State.takeWrite]

/-- ACTION 0 has the held descriptors of the PASID retranslate (R331). -/
theorem hookAttFltRes_of_resume (h : w.actF (F.ATT_FLT_RES_ACTION a) = 0) :
    hookAttFltRes a s w = (((s.attach a).accesses.filter (fun h => h.step == .batched &&
      h.pasid == w.actF (F.ATT_FLT_RES_PASID a))).foldl (fun (t : State) h => t.setAccess a { h with step := .ready })
      s).attPump a := by
  simp [hookAttFltRes, h]

/-- ACTION 1 ends them PageFaultBatched (R331). -/
theorem hookAttFltRes_of_abandon (h : w.actF (F.ATT_FLT_RES_ACTION a) = 1) :
    hookAttFltRes a s w = (((s.attach a).accesses.filter (fun h => h.step == .batched &&
      h.pasid == w.actF (F.ATT_FLT_RES_PASID a))).foldl (fun (t : State) h => t.failAccess a h 0x40) s).attPump a := by
  simp [hookAttFltRes, h]

end

section
variable {s : State} {a : Fin 16}

/-- A link that is up goes down: what is held or in flight ends TranslationError (R327). -/
theorem State.doAttachLinkDown_of_up (h : s.flag (F.ATT_LINK_UP a) = true) :
    s.doAttachLinkDown a = (let t := ((((s.putFlag (F.ATT_LINK_UP a) false).put (F.ATT_LINK_SPEED a) 0).put
        (F.ATT_LINK_WIDTH a) 0).putFlag (F.ATT_LINK_FLIT a) false).endAccesses a
      (t.setAttach a { t.attach a with
        bar2 := []
        atsOut := []
        pageOut := []
        invals := []
        faults := [] }).attPump a) := by
  simp only [State.doAttachLinkDown, h, if_true]

/-- A secure stream goes to Insecure (R333). -/
theorem State.doIdeIntegrityFail_of_secure {i : Fin 5} (h : (s.attach a).ide.getD i 0 = 2) :
    s.doIdeIntegrityFail a i = s.setIde a i 3 := by
  rw [State.doIdeIntegrityFail, if_pos h]

end

/-- Settles O41: the commands that write a register by the register's rule, the others by their effect; a conventional reset
has no condition, so that its effect is the definition's own (R72, notes/assumptions/53 and 74). -/
theorem attachPortCommandsComplete : Obligations.AttachPortCommandsComplete := by
  refine ⟨?_, ?_, ?_, ?_, ?_, ?_, ?_, ?_⟩
  · intro s p a data hs ho hall hinv
    refine runCmd_pathWrite_of_open hs ho (pageOf_attPage a.isLt (by decide)) ?_
    rw [regHook_ATT_ATC, hookAttAtc_of_inv hall hinv, State.writeOf_addr]
  · intro s p a data hs ho hall
    refine runCmd_pathWrite_of_open hs ho (pageOf_attPage a.isLt (by decide)) ?_
    rw [regHook_ATT_ATC, hookAttAtc_of_invAll hall, State.writeOf_addr]
  · intro s p a data hs ho hres
    refine runCmd_pathWrite_of_open hs ho (pageOf_attPage a.isLt (by decide)) ?_
    rw [regHook_ATT_PRI, hookAttPri_of_resume hres, State.writeOf_addr]
  · rintro s p a data _ hs ho rfl hact
    exact runCmd_pathWrite_of_open hs ho (pageOf_attPage a.isLt (by decide))
      (regHook_ATT_FLT_RES.trans (hookAttFltRes_of_resume (s := s.fresh) hact))
  · rintro s p a data _ hs ho rfl hact
    exact runCmd_pathWrite_of_open hs ho (pageOf_attPage a.isLt (by decide))
      (regHook_ATT_FLT_RES.trans (hookAttFltRes_of_abandon (s := s.fresh) hact))
  · intro s a hs hup
    exact runCmd_of_eq hs (State.doAttachLinkDown_of_up (s := s.fresh) hup)
  · intro s a hs
    exact runCmd_of_eq hs rfl
  · intro s a i hs hsec
    exact runCmd_of_eq hs (State.doIdeIntegrityFail_of_secure (s := s.fresh) hsec)

end Sys2Proof.Machine

/-! ### The target side of an end-point (R83, R85, R86, R91, R92, R93, R112, R300) -/

namespace Sys2Proof.Machine

@[simp] theorem State.ep_setEp_self (s : State) (n : Nat) (e : EpState) : (s.setEp n e).ep n = e := by
  simp [State.ep, State.setEp]

@[simp] theorem EpState.freeLog_chan (e : EpState) (f : Frame) (src vc : Nat) : (e.freeLog f).chan src vc = e.chan src vc := rfl

@[simp] theorem EpState.freeLog_chans (e : EpState) (f : Frame) : (e.freeLog f).chans = e.chans := rfl

/-! #### Requests taken, and PROOF_GO -/

section
variable {s : State} {ep : Fin 21} {f g : Frame} {p : ParkedWrite} {c : Chan} {src : BitVec 20} {vc : Fin 8}

/-- A request of a channel that has state is taken, held or a duplicate by that state, whose last frame it now is (R85). -/
theorem State.doRequestTake_of_chan (hf : (s.ep ep).arrived.find? (fun f => isRequest f.opcode && f.opcode != opGo) = some f)
    (hb : f.badReserved = false) (hc : (s.ep ep).chan f.src f.vc = some c) :
    s.doRequestTake ep = (let m := s.setEp ep { s.ep ep with arrived := (s.ep ep).arrived.erase f }
      let e := (m.ep ep).freeLog f
      let c' := { c with last := s.clk }
      State.takeInChannel (acceptAt ep) (fun t f => t.answerDuplicate (againAt ep) ep f) (m.setEp ep (e.setChan c')) ep c'
        f) := by
  have hchan : ({ s.ep ep with arrived := (s.ep ep).arrived.erase f } : EpState).chan f.src f.vc = some c := hc
  simp only [State.doRequestTake, State.requestTake, hf, hb, State.ep_setEp_self, EpState.freeLog_chan, hchan,
    Bool.false_eq_true, if_false]

/-- The first request of a channel makes its state, which expects SEQ 0 (R85). -/
theorem State.doRequestTake_of_no_chans
    (hf : (s.ep ep).arrived.find? (fun f => isRequest f.opcode && f.opcode != opGo) = some f) (hb : f.badReserved = false)
    (hc : (s.ep ep).chans = []) :
    s.doRequestTake ep = (let m := s.setEp ep { s.ep ep with arrived := (s.ep ep).arrived.erase f }
      let e := (m.ep ep).freeLog f
      let c : Chan := { src := f.src, vc := f.vc, next := 0, last := s.clk }
      State.takeInChannel (acceptAt ep) (fun t f => t.answerDuplicate (againAt ep) ep f) (m.setEp ep (e.setChan c)) ep c
        f) := by
  have hchan : ({ s.ep ep with arrived := (s.ep ep).arrived.erase f } : EpState).chan f.src f.vc = none := by
    simp [EpState.chan, hc]
  have hroom : (s.ep ep).chans.length < 16384 := by simp [hc]
  simp only [State.doRequestTake, State.requestTake, hf, hb, State.ep_setEp_self, EpState.freeLog_chan, hchan,
    EpState.freeLog_chans, hroom, Bool.false_eq_true, if_false, if_true]

/-- A PROOF_GO releases the write that it names, and then every write that waited for it (R83). -/
theorem State.doProofGoReceive_of_parked (hg : (s.ep ep).arrived.find? (fun f => f.opcode == opGo) = some g)
    (hb : g.badReserved = false) (ho : s.goOpen ep g = true) (hp : (s.ep ep).parked g.src g.vc g.seq = some p)
    (hfree : (s.ep ep).blocked p = false) :
    s.doProofGoReceive ep = (let m := s.setEp ep { s.ep ep with arrived := (s.ep ep).arrived.erase g }
      let t := m.applyPark (enterAt ep) ep p g
      State.releaseParks (enterAt ep) (t.ep ep).parks.length t ep) := by
  have hopen : (s.setEp ep { s.ep ep with arrived := (s.ep ep).arrived.erase g }).goOpen ep g = true := ho
  have hparked : ({ s.ep ep with arrived := (s.ep ep).arrived.erase g } : EpState).parked g.src g.vc g.seq = some p := hp
  have hunblocked : ({ s.ep ep with arrived := (s.ep ep).arrived.erase g } : EpState).blocked p = false := hfree
  simp only [State.doProofGoReceive, State.proofGoReceive, hg, hb, hopen, State.ep_setEp_self, hparked, hunblocked,
    Bool.not_true, Bool.false_eq_true, if_false]

/-- The only park entry goes at INJ_TURN + A + 64, no write having come to release it (R83). -/
theorem State.doParkEntryExpire_of_old {seq : BitVec 32} (hp : (s.ep ep).parks = [p]) (hs : p.src = src.toNat)
    (hv : p.vc = vc.val) (hq : p.frame.seq = seq.toNat) (hold : s.ageLimit + 64 ≤ s.ageOf p.frame.injTurn) :
    s.doParkEntryExpire ep src vc seq = State.releaseParks (enterAt ep) 1 (s.setEp ep { s.ep ep with parks := [] }) ep := by
  have hparked : (s.ep ep).parked src.toNat vc seq.toNat = some p := by simp [EpState.parked, hp, hs, hv, hq]
  simp [State.doParkEntryExpire, State.parkExpire, hparked, hold, hp]

/-- A hole that has been open for A + 64 turns is skipped: the channel goes on at the SEQ held (R112). -/
theorem State.doHoleSkip_of_old {m : Frame} (hc : (s.ep ep).chan src.toNat vc = some c) (hm : c.held = [m])
    (hold : s.ageLimit + 64 ≤ s.ageOf m.injTurn) :
    s.doHoleSkip ep src vc = State.takeHeld (acceptAt ep) c.fuel ((s.setEp ep ((s.ep ep).setChan { c with
      next := m.seq
      skip := c.skip.filter (fun q => decide (seqAhead q m.seq < 2 ^ 31)) })).count (F.REP_ORD_CNT_GAP_SKIP ep) 1) ep src.toNat
        vc := by
  have hlow : c.lowest = some m := by simp [Chan.lowest, hm]
  simp only [State.doHoleSkip, State.holeSkip, hc, hlow, hold, if_true]

/-- A channel with nothing held, unanswered or parked is forgotten after one age limit without a frame (R85). -/
theorem State.doChannelStateFree_of_silent (hc : (s.ep ep).chan src.toNat vc = some c) (hl : c.last + s.ageLimit ≤ s.clk)
    (hh : c.held = []) (ht : c.taken = []) (hp : (s.ep ep).parks = []) :
    s.doChannelStateFree ep src vc = s.setEp ep { s.ep ep with
      chans := (s.ep ep).chans.filter (fun x => !(x.src == src.toNat && x.vc == vc.val)) } := by
  simp [State.doChannelStateFree, State.chanFree, hc, hl, hh, ht, hp]

/-- The only log entry goes A + 64 turns after it was written (R86). -/
theorem State.doResultLogFree_of_old {seq : BitVec 32} {l : LogEntry} (hlog : (s.ep ep).log = [l]) (hs : l.src = src.toNat)
    (hv : l.vc = vc.val) (hq : l.seq = seq.toNat) (hold : l.at' + s.ageLimit + 64 ≤ s.clk) :
    s.doResultLogFree ep src vc seq = s.setEp ep { s.ep ep with log := [] } := by
  simp [State.doResultLogFree, State.logFree, hlog, hs, hv, hq, hold]

end

/-! #### Lines -/

section
variable {s : State} {l : Nat}

/-- A line of the plate EP is performed in channel order, with no slot to wait for (R17, R91). -/
theorem State.lineService_plate_of_inOrder (ho : s.inOrder 17 l = true) : s.lineService 17 l = s.performHead 17 l := by
  simp [State.lineService, ho]

/-- Only a line with a request has to read HBM. -/
theorem State.queue_isEmpty_of_needsRead (h : s.needsRead l = true) : ((s.ep 16).line l).queue.isEmpty = false := by
  unfold State.needsRead at h
  cases hq : ((s.ep 16).line l).queue with
  | nil => simp [hq] at h
  | cons id rest => rfl

section
variable (ho : s.inOrder 16 l = true) (hslot : s.slotFor (128 * l) 128 = true) (hr : ((s.ep 16).line l).reading = false)
include ho hslot hr

theorem State.lineService_memory_of_no_read (hq : ((s.ep 16).line l).queue.isEmpty = false) (hn : s.needsRead l = false) :
    s.lineService 16 l = s.performHead 16 l := by
  simp only [State.lineService, ho, hslot, hr, hq, hn, Nat.reduceEqDiff, Bool.not_true, Bool.false_eq_true, if_false]

/-- A request that needs what HBM holds has the row activated and its read begun (R91, R309). -/
theorem State.lineService_memory_of_read (hn : s.needsRead l = true) :
    s.lineService 16 l = (let t := s.activate (128 * l)
      t.setEp 16 ((t.ep 16).setLine l { (t.ep 16).line l with reading := true })) := by
  simp only [State.lineService, ho, hslot, hr, State.queue_isEmpty_of_needsRead hn, hn, Nat.reduceEqDiff, Bool.not_true,
    Bool.false_eq_true, if_false, if_true]

end

/-- A read of HBM that returns whole leaves the errors of HBM as they are, and the head is performed (R300). -/
theorem State.doHbmReadComplete_of_no_errors (hr : ((s.ep 16).line l).reading = true) (hslot : s.memSlot = true)
    (ho : s.inOrder 16 l = true) : s.doHbmReadComplete l ⟨[], []⟩ = s.performHead 16 l := by
  have hread : s.doHbmReadComplete l ⟨[], []⟩ = s.readComplete l [] := by
    simp only [State.doHbmReadComplete, List.append_nil]
  simp [hread, State.readComplete, hr, hslot, ho]

variable {c : LineCopy}

/-- A pinned line with no request in its window is cold: it is written back, and its copy given up (R92). -/
theorem State.doLineUnpin_of_cold (hc : ((s.ep 16).line l).copy = some c) (hp : c.pinned = true)
    (hcold : c.since + s.get (F.REP_HOT_COLD 16) ≤ s.clk) (ht : ((s.ep 16).line l).times = [])
    (hslot : s.slotFor (128 * l) 128 = true) (hth : 4 ≤ s.get (F.REP_HOT_THRESH 16)) :
    s.doLineUnpin l = (let t := (s.writeBackLine l).answerWaiting l
      t.setEp 16 ((t.ep 16).setLine l { (t.ep 16).line l with copy := none })) := by
  have hrecent : 0 < s.get (F.REP_HOT_THRESH 16) / 4 := by omega
  simp only [State.doLineUnpin, State.lineUnpin, hc, hp, hslot, hcold, ht, hrecent, List.filter_nil, List.length_nil,
    decide_true, Bool.and_self, if_true]

/-- The changes of a pinned line are written back, and what waited for that is answered (R93). -/
theorem State.doPinnedWriteBack_of_dirty (hc : ((s.ep 16).line l).copy = some c) (hp : c.pinned = true)
    (hd : c.dirty.isSome = true) (hslot : s.slotFor (128 * l) 128 = true) :
    s.doPinnedWriteBack l = (s.writeBackLine l).answerWaiting l := by
  simp only [State.doPinnedWriteBack, State.pinnedWriteBack, hc, hp, hd, hslot, Bool.true_or, Bool.and_self, if_true]

end

/-- Settles O25: each command's effect where its trigger is met, by the lemma about that effect; the message and the Ilnyx EP
serve their oldest frame, whichever line is named. -/
theorem targetCommandsComplete : Obligations.TargetCommandsComplete := by
  refine ⟨?_, ?_, ?_, ?_, ?_, ?_, ?_, ?_, ?_, ?_, ?_, ?_, ?_, ?_, ?_⟩
  · intro s ep f c hs hf hb _ hc
    exact runCmd_of_eq hs (State.doRequestTake_of_chan (s := s.fresh) hf hb hc)
  · intro s ep f hs hf hb hc
    exact runCmd_of_eq hs (State.doRequestTake_of_no_chans (s := s.fresh) hf hb hc)
  · intro s line hs ho
    exact runCmd_of_eq hs (State.lineService_plate_of_inOrder (s := s.fresh) ho)
  · intro s line hs ho hslot hr hq hn
    exact runCmd_of_eq hs (State.lineService_memory_of_no_read (s := s.fresh) ho hslot hr hq hn)
  · intro s line hs ho hslot hr hn
    exact runCmd_of_eq hs (State.lineService_memory_of_read (s := s.fresh) ho hslot hr hn)
  · intro s line hs
    exact runCmd_of_eq hs rfl
  · intro s line hs
    exact runCmd_of_eq hs rfl
  · intro s line hs hr hslot ho
    exact runCmd_of_eq hs (State.doHbmReadComplete_of_no_errors (s := s.fresh) hr hslot ho)
  · intro s line c hs hc hp hcold ht hslot hth
    exact runCmd_of_eq hs (State.doLineUnpin_of_cold (s := s.fresh) hc hp hcold ht hslot hth)
  · intro s line c hs hc hp hd hslot
    exact runCmd_of_eq hs (State.doPinnedWriteBack_of_dirty (s := s.fresh) hc hp hd hslot)
  · intro s ep g p hs hg hb ho hp hfree
    exact runCmd_of_eq hs (State.doProofGoReceive_of_parked (s := s.fresh) hg hb ho hp hfree)
  · intro s ep src vc seq p hs hp hsrc hv hq hold
    exact runCmd_of_eq hs (State.doParkEntryExpire_of_old (s := s.fresh) hp hsrc hv hq hold)
  · intro s ep src vc c m hs hc hm hold
    exact runCmd_of_eq hs (State.doHoleSkip_of_old (s := s.fresh) hc hm hold)
  · intro s ep src vc c hs hc hl hh ht hp
    exact runCmd_of_eq hs (State.doChannelStateFree_of_silent (s := s.fresh) hc hl hh ht hp)
  · intro s ep src vc seq l hs hlog hsrc hv hq hold
    exact runCmd_of_eq hs (State.doResultLogFree_of_old (s := s.fresh) hlog hsrc hv hq hold)

end Sys2Proof.Machine

/-! ### What a read of HBM leaves alone of the message engine and of the device's number -/

namespace Sys2Proof.Machine

/-- What a send reads from memory changes counters, fault records and HBM, but neither the message engine's state nor the
device's own number. -/
structure State.MsgFrame (s t : State) : Prop where
  msg : t.msg = s.msg
  id : t.reg Reg.MGT_ID = s.reg Reg.MGT_ID

/-- MGT_ID stands behind the header of its page. -/
theorem Reg.MGT_ID_ne_header {pg off : Nat} (hp : pg % 0x1000 = 0) (ho : off < 0x100) : pg + off ≠ Reg.MGT_ID := by
  unfold Reg.MGT_ID
  omega

theorem pageBase_mod (t i : Nat) : pageBase t i % 0x1000 = 0 := by
  unfold pageBase
  split <;> omega

theorem pageBaseOf_mod (a : Nat) : pageBaseOf a % 0x1000 = 0 := by
  unfold pageBaseOf
  omega

/-- The counters of a stack lie elsewhere in their page than MGT_ID does. -/
theorem Reg.HBM_S_ECC_ne_MGT_ID (t : Nat) : Reg.HBM_S_ECC t ≠ Reg.MGT_ID := by
  unfold Reg.HBM_S_ECC Reg.MGT_ID
  omega

theorem Reg.HBM_S_WEAR_ne_MGT_ID (t : Nat) : Reg.HBM_S_WEAR t ≠ Reg.MGT_ID := by
  unfold Reg.HBM_S_WEAR Reg.MGT_ID
  omega

theorem Reg.MSG_Q_IDX_ne_MGT_ID {q : Nat} (h : q < 512) : Reg.MSG_Q_IDX q ≠ Reg.MGT_ID := by
  unfold Reg.MSG_Q_IDX Reg.MGT_ID
  omega

namespace State.MsgFrame

variable {r s t : State}

theorem refl (s : State) : s.MsgFrame s := ⟨rfl, rfl⟩

theorem domain (h : s.MsgFrame t) : t.domain = s.domain := by
  change fieldGet (t.reg Reg.MGT_ID) 15 8 = fieldGet (s.reg Reg.MGT_ID) 15 8
  rw [h.id]

theorem ite {c : Prop} {_ : Decidable c} (hs : r.MsgFrame s) (ht : r.MsgFrame t) : r.MsgFrame (if c then s else t) := by
  split
  · exact hs
  · exact ht

/-! #### Registers and counters -/

theorem of_eq (h : r.MsgFrame s) (hm : t.msg = s.msg) (hr : t.regs = s.regs) : r.MsgFrame t := by
  refine ⟨hm.trans h.msg, ?_⟩
  rw [State.reg, hr]
  exact h.id

theorem hbm (h : r.MsgFrame s) (x : HbmState) : r.MsgFrame { s with hbm := x } := h.of_eq rfl rfl

theorem flt (h : r.MsgFrame s) (x : FaultState) : r.MsgFrame { s with flt := x } := h.of_eq rfl rfl

theorem setReg (h : r.MsgFrame s) {a : Nat} (ha : a ≠ Reg.MGT_ID) (v : Word) : r.MsgFrame (s.setReg a v) :=
  ⟨h.msg, (State.reg_setReg_of_ne s v ha.symm).trans h.id⟩

theorem put (h : r.MsgFrame s) {f : RField} (hf : f.addr ≠ Reg.MGT_ID) (v : Nat) : r.MsgFrame (s.put f v) := h.setReg hf _

theorem pgCount (h : r.MsgFrame s) {pg : Nat} (hp : pg % 0x1000 = 0) (sel n : Nat) : r.MsgFrame (s.pgCount pg sel n) :=
  (h.setReg (Reg.MGT_ID_ne_header hp (by decide)) _).ite h

theorem count (h : r.MsgFrame s) {f : RField} (hf : f.addr ≠ Reg.MGT_ID) (n : Nat) : r.MsgFrame (s.count f n) := by
  have hp := h.put hf (min f.max (s.get f + n))
  simp only [State.count]
  refine hp.ite ?_
  split
  · exact (hp.pgCount (pageBaseOf_mod _) _ _).ite hp
  · exact hp

/-! #### Events and fault records -/

theorem raiseVector (h : r.MsgFrame s) (a v : Nat) : r.MsgFrame (s.raiseVector a v) := by
  simp only [State.raiseVector]
  refine State.MsgFrame.ite ?_ ?_
  · exact h.of_eq rfl rfl
  · exact h.of_eq rfl rfl

theorem raiseVector_ite {c : Prop} {_ : Decidable c} (h : r.MsgFrame s) (a v : Nat) :
    r.MsgFrame (if c then s.raiseVector a v else s) := (h.raiseVector a v).ite h

theorem pageEvent (h : r.MsgFrame s) (t i bits code : Nat) : r.MsgFrame (s.pageEvent t i bits code) := by
  have hb := pageBase_mod t i
  have herr := Reg.MGT_ID_ne_header (off := 0x20) hb (by decide)
  have hfirst := Reg.MGT_ID_ne_header (off := 0x30) hb (by decide)
  have hlast := Reg.MGT_ID_ne_header (off := 0x38) hb (by decide)
  simp only [State.pageEvent]
  refine State.MsgFrame.ite (raiseVector_ite (pgCount ?_ hb 2 1) i 65) h
  exact (((h.setReg hfirst _).ite h).setReg herr _).setReg hlast _

theorem takeInjection (h : r.MsgFrame s) (t i : Nat) : r.MsgFrame (s.takeInjection t i).2 := by
  simp only [State.takeInjection]
  split
  · exact (h.put (Reg.MGT_ID_ne_header (off := 0x40) (pageBase_mod t i) (by decide)) _).pageEvent _ _ _ _
  · exact h

theorem syncCopy (h : r.MsgFrame s) (g : Nat) (x : Granule) : r.MsgFrame (s.syncCopy g x) := by
  simp only [State.syncCopy]
  split
  · exact h.of_eq rfl rfl
  · exact h

theorem memRewrite (h : r.MsgFrame s) (g : Nat) (data : List Byte) (poison : Bool) : r.MsgFrame (s.memRewrite g data poison) :=
  (h.of_eq rfl rfl : r.MsgFrame (s.hbmRewrite g data poison)).syncCopy _ _

theorem fltRaise (h : r.MsgFrame s) : r.MsgFrame s.fltRaise := by
  simp only [State.fltRaise]
  exact ((h.raiseVector _ _).flt _).ite (h.flt _)

theorem fltWrite (h : r.MsgFrame s) (x : FaultRec) : r.MsgFrame (s.fltWrite x) :=
  (((h.memRewrite _ _ _).memRewrite _ _ _).put (by decide) _).fltRaise

theorem setPark (h : r.MsgFrame s) (p : List FaultRec) : r.MsgFrame (s.setPark p) :=
  ((h.flt _).put (f := F.FLT_STAT_PARK_USED) (by decide) _).put (f := F.FLT_STAT_PARK_FULL) (by decide) _

theorem recordLost (h : r.MsgFrame s) : r.MsgFrame ((s.count F.FLT_LOST_COUNT 1).putFlag F.FLT_STAT_OVERFLOW true) :=
  (h.count (by decide) 1).put (by decide) _

theorem fltEnter (h : r.MsgFrame s) (x : FaultRec) : r.MsgFrame (s.fltEnter x) := by
  simp only [State.fltEnter]
  exact ((h.setPark _).ite h).ite ((h.recordLost.ite (h.fltWrite x)).ite (h.recordLost.ite (h.flt _)))

theorem fault (h : r.MsgFrame s) (cls code t i : Nat) (x : FaultArgs) : r.MsgFrame (s.fault cls code t i x) :=
  ((h.pageEvent _ _ _ _).put (by decide) _).fltEnter _

/-! #### Reads of memory -/

theorem xtsFault (h : r.MsgFrame s) (g : Nat) (isRead : Bool) : r.MsgFrame (s.xtsFault g isRead) := by
  simp only [State.xtsFault]
  exact ((h.hbm _).count (f := F.HBM_S_ECC_XTS_ERR (hbmStack (32 * g))) (Reg.HBM_S_ECC_ne_MGT_ID _) 1).fault _ _ _ _ _

theorem hbmSense (h : r.MsgFrame s) (g : Nat) : r.MsgFrame (s.hbmSense g).2.2 := by
  have hi := h.takeInjection 8 4
  simp only [State.hbmSense]
  generalize s.takeInjection 8 4 = x at hi ⊢
  obtain ⟨inj, s1⟩ := x
  have hecc := Reg.HBM_S_ECC_ne_MGT_ID (hbmStack (32 * g))
  generalize hatchDecode _ _ = d
  cases d with
  | good w => exact hi
  | poisoned => exact hi
  | corrected w =>
    have hc := hi.count (f := F.HBM_S_ECC_CORR (hbmStack (32 * g))) hecc 1
    exact (hc.hbm _).ite hc
  | uncorrectable sy =>
    simp only
    exact (hi.count (f := F.HBM_S_ECC_UNCORR (hbmStack (32 * g))) hecc 1).fault _ _ _ _ _

theorem hbmLoad (h : r.MsgFrame s) (g : Nat) : r.MsgFrame (s.hbmLoad g).2.2 := by
  have hr : r.MsgFrame (s.hbmRead g).2.2 := h.hbmSense g
  simp only [State.hbmLoad]
  generalize s.hbmRead g = x at hr ⊢
  obtain ⟨d, p, s1⟩ := x
  simp only
  split
  · exact hr.xtsFault _ _
  · exact hr

theorem memLoad (h : r.MsgFrame s) (g : Nat) : r.MsgFrame (s.memLoad g).2.2 := by
  unfold State.memLoad
  split
  · exact h
  · exact h.hbmLoad g

theorem hbmLoads (n : Nat) : ∀ {s : State} (g : Nat), r.MsgFrame s → r.MsgFrame (State.hbmLoads n s g).2.2 := by
  induction n with
  | zero => intro s g h; exact h
  | succ n ih => intro s g h; exact ih _ (h.memLoad g)

theorem hbmFetch (h : r.MsgFrame s) (off n : Nat) : r.MsgFrame (s.hbmFetch off n).2.2 := hbmLoads _ _ h

theorem activate (h : r.MsgFrame s) (off : Nat) : r.MsgFrame (s.activate off) := by
  have hwear := Reg.HBM_S_WEAR_ne_MGT_ID (hbmRow off).1
  simp only [State.activate]
  refine State.MsgFrame.ite (State.MsgFrame.ite ?_ ?_) (h.hbm _)
  · exact (h.hbm _).put (f := F.HBM_S_WEAR_QUEUED (hbmRow off).1) hwear _
  · split
    · exact h.hbm _
    · exact ((h.hbm _).count (f := F.HBM_S_WEAR_OVERFLOW (hbmRow off).1) hwear 1).fault _ _ _ _ _

theorem readMessage (h : r.MsgFrame s) (a n : Nat) : r.MsgFrame (s.readMessage a n).2 := by
  simp only [State.readMessage]
  refine List.foldlRecOn (motive := fun acc : List Granule × State => r.MsgFrame acc.2) _ _ h fun acc hacc i _ => ?_
  split
  · exact (hacc.activate _).memLoad _
  · exact hacc

end State.MsgFrame

end Sys2Proof.Machine

/-! ### The message engine (R95, R97, R98, R120) -/

namespace Sys2Proof.Machine

/-! #### Sends -/

/-- MSG_SEND_FETCH may take queue `q`'s next descriptor: the queue is the message end-point's and in use, its ring holds a
descriptor that HBM gives now, no earlier request of the device is open, and no supply warning holds sends. -/
structure State.SendReady (s : State) (q : Fin 512) : Prop where
  owner : s.owner q = some 19
  enabled : s.flag (F.MSG_Q_CFG_EN q) = true
  used : ringUsed (s.msgN q) (s.get (F.MSG_Q_IDX_HEAD q)) (s.get (F.MSG_Q_IDX_TAIL q)) ≠ 0
  trackers : s.rep.trackers = []
  waiting : s.rep.waiting = []
  slot : s.slotFor (s.sendAt q (s.get (F.MSG_Q_IDX_HEAD q))) 32 = true
  calm : s.flag F.PWR_STAT_WARN = false

theorem State.SendReady.not_held {s : State} {q : Fin 512} (h : s.SendReady q) :
    ¬(s.owner q ≠ some 19 ∨ s.flag (F.MSG_Q_CFG_EN q) = false ∨
      ringUsed (s.msgN q) (s.get (F.MSG_Q_IDX_HEAD q)) (s.get (F.MSG_Q_IDX_TAIL q)) = 0 ∨
      (s.rep.trackers.any (fun t => t.queue == q.val) || s.rep.waiting.any (fun w => w.queue == q.val)) = true ∨
      s.slotFor (s.sendAt q (s.get (F.MSG_Q_IDX_HEAD q))) 32 = false ∨ s.flag F.PWR_STAT_WARN = true) := by
  simp [h.owner, h.enabled, h.used, h.trackers, h.waiting, h.slot, h.calm]

/-- The device's domain is a register. -/
theorem State.setMsg_domain (s : State) (m : MsgState) : ({ s with msg := m } : State).domain = s.domain := rfl

theorem openStatus_mem_statusCodes (n : Nat) : openStatus n ∈ statusCodes := by
  have hn : n % 20 < statusCodes.length := Nat.mod_lt n (by decide)
  rw [openStatus, List.getD_eq_getElem?_getD, List.getElem?_eq_getElem hn, Option.getD_some]
  exact List.getElem_mem hn

section
variable {s t u : State} {q : Fin 512} {d : List Byte}

/-- A poisoned descriptor ends Poisoned (notes/assumptions/56). -/
theorem State.doMsgSendFetch_of_poisoned (hr : s.SendReady q)
    (hd : s.hbmFetch (s.sendAt q (s.get (F.MSG_Q_IDX_HEAD q))) 32 = (d, true, t)) :
    s.doMsgSendFetch q = (t.put (F.MSG_Q_IDX_HEAD q) ((s.get (F.MSG_Q_IDX_HEAD q) + 1) %
      (2 * s.msgN q))).sendStatus q (s.get (F.MSG_Q_IDX_HEAD q)) 0x30 := by
  simp only [State.doMsgSendFetch, if_neg hr.not_held, hd, if_true]

/-- A BYTES out of range sends nothing, with a STATUS that the spec leaves open (notes/assumptions/67). -/
theorem State.doMsgSendFetch_of_not_formed (hr : s.SendReady q)
    (hd : s.hbmFetch (s.sendAt q (s.get (F.MSG_Q_IDX_HEAD q))) 32 = (d, false, t)) (hf : sendFormed d = false)
    (hu : t.put (F.MSG_Q_IDX_HEAD q) ((s.get (F.MSG_Q_IDX_HEAD q) + 1) % (2 * s.msgN q)) = u) :
    s.doMsgSendFetch q = u.freeNext.sendStatus q (s.get (F.MSG_Q_IDX_HEAD q)) (openStatus (u.free 8)) := by
  simp only [State.doMsgSendFetch, if_neg hr.not_held, hd, hf, hu, Bool.not_false, Bool.false_eq_true, if_false, if_true]

/-- Data of another member is denied (R97). -/
theorem State.doMsgSendFetch_of_other_member (hr : s.SendReady q)
    (hd : s.hbmFetch (s.sendAt q (s.get (F.MSG_Q_IDX_HEAD q))) 32 = (d, false, t)) (hf : sendFormed d = true)
    (hm : addrMember (bytesAt d 16 8) ≠ s.member) :
    s.doMsgSendFetch q = (t.put (F.MSG_Q_IDX_HEAD q) ((s.get (F.MSG_Q_IDX_HEAD q) + 1) %
      (2 * s.msgN q))).sendStatus q (s.get (F.MSG_Q_IDX_HEAD q)) 0x23 := by
  simp only [State.doMsgSendFetch, if_neg hr.not_held, hd, hf, Bool.not_true, Bool.false_eq_true, if_false]
  exact if_pos (.inl hm)

/-- A message of one granule, the first to its destination, is one fragment: of number 0, in a message of identity 0 (R97,
R120). -/
theorem State.doMsgSendFetch_of_granule {x : List Byte} (hr : s.SendReady q)
    (hd : s.hbmFetch (s.sendAt q (s.get (F.MSG_Q_IDX_HEAD q))) 32 = (d, false, t)) (hf : sendFormed d = true)
    (hm : addrMember (bytesAt d 16 8) = s.member) (hk : addrKind (bytesAt d 16 8) ≤ 1)
    (ho : offsetExists (addrKind (bytesAt d 16 8)) (addrOffset (bytesAt d 16 8)) (bytesAt d 8 4) = true)
    (hread : (t.put (F.MSG_Q_IDX_HEAD q) ((s.get (F.MSG_Q_IDX_HEAD q) + 1) % (2 * s.msgN q))).readMessage (bytesAt d 16 8)
      (bytesAt d 8 4) = ([(x, false)], u))
    (hid : u.msg.nextId = []) :
    s.doMsgSendFetch q = (let v : State := { u with msg := { u.msg with
        nextId := [(bytesAt d 0 4 % 2 ^ 20, 1)]
        sends := u.msg.sends ++ [{ queue := q, ix := s.get (F.MSG_Q_IDX_HEAD q), status := [0] }] } }
      v.issueOne 19 q {
        opcode := opMsg
        vc := requestVc opMsg (epDomain (bytesAt d 0 4 % 2 ^ 20) != s.domain) (bitAt (bytesAt d 5 1) 0)
        edition := v.edition
        slice := v.slice
        src := v.ownEp 19
        dst := bytesAt d 0 4 % 2 ^ 20
        addr := (bytesAt d 8 4 - 1) * 2 ^ 16 + bytesAt d 4 1 % 64
        bytes := min 256 (bytesAt d 8 4)
        poison := false
        gran := [{ data := sliceD 0 x 0 32, poison := false }] } (.message q (s.get (F.MSG_Q_IDX_HEAD q)) 0)) := by
  have hfetch : s.MsgFrame t := by
    have h := (State.MsgFrame.refl s).hbmFetch (s.sendAt q (s.get (F.MSG_Q_IDX_HEAD q))) 32
    rwa [hd] at h
  have hput := hfetch.put (f := F.MSG_Q_IDX_HEAD q) (Reg.MSG_Q_IDX_ne_MGT_ID q.isLt)
    ((s.get (F.MSG_Q_IDX_HEAD q) + 1) % (2 * s.msgN q))
  have hsent : s.MsgFrame u := by
    have h := hput.readMessage (bytesAt d 16 8) (bytesAt d 8 4)
    rwa [hread] at h
  have hnext : t.msg.nextId = [] := by rw [hfetch.msg, ← hsent.msg, hid]
  have hdom : u.domain = s.domain := hsent.domain
  simp only [State.doMsgSendFetch, if_neg hr.not_held, hd]
  simp [hf, hm, ho, hread, hid, hnext, State.setMsg_domain, hdom, Nat.not_lt.mpr hk, chunks, chunksAux]

end

/-! #### Messages given up, and pools -/

/-- One age limit after fragment 0 the only message in reception is given up, its last fragment not having come (R97). -/
theorem State.doMessageAbandon_of_late {s : State} {src : BitVec 20} {id : BitVec 16} {r : MsgRecv} (hr : s.msg.recvs = [r])
    (hs : r.src = src.toNat) (hi : r.id = id.toNat) (hl : r.firstAt + s.ageLimit ≤ s.clk) (hopen : r.refused = none)
    (hlast : s.lastArrived r = false) :
    s.doMessageAbandon src id = ((s.setBuf r.pool r.buf 0).dropRecv r).count F.MSG_STAT_ABANDONED 1 := by
  simp [State.doMessageAbandon, hr, hs, hi, hl, hlast, State.abandon, hopen]

/-- The pools' registers stand in page 0 of the message engine. -/
theorem pageOf_msgPage {off : Nat} (ho : off < 0x1000) : pageOf (0x10b0000 + off) = some (11, 0, off) :=
  pageOf_of_eq (pg := 0xb0) (by omega) ho rfl rfl (by decide) (by decide) (by decide) (by decide)

theorem pageOf_MSG_POOL_CFG {n : Nat} (hn : n < 64) : pageOf (Reg.MSG_POOL_CFG n) = some (11, 0, 0x100 + 0x8 * n) := by
  rw [← pageOf_msgPage (by omega), Reg.MSG_POOL_CFG, Nat.add_assoc _ 0x100]

theorem pageOf_MSG_POOL_RING {n : Nat} (hn : n < 64) : pageOf (Reg.MSG_POOL_RING n) = some (11, 0, 0x500 + 0x8 * n) := by
  rw [← pageOf_msgPage (by omega), Reg.MSG_POOL_RING, Nat.add_assoc _ 0x500]

section
variable {data : Word} {aux : Option Nat} {off n : Nat} {s : State} {w : RegWrite}

theorem regHook_msgPage (h : 0x100 ≤ off) : regHook data aux 11 0 off s w = hookMsg 0 off s w := by
  simp [regHook, Nat.not_lt.mpr h]

theorem regHook_MSG_POOL_CFG (hn : n < 64) :
    regHook data aux 11 0 (0x100 + 0x8 * n) s w = hookMsgPoolCfg n s w := by
  have hcfg : 0x100 + 0x8 * n < 0x300 := by omega
  rw [regHook_msgPage (by omega), hookMsg, if_pos rfl, if_pos hcfg, Nat.add_sub_cancel_left,
    Nat.mul_div_cancel_left n (by decide)]

theorem regHook_MSG_POOL_RING (hn : n < 64) :
    regHook data aux 11 0 (0x500 + 0x8 * n) s w = hookMsgPoolRing n s w := by
  have hcfg : ¬ 0x500 + 0x8 * n < 0x300 := by omega
  have hring : 0x500 ≤ 0x500 + 0x8 * n ∧ 0x500 + 0x8 * n < 0x700 := by omega
  rw [regHook_msgPage (by omega), hookMsg, if_pos rfl, if_neg hcfg, if_pos hring, Nat.add_sub_cancel_left,
    Nat.mul_div_cancel_left n (by decide)]

theorem regHook_MSG_POOL_FREE : regHook data aux 11 0 0x700 s w = hookMsgPoolFree s w := by simp [regHook, hookMsg]

end

section
variable {s : State} {p : Path} {n : Fin 64} {data : Word}

/-- A pool's configuration is taken where the pool that it makes is allowed (R95). -/
theorem State.doMsgPoolCfgWrite_cfg (ho : s.writeOpen p (Reg.MSG_POOL_CFG n) data = true) :
    s.doMsgPoolCfgWrite p n false data = (let t := s.setReg (Reg.MSG_POOL_CFG n) (s.writeOf p (Reg.MSG_POOL_CFG n) data).new
      (if t.poolBad n then s.cfgRejected else t).written p) := by
  rw [State.doMsgPoolCfgWrite, if_neg Bool.false_ne_true]
  refine State.pathWrite_of_open ho (pageOf_MSG_POOL_CFG n.isLt) ?_
  rw [regHook_MSG_POOL_CFG n.isLt, hookMsgPoolCfg, State.takeWrite, State.writeOf_addr]

/-- A ring that is taken starts its laps anew (R97). -/
theorem State.doMsgPoolCfgWrite_ring (ho : s.writeOpen p (Reg.MSG_POOL_RING n) data = true) :
    s.doMsgPoolCfgWrite p n true data = (let t := s.setReg (Reg.MSG_POOL_RING n) (s.writeOf p (Reg.MSG_POOL_RING n) data).new
      (if t.poolBad n then s.cfgRejected
        else { t with msg := { t.msg with rings := t.msg.rings.filter (fun r => r.1 != n.val) } }).written p) := by
  rw [State.doMsgPoolCfgWrite, if_pos rfl]
  refine State.pathWrite_of_open ho (pageOf_MSG_POOL_RING n.isLt) ?_
  rw [regHook_MSG_POOL_RING n.isLt, hookMsgPoolRing, State.takeWrite, State.writeOf_addr]

end

/-- Settles O26: the next send descriptor by what it holds, where the engine may fetch it; the pools' registers by their write
rules. -/
theorem messageCommandsComplete : Obligations.MessageCommandsComplete := by
  refine ⟨?_, ?_, ?_, openStatus_mem_statusCodes, ?_, ?_, ?_, ?_, ?_⟩
  · intro s q d t hs ho he hu ht hw hslot hc hd hf hm
    exact runCmd_of_eq hs (State.doMsgSendFetch_of_other_member (s := s.fresh) ⟨ho, he, hu, ht, hw, hslot, hc⟩ hd hf hm)
  · intro s q d t hs ho he hu ht hw hslot hc hd
    exact runCmd_of_eq hs (State.doMsgSendFetch_of_poisoned (s := s.fresh) ⟨ho, he, hu, ht, hw, hslot, hc⟩ hd)
  · intro s q d t u hs ho he hu ht hw hslot hc hd hf hput
    exact runCmd_of_eq hs (State.doMsgSendFetch_of_not_formed (s := s.fresh) ⟨ho, he, hu, ht, hw, hslot, hc⟩ hd hf hput)
  · intro s q d x t u hs ho he hu ht hw hslot hc hd hf hm hk hoff hread hid
    exact runCmd_of_eq hs (State.doMsgSendFetch_of_granule (s := s.fresh) ⟨ho, he, hu, ht, hw, hslot, hc⟩ hd hf hm hk hoff
      hread hid)
  · intro s src id r hs hr hsrc hi hl hopen hlast
    exact runCmd_of_eq hs (State.doMessageAbandon_of_late (s := s.fresh) hr hsrc hi hl hopen hlast)
  · intro s p data hs ho
    exact runCmd_pathWrite_of_open hs ho (pageOf_msgPage (off := 0x700) (by decide)) regHook_MSG_POOL_FREE
  · intro s p n data hs ho
    exact runCmd_of_eq hs (State.doMsgPoolCfgWrite_cfg (s := s.fresh) ho)
  · intro s p n data hs ho
    exact runCmd_of_eq hs (State.doMsgPoolCfgWrite_ring (s := s.fresh) ho)

end Sys2Proof.Machine

/-! ### Stores to HBM as every engine sees them (R104, R289, R296, R301) -/

namespace Sys2Proof.Machine

/-! #### The Hatch decoder on a granule that no symbol error has struck -/

/-- Without symbol errors a granule decodes as it was written, in either mode: poisoned by its mask alone, else good. -/
theorem hatchDecode_errorWord_nil (mode : Nat) (p : Bool) :
    hatchDecode mode (errorWord p []) = if p then .poisoned else .good (errorWord false []) := by
  cases p with
  | false =>
    have h0 : hatchSyndromes (errorWord false []) = [0, 0, 0, 0] := by decide +kernel
    simp [hatchDecode, h0]
  | true =>
    have h0 : hatchSyndromes (errorWord true []) ≠ [0, 0, 0, 0] := by decide +kernel
    simp [hatchDecode, h0]

/-- The poison mask lies in the check bytes, none of it in the 32 data bytes. -/
theorem errorWord_nil_getD (p : Bool) {j : Nat} (h : j < 32) : (errorWord p []).getD j 0 = 0 := by
  have hj : j < (List.replicate 32 0).length := h
  rw [errorWord, List.foldl_nil, List.getD_eq_getElem?_getD, List.getElem?_append_left hj, List.getElem?_replicate_of_lt h,
    Option.getD_some]

theorem applyResidual_errorWord_nil (p : Bool) {data : List Byte} (h : data.length = 32) :
    applyResidual data (errorWord p []) = data := by
  apply List.ext_getElem
  · simp [applyResidual]
  · intro j hj hd
    have hw := errorWord_nil_getD p (j := j) (by omega)
    have hv : data.getD j 0 = data[j] := by
      rw [List.getD_eq_getElem?_getD, List.getElem?_eq_getElem hd, Option.getD_some]
    simp only [applyResidual, List.getElem_map, List.getElem_range, hw, hv]
    exact BitVec.xor_zero

/-- What is delivered is the data as written, with encryption on as with encryption off. -/
theorem State.residualData_errorWord_nil (s : State) (g : Nat) (p : Bool) {data : List Byte} (h : data.length = 32) :
    s.residualData g data (errorWord p []) = data := by
  have h0 : residualInHalf (errorWord p []) 0 = false := by revert p; decide +kernel
  have h16 : residualInHalf (errorWord p []) 16 = false := by revert p; decide +kernel
  simp [State.residualData, h0, h16, List.take_append_drop, applyResidual_errorWord_nil p h]

/-! #### Copies of lines at the memory end-point -/

@[simp] theorem EpState.line_setLine_self (e : EpState) (l : Nat) (v : LineState) : (e.setLine l v).line l = v := by
  simp [EpState.line, EpState.setLine]

theorem EpState.line_setLine_of_ne (e : EpState) {k l : Nat} (v : LineState) (h : k ≠ l) :
    (e.setLine l v).line k = e.line k := Sparse.get_set_of_ne _ _ _ h

theorem sliceD_length {α : Type} (d : α) (l : List α) (i n : Nat) : (sliceD d l i n).length = n := by
  simp only [sliceD, List.length_append, List.length_replicate, List.length_take, List.length_drop]
  omega

theorem sliceD_self {α : Type} (d : α) (l : List α) : sliceD d l 0 l.length = l := by
  simp [sliceD]

/-- A granule held is found, as far as it has its 32 bytes. -/
theorem LineCopy.find_hold_self (c : LineCopy) (i : Nat) {x : Granule} (h : x.data.length = 32) :
    (c.hold i x).find i = some x := by
  simp [LineCopy.find, LineCopy.hold, ← h, sliceD_self]

theorem LineCopy.find_hold_of_ne (c : LineCopy) {i k : Nat} (x : Granule) (h : k ≠ i) :
    (c.hold i x).find k = c.find k := by
  have hf : (fun y : Nat × Granule => decide ((y.1 != i) = true ∧ (y.1 == k) = true)) = fun y => y.1 == k := by
    funext y
    by_cases hy : y.1 = k <;> simp [hy, h]
  simp only [LineCopy.find, LineCopy.hold]
  rw [List.find?_cons_of_neg (by simpa using h.symm), List.find?_filter, hf]

theorem LineCopy.length_of_find {c : LineCopy} {i : Nat} {x : Granule} (h : c.find i = some x) : x.data.length = 32 := by
  obtain ⟨y, -, rfl⟩ := Option.map_eq_some_iff.mp h
  exact sliceD_length _ _ _ _

/-- A copied granule is the one that the copy of its line holds, where the line has a copy. -/
theorem State.copied_eq_bind (s : State) (g : Nat) :
    s.copied g = ((s.ep 16).line (g / 4)).copy.bind (fun c => c.find (g % 4)) := by
  unfold State.copied
  cases ((s.ep 16).line (g / 4)).copy with
  | none => rfl
  | some c => rfl

theorem State.length_of_copied {s : State} {g : Nat} {x : Granule} (h : s.copied g = some x) : x.data.length = 32 := by
  rw [State.copied_eq_bind, Option.bind_eq_some_iff] at h
  obtain ⟨c, -, hf⟩ := h
  exact LineCopy.length_of_find hf

/-- The copies once line `l` of the memory EP is set. -/
theorem State.copied_setLine (s : State) (l : Nat) (v : LineState) (k : Nat) :
    (s.setEp 16 ((s.ep 16).setLine l v)).copied k =
      if k / 4 = l then v.copy.bind (fun c => c.find (k % 4)) else s.copied k := by
  rw [State.copied_eq_bind, State.ep_setEp_self]
  split
  case isTrue h => rw [h, EpState.line_setLine_self]
  case isFalse h => rw [EpState.line_setLine_of_ne _ _ h, State.copied_eq_bind]

/-- A synchronised granule is held as written, where its line has a copy at all. -/
theorem State.copied_syncCopy_self (s : State) (g : Nat) {x : Granule} (h : x.data.length = 32) :
    (s.syncCopy g x).copied g = none ∨ (s.syncCopy g x).copied g = some x := by
  cases hc : ((s.ep 16).line (g / 4)).copy with
  | none =>
    left
    simp [State.syncCopy, hc, State.copied_eq_bind]
  | some c =>
    right
    simp only [State.syncCopy, hc, State.copied_setLine, if_true, Option.bind_some]
    exact LineCopy.find_hold_self c (g % 4) h

/-- Synchronising one granule leaves the copies of all others, those of its own line among them. -/
theorem State.copied_syncCopy_of_ne (s : State) {g k : Nat} (x : Granule) (h : k ≠ g) :
    (s.syncCopy g x).copied k = s.copied k := by
  cases hc : ((s.ep 16).line (g / 4)).copy with
  | none => simp [State.syncCopy, hc]
  | some c =>
    simp only [State.syncCopy, hc, State.copied_setLine, Option.bind_some]
    split
    case isTrue hl =>
      rw [State.copied_eq_bind, hl, hc]
      exact LineCopy.find_hold_of_ne c x (by omega)
    case isFalse => rfl

/-- Synchronising a copy changes nothing but the memory EP. -/
theorem State.syncCopy_eq_setEp (s : State) (g : Nat) (x : Granule) :
    s.syncCopy g x = s ∨ ∃ e, s.syncCopy g x = s.setEp 16 e := by
  simp only [State.syncCopy]
  split
  · exact .inr ⟨_, rfl⟩
  · exact .inl rfl

@[simp] theorem State.syncCopy_hbm (s : State) (g : Nat) (x : Granule) : (s.syncCopy g x).hbm = s.hbm := by
  obtain h | ⟨e, h⟩ := s.syncCopy_eq_setEp g x <;> simp [h]

@[simp] theorem State.syncCopy_plate (s : State) (g : Nat) (x : Granule) : (s.syncCopy g x).plate = s.plate := by
  obtain h | ⟨e, h⟩ := s.syncCopy_eq_setEp g x <;> simp [h]

@[simp] theorem State.syncCopy_reg (s : State) (g : Nat) (x : Granule) (a : Nat) : (s.syncCopy g x).reg a = s.reg a := by
  obtain h | ⟨e, h⟩ := s.syncCopy_eq_setEp g x <;> simp [h]

/-! #### Bytes as an engine sees and rewrites them -/

theorem State.memByte_of_copied {s : State} {a : Nat} {x : Granule} (h : s.copied (a / 32) = some x) :
    s.memByte a = x.data.getD (a % 32) 0 := by
  simp [State.memByte, h]

theorem State.memByte_of_not_copied {s : State} {a : Nat} (h : s.copied (a / 32) = none) : s.memByte a = s.hbmByte a := by
  simp [State.memByte, h]

theorem State.memByte_congr {s t : State} {a : Nat} (hc : t.copied (a / 32) = s.copied (a / 32))
    (hb : t.hbmByte a = s.hbmByte a) : t.memByte a = s.memByte a := by
  rw [State.memByte, State.memByte, hc, hb]

@[simp] theorem State.memBytes_length (s : State) (off n : Nat) : (s.memBytes off n).length = n := by
  simp [State.memBytes]

theorem State.memBytes_getD (s : State) (off : Nat) {n i : Nat} (h : i < n) :
    (s.memBytes off n).getD i 0 = s.memByte (off + i) := by
  simp [State.memBytes, h]

theorem State.memBytes_of_copied {s : State} {g : Nat} {x : Granule} (h : s.copied g = some x) :
    s.memBytes (32 * g) 32 = x.data := by
  have hx := State.length_of_copied h
  apply List.ext_getElem
  · simp [hx]
  · intro i hi hd
    have hg : (32 * g + i) / 32 = g := by omega
    have hm : (32 * g + i) % 32 = i := by omega
    simp [State.memBytes, State.memByte_of_copied (hg.symm ▸ h), hm, hd]

theorem State.memBytes_of_not_copied {s : State} {g : Nat} (h : s.copied g = none) :
    s.memBytes (32 * g) 32 = s.hbmBytes (32 * g) 32 := by
  unfold State.memBytes State.hbmBytes Sparse.getBytes
  refine List.map_congr_left fun i hi => ?_
  have hg : (32 * g + i) / 32 = g := by rw [List.mem_range] at hi; omega
  exact State.memByte_of_not_copied (hg.symm ▸ h)

theorem State.hbmPoisoned_hbmRewrite_self (s : State) (g : Nat) (data : List Byte) (poison : Bool) :
    (s.hbmRewrite g data poison).hbmPoisoned g = poison := Sparse.get_set_self _ _ _ _

theorem State.memRewrite_reg (s : State) (g : Nat) (data : List Byte) (poison : Bool) (a : Nat) :
    (s.memRewrite g data poison).reg a = s.reg a := (State.syncCopy_reg _ _ _ _).trans rfl

theorem State.memRewrite_plate (s : State) (g : Nat) (data : List Byte) (poison : Bool) :
    (s.memRewrite g data poison).plate = s.plate := (State.syncCopy_plate _ _ _).trans rfl

/-- A byte after a granule is rewritten for the engines: of that granule the new data, in HBM or in the copy of its line. -/
theorem State.memByte_memRewrite (s : State) (g : Nat) {data : List Byte} (poison : Bool) (hd : data.length = 32) (a : Nat) :
    (s.memRewrite g data poison).memByte a = if a / 32 = g then data.getD (a % 32) 0 else s.memByte a := by
  have hb : (s.memRewrite g data poison).hbmByte a = (s.hbmRewrite g data poison).hbmByte a := by
    simp [State.hbmByte, State.memRewrite]
  split
  case isTrue hg =>
    subst hg
    obtain hc | hc := State.copied_syncCopy_self (s.hbmRewrite (a / 32) data poison) (a / 32)
      (x := { data := data, poison := poison }) hd
    · rw [State.memByte_of_not_copied (s := s.memRewrite _ _ _) hc, hb, State.hbmByte_hbmRewrite, dif_pos (by omega),
        List.getD_eq_getElem?_getD, List.getElem?_eq_getElem (by omega), Option.getD_some]
      congr 1
      omega
    · exact State.memByte_of_copied hc
  case isFalse hg =>
    refine State.memByte_congr (State.copied_syncCopy_of_ne _ _ hg) ?_
    rw [hb, State.hbmByte_hbmRewrite_outside _ _ _ _ (by omega)]

/-! #### HBM without errors to come or to find -/

/-- No granule of HBM holds symbol errors, none fails its next pass through the cipher (R300), and no injection of symbol errors
is armed at the memory controllers' checking points (R469). -/
structure State.HbmClean (s : State) : Prop where
  errors : s.hbm.errors = []
  xtsBad : s.hbm.xtsBad = []
  kind : s.get (F.PG_INJ_KIND (pageBase 8 4)) = 0

theorem State.takeInjection_of_no_kind {s : State} {t i : Nat} (h : s.get (F.PG_INJ_KIND (pageBase t i)) = 0) :
    s.takeInjection t i = ([], s) := by
  simp [State.takeInjection, h]

section
variable {s : State}

theorem State.HbmClean.xtsFails (h : s.HbmClean) (g : Nat) : s.xtsFails g = false := by
  simp [State.xtsFails, h.xtsBad]

/-- A clean granule is sensed as stored, and nothing is counted or recorded. -/
theorem State.HbmClean.hbmSense (h : s.HbmClean) (g : Nat) :
    s.hbmSense g = (s.hbmBytes (32 * g) 32, s.hbmPoisoned g, s) := by
  have hd (p : Bool) := s.residualData_errorWord_nil g p (data := s.hbmBytes (32 * g) 32) (by simp [State.hbmBytes, Sparse.getBytes])
  have he : s.hbmErrors g = [] := by simp [State.hbmErrors, h.errors]
  simp only [State.hbmSense, State.takeInjection_of_no_kind h.kind, he, List.append_nil, hatchDecode_errorWord_nil]
  cases s.hbmPoisoned g with
  | false => simp [hd]
  | true => simp [hd]

/-- A read at the memory EP delivers the bytes stored; only its poison depends on the crossing (R391). -/
theorem State.HbmClean.hbmLoad (h : s.HbmClean) (g : Nat) :
    s.hbmLoad g = (s.hbmBytes (32 * g) 32, s.hbmPoisoned g || s.crossingBad g, s) := by
  simp [State.hbmLoad, State.hbmRead, h.hbmSense, h.xtsFails]

/-- A granule is loaded with the bytes that an engine sees, and the state stays as it is. -/
theorem State.HbmClean.memLoad (h : s.HbmClean) (g : Nat) : ∃ p, s.memLoad g = (s.memBytes (32 * g) 32, p, s) := by
  cases hc : s.copied g with
  | some x => exact ⟨x.poison, by simp [State.memLoad, hc, State.memBytes_of_copied hc]⟩
  | none => exact ⟨_, by simp only [State.memLoad, hc, h.hbmLoad, State.memBytes_of_not_copied hc]; rfl⟩

theorem State.HbmClean.memPut (h : s.HbmClean) (g : Nat) (data : List Byte) (poison : Bool) :
    s.memPut g data poison = s.memRewrite g data poison := by
  simp [State.memPut, State.hbmPut, h.xtsFails, State.memRewrite, State.hbmPoisoned_hbmRewrite_self]

theorem State.HbmClean.memRewrite (h : s.HbmClean) (g : Nat) (data : List Byte) (poison : Bool) :
    (s.memRewrite g data poison).HbmClean := by
  refine ⟨?_, ?_, ?_⟩
  · simp [State.memRewrite, State.hbmRewrite, h.errors, Sparse.set, Sparse.erase]
  · simp [State.memRewrite, State.hbmRewrite, h.xtsBad]
  · rw [State.get, State.memRewrite_reg]
    exact h.kind

end

/-! #### A store -/

/-- `data` in place of the bytes of `old` from index `lo`. -/
def splice (old : List Byte) (lo : Nat) (data : List Byte) : List Byte := old.take lo ++ data ++ old.drop (lo + data.length)

theorem splice_length {old : List Byte} {lo : Nat} {data : List Byte} (h : lo + data.length ≤ old.length) :
    (splice old lo data).length = old.length := by
  simp [splice]
  omega

theorem splice_whole {old data : List Byte} (h : data.length = old.length) : splice old 0 data = data := by
  simp [splice, h]

theorem splice_getD {old : List Byte} {lo : Nat} {data : List Byte} (h : lo + data.length ≤ old.length) (i : Nat) :
    (splice old lo data).getD i 0 = if lo ≤ i ∧ i < lo + data.length then data.getD (i - lo) 0 else old.getD i 0 := by
  simp only [splice, List.getD_eq_getElem?_getD, List.append_assoc, List.getElem?_append, List.length_take,
    Nat.min_eq_left (Nat.le_trans (Nat.le_add_right _ _) h), List.getElem?_take, List.getElem?_drop]
  by_cases h1 : i < lo
  · simp [h1, Nat.not_le.mpr h1]
  by_cases h2 : i < lo + data.length
  · simp [h1, h2, Nat.not_lt.mp h1, show i - lo < data.length by omega]
  · simp [h1, h2, show ¬ i - lo < data.length by omega, show lo + data.length + (i - lo - data.length) = i by omega]

/-- A store into a granule rewrites it with the data spliced in. -/
theorem State.HbmClean.hbmStoreGranule {s : State} (h : s.HbmClean) (g : Nat) {lo : Nat} {data : List Byte} (poison : Bool) :
    ∃ p, s.hbmStoreGranule g lo data poison = s.memRewrite g (splice (s.memBytes (32 * g) 32) lo data) p := by
  unfold State.hbmStoreGranule
  split
  case isTrue hw =>
    obtain ⟨rfl, hl⟩ := hw
    exact ⟨poison, by rw [h.memPut, splice_whole (by simp [hl])]⟩
  case isFalse =>
    obtain ⟨q, hq⟩ := h.memLoad g
    exact ⟨q || poison, by simp only [hq, h.memPut]; rfl⟩

/-- `t` is `s` after `bs` is stored from HBM offset `off`: those bytes read as stored and every other as before, the plate store
and the registers are as before, and HBM is clean. -/
structure State.Stored (s : State) (off : Nat) (bs : List Byte) (t : State) : Prop where
  memByte : ∀ a, t.memByte a = if off ≤ a ∧ a < off + bs.length then bs.getD (a - off) 0 else s.memByte a
  plate : t.plate = s.plate
  reg : ∀ a, t.reg a = s.reg a
  clean : t.HbmClean

theorem State.Stored.nil {s : State} (h : s.HbmClean) (off : Nat) : s.Stored off [] s where
  memByte a := (if_neg (by simp)).symm
  plate := rfl
  reg _ := rfl
  clean := h

/-- A store in two parts, one after the other. -/
theorem State.Stored.append {s t u : State} {off : Nat} {xs ys : List Byte} (h : s.Stored off xs t)
    (h' : t.Stored (off + xs.length) ys u) : s.Stored off (xs ++ ys) u where
  memByte a := by
    rw [h'.memByte, h.memByte, List.length_append]
    simp only [List.getD_eq_getElem?_getD]
    by_cases hx : off ≤ a ∧ a < off + xs.length
    · rw [if_neg (by omega), if_pos hx, if_pos (by omega), List.getElem?_append_left (by omega)]
    by_cases hy : off + xs.length ≤ a ∧ a < off + xs.length + ys.length
    · rw [if_pos hy, if_pos (by omega), List.getElem?_append_right (by omega), Nat.sub_sub]
    · rw [if_neg hy, if_neg hx, if_neg (by omega)]
  plate := h'.plate.trans h.plate
  reg a := (h'.reg a).trans (h.reg a)
  clean := h'.clean

/-- A store within one granule. -/
theorem State.HbmClean.stored_hbmStoreGranule {s : State} (h : s.HbmClean) (off : Nat) {data : List Byte} (poison : Bool)
    (hl : off % 32 + data.length ≤ 32) : s.Stored off data (s.hbmStoreGranule (off / 32) (off % 32) data poison) := by
  obtain ⟨p, hp⟩ := h.hbmStoreGranule (off / 32) (lo := off % 32) (data := data) poison
  have hold : off % 32 + data.length ≤ (s.memBytes (32 * (off / 32)) 32).length := by simpa using hl
  rw [hp]
  refine ⟨fun a => ?_, s.memRewrite_plate _ _ _, s.memRewrite_reg _ _ _, h.memRewrite _ _ _⟩
  rw [State.memByte_memRewrite _ _ _ ((splice_length hold).trans (State.memBytes_length _ _ _))]
  by_cases hg : a / 32 = off / 32
  · rw [if_pos hg, splice_getD hold, State.memBytes_getD _ _ (Nat.mod_lt _ (by decide))]
    by_cases ha : off ≤ a ∧ a < off + data.length
    · rw [if_pos ha, if_pos (by omega), show a % 32 - off % 32 = a - off by omega]
    · rw [if_neg ha, if_neg (by omega), show 32 * (off / 32) + a % 32 = a by omega]
  · rw [if_neg hg, if_neg (by omega)]

/-- A store of no more bytes than the fuel. -/
theorem State.HbmClean.stored_hbmStoreAux (fuel : Nat) : ∀ {s : State} (off : Nat) (bs : List Byte) (poison : Bool),
    s.HbmClean → bs.length ≤ fuel → s.Stored off bs (State.hbmStoreAux fuel s off bs poison) := by
  induction fuel with
  | zero =>
    intro s off bs poison h hl
    obtain rfl := List.length_eq_zero_iff.mp (Nat.le_zero.mp hl)
    exact .nil h off
  | succ n ih =>
    intro s off bs poison h hl
    cases bs with
    | nil => exact .nil h off
    | cons b bs =>
      let k := min (32 - off % 32) (b :: bs).length
      have hk : ((b :: bs).take k).length = k := List.length_take_of_le (Nat.min_le_right _ _)
      have hpos : 0 < k := by simp [k]; omega
      have h1 := h.stored_hbmStoreGranule off (data := (b :: bs).take k) poison (by omega)
      have h2 := ih (off + k) ((b :: bs).drop k) poison h1.clean (by rw [List.length_drop]; omega)
      have h3 := h1.append (ys := (b :: bs).drop k) (by rw [hk]; exact h2)
      rwa [List.take_append_drop] at h3

/-- Stored bytes read back. -/
theorem State.Stored.memBytes {s t : State} {off : Nat} {bs : List Byte} (h : s.Stored off bs t) :
    t.memBytes off bs.length = bs := by
  apply List.ext_getElem
  · simp
  · intro i hi hb
    simp [State.memBytes, h.memByte, hb]

/-- Settles O11: each granule that a store touches is read, spliced and rewritten, and where HBM is clean neither the read nor the
write has any other effect; the store then follows by induction over its granules. -/
theorem hbmStoreFrame : Obligations.HbmStoreFrame := by
  intro s off bs poison he hx hk
  have h : s.Stored off bs (s.hbmStore off bs poison) :=
    State.HbmClean.stored_hbmStoreAux bs.length off bs poison ⟨he, hx, hk⟩ (Nat.le_refl _)
  exact ⟨h.memBytes, fun a ha => (h.memByte a).trans (if_neg (by omega)), h.plate, h.reg⟩

end Sys2Proof.Machine

/-! ### Op queues and the sequencing of plate operations (R130, R134, R135, R136, R138) -/

namespace Sys2Proof.Machine

/-! #### The plate array's register pages -/

theorem pageOf_pltPage {i off : Nat} (hi : i < 9) (ho : off < 0x1000) :
    pageOf (0x1090000 + 0x1000 * i + off) = some (9, i, off) :=
  pageOf_of_eq (pg := 0x90 + i) (by omega) ho (by omega) (by omega) (by decide) (by decide) (by decide)
    (by simp only [pageBlock, Nat.le_of_lt_succ hi, if_true]; split <;> rfl)

theorem pageOf_PLT_ABORT : pageOf Reg.PLT_ABORT = some (9, 0, 0x118) :=
  pageOf_pltPage (i := 0) (off := 0x118) (by decide) (by decide)

/-- Each page after the first holds 64 op queues. -/
theorem pageOf_PLT_OQ_IDX {q : Nat} (hq : q < 512) :
    pageOf (Reg.PLT_OQ_IDX q) = some (9, q / 64 + 1, 0x120 + 0x28 * (q % 64)) := by
  have ha : Reg.PLT_OQ_IDX q = 0x1090000 + 0x1000 * (q / 64 + 1) + (0x120 + 0x28 * (q % 64)) := by
    unfold Reg.PLT_OQ_IDX
    omega
  rw [ha, pageOf_pltPage (by omega) (by omega)]

section
variable {data : Word} {aux : Option Nat} {q : Nat} {s : State} {w : RegWrite}

theorem regHook_pltPage {i off : Nat} (h : 0x100 ≤ off) : regHook data aux 9 i off s w = hookPlt i off s w := by
  simp [regHook, Nat.not_lt.mpr h]

theorem regHook_PLT_ABORT : regHook data aux 9 0 0x118 s w = hookPltAbort s w := by
  rw [regHook_pltPage (by decide), hookPlt, if_pos rfl, if_pos rfl]

theorem regHook_PLT_OQ_IDX : regHook data aux 9 (q / 64 + 1) (0x120 + 0x28 * (q % 64)) s w = hookOqIdx q s w := by
  have hreg : (0x120 + 0x28 * (q % 64) - 0x100) % 0x28 = 0x20 := by omega
  have hq : 64 * (q / 64 + 1 - 1) + (0x120 + 0x28 * (q % 64) - 0x100) / 0x28 = q := by omega
  rw [regHook_pltPage (by omega), hookPlt, if_neg (Nat.succ_ne_zero _), if_pos hreg, hq]

/-- A TAIL that software moves, that the ring holds and that no gate holds back, is in effect (R131, R132). -/
theorem hookOqIdx_of_tail (hc : q ≠ s.colq) (hn : w.newF (F.PLT_OQ_IDX_TAIL q) ≠ w.oldF (F.PLT_OQ_IDX_TAIL q))
    (ht : tailOver (s.oqN q) (s.oqHead q) (w.newF (F.PLT_OQ_IDX_TAIL q)) = false) (hg : s.oqGated q = false) :
    hookOqIdx q s w = s.setOqTail q (w.newF (F.PLT_OQ_IDX_TAIL q)) := by
  simp [hookOqIdx, State.advanceOq, State.gateTail, hc, hn, ht, hg]

end

/-! #### Selection -/

section
variable {s : State}

@[simp] theorem State.fresh_nextQueue (s : State) : s.fresh.nextQueue = s.nextQueue := by
  have h : s.fresh.oqReady = s.oqReady := funext s.fresh_oqReady
  unfold State.nextQueue
  rw [h, State.fresh_plate]

/-- An array that is idle at a slot frame boundary, in a calm device that lets it run, serves the next ready queue (R134). -/
theorem State.doQueueSelect_of_ready {q : Nat} (hp : s.plate.phase = .idle) (hh : s.arrayHeld = false)
    (hf : s.slotFrame = true) (he : s.flag F.PLT_CTL_EN = true) (ho : s.hbmOpen = true)
    (hw : s.flag F.PWR_STAT_WARN = false) (hq : s.nextQueue = some q) (hs : s.staggerOk = true) :
    s.doQueueSelect = s.selectQueue q := by
  simp [State.doQueueSelect, hp, hh, hf, he, ho, hw, hq, hs]

/-- An array that runs, or is ramping up, has somewhere to ramp down from (R445). -/
theorem State.rampIdle_of_up (h : s.get F.PWR_STAT_ARRAY = 1 ∨ s.get F.PWR_STAT_ARRAY = 2) : s.rampIdle = s.ramp false := by
  rw [State.rampIdle, if_pos h]

theorem State.doQueueSelect_of_none_ready (hp : s.plate.phase = .idle) (hh : s.arrayHeld = false)
    (hf : s.slotFrame = true) (he : s.flag F.PLT_CTL_EN = true) (ho : s.hbmOpen = true)
    (hw : s.flag F.PWR_STAT_WARN = false) (hq : s.nextQueue = none) : s.doQueueSelect = s.rampIdle := by
  simp [State.doQueueSelect, hp, hh, hf, he, ho, hw, hq]

theorem State.doQueueSelect_of_warned (hp : s.plate.phase = .idle) (hh : s.arrayHeld = false) (hf : s.slotFrame = true)
    (hw : s.flag F.PWR_STAT_WARN = true) : s.doQueueSelect = s.rampIdle := by
  simp [State.doQueueSelect, hp, hh, hf, hw]

end

/-! #### Plans -/

theorem PlateOp.failWith_of_none {o : PlateOp} (h : o.fail = none) (st : Nat) : o.failWith st = { o with fail := some st } := by
  rw [PlateOp.failWith, h, Option.getD_none]

/-- Where nothing asks for the operation's abort, taking up what does leaves it as it is. -/
theorem PlateOp.set_aborted_self {o : PlateOp} {b : Bool} (h : o.aborted = b) : { o with aborted := b } = o := by
  subst h
  rfl

/-- The aborts remembered are in no plan's checks. -/
theorem State.setPlate_planRefused (s : State) (x : PlateState) (q : Nat) (chain : List (List Byte)) (d : List Byte)
    (hold : Option (Option Nat)) :
    ({ s with plate := x } : State).planRefused q chain d hold = s.planRefused q chain d hold := rfl

/-- What PLAN_DONE makes of operation `o` of software, once every abort of it is taken up (R138). -/
def State.checkPlan (s : State) (o : PlateOp) : State :=
  if o.malformed then s.startRetire (o.failWith 0x23)
  else if o.ending then s.startRetire o
  else if s.planRefused o.queue o.chain o.desc o.hold then s.startRetire (o.failWith 0x23)
  else
    let p := { o with strokes := dStrokes o.desc, bset := o.hold.getD none }
    if s.boundResigned p then s.startRetire { p.failWith 0x31 with tainted := true } else s.startStroke p

/-- PLAN_DONE acts on operation `o`, fetched in turn `since`: an operation of software with its 64 turns over, that nothing has
failed, aborted or warned of so far. -/
structure State.Planned (s : State) (o : PlateOp) (since : Nat) : Prop where
  phase : s.plate.phase = .planning since
  op : s.plate.op = some o
  held : s.arrayHeld = false
  frame : s.slotFrame = true
  due : since + 64 ≤ s.clk
  job : o.job = none
  aborts : s.plate.aborts = []
  warned : o.warned = false
  formed : o.malformed = false
  fail : o.fail = none
  aborted : o.aborted = false

section
variable {s : State} {o : PlateOp} {since : Nat}

theorem State.Planned.not_malformed (h : s.Planned o since) : ¬o.malformed = true := Bool.eq_false_iff.mp h.formed

theorem State.Planned.not_ending (h : s.Planned o since) : ¬o.ending = true := by
  simp [PlateOp.ending, h.fail, h.aborted]

/-- A plan is checked with what has asked for the operation's abort taken up. -/
theorem State.Planned.doPlanDone (h : s.Planned o since) :
    s.doPlanDone = ({ s with plate := { s.plate with aborts := [] } } : State).checkPlan o := by
  have hself : { o with aborted := o.aborted || false || o.warned } = o :=
    PlateOp.set_aborted_self (by simp [h.warned])
  have hnot : ¬(s.arrayHeld = true ∨ s.slotFrame = false ∨ s.clk < since + 64) := by
    simp [h.held, h.frame, h.due]
  have hjob : ¬o.job.isSome = true := by simp [h.job]
  rw [← hself]
  simp only [State.doPlanDone, h.phase, h.op, if_neg hnot, if_neg hjob, h.aborts, List.any_nil, List.filter_nil]
  rfl

/-- A plan that is good starts its first stroke (R138). -/
theorem State.Planned.doPlanDone_of_good (h : s.Planned o since) (hr : s.planRefused o.queue o.chain o.desc o.hold = false)
    (hb : s.boundResigned { o with strokes := dStrokes o.desc, bset := o.hold.getD none } = false) :
    s.doPlanDone = ({ s with plate := { s.plate with aborts := [] } } : State).startStroke { o with
      strokes := dStrokes o.desc
      bset := o.hold.getD none } := by
  rw [h.doPlanDone, State.checkPlan, if_neg h.not_malformed, if_neg h.not_ending, State.setPlate_planRefused,
    if_neg (Bool.eq_false_iff.mp hr)]
  exact if_neg (Bool.eq_false_iff.mp hb)

theorem State.Planned.doPlanDone_of_refused (h : s.Planned o since)
    (hr : s.planRefused o.queue o.chain o.desc o.hold = true) :
    s.doPlanDone = ({ s with plate := { s.plate with aborts := [] } } : State).startRetire { o with fail := some 0x23 } := by
  rw [h.doPlanDone, State.checkPlan, if_neg h.not_malformed, if_neg h.not_ending, State.setPlate_planRefused, if_pos hr,
    PlateOp.failWith_of_none h.fail]

/-! #### Rounds and preemption -/

/-- A round that is over ends only where another queue is ready (R135). -/
theorem State.doRoundExpire_of_other (ho : s.plate.op = some o) (hr : s.plate.roundAt + s.plate.roundLen ≤ s.clk)
    (he : s.plate.expired = false) (hq : s.otherReady o.queue = true) :
    s.doRoundExpire = ({ s with plate := { s.plate with expired := true } } : State) := by
  simp [State.doRoundExpire, ho, Nat.not_lt.mpr hr, he, hq]

/-- The save is over: the operation, with what its chain has buffered, waits among the saved ones (R136). -/
theorem State.doCarrySaveDone_of_due {due : Nat} (hp : s.plate.phase = .saving due) (ho : s.plate.op = some o)
    (hh : s.arrayHeld = false) (hf : s.slotFrame = true) (hd : due ≤ s.clk) (hm : s.hbmOpen = true) :
    s.doCarrySaveDone = (let t := s.writeCarry o
      (({ t with plate := { t.plate with
        saved := t.plate.saved ++ [{ o with bufs := t.plate.chainBufs }]
        chainBufs := [] } } : State).setArray .idle none).count F.PLT_CNT_PREEMPT 1) := by
  simp [State.doCarrySaveDone, hp, ho, hh, hf, Nat.not_lt.mpr hd, hm]

/-- The restore is over: an operation saved between two strokes, and not aborted since, goes on (R136). -/
theorem State.doCarryRestoreDone_of_due {due : Nat} {bad : Bool} {t : State} (hp : s.plate.phase = .restoring due)
    (ho : s.plate.op = some o) (hh : s.arrayHeld = false) (hf : s.slotFrame = true) (hd : due ≤ s.clk)
    (hm : s.hbmOpen = true) (hw : o.warned = false) (ha : o.aborted = false) (hs : o.strokes ≠ 0)
    (hr : s.readCarry o = (bad, t)) :
    s.doCarryRestoreDone = ({ t with plate := { t.plate with
        chainBufs := if bad then o.bufs.map (fun e => (e.1, { e.2 with poison := true })) else o.bufs } } : State).startStroke
      { o with
        carryBad := o.carryBad || bad
        bufs := [] } := by
  have hab : (o.aborted || o.warned) = o.aborted := by simp [hw]
  have hnot : ¬(s.arrayHeld = true ∨ s.slotFrame = false ∨ s.clk < due ∨ s.hbmOpen = false) := by simp [hh, hf, hd, hm]
  unfold State.doCarryRestoreDone
  rw [hp, ho]
  refine (if_neg hnot).trans ?_
  rw [hr]
  refine (if_neg (by simp [ha, hw])).trans ((if_neg hs).trans ?_)
  dsimp only
  rw [hab]

end

/-- Settles O27: a TAIL by its register's rule, the others by their effect where the array is at the point that they name. What
the carry area holds of a saved operation is the model's choice (notes/assumptions/58). -/
theorem plateSequenceCommandsComplete : Obligations.PlateSequenceCommandsComplete := by
  refine ⟨?_, ?_, ?_, ?_, ?_, ?_, ?_, ?_, ?_⟩
  · intro s p q data hs ho hc hn ht hg
    exact runCmd_pathWrite_of_open hs ho (pageOf_PLT_OQ_IDX q.isLt)
      (regHook_PLT_OQ_IDX.trans (hookOqIdx_of_tail (s := s.fresh) hc hn ht hg))
  · intro s q hs hp hh hf he ho hw hq hst
    exact runCmd_of_eq hs (State.doQueueSelect_of_ready (s := s.fresh) hp hh hf he ho hw
      ((State.fresh_nextQueue s).trans hq) hst)
  · intro s hs hp hh hf he ho hw hq ha
    exact runCmd_of_eq hs ((State.doQueueSelect_of_none_ready (s := s.fresh) hp hh hf he ho hw
      ((State.fresh_nextQueue s).trans hq)).trans (State.rampIdle_of_up (s := s.fresh) (.inr ha)))
  · intro s hs hp hh hf hw ha
    exact runCmd_of_eq hs ((State.doQueueSelect_of_warned (s := s.fresh) hp hh hf hw).trans
      (State.rampIdle_of_up (s := s.fresh) ha))
  · intro s o since hs hp ho hh hf hd hj hab hw hm hfail ha hr hb
    exact runCmd_of_eq hs (State.Planned.doPlanDone_of_good (s := s.fresh) ⟨hp, ho, hh, hf, hd, hj, hab, hw, hm, hfail, ha⟩
      hr hb)
  · intro s o since hs hp ho hh hf hd hj hab hw hm hfail ha hr
    exact runCmd_of_eq hs (State.Planned.doPlanDone_of_refused (s := s.fresh)
      ⟨hp, ho, hh, hf, hd, hj, hab, hw, hm, hfail, ha⟩ hr)
  · intro s o hs ho hr he hq
    exact runCmd_of_eq hs (State.doRoundExpire_of_other (s := s.fresh) ho hr he hq)
  · intro s o due hs hp ho hh hf hd hm
    exact runCmd_of_eq hs (State.doCarrySaveDone_of_due (s := s.fresh) hp ho hh hf hd hm)
  · intro s o due hs hp ho hh hf hd hm hw ha hst
    exact runCmd_of_eq hs (State.doCarryRestoreDone_of_due (s := s.fresh) hp ho hh hf hd hm hw ha hst
      (Prod.eta _).symm)

end Sys2Proof.Machine

/-! ### Strokes, retirement, aborts and ready flags (R129, R141, R142, R145, R200) -/

namespace Sys2Proof.Machine

/-! #### What the outputs of a stroke leave alone of the device's number -/

namespace State.MsgFrame

variable {r s t : State}

theorem member (h : s.MsgFrame t) : t.member = s.member := by
  change fieldGet (t.reg Reg.MGT_ID) 6 0 = fieldGet (s.reg Reg.MGT_ID) 6 0
  rw [h.id]

theorem hbmRewrite (h : r.MsgFrame s) (g : Nat) (data : List Byte) (poison : Bool) : r.MsgFrame (s.hbmRewrite g data poison) :=
  h.of_eq rfl rfl

theorem memPut (h : r.MsgFrame s) (g : Nat) (data : List Byte) (poison : Bool) : r.MsgFrame (s.memPut g data poison) :=
  (((h.xtsFault g false).hbmRewrite g data true).ite (h.hbmRewrite g data poison)).syncCopy _ _

theorem hbmStoreGranule (h : r.MsgFrame s) (g lo : Nat) (data : List Byte) (poison : Bool) :
    r.MsgFrame (s.hbmStoreGranule g lo data poison) :=
  (h.memPut g data poison).ite ((h.memLoad g).memPut g _ _)

theorem hbmStoreAux (fuel : Nat) : ∀ {s : State} (off : Nat) (bs : List Byte) (poison : Bool), r.MsgFrame s →
    r.MsgFrame (State.hbmStoreAux fuel s off bs poison) := by
  induction fuel with
  | zero => exact fun _ _ _ h => h
  | succ n ih =>
    intro s off bs poison h
    cases bs with
    | nil => exact h
    | cons b bs => exact ih _ _ _ (h.hbmStoreGranule _ _ _ _)

theorem hbmStore (h : r.MsgFrame s) (off : Nat) (bs : List Byte) (poison : Bool) : r.MsgFrame (s.hbmStore off bs poison) :=
  hbmStoreAux _ off bs poison h

theorem writePlace (h : r.MsgFrame s) (p : Place) (x : Granule) : r.MsgFrame (s.writePlace p x) := by
  cases p with
  | hbm g => exact (h.activate _).hbmStoreGranule _ _ _ _
  | plate g => exact h.of_eq rfl rfl
  | chain key => exact h.of_eq rfl rfl
  | remote => exact h

theorem setTwnWin (h : r.MsgFrame s) (x : TwnWindow) : r.MsgFrame (s.setTwnWin x) := h.of_eq rfl rfl

theorem twnPlate (h : r.MsgFrame s) (g : Granule) : r.MsgFrame (s.twnPlate g) := by
  simp only [State.twnPlate]
  exact (((h.setTwnWin _).hbmStore _ _ _).ite (h.setTwnWin _)).ite h

end State.MsgFrame

/-- A stroke's outputs go where the device's number says, which none of them changes on the way. -/
theorem State.MsgFrame.foldl_writePlace {s : State} (d : List Byte) (outs : GranMap) : ∀ {t : State}, s.MsgFrame t →
    outs.foldl (fun u e => (u.writePlace (granPlace u.member d (keySlot e.1) (keyIndex e.1)) e.2).twnPlate e.2) t =
      outs.foldl (fun u e => (u.writePlace (granPlace s.member d (keySlot e.1) (keyIndex e.1)) e.2).twnPlate e.2) t := by
  induction outs with
  | nil => exact fun _ => rfl
  | cons e outs ih =>
    intro t h
    rw [List.foldl_cons, List.foldl_cons, h.member]
    exact ih ((h.writePlace _ _).twnPlate _)

/-! #### Write-out -/

/-- WRITE_OUT_START reads what operation `a` still lacks: its stroke, begun in turn `since`, has the turns before its write-out and
its cell steps behind it. -/
structure State.WriteOutDue (s : State) (a : PlateOp) (since : Nat) : Prop where
  phase : s.plate.phase = .stroke since
  op : s.plate.op = some a
  held : s.arrayHeld = false
  ending : a.ending = false
  job : a.job = none
  before : since + dBefore s.member (s.opBase a) a.desc a.stroke / 8 ≤ s.clk
  cells : s.cellsDone a / 8 ≤ s.clk

/-- Operation `o` has all that its stroke computes with, and no host page and no collective to wait for. -/
structure State.StrokeReady (s : State) (o : PlateOp) : Prop where
  op : s.plate.op = some o
  ending : o.ending = false
  stage : 2 ≤ o.stage
  host : s.hostPending o.queue = false
  bound : (s.boundTo o).isSome = false

section
variable {s g : State} {a o : PlateOp} {since : Nat}

theorem State.WriteOutDue.not_held (h : s.WriteOutDue a since) :
    ¬(s.arrayHeld = true ∨ a.ending = true ∨ a.job.isSome = true ∨
      s.clk < since + dBefore s.member (s.opBase a) a.desc a.stroke / 8 ∨ s.clk < s.cellsDone a / 8) := by
  simp [h.held, h.ending, h.job, h.before, h.cells]

theorem State.StrokeReady.not_waiting (h : g.StrokeReady o) :
    ¬(o.ending = true ∨ o.stage < 2 ∨ g.hostPending o.queue = true ∨ (g.boundTo o).isSome = true) := by
  have hstage : ¬o.stage < 2 := Nat.not_lt.mpr h.stage
  simp only [h.ending, hstage, h.host, h.bound, Bool.false_eq_true, or_self, not_false_eq_true]

/-- Unless a result is one that the operation must not write, which fails it (R143), the stroke's results are fixed and what leaves
the device goes out: granules first, then atomics (R129). -/
theorem State.WriteOutDue.doWriteOutStart (hs : s.WriteOutDue a since) (hg : State.gather 3 s = g) (ho : g.StrokeReady o) :
    s.doWriteOutStart = if (g.opResult o).fault then g.setOp (o.failWith 0x23) else
      (let r := g.opResult o
      let f := g.fixOuts o.desc (if o.carryBad then r.outs.map (fun e => (e.1, { e.2 with poison := true })) else r.outs)
      let far := f.1.filter (fun e => granRemote f.2.member o.desc (keySlot e.1) (keyIndex e.1))
      let t := f.2.setArray (.writing since f.2.clk) (some { o with
        outs := f.1
        carry := r.carry
        pendingOut := far.length + r.atomics.length
        poisoned := o.poisoned || o.carryBad || o.fetched.any (fun e => e.2.poison) })
      let u := far.foldl (fun (u : State) e => u.issueGranule o.queue (slotRight u.member o.desc (keySlot e.1)) (granAddr o.desc
        (keySlot e.1) (keyIndex e.1)) e.2 (.plate o.queue)) t
      r.atomics.foldl (fun (u : State) x => u.issueData o.queue x.op x.addr 8 (toBytesLE 32 x.data) x.xfmt x.poison
        (.plate o.queue)) u) := by
  unfold State.doWriteOutStart
  rw [hs.phase, hs.op]
  refine (if_neg hs.not_held).trans ?_
  extract_lets s1
  obtain rfl : s1 = g := hg
  rw [ho.op]
  exact if_neg ho.not_waiting

end

/-! #### The end of a stroke -/

/-- STROKE_END finds the write-out of operation `o` complete: at a slot frame boundary, with its turns over, its requests ended
and its stream units served. -/
structure State.StrokeOver (s : State) (o : PlateOp) (since at' : Nat) : Prop where
  held : s.arrayHeld = false
  frame : s.slotFrame = true
  phase : s.plate.phase = .writing since at'
  op : s.plate.op = some o
  due : s.strokeDue o since at' ≤ s.clk
  pending : o.pendingOut = 0
  stream : s.streamOpen o = true

section
variable {s : State} {o : PlateOp} {since at' : Nat}

theorem State.StrokeOver.doStrokeEnd (h : s.StrokeOver o since at') :
    s.doStrokeEnd = if o.fail.isSome then s.startRetire { o with active := o.active + s.strokeActive o since }
      else (o.outs.foldl (fun t e =>
          (t.writePlace (granPlace s.member o.desc (keySlot e.1) (keyIndex e.1)) e.2).twnPlate e.2) s).afterStroke { o with
        written := o.outs.foldl (fun m e => putGran m e.1 e.2) o.written
        stroke := o.stroke + 1
        active := o.active + s.strokeActive o since
        aborted := o.aborted || o.warned } := by
  have hheld : ¬(s.arrayHeld = true ∨ s.slotFrame = false) := by simp [h.held, h.frame]
  have hopen : ¬(s.clk < s.strokeDue o since at' ∨ o.pendingOut ≠ 0 ∨ s.streamOpen o = false) := by
    simp [h.due, h.pending, h.stream]
  unfold State.doStrokeEnd
  rw [if_neg hheld, h.phase, h.op]
  refine (if_neg hopen).trans ?_
  rw [← (State.MsgFrame.refl s).foldl_writePlace]

end

/-! #### Retirement -/

/-- OPERATION_RETIRE finds operation `o` of software at its retire point: 32 turns after its last stroke, nothing of it open
(R142). -/
structure State.RetireDue (s : State) (o : PlateOp) (since : Nat) : Prop where
  phase : s.plate.phase = .retiring since
  op : s.plate.op = some o
  held : s.arrayHeld = false
  frame : s.slotFrame = true
  due : since + 32 ≤ s.clk
  pending : o.pendingOut = 0
  wanted : o.wanted = []
  hbm : s.hbmOpen = true
  job : o.job = none

/-- The record is written, and the next member of the operation's chain follows, or the array is free of it. -/
theorem State.RetireDue.doOperationRetire {s : State} {o : PlateOp} {since : Nat} (h : s.RetireDue o since) :
    s.doOperationRetire = (let t := s.writeRecord o
      if o.member + 1 < o.chain.length then
        let n := o.nextMember (2 * t.oqN o.queue) o.status
        if t.mustYield o.queue then t.startSave n else t.fetchMember n
      else t.afterOp o.queue) := by
  have hopen : ¬(s.arrayHeld = true ∨ s.slotFrame = false ∨ s.clk < since + 32 ∨ o.pendingOut ≠ 0 ∨ o.wanted ≠ [] ∨
      s.hbmOpen = false) := by
    simp [h.held, h.frame, h.due, h.pending, h.wanted, h.hbm]
  unfold State.doOperationRetire
  rw [h.phase, h.op]
  refine (if_neg hopen).trans ?_
  rw [h.job]

/-! #### Aborts -/

theorem State.doPltAbort_of_open {s : State} {p : Path} {data : Word} (ho : s.writeOpen p Reg.PLT_ABORT data = true) :
    s.doPltAbort p data = (let w := s.writeOf p Reg.PLT_ABORT data
      (s.abortOp (w.actF F.PLT_ABORT_QUEUE) (w.actF F.PLT_ABORT_INDEX)).written p) :=
  State.pathWrite_of_open ho pageOf_PLT_ABORT regHook_PLT_ABORT

/-! #### Ready flags -/

section
variable {s : State} {o : PlateOp}

/-- The flags' granules are read in order, and the pieces that are newly ready are fetched in ascending order (R200). -/
theorem State.doReadyFlagPoll_of_polling (hp : s.polling = some o) (hh : s.arrayHeld = false) (hf : s.slotFrame = true)
    (ho : s.streamOpen o = true) :
    s.doReadyFlagPoll = (let r := ((List.range (ceilDiv (gmP o.desc) 4)).foldl (fun (acc : List Granule × State) i =>
        ((acc.1 ++ [(acc.2.readPlace (granPlace s.member o.desc 2 i)).1]), (acc.2.readPlace (granPlace s.member o.desc 2 i)).2))
        ([], s))
      let ready := (List.range (gmP o.desc)).filter (fun j =>
        !o.ready.contains j && !(r.1.getD (j / 4) zeroGranule).poison &&
          bytesAt (r.1.getD (j / 4) zeroGranule).data (8 * (j % 4)) 8 == dP o.desc 120 8)
      State.gather 3 (ready.foldl State.fetchPiece r.2)) := by
  have hopen : ¬(s.arrayHeld = true ∨ s.slotFrame = false ∨ s.streamOpen o = false) := by simp [hh, hf, ho]
  unfold State.doReadyFlagPoll
  rw [hp]
  refine (if_neg hopen).trans ?_
  rfl

/-- A READY_LIMIT without progress ends the operation Lost (R141). -/
theorem State.doReadyLimitExpire_of_late (hp : s.polling = some o) (hh : s.arrayHeld = false)
    (hl : o.progressAt + s.get F.PLT_LIMIT_READY_LIMIT ≤ s.clk) (hf : o.fail = none) :
    s.doReadyLimitExpire = s.setOp { o with fail := some 0x14 } := by
  unfold State.doReadyLimitExpire
  rw [hp]
  exact (if_pos ⟨hh, hl⟩).trans (congrArg s.setOp (PlateOp.failWith_of_none hf _))

end

/-- Settles O28: each command's effect where its trigger is met, by the lemma about that effect; an abort by its register's rule.
Operands are read when the write-out starts (notes/assumptions/55), and cell steps wait for them (notes/assumptions/58). -/
theorem plateStrokeCommandsComplete : Obligations.PlateStrokeCommandsComplete := by
  refine ⟨?_, ?_, ?_, ?_, ?_, ?_, ?_, ?_, ?_⟩
  · intro s g a o since hs hp ha hh hend hj hb hc hg ho hoend hst hhost hbound hr
    have h : s.fresh.WriteOutDue a since := ⟨hp, ha, hh, hend, hj, hb, hc⟩
    exact runCmd_of_eq hs ((h.doWriteOutStart hg ⟨ho, hoend, hst, hhost, hbound⟩).trans (if_neg (Bool.eq_false_iff.mp hr)))
  · intro s g a o since hs hp ha hh hend hj hb hc hg ho hoend hst hhost hbound hr
    have h : s.fresh.WriteOutDue a since := ⟨hp, ha, hh, hend, hj, hb, hc⟩
    exact runCmd_of_eq hs ((h.doWriteOutStart hg ⟨ho, hoend, hst, hhost, hbound⟩).trans (if_pos hr))
  · intro s o since at' hs hh hf hp ho hd hpend hst hfail
    have h : s.fresh.StrokeOver o since at' := ⟨hh, hf, hp, ho, hd, hpend, hst⟩
    exact runCmd_of_eq hs (h.doStrokeEnd.trans (if_neg (by simp [hfail])))
  · intro s o since at' hs hh hf hp ho hd hpend hst hfail
    have h : s.fresh.StrokeOver o since at' := ⟨hh, hf, hp, ho, hd, hpend, hst⟩
    exact runCmd_of_eq hs (h.doStrokeEnd.trans (if_pos hfail))
  · intro s o since hs hp ho hh hf hd hpend hw hm hj hlast
    have h : s.fresh.RetireDue o since := ⟨hp, ho, hh, hf, hd, hpend, hw, hm, hj⟩
    exact runCmd_of_eq hs (h.doOperationRetire.trans (if_neg (Nat.not_lt.mpr hlast)))
  · intro s o since hs hp ho hh hf hd hpend hw hm hj hnext
    have h : s.fresh.RetireDue o since := ⟨hp, ho, hh, hf, hd, hpend, hw, hm, hj⟩
    exact runCmd_of_eq hs (h.doOperationRetire.trans (if_pos hnext))
  · intro s p data hs ho
    exact runCmd_of_eq hs (State.doPltAbort_of_open (s := s.fresh) ho)
  · intro s o hs hp hh hf ho
    exact runCmd_of_eq hs (State.doReadyFlagPoll_of_polling (s := s.fresh) hp hh hf ho)
  · intro s o hs hp hh hl hfail
    exact runCmd_of_eq hs (State.doReadyLimitExpire_of_late (s := s.fresh) hp hh hl hfail)

end Sys2Proof.Machine

/-! ### Collectives: starts, resigns and the series of CSEQ values (R205, R206, R223, R228) -/

namespace Sys2Proof.Machine

/-! #### The collective engine's register page -/

theorem pageOf_COL_CTL : pageOf Reg.COL_CTL = some (10, 0, 0x100) :=
  pageOf_of_eq (pg := 0xa0) rfl (by decide) rfl rfl (by decide) (by decide) (by decide) (by decide)

theorem pageOf_COL_RESIGN : pageOf Reg.COL_RESIGN = some (10, 0, 0x120) :=
  pageOf_of_eq (pg := 0xa0) rfl (by decide) rfl rfl (by decide) (by decide) (by decide) (by decide)

section
variable {data : Word} {aux : Option Nat} {s : State} {w : RegWrite}

theorem regHook_COL_CTL : regHook data aux 10 0 0x100 s w = hookColCtl s w := by
  simp [regHook, hookCol]

theorem regHook_COL_RESIGN : regHook data aux 10 0 0x120 s w = hookColResign s w := by
  simp [regHook, hookCol]

/-- RESEQ ends the series, and is not stored (R206). -/
theorem hookColCtl_of_reseq (h : w.actF F.COL_CTL_RESEQ = 1) :
    hookColCtl s w = (s.takeWrite (w.setNew F.COL_CTL_RESEQ 0)).putFlag F.COL_STAT_SERIES false := by
  simp [hookColCtl, h]

theorem hookColResign_of_active {c : Coll}
    (h : s.col.active.find? (fun c => cCseq c.desc == w.actF F.COL_RESIGN_CSEQ) = some c) :
    hookColResign s w = s.colResignFor c 1 := by
  simp [hookColResign, h]

theorem hookColResign_of_waiting {d : List Byte} (ha : s.col.active = [])
    (h : s.colWaiting.find? (fun d => cCseq d == w.actF F.COL_RESIGN_CSEQ) = some d) :
    hookColResign s w = s.resignWaiting d 1 := by
  simp [hookColResign, ha, h]

end

/-! #### Starts -/

section
variable {s t : State} {q off : Nat} {d : List Byte}

/-- A due descriptor of the kind that the command starts, of constant counts and of DOMAIN scope, starts its collective: as one of
one domain, with no send counts to read (R205, R206, R209). -/
theorem State.startColl_of_due {small : Bool} (hh : s.colHead q = some off) (hd : s.hbmFetch off 128 = (d, false, t))
    (hr : s.colRoom = true) (hc : s.cseqDue (cCseq d) = true) (hk : (cOp d == coSmall) = small) (hv : cVar d = false)
    (hs : cSys d = false) :
    s.startColl q small = (let h := s.get (F.COL_Q_IDX_HEAD q) % (2 * s.colN q)
      let c : Coll := { queue := q, index := h, desc := d, n := s.get F.COL_TOPO_N, d := 1, rank := s.get F.COL_TOPO_RANK, dom := 0,
                        step := .barrier, since := s.clk }
      let u := ((((t.setActive (t.col.active.filter (fun (x : Coll) => x.tag != c.tag) ++ [c])).put (F.COL_Q_IDX_HEAD q)
        ((h + 1) % (2 * s.colN q))).put F.COL_STAT_LAST_CSEQ (cCseq d)).putFlag F.COL_STAT_SERIES true)
      match u.earlyResign c.tag with
      | some (cause, who) => u.colOutcome c { completed := false, cause := cause, resigner := who, members := 0 }
      | none => if u.colValid c then u.colBegin c else u.colResignFor c 2) := by
  have hmay : (!s.colRoom || !s.cseqDue (cCseq d) || small != (cOp d == coSmall)) = false := by simp [hr, hc, hk]
  have hcounts : (chunks 8 ([] : List Byte)).map ofBytesLE = [] := rfl
  have hstart := State.startColl.eq_def s q small
  simp only [hh, hd, hmay, hv, hs, hcounts, Bool.false_and, Bool.false_eq_true, if_false, Bool.false_or, Bool.not_eq_true',
    ← Bool.not_eq_true, ite_not] at hstart
  exact hstart

/-- A descriptor whose CSEQ is not the next one waits (R206). -/
theorem State.startColl_of_not_due {small : Bool} (hh : s.colHead q = some off)
    (hc : s.cseqDue (cCseq (s.hbmFetch off 128).1) = false) : s.startColl q small = s := by
  unfold State.startColl
  rw [hh]
  dsimp only
  generalize s.hbmFetch off 128 = x at hc ⊢
  exact if_pos (by simp [hc])

/-- Too late to start, the collective of a move list is resigned, unless it has started or been resigned already (R228). -/
theorem State.doMoveListLateCheck_of_late {q : Fin 512} (hh : s.colHead q = some off) (hm : cMlist (s.memBytes off 128) ≠ 0)
    (hl : cStart (s.memBytes off 128) < s.now + 4096) (hc : s.coll (cCseq (s.memBytes off 128) % 65536) = none)
    (he : s.earlyResign (cCseq (s.memBytes off 128) % 65536) = none) :
    s.doMoveListLateCheck q = s.resignWaiting (s.memBytes off 128) 8 := by
  simp [State.doMoveListLateCheck, hh, hm, Nat.not_le.mpr hl, hc, he]

end

/-- Settles O29: a start by what the head descriptor holds and whether its CSEQ is due, RESEQ by its register's rule. -/
theorem collectiveStartsComplete : Obligations.CollectiveStartsComplete := by
  refine ⟨?_, ?_, ?_, ?_, ?_⟩
  · intro s t q off d hs hh hd hr hc hk hv hsys
    exact runCmd_of_eq hs (State.startColl_of_due (s := s.fresh) hh hd hr hc (beq_eq_false_iff_ne.mpr hk) hv hsys)
  · intro s t q off d hs hh hd hr hc hk hv hsys
    exact runCmd_of_eq hs (State.startColl_of_due (s := s.fresh) hh hd hr hc (beq_iff_eq.mpr hk) hv hsys)
  · intro s q off hs hh hc
    exact runCmd_of_eq hs (State.startColl_of_not_due (s := s.fresh) hh hc)
  · intro s q off hs hh hm hl hc he
    exact runCmd_of_eq hs (State.doMoveListLateCheck_of_late (s := s.fresh) hh hm hl hc he)
  · intro s p data hs ho hr
    exact runCmd_pathWrite_of_open hs ho pageOf_COL_CTL (regHook_COL_CTL.trans (hookColCtl_of_reseq (s := s.fresh) hr))

end Sys2Proof.Machine

/-! ### What issuing a request leaves alone of the device's number -/

namespace Sys2Proof.Machine

/-- The order counters and the denials of an end-point, and the counters of a port, lie elsewhere in their pages than MGT_ID
does. -/
theorem Reg.REP_ORD_CNT_ne_MGT_ID (n : Nat) : Reg.REP_ORD_CNT n ≠ Reg.MGT_ID := by
  unfold Reg.REP_ORD_CNT Reg.MGT_ID
  omega

theorem Reg.REP_WIN_DENY_ne_MGT_ID (n : Nat) : Reg.REP_WIN_DENY n ≠ Reg.MGT_ID := by
  unfold Reg.REP_WIN_DENY Reg.MGT_ID
  omega

theorem Reg.SWX_P_THR_ne_MGT_ID (p : Nat) : Reg.SWX_P_THR p ≠ Reg.MGT_ID := by
  unfold Reg.SWX_P_THR Reg.MGT_ID
  omega

namespace State.MsgFrame

variable {r s t : State}

/-- Folds of two functions from a state agree where the functions agree on every state that has its number and message engine,
and the second keeps these. -/
theorem foldl_congr {α : Type} {f g : State → α → State} (hfg : ∀ t a, s.MsgFrame t → f t a = g t a)
    (hg : ∀ t a, s.MsgFrame t → s.MsgFrame (g t a)) (l : List α) :
    ∀ {t : State}, s.MsgFrame t → l.foldl f t = l.foldl g t := by
  induction l with
  | nil => exact fun _ => rfl
  | cons a l ih =>
    intro t h
    rw [List.foldl_cons, List.foldl_cons, hfg t a h]
    exact ih (hg t a h)

theorem setQueue (h : r.MsgFrame s) (q : Nat) (v : QueueState) : r.MsgFrame (s.setQueue q v) := h.of_eq rfl rfl

theorem setTracker (h : r.MsgFrame s) (t : Tracker) : r.MsgFrame (s.setTracker t) := h.of_eq rfl rfl

theorem tell (h : r.MsgFrame s) (d : Done) : r.MsgFrame (s.tell d) := h.of_eq rfl rfl

theorem freeNext (h : r.MsgFrame s) : r.MsgFrame s.freeNext := h.of_eq rfl rfl

theorem orderTaken (h : r.MsgFrame s) : r.MsgFrame s.orderTaken := h.of_eq rfl rfl

/-! #### The switch core -/

theorem checkPoint (h : r.MsgFrame s) {corr uncorr : RField} (hc : corr.addr ≠ Reg.MGT_ID) (hu : uncorr.addr ≠ Reg.MGT_ID)
    (t i : Nat) (x : FaultArgs) (g : Granule) (e : SymbolErrors) : r.MsgFrame (s.checkPoint corr uncorr t i x g e).2.2 := by
  unfold State.checkPoint
  extract_lets d
  obtain ⟨g', out⟩ := d
  cases out with
  | good w => exact h
  | poisoned => exact h
  | corrected w => exact h.count hc 1
  | uncorrectable sy => exact (h.count hu 1).fault 3 0x0001 t i _

theorem checkGranule (h : r.MsgFrame s) (p : Option Nat) (src addr : Nat) (isData : Bool) (g : Granule) (e : SymbolErrors) :
    r.MsgFrame (s.checkGranule p src addr isData g e).2.2 := by
  cases isData with
  | true => exact (h.takeInjection 4 0).checkPoint (by decide) (by decide) _ _ _ _ _
  | false => exact h.checkPoint (by decide) (by decide) _ _ _ _ _

theorem checkGranules (p : Option Nat) (src addr : Nat) (struck : List (Nat × SymbolErrors)) (gs : List Granule) :
    ∀ {s : State} (i : Nat), r.MsgFrame s → r.MsgFrame (s.checkGranules p src addr struck i gs).2 := by
  induction gs with
  | nil => exact fun _ h => h
  | cons g gs ih => exact fun i h => ih (i + 1) (h.checkGranule p src addr true g _)

theorem checkFrame (h : r.MsgFrame s) (p : Option Nat) (struck : List (Nat × SymbolErrors)) (f : Frame) :
    r.MsgFrame (s.checkFrame p struck f).2 := checkGranules p _ _ struck _ 1 h

theorem giveCredits (h : r.MsgFrame s) (ingress : Option Nat) (vc n : Nat) : r.MsgFrame (s.giveCredits ingress vc n) := by
  cases ingress with
  | none => exact h
  | some p => exact h.of_eq rfl rfl

theorem place (h : r.MsgFrame s) (x : SwFrame) : r.MsgFrame (s.place x) := by
  unfold State.place
  extract_lets y _ s1 cross
  have h1 : r.MsgFrame s1 := h.of_eq rfl rfl
  have hcross : ∀ {t : State} (y : SwFrame), r.MsgFrame t → r.MsgFrame (cross t y) := fun y ht => ht.of_eq rfl rfl
  have hfull := h1.count (f := F.SWX_P_THR_RESEQ_FULL y.egress) (Reg.SWX_P_THR_ne_MGT_ID _) 1
  exact ((hcross _ h1).ite (hcross _ (hfull.ite h1))).ite ((hcross _ h1).ite (h1.of_eq rfl rfl))

theorem sendAnswer (h : r.MsgFrame s) (f : Frame) : r.MsgFrame (s.sendAnswer f) := by
  have hf := h.checkFrame none [] f
  simp only [State.sendAnswer]
  refine h.ite ?_
  split
  · exact hf.place _
  · exact hf.count (by decide) 1
  · exact hf.count (by decide) 1
  · exact hf

theorem sendNack (h : r.MsgFrame s) (f : Frame) (status : Nat) : r.MsgFrame (s.sendNack f status) := (h.sendAnswer _).ite h

theorem route (h : r.MsgFrame s) (f : Frame) (ingress back : Option Nat) : r.MsgFrame (s.route f ingress back) := by
  unfold State.route
  split
  · exact h.place _
  · exact (h.count (by decide) 1).giveCredits _ _ _
  · exact ((h.count (by decide) 1).giveCredits _ _ _).sendNack _ _
  · exact (h.count (by decide) 1).giveCredits _ _ _

theorem inject (h : r.MsgFrame s) (f : Frame) : r.MsgFrame (s.inject f) :=
  ((h.ite (h.count (by decide) 1)).checkFrame none [] f).route _ none none

theorem spendBudget (h : r.MsgFrame s) (p n : Nat) : r.MsgFrame (s.spendBudget p n) := h.of_eq rfl rfl

theorem twnBreak (h : r.MsgFrame s) : r.MsgFrame s.twnBreak :=
  (h.ite ((h.setTwnWin _).count (by decide) 1)).ite h

theorem injectListed (h : r.MsgFrame s) (l : Listed) (f : Frame) : r.MsgFrame (s.injectListed l f) := by
  have hf := h.checkFrame none [] f
  unfold State.injectListed
  generalize s.checkFrame none [] f = y at hf ⊢
  obtain ⟨g, s0⟩ := y
  have hsent (x : SwFrame) : r.MsgFrame (((s0.place x).spendBudget l.port g.size).count F.SWX_ML_CNT_INJECTED 1) :=
    ((hf.place x).spendBudget _ _).count (by decide) 1
  exact ((hsent _).count (by decide) 1).twnBreak.ite (hsent _)

theorem listError (h : r.MsgFrame s) (mlist err : Nat) : r.MsgFrame (s.listError mlist err) :=
  (h.put (by decide) _).put (by decide) _

theorem endArm (h : r.MsgFrame s) (a : Nat) : r.MsgFrame (s.endArm a) :=
  (h.of_eq rfl rfl : r.MsgFrame { s with sw := { s.sw with lists := s.sw.lists.filter (fun x => x.arm != a) } }).put
    (f := F.SWX_ML_STAT_ACTIVE) (by decide) _

/-! #### Trackers, fences and what waits -/

theorem qsbNote (h : r.MsgFrame s) (ep q st tag addr : Nat) : r.MsgFrame (s.qsbNote ep q st tag addr) := by
  unfold State.qsbNote
  split
  · exact h
  · exact (h.memLoad _).ite ((h.memLoad _).memPut _ _ _)

theorem endTracker (h : r.MsgFrame s) (t : Tracker) (st : Nat) (data : List Byte) (poison : Bool) :
    r.MsgFrame (s.endTracker t st data poison) := by
  unfold State.endTracker
  extract_lets _ s1 s2 q s3
  have h2 : r.MsgFrame s2 := h.of_eq rfl rfl
  have h3 : r.MsgFrame s3 := (h2.setQueue _ _).ite h2
  exact (h3.qsbNote _ _ _ _ _).tell _

theorem sendListed (h : r.MsgFrame s) (t : Tracker) (l : Listed) : r.MsgFrame (s.sendListed t l) := by
  have hover := h.count (f := F.SWX_ML_CNT_OVER) (by decide) 1
  simp only [State.sendListed]
  refine State.MsgFrame.ite ?_ (State.MsgFrame.ite ?_ (h.injectListed _ _))
  · exact (h.count (by decide) 1).endTracker _ _ _ _
  · exact (hover.ite ((hover.listError _ _).endArm _)).endTracker _ _ _ _

theorem transmit (h : r.MsgFrame s) (t : Tracker) : r.MsgFrame (s.transmit t) := by
  unfold State.transmit
  extract_lets f t1 s1
  have h1 : r.MsgFrame s1 := h.of_eq rfl rfl
  split
  · exact h1.sendListed _ _
  · exact ((h1.inject _).inject _).ite (h1.inject _)

theorem injectOrHold (h : r.MsgFrame s) (t : Tracker) : r.MsgFrame (s.injectOrHold t) := by
  unfold State.injectOrHold
  refine State.MsgFrame.ite (h.setTracker _) ?_
  split
  · exact h.setTracker _
  · exact h.transmit t

theorem takeTracker (h : r.MsgFrame s) (w : WaitReq) (ep slot : Nat) : r.MsgFrame (s.takeTracker w ep slot) := by
  unfold State.takeTracker
  extract_lets _ f seq t s1 _ s2
  have h2 : r.MsgFrame s2 := h.of_eq rfl rfl
  exact h2.injectOrHold t

theorem takeOrWait (h : r.MsgFrame s) (w : WaitReq) (ep : Nat) : r.MsgFrame (s.takeOrWait w ep) := by
  unfold State.takeOrWait
  extract_lets _ wait
  have hwait : r.MsgFrame wait := h.ite (h.of_eq rfl rfl)
  refine State.MsgFrame.ite ?_ hwait
  split
  · exact h.takeTracker _ _ _
  · exact hwait

theorem orderCount (h : r.MsgFrame s) (n : Nat) {f : RField} (hf : f.addr ≠ Reg.MGT_ID) : r.MsgFrame (s.orderCount n f) :=
  h.ite (h.count hf 1)

theorem fenceEnd (h : r.MsgFrame s) (f : Fence) (st : Nat) : r.MsgFrame (s.fenceEnd f st) := by
  unfold State.fenceEnd
  extract_lets _ s1 q live covered bad s2
  have h1 : r.MsgFrame s1 := h.of_eq rfl rfl
  have h2 : r.MsgFrame s2 := (h1.setQueue _ _).ite h1
  unfold State.fenceCount
  split
  · exact h2.orderCount _ (Reg.REP_ORD_CNT_ne_MGT_ID _)
  · exact h2

theorem settleQueue (k : Nat) : ∀ {s : State} (q : Nat), r.MsgFrame s → r.MsgFrame (State.settleQueue k s q) := by
  induction k with
  | zero => exact fun _ h => h
  | succ k ih =>
    intro s q h
    unfold State.settleQueue
    split
    · refine State.MsgFrame.ite (ih q ?_) (ih q (State.MsgFrame.inject (h.setTracker _) _))
      exact (h.orderCount _ (Reg.REP_ORD_CNT_ne_MGT_ID _)).endTracker _ _ _ _
    · split
      · exact ih q (h.fenceEnd _ _)
      · exact h

theorem settleQ (h : r.MsgFrame s) (q : Nat) : r.MsgFrame (s.settleQ q) := settleQueue _ q h

/-! #### Issue -/

theorem failUntracked (h : r.MsgFrame s) (ep q order : Nat) (f : Frame) (st : Nat) (o : Origin) :
    r.MsgFrame (s.failUntracked ep q order f st o) :=
  (((h.setQueue _ _).ite h).freeNext.qsbNote _ _ _ _ _).tell _

theorem issueRight (h : r.MsgFrame s) (ep q right : Nat) (f : Frame) (o : Origin) :
    r.MsgFrame (s.issueRight ep q right f o) := by
  have hord := h.orderTaken
  have hdeny := hord.count (f := F.REP_WIN_DENY_COUNT ep) (Reg.REP_WIN_DENY_ne_MGT_ID _) 1
  simp only [State.issueRight]
  split
  · exact ((hdeny.ite hord).failUntracked _ _ _ _ _ _).settleQ q
  · exact (hord.takeOrWait _ _).settleQ q

theorem issueMemory (h : r.MsgFrame s) (q op addr bytes : Nat) (data : List Byte) (xfmt : Nat) (o : Origin) :
    r.MsgFrame (s.issueMemory q op addr bytes data xfmt o) := by
  unfold State.issueMemory State.issueData
  split
  · exact h
  · refine State.MsgFrame.ite (h.issueRight _ _ _ _ _) ?_
    exact List.foldlRecOn (motive := r.MsgFrame) _ _ h fun t ht x _ => ht.issueRight _ _ _ _ _

end State.MsgFrame

end Sys2Proof.Machine

/-! ### Running collectives: streams, votes, records, limits and ready flags (R215, R218, R222, R223, R225) -/

namespace Sys2Proof.Machine

/-! #### Frames received -/

section
variable {s : State} {f : Frame} {c : Coll} {h : Nat}

/-- Taking a frame out of the end-point leaves the collectives as they are. -/
@[simp] theorem State.colTakeOut_colOf (s : State) (f g : Frame) : (s.colTakeOut f).colOf g = s.colOf g := rfl

/-- Granules of a stream whose place is known land there, from GOFF (R215). -/
theorem State.doColDataReceive_of_placed {runs : List (Nat × Nat)} (hn : s.colNext opColData = some f)
    (hc : s.colOf f = some (c, h)) (hp : c.place (colPhaseOf f) h = some runs)
    (hl : colGoffOf f + f.gran.length ≤ runsSize runs) (ho : c.outcome = none) :
    s.doColDataReceive = (let x := c.stream (colPhaseOf f) h
      let gs := (f.gran.zipIdx).foldl (fun (m : GranMap) (g, i) => putGran m (colGoffOf f + i) g) x.gran
      let c1 := { c.setStream { x with gran := gs } with poison := c.poison || f.gran.any (·.poison) }
      let r := match c1.place (colPhaseOf f) h with
        | some runs => (s.colTakeOut f).landRuns c1 runs (colGoffOf f) f.gran
        | none => (s.colTakeOut f, c1)
      (r.1.setColl r.2).answer 18 f 1 id) := by
  unfold State.doColDataReceive
  rw [hn]
  dsimp only
  rw [State.colTakeOut_colOf, hc]
  dsimp only
  rw [hp]
  refine (if_neg (by simp [hl])).trans ((if_neg (by simp [ho])).trans ?_)
  rfl

theorem State.doColDataReceive_of_unexpected (hn : s.colNext opColData = some f) (hc : s.colOf f = none) :
    s.doColDataReceive = (s.colTakeOut f).answer 18 f 0x23 id := by
  simp only [State.doColDataReceive, hn, State.colTakeOut_colOf, hc]

/-- A stream that a COL_END closes is held against its CRC and its number of granules (R215, R218). -/
theorem State.doColEndReceive_of_running (hn : s.colNext opColEnd = some f) (hc : s.colOf f = some (c, h))
    (ho : c.outcome = none) (hf : cFix c.desc = false) :
    s.doColEndReceive = (let x := c.stream (colPhaseOf f) h
      let data := (f.gran.headD zeroGranule).data
      let crc := crc64Final (x.gran.foldl (fun r e => crc64Update r e.2.signed) crc64Init)
      let bad := f.gran.any (·.poison) || bytesAt data 0 8 != crc || bytesAt data 8 8 != x.gran.length
      let c1 := c.setStream { x with ended := some (bytesAt data 0 8, bytesAt data 8 8, bytesAt data 16 8, bytesAt data 24 8) }
      ((s.colTakeOut f).setColl { c1 with
        localFail := c.localFail || bad
        poison := c.poison || f.gran.any (·.poison) }).answer 18 f 1 id) := by
  unfold State.doColEndReceive
  rw [hn]
  dsimp only
  rw [State.colTakeOut_colOf, hc]
  refine (if_neg (by simp [ho])).trans ?_
  rw [hf]
  rfl

end

/-! #### Votes and records -/

section
variable {s : State} {tag : BitVec 16} {c : Coll}

/-- A member whose part is done votes with the digest of what it wrote, unless the collective sets ready flags, or is a
REDUCE_SCATTER or an ALL_TO_ALL, which have digests of their own (R218). -/
theorem State.doCollectiveVote_of_wrote (hc : s.coll tag.toNat = some c) (hd : s.partDone c = true) (hr : cReady c.desc = false)
    (hs : cOp c.desc ≠ coReduceScatter) (ha : cOp c.desc ≠ coAllToAll) :
    s.doCollectiveVote tag = s.sendVote c (proofDigest c.wrote) (!(c.localFail || c.wrote.any (fun e => e.2.poison))) := by
  have hop : ¬(cOp c.desc = coReduceScatter ∨ cOp c.desc = coAllToAll) := not_or.mpr ⟨hs, ha⟩
  simp only [State.doCollectiveVote, hc, hd, hr, hop, Bool.not_true, Bool.false_and, Bool.or_false, Bool.false_eq_true, if_false]

/-- The record of a completed collective with nothing open takes the collective off the active ones (R222). -/
theorem State.doCollectiveRecordWrite_of_completed {o : ColOutcome} (hc : s.coll tag.toNat = some c) (ho : c.outcome = some o)
    (hu : c.unended = 0) (hj : c.job = none) (hl : c.landing = [])
    (hslot : s.slotFor (s.get (F.COL_Q_CPL_BASE c.queue) * 4096 + 32 * (c.index % s.colN c.queue)) 32 = true)
    (hok : o.completed = true) (hn : cNotify c.desc = false)
    (hin : s.get (F.COL_Q_CPL_BASE c.queue) * 4096 + 32 * (c.index % s.colN c.queue) + 32 ≤ hbmSize) :
    s.doCollectiveRecordWrite tag = (let t := s.hbmStore (s.get (F.COL_Q_CPL_BASE c.queue) * 4096 +
        32 * (c.index % s.colN c.queue)) (c.record o s.now) false
      (t.setActive (t.col.active.filter (fun x => x.tag != c.tag))).count F.COL_CNT_COMPLETED 1) := by
  simp only [State.doCollectiveRecordWrite, hc, ho]
  refine (if_neg (by simp [hu, hj, hl, hslot])).trans ?_
  simp only [hin, hok, hn, Bool.false_eq_true, if_true, if_false]

/-! #### Limits -/

/-- A start barrier has START_LIMIT turns, the data phases have RUN_LIMIT; a collective that exceeds its limit is resigned with
cause 3 (R223, Table 9-17). -/
theorem State.doCollectiveTimeout_of_late {l : RField} (hc : s.coll tag.toNat = some c)
    (hs : c.step = .barrier ∧ l = F.COL_TIMER_START_LIMIT ∨ c.step = .data ∧ l = F.COL_TIMER_RUN_LIMIT)
    (hl : c.since + s.get l ≤ s.clk) : s.doCollectiveTimeout tag = s.colResignFor c 3 := by
  obtain ⟨hs, rfl⟩ | ⟨hs, rfl⟩ := hs
  · simp only [State.doCollectiveTimeout, hc, hs, hl, if_true]
  · simp only [State.doCollectiveTimeout, hc, hs, hl, if_true]

/-! #### Ready flags -/

/-- Flag `k` is written on every member, here by a store and elsewhere by a request: which member is this device does not change on
the way (R225). -/
theorem State.doReadyFlagWrite_of_reduced (hc : s.coll tag.toNat = some c) (hr : cReady c.desc = true)
    (hw : c.flagsWritten = false) (ho : c.outcome = none) (hl : c.levels ≤ c.reduced) (hm : s.memSlot = true) :
    s.doReadyFlagWrite tag = (let off := addrOffset (cFlags c.desc) + 8 * c.rank
      let ms := (List.range c.n).map (fun k => (s.get F.COL_TOPO_M0 + k) % 128)
      ms.foldl (fun t m =>
        if m = s.member then t.hbmStore off (toBytesLE 8 (cEpoch c.desc)) false
        else t.issueMemory c.queue opStore (nearAddr m 0 off) 8 (toBytesLE 8 (cEpoch c.desc)) 0 (.readyFlag c.tag))
        (s.setColl { c with
          flagsWritten := true
          unended := c.unended + (ms.filter (· != s.member)).length })) := by
  unfold State.doReadyFlagWrite
  rw [hc]
  refine (if_neg (by simp [hr, hw, ho, hl, hm])).trans ?_
  refine State.MsgFrame.foldl_congr (s := s) (fun t m h => ?_) (fun t m h => ?_) _
    ((State.MsgFrame.refl s).of_eq rfl rfl)
  · rw [h.member]
  · exact (h.hbmStore _ _ _).ite (h.issueMemory _ _ _ _ _ _ _)

end

/-- Settles O30: each command's effect where its trigger is met, by the lemma about that effect; a resign by its register's rule. -/
theorem collectiveRunsComplete : Obligations.CollectiveRunsComplete := by
  refine ⟨?_, ?_, ?_, ?_, ?_, ?_, ?_, ?_, ?_, ?_⟩
  · intro s f c h runs hs hn hc hp hl ho
    exact runCmd_of_eq hs (State.doColDataReceive_of_placed (s := s.fresh) hn hc hp hl ho)
  · intro s f hs hn hc
    exact runCmd_of_eq hs (State.doColDataReceive_of_unexpected (s := s.fresh) hn hc)
  · intro s f c h hs hn hc ho hf
    exact runCmd_of_eq hs (State.doColEndReceive_of_running (s := s.fresh) hn hc ho hf)
  · intro s tag c hs hc hd hr hsc ha
    exact runCmd_of_eq hs (State.doCollectiveVote_of_wrote (s := s.fresh) hc hd hr hsc ha)
  · intro s tag c o hs hc ho hu hj hl hslot hok hn hin
    exact runCmd_of_eq hs (State.doCollectiveRecordWrite_of_completed (s := s.fresh) hc ho hu hj hl hslot hok hn hin)
  · intro s p data c hs ho ha
    exact runCmd_pathWrite_of_open hs ho pageOf_COL_RESIGN (regHook_COL_RESIGN.trans (hookColResign_of_active (s := s.fresh) ha))
  · intro s p data d hs ho ha hd
    exact runCmd_pathWrite_of_open hs ho pageOf_COL_RESIGN
      (regHook_COL_RESIGN.trans (hookColResign_of_waiting (s := s.fresh) ha hd))
  · intro s tag c hs hc hst hl
    exact runCmd_of_eq hs (State.doCollectiveTimeout_of_late (s := s.fresh) hc (.inl ⟨hst, rfl⟩) hl)
  · intro s tag c hs hc hst hl
    exact runCmd_of_eq hs (State.doCollectiveTimeout_of_late (s := s.fresh) hc (.inr ⟨hst, rfl⟩) hl)
  · intro s tag c hs hc hr hw ho hl hm
    exact runCmd_of_eq hs (State.doReadyFlagWrite_of_reduced (s := s.fresh) hc hr hw ho hl hm)

end Sys2Proof.Machine

/-! ### The switch core: frames from a port to an egress (R230, R233, R235, R237, R238, R239, R295) -/

namespace Sys2Proof.Machine

/-! #### Bytes that an error word leaves alone -/

theorem ofBytesLE_take (l : List Byte) (n : Nat) : ofBytesLE (l.take n) = ofBytesLE l % 2 ^ (8 * n) := by
  induction l generalizing n with
  | nil => simp [ofBytesLE]
  | cons b bs ih =>
    cases n with
    | zero => simp [ofBytesLE, Nat.mod_one]
    | succ n =>
      have hb : b.toNat < 256 := b.isLt
      have hm : (b.toNat + 256 * ofBytesLE bs) % 256 = b.toNat := by omega
      have hd : (b.toNat + 256 * ofBytesLE bs) / 256 = ofBytesLE bs := by omega
      have hp : 2 ^ (8 * (n + 1)) = 256 * 2 ^ (8 * n) := by rw [Nat.mul_succ, Nat.pow_add, Nat.mul_comm]
      rw [List.take_succ_cons, ofBytesLE, ofBytesLE, ih, hp, Nat.mod_mul, hm, hd]

/-- A field lies below the bits that a remainder by a power of two cuts off. -/
theorem bitsOf_mod_two_pow (v : Nat) {hi lo n : Nat} (h : hi < n) : bitsOf (v % 2 ^ n) hi lo = bitsOf v hi lo := by
  refine Nat.eq_of_testBit_eq fun i => ?_
  simp only [bitsOf, Nat.testBit_mod_two_pow, Nat.testBit_div_two_pow]
  by_cases hf : i < hi + 1 - lo
  · have hn : i + lo < n := by omega
    simp only [hn, decide_true, Bool.true_and]
  · simp only [hf, decide_false, Bool.false_and]

theorem bitsOf_ofBytesLE_take (l : List Byte) {n hi : Nat} (lo : Nat) (h : hi < 8 * n) :
    bitsOf (ofBytesLE (l.take n)) hi lo = bitsOf (ofBytesLE l) hi lo := by
  rw [ofBytesLE_take, bitsOf_mod_two_pow _ h]

theorem take_applyResidual {w : List Nat} {n : Nat} (h : ∀ j < n, w.getD j 0 = 0) (data : List Byte) :
    (applyResidual data w).take n = data.take n := by
  apply List.ext_getElem
  · simp [applyResidual]
  · intro j hj hd
    rw [List.length_take] at hd
    have hw := h j (by omega)
    have hv : data.getD j 0 = data[j] := by
      rw [List.getD_eq_getElem?_getD, List.getElem?_eq_getElem (by omega), Option.getD_some]
    simp only [applyResidual, List.getElem_take, List.getElem_map, List.getElem_range, hw, hv]
    exact BitVec.xor_zero

/-- Where no symbol error has struck a clean granule, its data is as written, whatever its length. -/
theorem applyResidual_errorWord_clean (data : List Byte) : applyResidual data (errorWord false []) = data := by
  have hw : errorWord false [] = List.replicate 36 0 := rfl
  have hl : (applyResidual data (errorWord false [])).length = data.length := by simp [applyResidual]
  have ht := take_applyResidual (w := errorWord false []) (n := data.length) (fun j _ => by
    rw [hw, List.getD_eq_getElem?_getD, List.getElem?_replicate]; split <;> rfl) data
  rwa [← hl, List.take_length, hl, List.take_length] at ht

/-- The poison mask lies beyond the 32 bytes that header fields are in. -/
theorem bitsOf_applyResidual_errorWord_nil (p : Bool) (data : List Byte) {hi : Nat} (lo : Nat) (h : hi < 256) :
    bitsOf (ofBytesLE (applyResidual data (errorWord p []))) hi lo = bitsOf (ofBytesLE data) hi lo := by
  rw [← bitsOf_ofBytesLE_take (n := 32) _ lo h, take_applyResidual (fun _ => errorWord_nil_getD p),
    bitsOf_ofBytesLE_take _ lo h]

/-! #### The check of a header, and of a frame without data -/

/-- A granule that no symbol error strikes passes a checking point without a count or a record, poisoned where it was (R295). -/
theorem State.checkPoint_of_unstruck (s : State) (corr uncorr : RField) (t i : Nat) (x : FaultArgs) (g : Granule) :
    s.checkPoint corr uncorr t i x g [] = ({ g with data := applyResidual g.data (errorWord g.poison []) }, false, s) := by
  obtain ⟨data, p⟩ := g
  cases p with
  | false => simp [State.checkPoint, Granule.decoded, hatchDecode_errorWord_nil]
  | true => simp [State.checkPoint, Granule.decoded, hatchDecode_errorWord_nil]

theorem State.checkGranule_of_header (s : State) (p : Option Nat) (src addr : Nat) (g : Granule) :
    s.checkGranule p src addr false g [] = ({ g with data := applyResidual g.data (errorWord g.poison []) }, false, s) :=
  State.checkPoint_of_unstruck s _ _ _ _ _ g

theorem State.checkFrame_of_no_data (s : State) (p : Option Nat) (struck : List (Nat × SymbolErrors)) (header : Nat) :
    s.checkFrame p struck (Frame.ofHeader header []) = (Frame.ofHeader header [], s) := by
  simp [State.checkFrame, State.checkGranules, Frame.ofHeader]

/-! #### Frames received -/

section
variable {s : State} {p due : Nat} {h : Granule} {gs : List Granule} {rest : List (Nat × List Granule)}

/-- A header that no symbol error strikes decides by its poison and its opcode what becomes of its frame (R230). -/
theorem State.frameReceive_of_unstruck (hr : (s.port p).rxFrames = (due, h :: gs) :: rest) (hd : due ≤ s.clk) :
    s.frameReceive p [] =
      (let t := s.setPort p { s.port p with
        rxFrames := rest
        stale := (s.port p).stale - 1 }
      let back := if (s.port p).stale = 0 then some p else none
      let raw := ofBytesLE (applyResidual h.data (errorWord h.poison []))
      if h.poison || !opKnown (bitsOf raw 7 0) then
        (t.count (F.SWX_P_THR_BAD_HDR p) 1).giveCredits back (bitsOf raw 10 8) (gs.length + 1)
      else
        let x := t.checkFrame (some p) [] (Frame.ofHeader raw gs)
        x.2.route x.1 (some p) back) := by
  unfold State.frameReceive
  simp only [hr, Nat.not_lt.mpr hd, if_false, List.find?_nil, Option.map_none, Option.getD_none, State.checkGranule_of_header,
    Bool.false_or]

theorem State.frameReceive_of_clean (hr : (s.port p).rxFrames = (due, [h]) :: rest) (hd : due ≤ s.clk)
    (hp : h.poison = false) (ho : opKnown (bitsOf (ofBytesLE h.data) 7 0) = true) :
    s.frameReceive p [] = (s.setPort p { s.port p with
      rxFrames := rest
      stale := (s.port p).stale - 1 }).route (Frame.ofHeader (ofBytesLE h.data) []) (some p)
        (if (s.port p).stale = 0 then some p else none) := by
  rw [State.frameReceive_of_unstruck hr hd, hp, applyResidual_errorWord_clean]
  simp only [ho, Bool.not_true, Bool.or_false, Bool.false_eq_true, if_false,
    State.checkFrame_of_no_data]

theorem State.frameReceive_of_poisoned (hr : (s.port p).rxFrames = (due, h :: gs) :: rest) (hd : due ≤ s.clk)
    (hst : (s.port p).stale = 0) (hp : h.poison = true) :
    s.frameReceive p [] = ((s.setPort p { s.port p with
      rxFrames := rest
      stale := 0 }).count (F.SWX_P_THR_BAD_HDR p) 1).giveCredits (some p) (bitsOf (ofBytesLE h.data) 10 8) (gs.length + 1) := by
  rw [State.frameReceive_of_unstruck hr hd]
  simp only [hp, hst, Bool.true_or, if_true, bitsOf_applyResidual_errorWord_nil true h.data 8 (hi := 10) (by decide)]

end

/-! #### Admission to a port's buffer -/

section
variable {s : State} {p : Nat} {x : SwFrame}

/-- A bulk frame has no reserve and no spill ring: it enters the shared area, by eviction where it does not fit (R235). -/
theorem State.admitToPort_of_bulk (hc : x.frame.cls = 2) :
    s.admitToPort p x =
      if x.frame.size ≤ s.sharedFree p then s.takeIn x 0
      else if x.frame.size ≤ s.sharedFree p + (s.evictable p 2).foldl (fun k y => k + y.frame.size) 0 then
        let t := State.pushOut (s.evictable p 2).length s p 2 x.frame.size
        if x.frame.size ≤ t.sharedFree p then t.takeIn x 0 else t.updateThrottle p
      else s := by
  simp [State.admitToPort, hc]

theorem State.egressAdmit_of_ready {c : Nat} (hp : p < 128)
    (hr : s.sw.ready.find? (fun x => x.egress == p && x.frame.cls == c && decide (x.due ≤ s.clk)) = some x) :
    s.egressAdmit p c = s.admitToPort p x := by
  simp only [State.egressAdmit, hr, hp, if_true]

end

/-! #### Service, the spill ring and the resequencer -/

section
variable {s : State} {x : SwFrame}

theorem State.egressServe_of_next {e : Nat} {d : Drr} (ha : s.admitted = true) (hn : s.nextFrame e = some (x, d)) :
    s.egressServe e =
      (let t := { s with sw := { s.sw with
        queued := s.sw.queued.filter (fun y => y.num != x.num)
        drr := Sparse.set (fun _ => {}) s.sw.drr e d } }
      (if s.tooOld x.frame then t.discardAged e x.via x.frame else t.begin' e x).updateThrottle e) := by
  simp only [State.egressServe, ha, if_true, hn]
  rfl

/-- The head of a port's spill ring, not over the age limit, is read back from HBM and queued again (R237). -/
theorem State.spillReturn_of_room {p : Nat} (hf : s.sw.spill.find? (fun x => x.egress == p) = some x)
    (hb : 2 * s.occClass p 3 < thrBgMax (s.port p).thr) (hr : x.frame.size ≤ s.sharedFree p)
    (hs : s.ringSlot p x.ringAt x.frame.size = true) (ho : s.tooOld x.frame = false) :
    s.spillReturn p =
      (let r := ({ s with sw := { s.sw with
        spill := s.sw.spill.filter (fun y => y.num != x.num) } } : State).ringRead p x.frame.size x.ringAt
      ((r.2.spillBack p x r.1).notePeak p).updateThrottle p) := by
  unfold State.spillReturn
  rw [hf]
  exact (if_pos ⟨hb, hr, hs⟩).trans
    (congrArg (fun t : State => (t.notePeak p).updateThrottle p) (if_neg (ne_true_of_eq_false ho)))

theorem State.doResequencerRelease_of_mayArrive {e : Fin 149} {k : Nat}
    (hk : (s.sw.crossing.filter (fun x => x.egress == e.val && !x.arrived))[k]? = some x) (ha : s.mayArrive x = true) :
    s.doResequencerRelease e k =
      (let crossing := s.sw.crossing.map (fun y => if y.num = x.num then { y with arrived := true } else y)
      State.resequence crossing.length { s with sw := { s.sw with crossing := crossing } } e) := by
  unfold State.doResequencerRelease
  rw [hk]
  exact if_pos ha

end

/-- Settles O31: a frame received by what the check makes of its header, the other commands by the first step that applies. -/
theorem switchFramesComplete : Obligations.SwitchFramesComplete := by
  refine ⟨?_, ?_, ?_, ?_, ?_, ?_, ?_, ?_⟩
  · intro s p due h rest hs hr hd hp ho
    exact runCmd_of_eq hs (State.frameReceive_of_clean (s := s.fresh) hr hd hp ho)
  · intro s p due h gs rest hs hr hd hst hp
    exact runCmd_of_eq hs (State.frameReceive_of_poisoned (s := s.fresh) hr hd hst hp)
  · intro s p c x hs hr hc hf
    exact runCmd_of_eq hs ((State.egressAdmit_of_ready (s := s.fresh) p.isLt hr).trans
      ((State.admitToPort_of_bulk hc).trans (if_pos hf)))
  · intro s p c x hs hr hc hf he
    have he2 : s.evictable p 2 = [] := hc ▸ he
    refine runCmd_of_eq hs ((State.egressAdmit_of_ready (s := s.fresh) p.isLt hr).trans
      ((State.admitToPort_of_bulk hc).trans ((if_neg (Nat.not_le.mpr hf)).trans (if_neg ?_))))
    simpa [he2] using hf
  · intro s e x d hs ha hn ho
    exact runCmd_of_eq hs ((State.egressServe_of_next (s := s.fresh) ha hn).trans
      (congrArg (State.updateThrottle · e) (if_neg (ne_true_of_eq_false ho))))
  · intro s e x d hs ha hn ho
    exact runCmd_of_eq hs ((State.egressServe_of_next (s := s.fresh) ha hn).trans
      (congrArg (State.updateThrottle · e) (if_pos ho)))
  · intro s p x hs hf hb hr hslot ho
    exact runCmd_of_eq hs (State.spillReturn_of_room (s := s.fresh) hf hb hr hslot ho)
  · intro s e k x hs hk ha
    exact runCmd_of_eq hs (State.doResequencerRelease_of_mayArrive (s := s.fresh) hk ha)

end Sys2Proof.Machine

/-! ### The switch core: throttles, thresholds, spilling and move lists (R234, R237, R241, R243, R244) -/

namespace Sys2Proof.Machine

/-! #### The switch core's register page -/

theorem pageOf_swxPage {off : Nat} (ho : off < 0x1000) : pageOf (0x1040000 + off) = some (4, 0, off) :=
  pageOf_of_eq (pg := 0x40) rfl ho rfl rfl (by decide) (by decide) (by decide) rfl

theorem pageOf_SWX_BUF_THR : pageOf Reg.SWX_BUF_THR = some (4, 0, 0x108) := pageOf_swxPage (off := 0x108) (by decide)

theorem pageOf_SWX_SPILL : pageOf Reg.SWX_SPILL = some (4, 0, 0x118) := pageOf_swxPage (off := 0x118) (by decide)

theorem pageOf_SWX_ML_ARM : pageOf Reg.SWX_ML_ARM = some (4, 0, 0x148) := pageOf_swxPage (off := 0x148) (by decide)

section
variable {data : Word} {aux : Option Nat} {s : State} {w : RegWrite}

theorem regHook_SWX_BUF_THR : regHook data aux 4 0 0x108 s w = hookSwxBufThr s w := by
  simp [regHook, hookSwx]

theorem regHook_SWX_SPILL : regHook data aux 4 0 0x118 s w = hookSwxSpill s w := by
  simp [regHook, hookSwx]

theorem regHook_SWX_ML_ARM : regHook data aux 4 0 0x148 s w = hookMlArm s w := by
  simp [regHook, hookSwx]

/-- While every ring is empty and spilling is off, any SIZE in range is taken (R237). -/
theorem hookSwxSpill_of_empty (hz : w.newF F.SWX_SPILL_SIZE ≤ 64) (hr : s.sw.spill = [])
    (he : s.flag F.SWX_CLASS_CTL_SPILL_EN = false) : hookSwxSpill s w = s.takeWrite w := by
  refine if_neg ?_
  rintro (h | ⟨-, h | h⟩)
  · exact Nat.not_lt.mpr hz h
  · exact h hr
  · exact ne_true_of_eq_false he h

theorem hookSwxSpill_of_oversize (hz : 64 < w.newF F.SWX_SPILL_SIZE) :
    hookSwxSpill s w =
      ((s.takeWrite (w.keep F.SWX_SPILL_SIZE)).putFlag F.SWX_SPILL_SIZE_REJ true).rejected 4 0 := if_pos (.inl hz)

end

/-! #### Throttles -/

/-- While a throttle is off, its held requests need no hold limit to go on (R241). -/
theorem State.throttleRelease_of_unsent {s : State} {p c : Nat} {t : Tracker} (ha : s.admitted = true)
    (ht : s.throttled p c = false)
    (hn : nextHeld (s.heldAt p c) (Sparse.get (fun _ => 512) s.rep.lastHeld (2 * p + c % 2)) = some t) (hs : t.sent = false) :
    s.throttleRelease p c =
      (({ s with rep := { s.rep with
        lastHeld := Sparse.set (fun _ => 512) s.rep.lastHeld (2 * p + c % 2) t.queue } } : State).transmit t).settleQ
          t.queue := by
  simp only [State.throttleRelease, ht, ha, hn, hs, Bool.not_true, Bool.false_eq_true, if_false]

/-! #### Arming and reading ahead -/

section
variable {s t : State} {d : List Byte}

theorem State.armList_of_early {mlist start cseq : Nat} {collective : Bool} (h : start < s.now + 4096) :
    s.armList mlist start collective cseq = (s.listError mlist 1, false) :=
  if_pos (.inr (.inr (.inr (.inr (.inl h)))))

/-- What R243 asks of the device before the directory is read. -/
structure State.MayArm (s : State) (mlist start : Nat) : Prop where
  enabled : s.flag F.SWX_SCHED_ML_EN = true
  cool : s.flag F.PWR_STAT_WARN = false
  named : mlist ≠ 0
  listed : mlist < 2 ^ min 12 (s.get F.SWX_ML_DIR_LOG2N)
  ahead : s.now + 4096 ≤ start
  room : s.sw.lists.length < 16
  memory : s.hbmOpen = true

/-- The directory entry `d` is valid, of the kind armed, and has entries (Table 10-4). -/
structure ArmEntry (d : List Byte) (collective : Bool) : Prop where
  valid : bitAt (bytesAt d 15 1) 0 = true
  kind : bytesAt d 14 1 = b2n collective
  entries : bytesAt d 8 4 ≠ 0

theorem State.armList_of_valid {mlist start cseq : Nat} {collective : Bool} (h : s.MayArm mlist start)
    (hd : s.hbmFetch (s.get F.SWX_ML_DIR_BASE * 4096 + 32 * mlist) 32 = (d, false, t)) (he : ArmEntry d collective) :
    s.armList mlist start collective cseq =
      (t.setLists (t.sw.lists ++
        [{ mlist := mlist, arm := t.nextArm, collective := collective, queue := bytesAt d 12 2, start := start,
           base := bytesAt d 0 8, entries := bytesAt d 8 4, cseq := cseq }]), true) := by
  obtain ⟨hen, hcool, hnamed, hlisted, hahead, hroom, hmem⟩ := h
  obtain ⟨hvalid, hkind, hentries⟩ := he
  simp only [State.armList, hen, hcool, hnamed, Nat.not_le.mpr hlisted, Nat.not_lt.mpr hahead, Nat.not_le.mpr hroom, hmem, hd,
    hvalid, hkind, hentries, Bool.true_eq_false, Bool.false_eq_true, ne_eq, not_true_eq_false, or_self, if_false]

theorem State.doMoveListReadAhead_of_unread {n : BitVec 32} {m : MoveList} {bad : Bool}
    (hm : s.listWith n.toNat (fun m => decide (m.read < m.entries)) = some m)
    (hs : s.slotFor (m.base + 32 * m.read) 32 = true)
    (hd : (s.activate (m.base + 32 * m.read)).hbmFetch (m.base + 32 * m.read) 32 = (d, bad, t)) :
    s.doMoveListReadAhead n = t.setList { m with
      ahead := m.ahead ++ [{ bytes := d, poison := bad, readAt := t.now }]
      read := m.read + 1 } := by
  simp only [State.doMoveListReadAhead, hm, hs, hd, Bool.true_eq_false, if_false]

end

/-! #### Injection -/

section
variable {s : State} {m : MoveList} {e : MoveEntry}

theorem State.doMoveListInject_of_due {n : BitVec 32}
    (hm : s.listWith n.toNat (fun m => (s.dueEntry m).isSome) = some m) : s.doMoveListInject n = s.injectNext m := by
  simp only [State.doMoveListInject, hm]

theorem State.injectNext_of_store (hd : s.dueEntry m = some e) (he : s.entryError m e = none) (hc : m.collective = false) :
    s.injectNext m = s.injectStore m e := by
  simp only [State.injectNext, hd, he, hc, Bool.false_eq_true, if_false]

theorem State.injectNext_of_collective {c : Coll} (hd : s.dueEntry m = some e) (he : s.entryError m e = none)
    (hc : m.collective = true) (hm : s.coll m.cseq = some c) (ho : c.outcome = none) :
    s.injectNext m = s.injectCollective m e c := by
  simp only [State.injectNext, hd, he, hc, hm, ho, Option.isSome_none, Bool.false_eq_true, if_true, if_false]

/-- An error of Table 10-6 stops a STORE list and is recorded. -/
theorem State.injectNext_of_error {err : Nat} (hd : s.dueEntry m = some e) (he : s.entryError m e = some err)
    (hc : m.collective = false) : s.injectNext m = (s.listError m.mlist err).dropList m := by
  simp only [State.injectNext, hd, he, hc, Bool.false_and, Bool.false_eq_true, if_false]

end

/-- Settles O32: a register write by its register's rule, the other commands by what R241, R243 and R244 find due. -/
theorem switchControlCommandsComplete : Obligations.SwitchControlCommandsComplete := by
  refine ⟨?_, ?_, ?_, ?_, ?_, ?_, ?_, ?_, ?_, ?_, ?_⟩
  · intro s p bg t hs ha ht hn hsent
    exact runCmd_of_eq hs (State.throttleRelease_of_unsent (s := s.fresh) ha ht hn hsent)
  · intro s p data hs ho hsum
    have h := runCmd_pathWrite_of_open hs ho pageOf_SWX_BUF_THR (regHook_SWX_BUF_THR (aux := none).trans (if_pos hsum))
    rwa [State.takeWrite, State.writeOf_addr] at h
  · intro s p data hs ho hsum
    exact runCmd_pathWrite_of_open hs ho pageOf_SWX_BUF_THR (regHook_SWX_BUF_THR.trans (if_neg (Nat.not_le.mpr hsum)))
  · intro s p data hs ho hz hr he
    have h := runCmd_pathWrite_of_open hs ho pageOf_SWX_SPILL
      (regHook_SWX_SPILL (aux := none).trans (hookSwxSpill_of_empty (s := s.fresh) hz hr he))
    rwa [State.takeWrite, State.writeOf_addr] at h
  · intro s p data hs ho hz
    exact runCmd_pathWrite_of_open hs ho pageOf_SWX_SPILL (regHook_SWX_SPILL.trans (hookSwxSpill_of_oversize hz))
  · intro s p data hs ho hl
    exact runCmd_pathWrite_of_open hs ho pageOf_SWX_ML_ARM
      (regHook_SWX_ML_ARM.trans (congrArg Prod.fst (State.armList_of_early (s := s.fresh) hl)))
  · intro s s1 p data d m hs ho hm hen hcool hnamed hlisted hahead hlists hmem hd hvalid hkind hentries
    subst hm
    have hroom : s.sw.lists.length < 16 := by simp [hlists]
    exact runCmd_pathWrite_of_open hs ho pageOf_SWX_ML_ARM (regHook_SWX_ML_ARM.trans (congrArg Prod.fst
      (State.armList_of_valid (s := s.fresh) (collective := false) ⟨hen, hcool, hnamed, hlisted, hahead, hroom, hmem⟩ hd
        ⟨hvalid, hkind, hentries⟩)))
  · intro s s1 n m d bad hs hm hslot hd
    exact runCmd_of_eq hs (State.doMoveListReadAhead_of_unread (s := s.fresh) hm hslot hd)
  · intro s n m e hs hm hd he hc
    exact runCmd_of_eq hs ((State.doMoveListInject_of_due (s := s.fresh) hm).trans (State.injectNext_of_store hd he hc))
  · intro s n m e c hs hm hd he hc hcoll ho
    exact runCmd_of_eq hs ((State.doMoveListInject_of_due (s := s.fresh) hm).trans
      (State.injectNext_of_collective hd he hc hcoll ho))
  · intro s n m e err hs hm hd he hc
    exact runCmd_of_eq hs ((State.doMoveListInject_of_due (s := s.fresh) hm).trans (State.injectNext_of_error hd he hc))

end Sys2Proof.Machine

/-! ### Admission releases what a supply warning held (R264, R375, R455) -/

namespace Sys2Proof.Machine

theorem pageOf_RTE_CTL : pageOf Reg.RTE_CTL = some (5, 0, 0x100) :=
  pageOf_of_eq (pg := 0x50) rfl (by decide) rfl rfl (by decide) (by decide) (by decide) rfl

/-- Whatever a write of RTE_CTL does, the requests that a past warning still holds are released where the device may inject. -/
theorem regHook_RTE_CTL {data : Word} {aux : Option Nat} {s : State} {w : RegWrite} :
    regHook data aux 5 0 0x100 s w = (hookRteCtl s w).releaseWarned := by
  simp [regHook, hookRte]

/-- The routing block after `w`, a write of RTE_CTL that sets ADMIT and is taken (R375). -/
def State.admitTaken (s : State) (w : RegWrite) : State :=
  let t := s.setReg Reg.RTE_CTL w.new
  let u := if s.admitted then t else t.setCur (w.newF F.RTE_CTL_CUR) s.now
  { u with sec := { u.sec with sliceFree := false } }

section
variable {s : State}

/-- With no burnish running, failed or begun, ADMIT is taken (R375). -/
theorem hookRteCtl_of_admit {w : RegWrite} (hw : w.addr = Reg.RTE_CTL) (ha : w.newF F.RTE_CTL_ADMIT = 1)
    (hc : w.newF F.RTE_CTL_CUR = w.oldF F.RTE_CTL_CUR) (hl : w.newF F.RTE_CTL_SLICE = w.oldF F.RTE_CTL_SLICE)
    (hb : s.flag F.SEC_BURN_ACTIVE = false) (hr : s.get F.SEC_BURN_RESULT ≠ 2) (hn : s.sec.burnStart = none) :
    hookRteCtl s w = s.admitTaken w := by
  cases hadm : s.admitted <;>
    simp [hookRteCtl, State.admitTaken, State.takeWrite, hadm, hw, ha, hc, hl, hb, hr, hn]

/-- The whole effect of an ADMIT_WRITE that is taken: the register's own, then the release of what a warning held. -/
theorem exec_admitWrite_of_taken {p : Path} {data : Word} (hs : s.stopped = false) (ho : s.writeOpen p Reg.RTE_CTL data = true)
    (ha : (s.writeOf p Reg.RTE_CTL data).newF F.RTE_CTL_ADMIT = 1)
    (hc : (s.writeOf p Reg.RTE_CTL data).newF F.RTE_CTL_CUR = (s.writeOf p Reg.RTE_CTL data).oldF F.RTE_CTL_CUR)
    (hl : (s.writeOf p Reg.RTE_CTL data).newF F.RTE_CTL_SLICE = (s.writeOf p Reg.RTE_CTL data).oldF F.RTE_CTL_SLICE)
    (hb : s.flag F.SEC_BURN_ACTIVE = false) (hr : s.get F.SEC_BURN_RESULT ≠ 2) (hn : s.sec.burnStart = none) :
    exec (.admitWrite p data) s =
      .next ((s.fresh.admitTaken (s.writeOf p Reg.RTE_CTL data)).releaseWarned.written p).settled :=
  runCmd_pathWrite_of_open hs ho pageOf_RTE_CTL (regHook_RTE_CTL.trans (congrArg State.releaseWarned
    (hookRteCtl_of_admit (s := s.fresh) (State.writeOf_addr s p _ data) ha hc hl hb hr hn)))

end

/-! #### A device that holds a request when it is admitted -/

/-- A LOAD of attach end-point A01 from its own device's memory end-point, in the first tracker of queue 16: a supply warning
held it before it was sent (R454). -/
def heldLoad : Tracker :=
  { ep := 1, queue := 16, slot := 0, origin := .none, order := 1, gen := 0, takenAt := 0, heldFor := some heldByWarning,
    frame := { opcode := opLoad, vc := requestVc opLoad false false, src := State.reset.ownEp 1, dst := State.reset.ownEp 16,
               tag := 16 * 512, bytes := 32 } }

/-- A clocked device that is not admitted and sees no warning any more, with that request still held. -/
def holdingDevice : State := { State.reset with up := { pllLocked := true }, rep := { trackers := [heldLoad] } }

/-- RTE_CTL with ADMIT alone set. -/
def admitOnly : Word := 0x10000

/-- The write of ADMIT on that device, as RTE_CTL's rule sees it. -/
abbrev admitHolding : RegWrite := holdingDevice.writeOf .chain Reg.RTE_CTL admitOnly

/-- For each request with a tracker, whether it has been sent. -/
def State.sentMarks (s : State) : List Bool := s.rep.trackers.map (·.sent)

/-- The admitted device sends the request. -/
theorem sentMarks_released :
    ((holdingDevice.fresh.admitTaken admitHolding).releaseWarned.written .chain).settled.sentMarks = [true] := by
  decide +kernel

/-- Without the release it stays held. -/
theorem sentMarks_not_released :
    ((holdingDevice.fresh.admitTaken admitHolding).written .chain).settled.sentMarks = [false] := by
  decide +kernel

/-- Refutes O33: its clause for an ADMIT_WRITE that is taken leaves out the release of the requests that a supply warning held,
which waits for admission where the warning ended on a device that may not inject (R264, R455). -/
theorem not_routeCommandsComplete : ¬ Obligations.RouteCommandsComplete := by
  unfold Obligations.RouteCommandsComplete
  rintro ⟨-, -, -, -, -, -, -, -, -, -, -, hadmit, -⟩
  have hs : holdingDevice.stopped = false := rfl
  have ho : holdingDevice.writeOpen .chain Reg.RTE_CTL admitOnly = true := by decide +kernel
  have ha : admitHolding.newF F.RTE_CTL_ADMIT = 1 := by decide +kernel
  have hc : admitHolding.newF F.RTE_CTL_CUR = admitHolding.oldF F.RTE_CTL_CUR := by decide +kernel
  have hl : admitHolding.newF F.RTE_CTL_SLICE = admitHolding.oldF F.RTE_CTL_SLICE := by decide +kernel
  have hb : holdingDevice.flag F.SEC_BURN_ACTIVE = false := by decide +kernel
  have hr : holdingDevice.get F.SEC_BURN_RESULT ≠ 2 := by decide +kernel
  have hmodel := exec_admitWrite_of_taken hs ho ha hc hl hb hr rfl
  have hclaim := hadmit holdingDevice .chain admitOnly hs ho ha hc hl hb hr rfl
  have hstate : ((holdingDevice.fresh.admitTaken admitHolding).releaseWarned.written .chain).settled =
      ((holdingDevice.fresh.admitTaken admitHolding).written .chain).settled :=
    Host.Outcome.next.inj (hmodel.symm.trans hclaim)
  have hmarks := congrArg State.sentMarks hstate
  rw [sentMarks_released, sentMarks_not_released] at hmarks
  exact absurd hmarks (by decide)

end Sys2Proof.Machine

/-! ### Vangeri links: bring-up from Detect to Up (R275, R276, R277, R278, R279) -/

namespace Sys2Proof.Machine

@[simp] theorem State.setPort_port_self (s : State) (p : Nat) (v : VPort) : (s.setPort p v).port p = v := by
  simp [State.port, State.setPort]

@[simp] theorem State.setPort_get (s : State) (p : Nat) (v : VPort) (f : RField) : (s.setPort p v).get f = s.get f := rfl

@[simp] theorem State.setPort_flag (s : State) (p : Nat) (v : VPort) (f : RField) : (s.setPort p v).flag f = s.flag f := rfl

section
variable {s t : State} {p : Fin 128}

/-! #### Detect -/

/-- What Table 12-6 asks of a port before it leaves Detect, apart from signal: enabled, with nothing that holds it there. -/
structure State.MayLeaveDetect (s : State) (p : Nat) : Prop where
  enabled : s.flag (F.VPT_CTL_EN p) = true
  detect : s.bstate p = 1
  waited : (s.port p).notBefore = 0
  notHeld : s.portsHeld = false
  cage : s.cageReady p = true
  locked : s.flag F.TRN_STAT_LOCKED = true
  notIdled : s.get (F.VPT_CTL_STATE_REQ p) ≠ 2
  noLoop : s.get (F.VPT_CTL_LOOP p) = 0
  noLoopAsked : (s.port p).feWaiting = false
  attached : s.up.detachAt = none

/-- With signal on lanes wide enough, such a port begins an attempt on them (R275, R278). -/
theorem State.doDetectSignal_of_attempt {lanes : BitVec 4} {nonce : BitVec 128} {w l : Nat}
    (ht : (setBitsList lanes.toNat 4).foldl (fun (s : State) l =>
      (s.putFlag (F.VGL_STAT_SIGNAL p l) true).putFlag (F.VGL_STAT_CDR_LOCK p l) true) s = t)
    (hd : t.MayLeaveDetect p) (ha : t.attempt p lanes.toNat = some (w, l)) :
    s.doDetectSignal p lanes nonce =
      (let u := (t.toState p 2).put (F.VPT_STAT_LSTATE p) 0
       u.setPort p { u.port p with lanes := l, nonce := nonce.toNat, stuck := false, refused := none, checkBad := 0 }) := by
  obtain ⟨hen, hb, hw, hh, hc, hl, hi, hp, hf, hdet⟩ := hd
  have hi' : (t.get (F.VPT_CTL_STATE_REQ p) != 2) = true := bne_iff_ne.mpr hi
  simp only [State.doDetectSignal, ht, hen, hb, hw, hh, hc, hl, hi', hp, hf, hdet, ha, BEq.rfl, Bool.not_false, Bool.true_or,
    Bool.and_self, if_true]

/-! #### Lane order -/

theorem checkFailed_singleton {m : Nat} (l : Nat) (h : markerCheckOk m = true) : checkFailed [l] [m] = 0 := by
  simp [checkFailed, h]

/-- A lane that fails CHECK is looked at again, and fails the attempt the second time (R276). -/
theorem State.doLaneOrderDone_of_failed {markers : List (BitVec 20)} (hb : s.bstate p = 4)
    (hf : checkFailed (setBitsList (s.port p).lanes 4) (markers.map (·.toNat)) ≠ 0) :
    s.doLaneOrderDone p markers =
      (let bad := checkFailed (setBitsList (s.port p).lanes 4) (markers.map (·.toNat))
       if bad &&& (s.port p).checkBad ≠ 0 then s.failAttempt p 0x03
       else s.setPort p { s.port p with checkBad := (s.port p).checkBad ||| bad }) :=
  (if_pos hb).trans (if_pos hf)

/-- One lane with a good marker agrees with itself, and is mapped to the transmit lane that its marker names (R276). -/
theorem State.doLaneOrderDone_of_single {m : BitVec 20} {l : Nat} (hb : s.bstate p = 4)
    (hl : setBitsList (s.port p).lanes 4 = [l]) (hm : markerCheckOk m.toNat = true) :
    s.doLaneOrderDone p [m] = (s.put (F.VPT_STAT_LANE_MAP p)
      (setBitsOf (s.get (F.VPT_STAT_LANE_MAP p)) (2 * l + 1) (2 * l) (markerLane m.toNat))).toState p 5 := by
  have hc : checkFailed (setBitsList (s.port p).lanes 4) ([m].map (·.toNat)) = 0 := by
    rw [hl]
    exact checkFailed_singleton l hm
  refine (if_pos hb).trans ((if_neg (not_not_intro hc)).trans ?_)
  simp [hl, List.eraseDups_cons]

/-! #### Ident -/

/-- Port `p` with the neighbour that `i` names recorded and compared (R277). -/
def State.neighbourSeen (s : State) (p : Nat) (i : LinkIdent) : State :=
  ((((s.put (F.RTE_NBR_SEEN_DOMAIN p) i.domain.toNat).put (F.RTE_NBR_SEEN_MEMBER p) i.member.toNat).put
    (F.RTE_NBR_SEEN_PORT p) i.port.toNat).putFlag (F.RTE_NBR_SEEN_VALID p) true).nbrCompare p

/-- A peer without encryption is refused by a port that wants it, and goes on to Credit with one that does not, whatever its key
family and slot (R277). -/
theorem State.doIdentCodewordReceive_of_plain {i : LinkIdent} (hb : s.bstate p = 7) (hr : (s.port p).refused ≠ some i)
    (he : i.encReq = false) :
    s.doIdentCodewordReceive p i =
      (let t := s.neighbourSeen p i
       if t.flag (F.VPT_CTL_ENC_REQ p) then t.refuseLink p 0x08 i
       else
         let u := (t.putFlag (F.VPT_STAT_ENC p) false).toState p 8
         u.setPort p { u.port p with
           stuck := false
           refused := none
           ivTx := 2 ^ 63
           authRx := 0
           keySlot := u.get (F.VPT_CTL_KEY_SLOT p)
           peer := some (i.domain.toNat, i.member.toNat, i.port.toNat, i.nonce.toNat) }) := by
  refine (if_pos ⟨hb, hr⟩).trans ?_
  dsimp only
  rw [← State.neighbourSeen]
  cases hown : (s.neighbourSeen p i).flag (F.VPT_CTL_ENC_REQ p) with
  | true => simp only [he, Bool.bne_false, if_true]
  | false => simp only [he, Bool.bne_false, Bool.false_and, Bool.false_eq_true, if_false]

/-! #### Credit -/

/-- Limits of the peer that are out of range fail the attempt (R279). -/
theorem State.doCreditInitReceive_of_bad {limits : List Nat} {echoed : Bool} (hb : s.bstate p = 8)
    (hl : limits.all creditOk = false) : s.doCreditInitReceive p limits echoed = s.failAttempt p 0x09 := by
  simp only [State.doCreditInitReceive, hb, hl, Bool.and_false, Bool.false_eq_true, if_true, if_false]

/-- Once both ends' limits are in range and the peer has echoed this end's, an aligned device's port comes Up (R267, R279). -/
theorem State.doCreditInitReceive_of_echoed {limits : List Nat} (hb : s.bstate p = 8)
    (ho : (s.creditLimits p).all creditOk = true) (hs : (s.creditLimits p).foldl (· + ·) 0 ≤ s.get F.SWX_BUF_THR_RX_RES)
    (hn : limits.length = 8) (hl : limits.all creditOk = true) (ha : s.flag F.TRN_STAT_ALIGNED = true) :
    s.doCreditInitReceive p limits true =
      (s.setPort p { s.port p with credGot := true, limits := limits }).portUp p limits := by
  simp only [State.doCreditInitReceive, hb, ho, decide_eq_true hs, hn, hl, State.setPort_flag, ha, BEq.rfl,
    Bool.true_or, Bool.and_self, if_true]

/-! #### Timeouts -/

theorem State.doBringupTimeout_of_late {n cause : Nat} (hl : bringupLimit (s.bstate p) = some (n, cause))
    (ht : (s.port p).enteredAt + n < s.clk) (hs : (s.port p).stuck = false) :
    s.doBringupTimeout p = s.failAttempt p cause := by
  simp only [State.doBringupTimeout, hl, ht, hs, and_self, if_true]

end

/-- Settles O34: each command's effect where its trigger is met; a command with one trigger alone does what its definition says
under it. -/
theorem linkBringupCommandsComplete : Obligations.LinkBringupCommandsComplete := by
  refine ⟨?_, ?_, ?_, ?_, ?_, ?_, ?_, ?_, ?_, ?_, ?_, ?_⟩
  · intro s t p lanes nonce w l hs ht hen hb hw hh hc hl hi hp hf hd ha
    exact runCmd_of_eq hs (State.doDetectSignal_of_attempt ht ⟨hen, hb, hw, hh, hc, hl, hi, hp, hf, hd⟩ ha)
  · intro s p own peer lanes hs hb
    exact runCmd_of_eq hs (if_pos hb)
  · intro s p inverted hs hb
    exact runCmd_of_eq hs (if_pos hb)
  · intro s p markers hs hb hf
    exact runCmd_of_eq hs (State.doLaneOrderDone_of_failed (s := s.fresh) hb hf)
  · intro s p m l hs hb hl hm
    exact runCmd_of_eq hs (State.doLaneOrderDone_of_single (s := s.fresh) hb hl hm)
  · intro s p skew hs hb
    exact runCmd_of_eq hs (if_pos hb)
  · intro s p hs hb hf
    exact runCmd_of_eq hs (if_pos ⟨hb, hf⟩)
  · intro s p i hs hb hr he
    exact runCmd_of_eq hs (State.doIdentCodewordReceive_of_plain (s := s.fresh) hb hr he)
  · intro s p limits echoed hs hb hl
    exact runCmd_of_eq hs (State.doCreditInitReceive_of_bad (s := s.fresh) hb hl)
  · intro s p limits hs hb ho hsum hn hl ha
    exact runCmd_of_eq hs (State.doCreditInitReceive_of_echoed (s := s.fresh) hb ho hsum hn hl ha)
  · intro s p n cause hs hl ht hst
    exact runCmd_of_eq hs (State.doBringupTimeout_of_late (s := s.fresh) hl ht hst)
  · intro s p hs hb hn
    exact runCmd_of_eq hs (if_pos ⟨hb, hn⟩)

end Sys2Proof.Machine

/-! ### Vangeri links: codewords, acknowledgements and what takes a link down (R268, R269, R273, R279, R280, R282, R287) -/

namespace Sys2Proof.Machine

section
variable {s t : State} {p : Fin 128}

/-! #### Transmission -/

/-- Symbols go out on the lanes that the port holds, driven as their registers say: a change of the port's state alone leaves
width and drive as they were (R269). -/
theorem State.sendSymbols_setPort (s : State) (p n : Nat) (v : VPort) (symbols : List Nat) :
    (s.setPort p v).sendSymbols p n symbols = (s.setPort p v).emit
      (.codeword p n (lineUis (widthLanes (s.get (F.VPT_STAT_WIDTH p))) symbols)
        ((setBitsList v.lanes 4).map (s.laneDrive p))) := by
  rw [State.sendSymbols, State.setPort_port_self]
  rfl

/-- A marker codeword sent is no longer due (R272, R284). -/
theorem State.sendMarker_setPort (s : State) (p n : Nat) (v : VPort) :
    (s.setPort p v).sendMarker p n = ((s.setPort p v).setPort p { v with markNext := false }).emit
      (.codeword p n (lineUis (widthLanes (s.get (F.VPT_STAT_WIDTH p)))
        (markerSymbols p (s.get (F.VPT_STAT_WIDTH p)) (widthLanes (s.get (F.VPT_STAT_WIDTH p)))))
        ((setBitsList v.lanes 4).map (s.laneDrive p))) := by
  rw [State.sendMarker, State.setPort_port_self]
  exact State.sendSymbols_setPort _ p n _ _

/-- An Up port sends a marker as every 8,192nd codeword, and after Quiet (R272, R284). -/
theorem VPort.markerAt_up (v : VPort) (n : Nat) : v.markerAt 9 n = (n % 8192 == 0 || v.markNext) := by
  simp [VPort.markerAt]

/-- The codeword of an Up port that begins in this turn: a marker or the port's stream (R268, R272). -/
theorem State.doCodewordTransmit_of_up {n : Nat} (hn : s.codewordNow p = some n) (hb : s.bstate p = 9)
    (hc : (s.port p).cwNext ≤ n) (hq : (s.port p).quietTx = false) :
    s.doCodewordTransmit p =
      (let t := s.setPort p { s.port p with cwNext := n + 1 }
       if (s.port p).markerAt 9 n then t.sendMarker p n else (t.transmitUp p n).updateThrottle p) := by
  simp [State.doCodewordTransmit, hn, hb, hq, Nat.not_lt.mpr hc]

/-! #### Reception -/

/-- An Up port counts what FEC corrected and what it could not, and asks for that codeword again (R280). -/
theorem State.doCodewordReceive_uncorrectable_of_up {corrected : List Nat} (hb : s.bstate p = 9) :
    s.doCodewordReceive p .uncorrectable corrected =
      ((s.countCorrected p corrected).count (F.VPT_FEC_UNCORR p) 1).badWord p := by
  simp [State.doCodewordReceive, hb]

/-- A codeword of a reserved type ends the run of good ones that FEC lock waits for (R271). -/
theorem State.doCodewordReceive_of_reserved_type {corrected : List Nat} {cw : LinkCodeword} {authentic : Bool}
    (hb : s.bstate p = 6) (hc : s.countCorrected p corrected = t) (he : t.flag (F.VPT_STAT_ENC p) = false) (ht : 3 < cw.type) :
    s.doCodewordReceive p (.codeword cw authentic) corrected =
      ((t.setPort p { t.port p with fecRun := 0 }).count (F.VPT_FEC_UNCORR p) 1).badWord p := by
  have hl : lineCorrect (.codeword cw authentic) = false := by simpa [lineCorrect] using ht
  have h03 : ¬ (cw.type = 0 ∨ cw.type = 3) := by omega
  have h12 : ¬ (cw.type = 1 ∨ cw.type = 2) := by omega
  simp [State.doCodewordReceive, hb, hc, hl, he, h03, h12]

theorem State.doCodewordReceive_data_of_up {corrected : List Nat} {cw : LinkCodeword} {authentic : Bool}
    (hb : s.bstate p = 9) (hc : s.countCorrected p corrected = t) (he : t.flag (F.VPT_STAT_ENC p) = false) (ht : cw.type = 0) :
    s.doCodewordReceive p (.codeword cw authentic) corrected = t.goodWord p cw := by
  simp [State.doCodewordReceive, hb, hc, he, ht]

/-- Authentication that fails among a link's first 64 codewords takes it down (R282). -/
theorem State.doCodewordReceive_of_early_auth_failure {corrected : List Nat} {cw : LinkCodeword}
    (hb : s.bstate p = 9) (hc : s.countCorrected p corrected = t) (he : t.flag (F.VPT_STAT_ENC p) = true)
    (ha : (t.port p).authRx < 64) :
    s.doCodewordReceive p (.codeword cw false) corrected = (t.count (F.VPT_ERR_AUTH_FAIL p) 1).portDown p 0x0A := by
  simp [State.doCodewordReceive, hb, hc, he, ha]

/-! #### Link down -/

theorem State.doLossOfSignal_of_up {lanes : BitVec 4}
    (ht : (setBitsList lanes.toNat 4).foldl (fun (s : State) l =>
      (s.putFlag (F.VGL_STAT_SIGNAL p l) false).putFlag (F.VGL_STAT_CDR_LOCK p l) false) s = t)
    (hl : (s.port p).lanes &&& lanes.toNat ≠ 0) (hu : t.flag (F.VPT_STAT_UP p) = true) :
    s.doLossOfSignal p lanes = t.portDown p 0x0D := by
  simp only [State.doLossOfSignal, ht, bne_iff_ne.mpr hl, hu, Bool.and_self, if_true]

/-- The last of LIMIT replays has been sent whole and ACK_TIMEOUT has passed after it (R281). -/
theorem State.doLinkDown_of_replays (hu : s.flag (F.VPT_STAT_UP p) = true)
    (hl : s.get (F.VPT_RETRY_LIMIT p) ≤ (s.port p).replays) (hr : (s.port p).replay = none) (hn : (s.port p).unacked ≠ [])
    (ht : (s.port p).progressAt + s.get (F.VPT_RETRY_ACK_TIMEOUT p) ≤ s.clk) :
    s.doLinkDown p .replay = s.portDown p 0x0B := by
  simp [State.doLinkDown, hu, hl, hr, hn, ht, linkCauseCode]

end

/-- Settles O35: what an Up port sends and receives by the kind of codeword, and the link down where its cause stands. -/
theorem linkCodewordCommandsComplete : Obligations.LinkCodewordCommandsComplete := by
  refine ⟨?_, ?_, ?_, ?_, ?_, ?_, ?_, ?_, ?_⟩
  · intro s p n hs hn hb hc hq hm
    refine runCmd_of_eq hs ((State.doCodewordTransmit_of_up (s := s.fresh) hn hb hc hq).trans ((if_pos ?_).trans
      (State.sendMarker_setPort s.fresh p n _)))
    simp [VPort.markerAt_up, hm]
  · intro s p n hs hn hb hc hq hm hx
    refine runCmd_of_eq hs ((State.doCodewordTransmit_of_up (s := s.fresh) hn hb hc hq).trans (if_neg ?_))
    simp [VPort.markerAt_up, hm, hx]
  · intro s p corrected hs hb
    exact runCmd_of_eq hs (State.doCodewordReceive_uncorrectable_of_up (s := s.fresh) hb)
  · intro s t p cw authentic corrected hs hb hc he ht
    exact runCmd_of_eq hs (State.doCodewordReceive_of_reserved_type (s := s.fresh) hb hc he ht)
  · intro s t p cw authentic corrected hs hb hc he ht
    exact runCmd_of_eq hs (State.doCodewordReceive_data_of_up (s := s.fresh) hb hc he ht)
  · intro s t p cw corrected hs hb hc he ha
    exact runCmd_of_eq hs (State.doCodewordReceive_of_early_auth_failure (s := s.fresh) hb hc he ha)
  · intro s p hs hb hn ht
    exact runCmd_of_eq hs (if_pos ⟨hb, hn, ht⟩)
  · intro s t p lanes hs ht hl hu
    exact runCmd_of_eq hs (State.doLossOfSignal_of_up (s := s.fresh) ht hl hu)
  · intro s p hs hu hl hr hn ht
    exact runCmd_of_eq hs (State.doLinkDown_of_replays (s := s.fresh) hu hl hr hn ht)

end Sys2Proof.Machine

/-! ### Vangeri links: Quiet, deep idle, loops and the write rule of VPT_CTL (R284, R285, R286, R287) -/

namespace Sys2Proof.Machine

/-! #### Requests of the peer -/

section
variable {s : State} {p : Fin 128} {rest : List Nat}

/-- A STATE request received is taken by the command of its kind. -/
theorem State.takeState_of_first {r : Nat} (h : (s.port p).stateIn = r :: rest) :
    s.takeState p r = some (s.setPort p { s.port p with stateIn := rest }) := by
  simp only [State.takeState, h, if_true]

theorem State.doQuiet_of_request (h : (s.port p).stateIn = 1 :: rest) :
    s.doQuiet p = (let t := s.setPort p { s.port p with stateIn := rest }
      t.setPort p { t.port p with quietRx := true, wake := false }) := by
  rw [State.doQuiet, State.takeState_of_first h]

theorem State.doDeepIdle_of_request (h : (s.port p).stateIn = 2 :: rest) :
    s.doDeepIdle p = ((List.range 4).foldl (fun (s : State) l => s.putFlag (F.VGL_STAT_SIGNAL p l) false)
      ((s.setPort p { s.port p with stateIn := rest }).portDown p 0x0F)).put (F.VPT_STAT_LSTATE p) 3 := by
  rw [State.doDeepIdle, State.takeState_of_first h]

/-- FE_ALLOW decides between a grant, announced before the link goes down, and a denial (R286). -/
theorem State.doFeLoopReq_of_request (h : (s.port p).stateIn = 3 :: rest) :
    s.doFeLoopReq p = (let t := s.setPort p { s.port p with stateIn := rest }
      if s.flag (F.VPT_CTL_FE_ALLOW p) then
        let u := (t.announce p 4).portDown p 0x0F
        (u.setPort p { u.port p with feGranted := true }).put (F.VPT_STAT_BSTATE p) 10
      else t.setPort p { t.port p with stateOut := 5 }) := by
  rw [State.doFeLoopReq, State.takeState_of_first h]
  rfl

/-! #### The port's own Quiet -/

/-- What R284 asks before a port enters Quiet: an Up port, idle for QUIET_IDLE turns, with nothing to send or unacknowledged. -/
structure State.MayQuiet (s : State) (p : Nat) : Prop where
  up : s.bstate p = 9
  awake : (s.port p).quietTx = false
  enabled : s.get (F.VPT_CTL_QUIET_IDLE p) ≠ 0
  idle : (s.port p).busyAt + s.get (F.VPT_CTL_QUIET_IDLE p) ≤ s.clk
  acked : (s.port p).unacked = []
  nothing : s.txWaits p = false
  unlisted : s.listedSoon p = false

/-- Such a port announces Quiet in the codeword that begins in this turn, unless it is a marker (R283, R284). -/
theorem State.doQuietEnter_of_idle {n : Nat} (h : s.MayQuiet p) (hn : s.codewordNow p = some n) (hc : (s.port p).cwNext ≤ n)
    (hm : (s.port p).markerAt 9 n = false) :
    s.doQuietEnter p =
      (let t := (s.setPort p { s.port p with stateOut := 1, cwNext := n + 1 }).transmitUp p n
       ((t.setPort p { t.port p with quietTx := true, wake := false }).put (F.VPT_STAT_LSTATE p) 2).emit (.pattern p 1)) := by
  obtain ⟨hb, hq, he, hi, hu, hw, hl⟩ := h
  have hgo : ¬ (n < (s.port p).cwNext ∨ (s.port p).markerAt 9 n = true) := by simp [hm, Nat.not_lt.mpr hc]
  refine (if_pos ⟨hb, hq, he, hi, hu, hw, hl⟩).trans ?_
  rw [hn]
  exact if_neg hgo

/-- Out of Quiet the first codeword is a marker (R284). -/
theorem State.leaveQuiet_of_quiet (hq : (s.port p).quietTx = true) :
    s.leaveQuiet p = (s.setPort p { s.port p with
      quietTx := false
      wake := false
      markNext := true
      busyAt := s.clk }).put (F.VPT_STAT_LSTATE p) 1 := if_pos hq

end

/-! #### The write rule of VPT_CTL -/

/-- VPT_CTL of port `n` is one of 32 on its page (Table 12-13). -/
theorem pageOf_VPT_CTL (n : Fin 128) : pageOf (Reg.VPT_CTL n) = some (2, n.val / 32, 0x100 + 0x40 * (n.val % 32)) := by
  have hb : (pageBlock 2 (n.val / 32)).isSome = true := by
    have : n.val / 32 ≤ 3 := by omega
    simp [pageBlock, this]
  exact pageOf_of_eq (pg := 0x20 + n.val / 32) (by unfold Reg.VPT_CTL; omega) (by omega) (by omega) (by omega) (by decide)
    (by decide) (by decide) hb

theorem regHook_VPT_CTL {data : Word} {aux : Option Nat} {s : State} {w : RegWrite} (n : Nat) :
    regHook data aux 2 (n / 32) (0x100 + 0x40 * (n % 32)) s w = hookVptCtl n s w := by
  have hh : ¬ 0x100 + 0x40 * (n % 32) < 0x100 := by omega
  have ho : (0x100 + 0x40 * (n % 32) - 0x100) % 0x40 = 0 := by omega
  have hn : 32 * (n / 32) + (0x100 + 0x40 * (n % 32) - 0x100) / 0x40 = n := by omega
  rw [regHook, if_neg hh, if_neg (fun h => absurd h.1 (by decide)), if_pos ⟨rfl, ho⟩, hn]

/-- A write of VPT_CTL that discards nothing acts by the register's rule. -/
theorem runCmd_pathWrite_VPT_CTL {s s' : State} {p : Path} {n : Fin 128} {data : Word} {w : RegWrite}
    (hs : s.stopped = false) (ho : s.writeOpen p (Reg.VPT_CTL n) data = true) (hw : s.writeOf p (Reg.VPT_CTL n) data = w)
    (hk : hookVptCtl n s.fresh w = s') :
    runCmd s (fun s => s.pathWrite p (Reg.VPT_CTL n) data none) = .next (s'.written p).settled :=
  runCmd_pathWrite_of_open hs ho (pageOf_VPT_CTL n) ((regHook_VPT_CTL n.val).trans (hw ▸ hk))

section
variable {s : State} {n : Nat} {w : RegWrite}

@[simp] theorem State.takeWrite_port (s : State) (w : RegWrite) (p : Nat) : (s.takeWrite w).port p = s.port p := rfl

/-- A detached device's ports stay as they are (R439). -/
theorem hookVptCtl_of_detached (hd : s.up.detachAt ≠ none) : hookVptCtl n s w = s.takeWrite w :=
  if_pos (Option.isSome_iff_ne_none.mpr hd)

/-- EN cleared (R287). -/
theorem hookVptCtl_of_disabled (hd : s.up.detachAt = none) (hst : (s.port n).stuck = false)
    (hn : w.newF (F.VPT_CTL_EN n) = 0) (ho : w.oldF (F.VPT_CTL_EN n) = 1) :
    hookVptCtl n s w = ((s.takeWrite w).portDown n 0x0F).put (F.VPT_STAT_LSTATE n) 0 := by
  simp [hookVptCtl, hd, hst, hn, ho]

/-- A loop selected on an enabled port (R286). -/
theorem hookVptCtl_of_loop (hd : s.up.detachAt = none) (hst : (s.port n).stuck = false) (he : w.newF (F.VPT_CTL_EN n) ≠ 0)
    (hl : w.newF (F.VPT_CTL_LOOP n) ≠ 0) (ho : w.newF (F.VPT_CTL_LOOP n) ≠ w.oldF (F.VPT_CTL_LOOP n)) :
    hookVptCtl n s w = (s.takeWrite w).enterLoop n (w.newF (F.VPT_CTL_LOOP n)) := by
  simp [hookVptCtl, hd, hst, he, hl, ho]

/-- A loop that needs no grant of the peer takes the link down and runs, where nothing holds the port (R286). -/
theorem State.enterLoop_without_peer {loop : Nat} (hl : loop ≠ 3) (hh : s.portsHeld = false) :
    s.enterLoop n loop = (s.portDown n 0x0F).put (F.VPT_STAT_BSTATE n) 10 := by
  simp [State.enterLoop, hl, hh]

/-- Deep idle requested of an enabled port in no loop (R285). -/
theorem hookVptCtl_of_deepIdle (hd : s.up.detachAt = none) (hst : (s.port n).stuck = false)
    (hn : w.newF (F.VPT_CTL_EN n) = 1) (ho : w.oldF (F.VPT_CTL_EN n) = 1) (hnl : w.newF (F.VPT_CTL_LOOP n) = 0)
    (hol : w.oldF (F.VPT_CTL_LOOP n) = 0) (hr : w.newF (F.VPT_CTL_STATE_REQ n) = 2) (hor : w.oldF (F.VPT_CTL_STATE_REQ n) ≠ 2) :
    hookVptCtl n s w = (s.takeWrite w).portDeepIdle n := by
  simp [hookVptCtl, hd, hst, hn, ho, hnl, hol, hr, hor]

/-- The value that an enabled port in no loop and with no request already holds, written again, changes nothing more, and lets no
port that Ident refused try again (R277). -/
theorem hookVptCtl_of_same (hd : s.up.detachAt = none) (he : w.new = w.old) (hn : w.newF (F.VPT_CTL_EN n) = 1)
    (hl : w.newF (F.VPT_CTL_LOOP n) = 0) (hr : w.newF (F.VPT_CTL_STATE_REQ n) = 0) : hookVptCtl n s w = s.takeWrite w := by
  have hold (f : RField) : w.oldF f = w.newF f := by rw [RegWrite.oldF, RegWrite.newF, he]
  simp [hookVptCtl, hd, he, hold, hn, hl, hr]

end

/-- Settles O36: a request of the peer by its kind, the port's own Quiet by what waits, and the three commands that write VPT_CTL
by the register's one rule. -/
theorem linkStateCommandsComplete : Obligations.LinkStateCommandsComplete := by
  refine ⟨?_, ?_, ?_, ?_, ?_, ?_, ?_, ?_, ?_, ?_, ?_, ?_, ?_⟩
  · intro s p rest hs h
    exact runCmd_of_eq hs (State.doQuiet_of_request (s := s.fresh) h)
  · intro s p n hs hb hq he hi hu hw hl hn hc hm
    exact runCmd_of_eq hs (State.doQuietEnter_of_idle (s := s.fresh) ⟨hb, hq, he, hi, hu, hw, hl⟩ hn hc hm)
  · intro s p hs hb hq hw
    exact runCmd_of_eq hs ((if_pos ⟨hb, hq, .inl hw⟩).trans (State.leaveQuiet_of_quiet (s := s.fresh) hq))
  · intro s p rest hs h
    exact runCmd_of_eq hs (State.doDeepIdle_of_request (s := s.fresh) h)
  · intro s p rest hs h hf
    exact runCmd_of_eq hs ((State.doFeLoopReq_of_request (s := s.fresh) h).trans (if_pos hf))
  · intro s p rest hs h hf
    exact runCmd_of_eq hs ((State.doFeLoopReq_of_request (s := s.fresh) h).trans (if_neg (ne_true_of_eq_false hf)))
  · intro s p hs hf hl
    exact runCmd_of_eq hs (if_pos ⟨hf, hl⟩)
  · intro s p hs hf
    exact runCmd_of_eq hs (if_pos hf)
  · intro s p n data w hs ho hw hst hd hn hon hnl hol hr hor
    exact runCmd_pathWrite_VPT_CTL hs ho hw (hookVptCtl_of_deepIdle (s := s.fresh) hd hst hn hon hnl hol hr hor)
  · intro s t p n data w hs ho hw hst hd ht hh hn hl hol
    subst ht
    refine runCmd_pathWrite_VPT_CTL hs ho hw ((hookVptCtl_of_loop (s := s.fresh) hd hst ?_ ?_ ?_).trans
      (State.enterLoop_without_peer ?_ hh))
    all_goals simp [hn, hl, hol]
  · intro s p n data w hs ho hw hst hd hn hon
    exact runCmd_pathWrite_VPT_CTL hs ho hw (hookVptCtl_of_disabled (s := s.fresh) hd hst hn hon)
  · intro s p n data w hs ho hw hd
    exact runCmd_pathWrite_VPT_CTL hs ho hw (hookVptCtl_of_detached (s := s.fresh) hd)
  · intro s p n data w hs ho hw hd hst he hn hl hr
    exact runCmd_pathWrite_VPT_CTL hs ho hw (hookVptCtl_of_same (s := s.fresh) hd he hn hl hr)

end Sys2Proof.Machine

/-! ### Bit fields of a register -/

namespace Sys2Proof.Machine

/-- The bits of a field are the value's bits in its place. -/
theorem testBit_bitsOf (v hi lo k : Nat) : (bitsOf v hi lo).testBit k = (decide (k < hi + 1 - lo) && v.testBit (lo + k)) := by
  rw [bitsOf, Nat.testBit_mod_two_pow, Nat.testBit_div_two_pow, Nat.add_comm lo k]

theorem bitsOf_lt (v hi lo : Nat) : bitsOf v hi lo < 2 ^ (hi + 1 - lo) := Nat.mod_lt _ (Nat.two_pow_pos _)

/-- A value splits at a field into the bits below it, the field, and the bits above it. -/
theorem eq_low_add_bitsOf_add_high (v : Nat) {hi lo : Nat} (h : lo ≤ hi) :
    v = v % 2 ^ lo + 2 ^ lo * (bitsOf v hi lo + 2 ^ (hi + 1 - lo) * (v / 2 ^ (hi + 1))) := by
  have hd : v / 2 ^ (hi + 1) = v / 2 ^ lo / 2 ^ (hi + 1 - lo) := by
    rw [Nat.div_div_eq_div_mul, ← pow_add, Nat.add_sub_cancel' (by omega)]
  rw [hd, bitsOf, Nat.mod_add_div, Nat.mod_add_div]

theorem setBitsOf_eq (v x : Nat) {hi lo : Nat} (h : lo ≤ hi) :
    setBitsOf v hi lo x =
      v % 2 ^ lo + 2 ^ lo * (x % 2 ^ (hi + 1 - lo) + 2 ^ (hi + 1 - lo) * (v / 2 ^ (hi + 1))) := by
  have hv := eq_low_add_bitsOf_add_high v h
  rw [setBitsOf]
  generalize 2 ^ (hi + 1 - lo) * (v / 2 ^ (hi + 1)) = a at *
  generalize bitsOf v hi lo = b at *
  rw [Nat.mul_add] at hv ⊢
  rw [Nat.mul_comm b, Nat.mul_comm (x % _)]
  omega

/-- After a field is replaced, its bits are the new value's and every other bit is as before. -/
theorem testBit_setBitsOf (v x k : Nat) {hi lo : Nat} (h : lo ≤ hi) :
    (setBitsOf v hi lo x).testBit k = if lo ≤ k ∧ k ≤ hi then x.testBit (k - lo) else v.testBit k := by
  rw [setBitsOf_eq v x h, Nat.add_comm, Nat.testBit_two_pow_mul_add _ (Nat.mod_lt _ (Nat.two_pow_pos _))]
  by_cases h1 : k < lo
  · rw [if_pos h1, if_neg (by omega), Nat.testBit_mod_two_pow, decide_eq_true h1, Bool.true_and]
  · rw [if_neg h1, Nat.add_comm, Nat.testBit_two_pow_mul_add _ (Nat.mod_lt _ (Nat.two_pow_pos _))]
    by_cases h2 : k ≤ hi
    · rw [if_pos (by omega), if_pos (by omega), Nat.testBit_mod_two_pow, decide_eq_true (by omega), Bool.true_and]
    · rw [if_neg (by omega), if_neg (by omega), Nat.testBit_div_two_pow]
      congr 1
      omega

theorem testBit_fieldGet (v : Word) (hi lo k : Nat) :
    (fieldGet v hi lo).testBit k = (decide (k < hi + 1 - lo) && v.getLsbD (lo + k)) := testBit_bitsOf _ _ _ _

/-- A register's bits after a field is set. -/
theorem getLsbD_fieldPut (v : Word) (x k : Nat) {hi lo : Nat} (h : lo ≤ hi) (h64 : hi < 64) :
    (fieldPut v hi lo x).getLsbD k = if lo ≤ k ∧ k ≤ hi then x.testBit (k - lo) else v.getLsbD k := by
  rw [fieldPut, BitVec.getLsbD_ofNat, testBit_setBitsOf _ _ _ h]
  by_cases hk : k < 64
  · rw [decide_eq_true hk, Bool.true_and]; rfl
  · rw [decide_eq_false hk, Bool.false_and, if_neg (by omega), BitVec.getLsbD_of_ge _ _ (by omega)]

/-- Two registers whose bits agree in a field have the same field. -/
theorem fieldGet_congr {v w : Word} {hi lo : Nat} (h : ∀ k, lo ≤ k → k ≤ hi → v.getLsbD k = w.getLsbD k) :
    fieldGet v hi lo = fieldGet w hi lo := by
  apply Nat.eq_of_testBit_eq
  intro k
  rw [testBit_fieldGet, testBit_fieldGet]
  by_cases hk : k < hi + 1 - lo
  · rw [h _ (by omega) (by omega)]
  · simp [hk]

/-- A field reads as the value set, as far as it holds it. -/
theorem fieldGet_fieldPut (v : Word) (x : Nat) {hi lo : Nat} (h : lo ≤ hi) (h64 : hi < 64) :
    fieldGet (fieldPut v hi lo x) hi lo = x % 2 ^ (hi + 1 - lo) := by
  apply Nat.eq_of_testBit_eq
  intro k
  rw [testBit_fieldGet, Nat.testBit_mod_two_pow]
  by_cases hk : k < hi + 1 - lo
  · rw [getLsbD_fieldPut _ _ _ h h64, if_pos (by omega), Nat.add_sub_cancel_left]
  · simp [hk]

/-- Setting a field leaves a field beside it as it was. -/
theorem fieldGet_fieldPut_of_apart (v : Word) (x : Nat) {hi lo hi' lo' : Nat} (h : lo ≤ hi) (h64 : hi < 64)
    (ha : hi < lo' ∨ hi' < lo) : fieldGet (fieldPut v hi lo x) hi' lo' = fieldGet v hi' lo' := by
  apply fieldGet_congr
  intro k hl hh
  rw [getLsbD_fieldPut _ _ _ h h64, if_neg (by omega)]

theorem State.get_put_self (s : State) (f : RField) (v : Nat) (h : f.lo ≤ f.hi) (h64 : f.hi < 64) :
    (s.put f v).get f = v % 2 ^ (f.hi + 1 - f.lo) := by
  rw [State.get, State.reg_put, if_pos rfl, fieldGet_fieldPut _ _ h h64]

theorem State.flag_putFlag_self (s : State) (f : RField) (b : Bool) (h : f.lo = f.hi) (h64 : f.hi < 64) :
    (s.putFlag f b).flag f = b := by
  rw [State.flag, State.putFlag, State.get_put_self _ _ _ (by omega) h64, h]
  cases b <;> simp

theorem State.get_put_of_apart (s : State) (f g : RField) (v : Nat) (h : f.lo ≤ f.hi) (h64 : f.hi < 64)
    (ha : f.hi < g.lo ∨ g.hi < f.lo) : (s.put f v).get g = s.get g := by
  rw [State.get, State.reg_put]
  split
  · next he => rw [fieldGet_fieldPut_of_apart _ _ h h64 ha, State.get, he]
  · rfl

end Sys2Proof.Machine

/-! ### The status fields when a command ends (R356, Tables 2-10 and 11-6) -/

namespace Sys2Proof.Machine

/-- What a property of every entry says of an address that it holds of whatever the entry's value. -/
theorem Sparse.all_erase_of_free {α : Type} {p : Nat × α → Bool} {k : Nat} (hk : ∀ v, p (k, v) = true)
    (m : List (Nat × α)) : (Sparse.erase m k).all p = m.all p := by
  induction m with
  | nil => rfl
  | cons e m ih =>
    by_cases h : k = e.1
    · have he : p e = true := by rw [show e = (k, e.2) by rw [h]]; exact hk _
      rw [Sparse.erase, if_pos h, ih, List.all_cons, he, Bool.true_and]
    · rw [Sparse.erase, if_neg h, List.all_cons, List.all_cons, ih]

theorem Sparse.all_insert_of_free {α : Type} {p : Nat × α → Bool} {k : Nat} (hk : ∀ v, p (k, v) = true)
    (m : List (Nat × α)) (v : α) : (Sparse.insert m k v).all p = m.all p := by
  induction m with
  | nil => simp [Sparse.insert, hk]
  | cons e m ih =>
    by_cases h : k < e.1
    · rw [Sparse.insert, if_pos h, List.all_cons, hk, Bool.true_and]
    · rw [Sparse.insert, if_neg h, List.all_cons, List.all_cons, ih]

theorem Sparse.all_set_of_free {α : Type} [DecidableEq α] {d : Nat → α} {p : Nat × α → Bool} {k : Nat}
    (hk : ∀ v, p (k, v) = true) (m : List (Nat × α)) (v : α) : (Sparse.set d m k v).all p = m.all p := by
  unfold Sparse.set
  split
  · exact Sparse.all_erase_of_free hk m
  · rw [Sparse.all_insert_of_free hk, Sparse.all_erase_of_free hk]

/-- Only a VPT_STAT register changes what LINKS_ENC shows. -/
theorem State.linksEncrypted_setReg (s : State) {a : Nat} (v : Word) (h : isVptStat a = false) :
    (s.setReg a v).linksEncrypted = s.linksEncrypted := by
  unfold State.linksEncrypted State.setReg
  rw [Sparse.all_set_of_free (fun _ => by simp [h])]

/-- Six flags packed in a number are read back one by one. -/
theorem fieldGet_flags (a b c d e f : Bool) :
    let w := BitVec.ofNat 64 (b2n a + 2 * b2n b + 4 * b2n c + 8 * b2n d + 16 * b2n e + 32 * b2n f)
    fieldGet w 0 0 = b2n a ∧ fieldGet w 1 1 = b2n b ∧ fieldGet w 2 2 = b2n c ∧ fieldGet w 3 3 = b2n d ∧
      fieldGet w 4 4 = b2n e ∧ fieldGet w 5 5 = b2n f := by
  revert a b c d e f
  decide

theorem b2n_bne_zero (b : Bool) : (b2n b != 0) = b := by cases b <;> rfl

/-- Bringing the status fields up to date leaves every register but the four that show them. -/
theorem State.showStatus_reg (s : State) {a : Nat} (h : a ∉ statusRegs) : s.showStatus.reg a = s.reg a := by
  simp only [statusRegs, List.mem_cons, List.not_mem_nil, or_false, not_or] at h
  obtain ⟨hsec, hrte, hmgt, htrn⟩ := h
  rw [State.showStatus, State.reg_setReg_of_ne _ _ htrn, State.putFlag, State.reg_put_of_ne _ _ _ hmgt,
    State.reg_put_of_ne _ _ _ hrte, State.reg_setReg_of_ne _ _ hsec]

theorem State.showStatus_reg_SEC_STAT (s : State) : s.showStatus.reg Reg.SEC_STAT = s.secStat := by
  rw [State.showStatus, State.reg_setReg_of_ne _ _ (by decide), State.putFlag, State.reg_put_of_ne _ _ _ (by decide),
    State.reg_put_of_ne _ _ _ (by decide), State.reg_setReg_self]

theorem State.showStatus_reg_TRN_NOW (s : State) : s.showStatus.reg Reg.TRN_NOW = s.turn := State.reg_setReg_self _ _ _

theorem State.showStatus_get_RTE_STAT_CUR (s : State) : s.showStatus.get F.RTE_STAT_CUR = s.get F.RTE_CTL_CUR := by
  have hlt : s.get F.RTE_CTL_CUR < 2 ^ 1 := bitsOf_lt _ _ _
  rw [State.showStatus, State.get, State.reg_setReg_of_ne _ _ (by decide), State.putFlag,
    State.reg_put_of_ne _ _ _ (by decide)]
  exact (State.get_put_self _ F.RTE_STAT_CUR _ (by decide) (by decide)).trans (Nat.mod_eq_of_lt hlt)

theorem State.showStatus_get (s : State) {f : RField} (h : f.addr ∉ statusRegs) : s.showStatus.get f = s.get f := by
  rw [State.get, State.showStatus_reg s h, State.get]

theorem State.showStatus_flag (s : State) {f : RField} (h : f.addr ∉ statusRegs) : s.showStatus.flag f = s.flag f := by
  rw [State.flag, State.showStatus_get s h, State.flag]

theorem State.showStatus_linksEncrypted (s : State) : s.showStatus.linksEncrypted = s.linksEncrypted := by
  simp only [State.showStatus, State.putFlag, State.put]
  rw [State.linksEncrypted_setReg _ _ (by decide), State.linksEncrypted_setReg _ _ (by decide),
    State.linksEncrypted_setReg _ _ (by decide), State.linksEncrypted_setReg _ _ (by decide)]

theorem State.showStatus_memEncrypted (s : State) : s.showStatus.memEncrypted = s.memEncrypted := by
  rw [State.memEncrypted, State.showStatus_flag s (by decide), State.showStatus_flag s (by decide), State.memEncrypted]

/-- A one-bit field of SEC_STAT reads as the bit that R356 packs there. -/
theorem State.showStatus_secFlag (s : State) {f : RField} {b : Bool} (hf : f.addr = Reg.SEC_STAT)
    (hb : fieldGet s.secStat f.hi f.lo = b2n b) : s.showStatus.flag f = b := by
  rw [State.flag, State.get, hf, State.showStatus_reg_SEC_STAT, hb, b2n_bne_zero]

/-- The bits of SEC_STAT as R356 makes them. -/
theorem State.secStat_bits (s : State) :
    fieldGet s.secStat 0 0 = b2n (s.flag F.SEC_LOCK_LOCK) ∧ fieldGet s.secStat 1 1 = b2n (s.flag F.SEC_STAT_FW_OK) ∧
    fieldGet s.secStat 2 2 = b2n s.memEncrypted ∧ fieldGet s.secStat 3 3 = b2n s.linksEncrypted ∧
    fieldGet s.secStat 4 4 = b2n (s.flag F.SEC_STAT_BURNISHED) ∧ fieldGet s.secStat 5 5 = b2n s.conditions :=
  fieldGet_flags _ _ _ _ _ _

theorem State.showStatus_conditions (s : State) : s.showStatus.conditions = s.conditions := by
  obtain ⟨-, hfw, -, -, hbu, -⟩ := s.secStat_bits
  rw [State.conditions, State.showStatus_flag s (f := F.SEC_LOCK_LOCK) (by decide), State.showStatus_memEncrypted,
    State.showStatus_linksEncrypted, State.showStatus_secFlag s (f := F.SEC_STAT_FW_OK) rfl hfw,
    State.showStatus_secFlag s (f := F.SEC_STAT_BURNISHED) rfl hbu, State.conditions]

/-- Whatever the state, the status fields show what they show once brought up to date: what they show is held in other
registers, or in bits of SEC_STAT that are put back as they were. -/
theorem State.showStatus_upToDate (s : State) : s.showStatus.upToDate := by
  obtain ⟨hlock, -, hmem, hlinks, -, hcond⟩ := s.secStat_bits
  refine ⟨s.showStatus_reg_TRN_NOW, ?_, ?_, ?_, ?_, ?_⟩
  · rw [State.showStatus_get_RTE_STAT_CUR, State.showStatus_get s (by decide)]
  · rw [State.showStatus_secFlag s (f := F.SEC_STAT_LOCKED) rfl hlock, State.showStatus_flag s (by decide)]
  · rw [State.showStatus_secFlag s (f := F.SEC_STAT_MEM_ENC) rfl hmem, State.showStatus_memEncrypted]
  · rw [State.showStatus_secFlag s (f := F.SEC_STAT_LINKS_ENC) rfl hlinks, State.showStatus_linksEncrypted]
  · rw [State.showStatus_secFlag s (f := F.SEC_STAT_CONDITIONS) rfl hcond, State.showStatus_conditions]

theorem State.seal_upToDate (s : State) : s.seal.upToDate := by
  unfold State.seal
  split
  · exact State.showStatus_upToDate _
  · exact State.showStatus_upToDate _

/-- A command ends with the status fields brought up to date, or, on a stopped device, changes nothing that they show. -/
theorem exec_upToDate {c : Instr} {s t : State} (h : s.upToDate) (ht : exec c s = .next t) : t.upToDate := by
  obtain ⟨f, hf | hf⟩ := exec_eq_runCmd_or_runPin c
  · rw [hf, runCmd, State.runOn] at ht
    injection ht with ht
    subst ht
    split
    · exact h
    · exact State.seal_upToDate _
  · rw [hf, runPin] at ht
    injection ht with ht
    subst ht
    exact State.seal_upToDate _

/-- Settles O4: a step with nothing pending changes nothing, and any other is a command's run. -/
theorem stepKeepsStatusFields : Obligations.StepKeepsStatusFields := by
  intro s t h ht
  unfold step at ht
  split at ht
  · injection ht with ht
    exact ht ▸ h
  · next c rest hp =>
    have hrest : ({ s with pending := rest } : State).upToDate := h
    exact exec_upToDate hrest ht

/-- Settles O3: at reset nothing is listed, so that the status fields are bits of reset values and every store is canonical. -/
theorem invariantsAtReset : Obligations.InvariantsAtReset := ⟨by decide +kernel, State.reset_memoryWf⟩

/-- Settles O5: whatever is not RESET_N runs only on a clocked device. -/
theorem stoppedDeviceDoesNothing : Obligations.StoppedDeviceDoesNothing := by
  intro c s hs ha hr
  obtain ⟨f, hf⟩ := exec_eq_runCmd ha hr
  rw [hf, runCmd_of_stopped hs]

/-- Settles O1: the queue's two shapes are the two cases of the step. -/
theorem stepRunsTheFrontCommand : Obligations.StepRunsTheFrontCommand := by
  refine ⟨fun c rest s => rfl, fun s h => ?_⟩
  rw [step, h]

end Sys2Proof.Machine

/-! ### The Hatch code: products in GF(2^8) by powers of α (R292) -/

namespace Sys2Proof.Machine

theorem gfX2_lt {a : Nat} (h : a < 256) : gfX2 a < 256 := by
  unfold gfX2
  split
  · omega
  · exact Nat.xor_lt_two_pow (n := 8) (Nat.mod_lt _ (by decide)) (by decide)

theorem gfX2_iterate_lt {a : Nat} (h : a < 256) (n : Nat) : gfX2^[n] a < 256 := by
  induction n with
  | zero => exact h
  | succ n ih => rw [Function.iterate_succ_apply']; exact gfX2_lt ih

@[simp] theorem gfMulAux_zero_right (n a : Nat) : gfMulAux n a 0 = 0 := by
  induction n generalizing a with
  | zero => rfl
  | succ n ih => simp [gfMulAux, ih]

@[simp] theorem gfMulAux_zero_left (n b : Nat) : gfMulAux n 0 b = 0 := by
  induction n generalizing b with
  | zero => rfl
  | succ n ih => simp [gfMulAux, show gfX2 0 = 0 from rfl, ih]

/-- Products distribute over sums in the second factor. -/
theorem gfMulAux_xor (n a b c : Nat) : gfMulAux n a (b ^^^ c) = gfMulAux n a b ^^^ gfMulAux n a c := by
  induction n generalizing a b c with
  | zero => exact (Nat.xor_self 0).symm
  | succ n ih =>
    simp only [gfMulAux, Nat.xor_div_two, ih, Nat.xor_mod_two_eq_one]
    by_cases hb : b % 2 = 1 <;> by_cases hc : c % 2 = 1 <;> simp [hb, hc, Nat.xor_assoc, Nat.xor_left_comm]

/-- Only the bits taken of the second factor count. -/
theorem gfMulAux_mod (n a b : Nat) : gfMulAux n a (b % 2 ^ n) = gfMulAux n a b := by
  induction n generalizing a b with
  | zero => rfl
  | succ n ih =>
    have hbit : b % 2 ^ (n + 1) % 2 = b % 2 := Nat.mod_mod_of_dvd _ ⟨2 ^ n, Nat.pow_succ'⟩
    have hrest : b % 2 ^ (n + 1) / 2 = b / 2 % 2 ^ n := by rw [Nat.pow_succ', Nat.mod_mul_right_div_self]
    rw [gfMulAux, gfMulAux, hbit, hrest, ih]

/-- The last bit taken adds the first factor times that power of α. -/
theorem gfMulAux_succ_last (n a b : Nat) :
    gfMulAux (n + 1) a b = gfMulAux n a b ^^^ (if b.testBit n then gfX2^[n] a else 0) := by
  induction n generalizing a b with
  | zero => simp [gfMulAux, Nat.testBit_zero]
  | succ n ih => rw [gfMulAux, ih, gfMulAux, Nat.testBit_succ, Function.iterate_succ_apply, Nat.xor_assoc]

/-- The field polynomial: α^8 is α^4 + α^3 + α^2 + 1 (R292). -/
theorem gfMul_fieldPolynomial : ∀ a < 256, gfMul a 0x1D = gfX2^[8] a := by decide +kernel

/-- A factor α moves from one side of a product to the other. -/
theorem gfMul_gfX2 {a b : Nat} (ha : a < 256) (hb : b < 256) : gfMul a (gfX2 b) = gfMul (gfX2 a) b := by
  have hdouble : gfMul a (2 * b % 256) = gfMulAux 7 (gfX2 a) b := by
    rw [gfMul, show (256 : Nat) = 2 ^ 8 from rfl, gfMulAux_mod, gfMulAux, Nat.mul_mod_right, Nat.mul_div_right _ (by decide)]
    simp
  rw [show gfMul (gfX2 a) b = gfMulAux (7 + 1) (gfX2 a) b from rfl, gfMulAux_succ_last, ← hdouble]
  unfold gfX2
  by_cases hlow : b < 128
  · have hbit : b.testBit 7 = false := Nat.testBit_lt_two_pow hlow
    rw [if_pos hlow, hbit, if_neg (by decide), Nat.xor_zero, Nat.mul_comm, Nat.mod_eq_of_lt (by omega)]
  · have hbit : b.testBit 7 = true := by
      rw [Nat.testBit_eq_decide_div_mod_eq, decide_eq_true_eq]
      omega
    have hpoly := gfMul_fieldPolynomial a ha
    rw [Function.iterate_succ_apply] at hpoly
    rw [if_neg hlow, hbit, if_pos rfl, Nat.mul_comm, gfMul, gfMulAux_xor]
    exact congrArg _ hpoly

@[simp] theorem gfMul_one (a : Nat) : gfMul a 1 = a := by simp [gfMul, gfMulAux]

/-- A product with α^n multiplies by α, n times. -/
theorem gfMul_iterate {a : Nat} (ha : a < 256) (n : Nat) : gfMul a (gfX2^[n] 1) = gfX2^[n] a := by
  induction n generalizing a with
  | zero => exact gfMul_one a
  | succ n ih =>
    rw [Function.iterate_succ_apply', gfMul_gfX2 ha (gfX2_iterate_lt (by decide) n), ih (gfX2_lt ha),
      ← Function.iterate_succ_apply]

theorem gfAlpha_eq_iterate (n : Nat) : gfAlpha n = gfX2^[n] 1 := by
  induction n with
  | zero => rfl
  | succ n ih =>
    rw [gfAlpha, gfPow, ← gfAlpha, ih, gfMul_iterate (by decide), Function.iterate_succ_apply]
    rfl

theorem gfMul_gfAlpha {a : Nat} (ha : a < 256) (n : Nat) : gfMul a (gfAlpha n) = gfX2^[n] a := by
  rw [gfAlpha_eq_iterate, gfMul_iterate ha]

/-! #### α has order 255 -/

theorem gfX2_periodic_255 {a : Nat} (ha : a < 256) : Function.IsPeriodicPt gfX2 255 a := by
  have hone : gfX2^[255] 1 = 1 := by decide +kernel
  have h := gfMul_iterate ha 255
  rw [hone, gfMul_one] at h
  exact h.symm

theorem gfX2_iterate_15_ne : ∀ a < 256, a ≠ 0 → gfX2^[15] a ≠ a := by decide +kernel

theorem gfX2_iterate_17_ne : ∀ a < 256, a ≠ 0 → gfX2^[17] a ≠ a := by decide +kernel

/-- A power of α below the 36th is 1 only where it is the power 0: otherwise α would have order 15 or 17. -/
theorem eq_zero_of_gfX2_periodic {a d : Nat} (ha : a < 256) (h0 : a ≠ 0) (hd : d < 36)
    (h : Function.IsPeriodicPt gfX2 d a) : d = 0 := by
  by_contra hne
  have hg := h.gcd (gfX2_periodic_255 ha)
  have hdvd : Nat.gcd d 255 ∣ 15 ∨ Nat.gcd d 255 ∣ 17 := by
    clear h hg
    revert d
    decide
  rcases hdvd with hdvd | hdvd
  · exact gfX2_iterate_15_ne a ha h0 (hg.trans_dvd hdvd)
  · exact gfX2_iterate_17_ne a ha h0 (hg.trans_dvd hdvd)

theorem gfX2_injOn {a b : Nat} (ha : a < 256) (hb : b < 256) (h : gfX2 a = gfX2 b) : a = b := by
  have h254 := congrArg gfX2^[254] h
  rw [← Function.iterate_succ_apply, ← Function.iterate_succ_apply] at h254
  exact (gfX2_periodic_255 ha).symm.trans (h254.trans (gfX2_periodic_255 hb))

theorem gfX2_iterate_injOn {a b : Nat} (ha : a < 256) (hb : b < 256) (n : Nat) (h : gfX2^[n] a = gfX2^[n] b) : a = b := by
  induction n with
  | zero => exact h
  | succ n ih =>
    rw [Function.iterate_succ_apply', Function.iterate_succ_apply'] at h
    exact ih (gfX2_injOn (gfX2_iterate_lt ha n) (gfX2_iterate_lt hb n) h)

/-- The powers of α from the 0th to the 35th differ. -/
theorem eq_of_gfX2_iterate_eq {a m n : Nat} (ha : a < 256) (h0 : a ≠ 0) (hm : m < 36) (hn : n < 36)
    (h : gfX2^[m] a = gfX2^[n] a) : m = n := by
  wlog hle : m ≤ n generalizing m n
  · exact (this hn hm h.symm (by omega)).symm
  obtain ⟨d, rfl⟩ := Nat.exists_eq_add_of_le hle
  rw [Function.iterate_add_apply] at h
  have hd := eq_zero_of_gfX2_periodic ha h0 (by omega) (gfX2_iterate_injOn ha (gfX2_iterate_lt ha d) m h).symm
  omega

/-! #### A word with one symbol in error -/

theorem listSet_eq_set {α : Type} (l : List α) (i : Nat) (v : α) : listSet l i v = l.set i v := by
  induction l generalizing i with
  | nil => rfl
  | cons x xs ih => cases i with
    | zero => rfl
    | succ i => rw [listSet, List.set_cons_succ, ih]

theorem errorWord_single {j : Nat} (hj : j < 36) (e : Byte) :
    errorWord false [(j, e)] = (List.replicate 36 0).set j e.toNat := by
  rw [errorWord, List.foldl_cons, List.foldl_nil, listSet_eq_set]
  simp only [Bool.false_eq_true, if_false]
  rw [show List.replicate 32 0 ++ [0, 0, 0, 0] = List.replicate 36 (0 : Nat) from rfl, List.getD_eq_getElem?_getD,
    List.getElem?_replicate_of_lt hj, Option.getD_some, Nat.zero_xor]

theorem replicate_set {α : Type} (n j : Nat) (x v : α) (h : j < n) :
    (List.replicate n x).set j v = List.replicate j x ++ v :: List.replicate (n - 1 - j) x := by
  rw [List.set_eq_take_append_cons_drop, if_pos (by simpa using h), List.take_replicate, List.drop_replicate,
    Nat.min_eq_left (by omega), show n - (j + 1) = n - 1 - j by omega]

theorem foldl_horner_zeros (c n a : Nat) :
    (List.replicate n 0).foldl (fun acc b => gfMul acc c ^^^ b) a = (fun acc => gfMul acc c)^[n] a := by
  induction n generalizing a with
  | zero => rfl
  | succ n ih => rw [List.replicate_succ, List.foldl_cons, ih, Nat.xor_zero, Function.iterate_succ_apply]

theorem iterate_gfMul_gfAlpha {a : Nat} (ha : a < 256) (i n : Nat) :
    (fun acc => gfMul acc (gfAlpha i))^[n] a = gfX2^[i * n] a := by
  induction n with
  | zero => rfl
  | succ n ih => rw [Function.iterate_succ_apply', ih, gfMul_gfAlpha (gfX2_iterate_lt ha _), ← Function.iterate_add_apply,
      Nat.mul_succ, Nat.add_comm]

/-- The syndromes of one error `e` in symbol `j`: `e` times the powers of the symbol's locator. -/
theorem hatchSyndrome_single {j e : Nat} (hj : j < 36) (he : e < 256) (i : Nat) :
    hatchSyndrome ((List.replicate 36 0).set j e) i = gfX2^[i * (35 - j)] e := by
  have hzero : (fun acc => gfMul acc (gfAlpha i))^[j] 0 = 0 := by
    rw [iterate_gfMul_gfAlpha (by decide)]
    exact Function.iterate_fixed rfl _
  rw [hatchSyndrome, replicate_set _ _ _ _ hj, List.foldl_append, foldl_horner_zeros, hzero, List.foldl_cons, foldl_horner_zeros,
    gfMul, gfMulAux_zero_left, Nat.zero_xor, iterate_gfMul_gfAlpha he]

/-- The syndromes of one error name its symbol, and no other. -/
theorem hatchFix1_single {j e : Nat} (hj : j < 36) (he : e < 256) (h0 : e ≠ 0) :
    hatchFix1 (hatchSyndromes ((List.replicate 36 0).set j e)) = some [(j, e)] := by
  have hsy (i : Nat) (hi : i < 4) : (hatchSyndromes ((List.replicate 36 0).set j e)).getD i 0 = gfX2^[i * (35 - j)] e := by
    rw [hatchSyndromes, List.getD_eq_getElem?_getD, List.getElem?_map, List.getElem?_range hi, Option.map_some,
      Option.getD_some, hatchSyndrome_single hj he]
  have hmul (i k : Nat) : gfMul (gfX2^[i] e) (hatchLoc k) = gfX2^[35 - k + i] e := by
    rw [hatchLoc, gfMul_gfAlpha (gfX2_iterate_lt he i), ← Function.iterate_add_apply]
  have hmul0 (k : Nat) : gfMul e (hatchLoc k) = gfX2^[35 - k] e := hmul 0 k
  rw [hatchFix1]
  simp only [hsy, Nat.reduceLT, Nat.zero_mul, Nat.one_mul, Function.iterate_zero, id_eq, h0, if_false, hmul, hmul0]
  rw [List.find?_range_eq_some.mpr ⟨?_, List.mem_range.mpr hj, fun k hk => ?_⟩, Option.map_some]
  · simp only [show 35 - j + (35 - j) = 2 * (35 - j) by omega, show 35 - j + 2 * (35 - j) = 3 * (35 - j) by omega, BEq.rfl,
      Bool.and_self]
  · have hne : gfX2^[35 - k] e ≠ gfX2^[35 - j] e := fun h => by
      have := eq_of_gfX2_iterate_eq he h0 (by omega) (by omega) h
      omega
    simp [hne]

/-- Settles O9: the first syndrome is the error itself, neither 0 nor that of poison; the others are its products by the powers
of the symbol's locator, which no other symbol shares. -/
theorem hatchCorrectsOneSymbol : Obligations.HatchCorrectsOneSymbol := by
  refine ⟨fun mode j e hj he => ?_, fun mode => hatchDecode_errorWord_nil mode true,
    fun mode => hatchDecode_errorWord_nil mode false⟩
  have h0 : e.toNat ≠ 0 := fun h => he (BitVec.eq_of_toNat_eq h)
  rw [errorWord_single hj]
  have hfirst : (hatchSyndromes ((List.replicate 36 0).set j e.toNat)).getD 0 0 = e.toNat := by
    rw [hatchSyndromes, List.getD_eq_getElem?_getD, List.getElem?_map, List.getElem?_range (by decide), Option.map_some,
      Option.getD_some, hatchSyndrome_single hj e.isLt, Nat.zero_mul, Function.iterate_zero, id_eq]
  have hgood : hatchSyndromes ((List.replicate 36 0).set j e.toNat) ≠ [0, 0, 0, 0] := fun h => h0 (by rw [← hfirst, h]; rfl)
  have hpoison : hatchSyndromes ((List.replicate 36 0).set j e.toNat) ≠ hatchSyndromes (errorWord true []) := fun h => by
    rw [h] at hfirst
    exact h0 (hfirst.symm.trans (by decide +kernel))
  rw [hatchDecode]
  simp only [hgood, hpoison, if_false, hatchFix1_single hj e.isLt h0, List.foldl_cons, List.foldl_nil, listSet_eq_set,
    List.set_set]
  congr 1
  have hj' : j < (List.replicate 36 0).length := by simpa using hj
  rw [List.getD_eq_getElem?_getD, List.getElem?_set_self hj', Option.getD_some, Nat.xor_self]
  exact List.set_replicate_self

end Sys2Proof.Machine

/-! ### Fields laid out one after another -/

namespace Sys2Proof.Machine

/-! #### In the bits of a number -/

/-- Values laid out in fields, each a width and a value, the first in the lowest bits. -/
def packFields : List (Nat × Nat) → Nat
  | [] => 0
  | e :: l => e.2 % 2 ^ e.1 + 2 ^ e.1 * packFields l

/-- Where field `i` of a layout begins. -/
def fieldPos (l : List (Nat × Nat)) (i : Nat) : Nat := ((l.take i).map (·.1)).sum

theorem fieldPos_succ (e : Nat × Nat) (l : List (Nat × Nat)) (i : Nat) : fieldPos (e :: l) (i + 1) = e.1 + fieldPos l i := by
  simp [fieldPos]

/-- Each field of a packed number reads as its value. -/
theorem packFields_div_mod {l : List (Nat × Nat)} {i w v : Nat} (h : l[i]? = some (w, v)) :
    packFields l / 2 ^ fieldPos l i % 2 ^ w = v % 2 ^ w := by
  induction l generalizing i with
  | nil => cases h
  | cons e l ih =>
    have hlt : e.2 % 2 ^ e.1 < 2 ^ e.1 := Nat.mod_lt _ (Nat.two_pow_pos _)
    cases i with
    | zero =>
      cases h
      simp [fieldPos, packFields]
    | succ i =>
      rw [fieldPos_succ, pow_add, ← Nat.div_div_eq_div_mul, packFields, Nat.add_mul_div_left _ _ (Nat.two_pow_pos _),
        Nat.div_eq_of_lt hlt, Nat.zero_add]
      exact ih h

/-- The same of the field's bits by their numbers. -/
theorem bitsOf_packFields {l : List (Nat × Nat)} {i w v hi lo : Nat} (h : l[i]? = some (w, v)) (hlo : fieldPos l i = lo)
    (hhi : lo + w = hi + 1) : bitsOf (packFields l) hi lo = v % 2 ^ w := by
  rw [bitsOf, ← hhi, Nat.add_sub_cancel_left, ← hlo, packFields_div_mod h]

/-! #### In bytes -/

@[simp] theorem toBytesLE_length (n v : Nat) : (toBytesLE n v).length = n := by
  induction n generalizing v with
  | zero => rfl
  | succ n ih => rw [toBytesLE, List.length_cons, ih]

theorem ofBytesLE_toBytesLE (n v : Nat) : ofBytesLE (toBytesLE n v) = v % 256 ^ n := by
  induction n generalizing v with
  | zero => exact (Nat.mod_one v).symm
  | succ n ih =>
    have hb : (BitVec.ofNat 8 (v % 256)).toNat = v % 256 := by
      rw [BitVec.toNat_ofNat]
      exact Nat.mod_eq_of_lt (Nat.mod_lt _ (by decide))
    rw [toBytesLE, ofBytesLE, ih, hb, Nat.pow_succ', Nat.mod_mul]

theorem bytesAt_append_left (xs ys : List Byte) : bytesAt (xs ++ ys) 0 xs.length = ofBytesLE xs := by
  simp [bytesAt, sliceD]

theorem bytesAt_append_right (xs ys : List Byte) (k n : Nat) : bytesAt (xs ++ ys) (xs.length + k) n = bytesAt ys k n := by
  rw [bytesAt, bytesAt, sliceD, sliceD, List.drop_length_add_append]

/-- Values laid out in bytes, each a number of bytes and a value. -/
def layBytes (l : List (Nat × Nat)) : List Byte := l.flatMap (fun e => toBytesLE e.1 e.2)

@[simp] theorem layBytes_length (l : List (Nat × Nat)) : (layBytes l).length = (l.map (·.1)).sum := by
  simp [layBytes, List.length_flatMap]

/-- Each field laid out reads as its value. -/
theorem bytesAt_layBytes {l : List (Nat × Nat)} {i n v : Nat} (h : l[i]? = some (n, v)) (rest : List Byte) :
    bytesAt (layBytes l ++ rest) (fieldPos l i) n = v % 256 ^ n := by
  induction l generalizing i with
  | nil => cases h
  | cons e l ih =>
    rw [show layBytes (e :: l) ++ rest = toBytesLE e.1 e.2 ++ (layBytes l ++ rest) by simp [layBytes]]
    cases i with
    | zero =>
      cases h
      have hfirst := bytesAt_append_left (toBytesLE n v) (layBytes l ++ rest)
      rwa [toBytesLE_length, ofBytesLE_toBytesLE] at hfirst
    | succ i =>
      have hskip := bytesAt_append_right (toBytesLE e.1 e.2) (layBytes l ++ rest) (fieldPos l i) n
      rw [toBytesLE_length, ← fieldPos_succ] at hskip
      exact hskip.trans (ih h)

end Sys2Proof.Machine

/-! ### Fabric frames (Table 4-2) -/

namespace Sys2Proof.Machine

/-- The fields of the header granule, from bit 0 up (Table 4-2). -/
def Frame.headerFields (f : Frame) : List (Nat × Nat) :=
  [(8, f.opcode), (3, f.vc), (1, f.edition), (1, b2n f.poison), (3, f.reserved), (8, f.slice), (20, f.src), (20, f.dst),
   (18, f.tag), (8, f.status), (1, b2n f.follow), (5, f.reserved / 8), (32, f.seq), (64, f.addr), (9, f.bytes), (3, f.xfmt),
   (4, f.gran.length), (8, f.tries), (40, f.injTurn)]

/-- The widths of the header's fields, from bit 0 up. -/
def headerWidths : List Nat := [8, 3, 1, 1, 3, 8, 20, 20, 18, 8, 1, 5, 32, 64, 9, 3, 4, 8, 40]

theorem Frame.fieldPos_headerFields (f : Frame) (i : Nat) : fieldPos f.headerFields i = (headerWidths.take i).sum := by
  rw [fieldPos, List.map_take]
  rfl

theorem b2n_mod_two (b : Bool) : b2n b % 2 = b2n b := by cases b <;> rfl

theorem Frame.header_eq_packFields (f : Frame) : f.header = packFields f.headerFields := by
  simp only [Frame.header, Frame.headerFields, packFields, b2n_mod_two, pow_one]
  ring_nf

theorem bitAt_eq_bitsOf (v i : Nat) : bitAt v i = (bitsOf v i i == 1) := by
  rw [bitAt, bitsOf, Nat.add_sub_cancel_left, pow_one]

theorem b2n_beq_one (b : Bool) : (b2n b == 1) = b := by cases b <;> rfl

theorem b2n_lt_two (b : Bool) : b2n b < 2 ^ 1 := by cases b <;> decide

/-- A field of the header within its width reads back. -/
theorem Frame.bitsOf_header (f : Frame) (i : Nat) {w v hi lo : Nat} (h : f.headerFields[i]? = some (w, v))
    (hlt : v < 2 ^ w) (hlo : (headerWidths.take i).sum = lo := by decide) (hhi : lo + w = hi + 1 := by decide) :
    bitsOf f.header hi lo = v := by
  rw [Frame.header_eq_packFields, bitsOf_packFields h ((f.fieldPos_headerFields i).trans hlo) hhi, Nat.mod_eq_of_lt hlt]

theorem Frame.bitAt_header (f : Frame) (i : Nat) {b : Bool} {lo : Nat} (h : f.headerFields[i]? = some (1, b2n b))
    (hlo : (headerWidths.take i).sum = lo := by decide) : bitAt f.header lo = b := by
  rw [bitAt_eq_bitsOf, f.bitsOf_header i h (b2n_lt_two b) hlo rfl, b2n_beq_one]

/-- Settles O8: the header is its fields packed from bit 0 up, so that each reads back as far as it fits. -/
theorem frameHeaderRoundTrip : Obligations.FrameHeaderRoundTrip := by
  intro f hop hvc hed hres hsl hsrc hdst htag hst hseq haddr hby hxf hgr htr hinj
  have hresLow : bitsOf f.header 15 13 = f.reserved % 2 ^ 3 := by
    rw [Frame.header_eq_packFields]
    exact bitsOf_packFields (l := f.headerFields) (i := 4) rfl (f.fieldPos_headerFields 4) rfl
  have e0 : bitsOf f.header 7 0 = f.opcode := f.bitsOf_header 0 rfl hop
  have e1 : bitsOf f.header 10 8 = f.vc := f.bitsOf_header 1 rfl hvc
  have e2 : bitsOf f.header 11 11 = f.edition := f.bitsOf_header 2 rfl hed
  have e3 : bitAt f.header 12 = f.poison := f.bitAt_header 3 rfl
  have e5 : bitsOf f.header 23 16 = f.slice := f.bitsOf_header 5 rfl hsl
  have e6 : bitsOf f.header 43 24 = f.src := f.bitsOf_header 6 rfl hsrc
  have e7 : bitsOf f.header 63 44 = f.dst := f.bitsOf_header 7 rfl hdst
  have e8 : bitsOf f.header 81 64 = f.tag := f.bitsOf_header 8 rfl htag
  have e9 : bitsOf f.header 89 82 = f.status := f.bitsOf_header 9 rfl hst
  have e10 : bitAt f.header 90 = f.follow := f.bitAt_header 10 rfl
  have e11 : bitsOf f.header 95 91 = f.reserved / 8 :=
    f.bitsOf_header 11 rfl (show f.reserved / 8 < 2 ^ 5 by omega)
  have e12 : bitsOf f.header 127 96 = f.seq := f.bitsOf_header 12 rfl hseq
  have e13 : bitsOf f.header 191 128 = f.addr := f.bitsOf_header 13 rfl haddr
  have e14 : bitsOf f.header 200 192 = f.bytes := f.bitsOf_header 14 rfl hby
  have e15 : bitsOf f.header 203 201 = f.xfmt := f.bitsOf_header 15 rfl hxf
  have e16 : bitsOf f.header 207 204 = f.gran.length := f.bitsOf_header 16 rfl hgr
  have e17 : bitsOf f.header 215 208 = f.tries := f.bitsOf_header 17 rfl htr
  have e18 : bitsOf f.header 255 216 = f.injTurn := f.bitsOf_header 18 rfl hinj
  have hreserved : f.reserved / 8 * 8 + f.reserved % 2 ^ 3 = f.reserved := Nat.div_add_mod' f.reserved 8
  exact ⟨by rw [Frame.ofHeader, hresLow, e0, e1, e2, e3, e5, e6, e7, e8, e9, e10, e11, e12, e13, e14, e15, e17, e18, hreserved], e16⟩

end Sys2Proof.Machine

/-! ### Pip frames and the line code (R42, Tables 2-3 and 2-4) -/

namespace Sys2Proof.Machine

/-! #### Code groups -/

theorem decodeGroup_encodeSymbol_data : ∀ rd : Bool, ∀ x < 256, decodeGroup rd (encodeSymbol rd x) = some x := by
  decide +kernel

theorem decodeGroup_encodeSymbol_control :
    ∀ rd : Bool, ∀ x ∈ controlSymbols, decodeGroup rd (encodeSymbol rd x) = some x := by decide +kernel

/-- Symbol by symbol, the receiver reads what was sent and follows the sender's running disparity. -/
theorem decodeGroups_encodeSymbols (rd : Bool) (l : List Nat)
    (h : l.all (fun x => decide (x < 256) || controlSymbols.contains x) = true) :
    decodeGroups rd (encodeSymbols rd l).1 = (l.map some, (encodeSymbols rd l).2) := by
  induction l generalizing rd with
  | nil => rfl
  | cons x xs ih =>
    rw [List.all_cons, Bool.and_eq_true, Bool.or_eq_true, decide_eq_true_eq, List.contains_iff_mem] at h
    obtain ⟨hx, hxs⟩ := h
    have hsym : decodeGroup rd (encodeSymbol rd x) = some x :=
      hx.elim (decodeGroup_encodeSymbol_data rd x) (decodeGroup_encodeSymbol_control rd x)
    simp only [encodeSymbols, decodeGroups, hsym, ih _ hxs, List.map_cons]

/-! #### The CRC of a frame -/

theorem crc16Bit_lt {c : Nat} (h : c < 2 ^ 16) : crc16Bit c < 2 ^ 16 := by
  unfold crc16Bit
  split
  · omega
  · exact Nat.xor_lt_two_pow (Nat.mod_lt _ (by decide)) (by decide)

theorem crc16Byte_lt {c : Nat} (h : c < 2 ^ 16) (b : Byte) : crc16Byte c b < 2 ^ 16 := by
  have hb : b.toNat * 256 < 2 ^ 16 := by have := b.isLt; omega
  unfold crc16Byte
  iterate 8 apply crc16Bit_lt
  exact Nat.xor_lt_two_pow h hb

theorem crc16_lt (bs : List Byte) : crc16 bs < 256 ^ 2 :=
  List.foldlRecOn bs crc16Byte (motive := fun c => c < 2 ^ 16) (by decide) (fun _ hc b _ => crc16Byte_lt hc b)

/-! #### The fields of a frame -/

/-- The fields of a pip frame before its data, from byte 0 up (Table 2-4). -/
def PipFrame.headFields (f : PipFrame) (seq : Nat) : List (Nat × Nat) :=
  [(1, f.type), (1, seq), (1, f.op * 16 + pipLenCode f.data.length),
   (1, (if f.system then 128 else 0) + (if f.mismatch then 64 else 0)), (1, f.slice), (2, f.tag), (1, f.srcDomain),
   (1, f.srcMember % 128), (1, f.dstDomain), (1, f.dstMember % 128), (2, f.count)]

/-- The lengths in bytes of those fields. -/
def pipWidths : List Nat := [1, 1, 1, 1, 1, 2, 1, 1, 1, 1, 2]

/-- A pip frame without its CRC. -/
def PipFrame.body (f : PipFrame) (seq : Nat) : List Byte := layBytes (f.headFields seq) ++ f.data

theorem PipFrame.bytes_eq (f : PipFrame) (seq : Nat) :
    f.bytes seq = f.body seq ++ toBytesLE 2 (crc16 (f.body seq)) := by
  have hbody : f.body seq = toBytesLE 1 f.type ++ toBytesLE 1 seq ++ toBytesLE 1 (f.op * 16 + pipLenCode f.data.length) ++
      toBytesLE 1 ((if f.system then 128 else 0) + (if f.mismatch then 64 else 0)) ++ toBytesLE 1 f.slice ++
      toBytesLE 2 f.tag ++ toBytesLE 1 f.srcDomain ++ toBytesLE 1 (f.srcMember % 128) ++ toBytesLE 1 f.dstDomain ++
      toBytesLE 1 (f.dstMember % 128) ++ toBytesLE 2 f.count ++ f.data := by
    simp only [PipFrame.body, PipFrame.headFields, layBytes, List.flatMap_cons, List.flatMap_nil, List.append_assoc,
      List.append_nil]
  rw [PipFrame.bytes, ← hbody]

theorem PipFrame.body_length (f : PipFrame) (seq : Nat) : (f.body seq).length = 13 + f.data.length := by
  rw [PipFrame.body, List.length_append, layBytes_length]
  rfl

theorem PipFrame.fieldPos_headFields (f : PipFrame) (seq i : Nat) : fieldPos (f.headFields seq) i = (pipWidths.take i).sum := by
  rw [fieldPos, List.map_take]
  rfl

/-- A field of the frame within its bytes reads back. -/
theorem PipFrame.bytesAt_bytes (f : PipFrame) (seq i : Nat) {n v pos : Nat} (h : (f.headFields seq)[i]? = some (n, v))
    (hlt : v < 256 ^ n) (hpos : (pipWidths.take i).sum = pos := by decide) : bytesAt (f.bytes seq) pos n = v := by
  rw [PipFrame.bytes_eq, PipFrame.body, List.append_assoc, ← hpos, ← f.fieldPos_headFields seq i, bytesAt_layBytes h,
    Nat.mod_eq_of_lt hlt]

/-- What a receiver takes a frame's bytes apart into: the body, its CRC in the last two bytes, and the data. -/
theorem PipFrame.bytes_parts (f : PipFrame) (seq : Nat) :
    (f.bytes seq).length = (f.body seq).length + 2 ∧ (f.bytes seq).take ((f.bytes seq).length - 2) = f.body seq ∧
      bytesAt (f.bytes seq) ((f.bytes seq).length - 2) 2 = crc16 (f.body seq) ∧
      ((f.bytes seq).drop 13).take f.data.length = f.data := by
  have hlength : (f.bytes seq).length = (f.body seq).length + 2 := by
    rw [PipFrame.bytes_eq, List.length_append, toBytesLE_length]
  have hhead : (layBytes (f.headFields seq)).length = 13 := by
    rw [layBytes_length]
    rfl
  rw [hlength, Nat.add_sub_cancel, PipFrame.bytes_eq]
  refine ⟨rfl, List.take_left, ?_, ?_⟩
  · have hcrc := bytesAt_append_left (toBytesLE 2 (crc16 (f.body seq))) []
    rw [List.append_nil, toBytesLE_length, ofBytesLE_toBytesLE, Nat.mod_eq_of_lt (crc16_lt _)] at hcrc
    exact (bytesAt_append_right (f.body seq) (toBytesLE 2 (crc16 (f.body seq))) 0 2).trans hcrc
  · rw [PipFrame.body, List.append_assoc, ← hhead, List.drop_left, List.take_left]

/-- The LEN codes of the lengths that Table 2-4 gives a frame's data. -/
theorem pipLenBytes_pipLenCode {n : Nat} (h : n ≤ 8 ∨ n = 16 ∨ n = 32 ∨ n = 64) :
    pipLenCode n < 16 ∧ pipLenBytes (pipLenCode n) = some n := by
  rcases h with h | rfl | rfl | rfl
  · have hcode : pipLenCode n = n := if_pos h
    rw [hcode]
    exact ⟨by omega, if_pos h⟩
  all_goals decide

/-- The two flags of byte 3. -/
theorem bitAt_pipFlags (a b : Bool) :
    bitAt ((if a then 128 else 0) + (if b then 64 else 0)) 7 = a ∧ bitAt ((if a then 128 else 0) + (if b then 64 else 0)) 6 = b := by
  cases a <;> cases b <;> decide

theorem pipFlags_lt (a b : Bool) : (if a then 128 else 0) + (if b then 64 else 0) < 256 ^ 1 := by
  cases a <;> cases b <;> decide

/-- A frame's bytes are its fields, its data and their CRC: each is read from where it was laid. -/
theorem pipParse_bytes {f : PipFrame} {seq : Nat} (hseq : seq < 256) (htype : f.type < 256) (hop : f.op < 16)
    (hslice : f.slice < 256) (htag : f.tag < 2 ^ 16) (hsd : f.srcDomain < 256) (hsm : f.srcMember < 128)
    (hdd : f.dstDomain < 256) (hdm : f.dstMember < 128) (hcount : f.count < 2 ^ 16)
    (hlen : f.data.length ≤ 8 ∨ f.data.length = 16 ∨ f.data.length = 32 ∨ f.data.length = 64) :
    pipParse (f.bytes seq) = some (seq, f) := by
  obtain ⟨hcode, hdecode⟩ := pipLenBytes_pipLenCode hlen
  obtain ⟨hsystem, hmismatch⟩ := bitAt_pipFlags f.system f.mismatch
  obtain ⟨hlength, hbody, hcrc, hdata⟩ := f.bytes_parts seq
  have htypeAt : bytesAt (f.bytes seq) 0 1 = f.type := f.bytesAt_bytes seq 0 rfl htype
  have hseqAt : bytesAt (f.bytes seq) 1 1 = seq := f.bytesAt_bytes seq 1 rfl hseq
  have hopAt : bytesAt (f.bytes seq) 2 1 = f.op * 16 + pipLenCode f.data.length :=
    f.bytesAt_bytes seq 2 rfl (show _ < 256 by omega)
  have hflagsAt : bytesAt (f.bytes seq) 3 1 = (if f.system then 128 else 0) + (if f.mismatch then 64 else 0) :=
    f.bytesAt_bytes seq 3 rfl (pipFlags_lt f.system f.mismatch)
  have hsliceAt : bytesAt (f.bytes seq) 4 1 = f.slice := f.bytesAt_bytes seq 4 rfl hslice
  have htagAt : bytesAt (f.bytes seq) 5 2 = f.tag := f.bytesAt_bytes seq 5 rfl htag
  have hsdAt : bytesAt (f.bytes seq) 7 1 = f.srcDomain := f.bytesAt_bytes seq 6 rfl hsd
  have hsmAt : bytesAt (f.bytes seq) 8 1 = f.srcMember % 128 := f.bytesAt_bytes seq 7 rfl (show _ < 256 by omega)
  have hddAt : bytesAt (f.bytes seq) 9 1 = f.dstDomain := f.bytesAt_bytes seq 8 rfl hdd
  have hdmAt : bytesAt (f.bytes seq) 10 1 = f.dstMember % 128 := f.bytesAt_bytes seq 9 rfl (show _ < 256 by omega)
  have hcountAt : bytesAt (f.bytes seq) 11 2 = f.count := f.bytesAt_bytes seq 10 rfl hcount
  have hlenAt : (f.op * 16 + pipLenCode f.data.length) % 16 = pipLenCode f.data.length := by omega
  have hopDiv : (f.op * 16 + pipLenCode f.data.length) / 16 = f.op := by omega
  have hshort : ¬ (f.bytes seq).length < 15 := by rw [hlength, PipFrame.body_length]; omega
  rw [pipParse, if_neg hshort]
  simp only [hbody, hcrc, ne_eq, not_true_eq_false, if_false, htypeAt, hseqAt, hopAt, hlenAt, hopDiv, hdecode,
    PipFrame.body_length, hflagsAt, hsystem, hmismatch, hsliceAt, htagAt, hsdAt, hsmAt, hddAt, hdmAt, hcountAt, hdata,
    Nat.mod_eq_of_lt hsm, Nat.mod_eq_of_lt hdm]

/-- Settles O7: symbols are read back group by group, and a frame field by field. -/
theorem pipFrameRoundTrip : Obligations.PipFrameRoundTrip :=
  ⟨decodeGroups_encodeSymbols,
    fun _ _ hseq htype hop hslice htag hsd hsm hdd hdm hcount hlen =>
      pipParse_bytes hseq htype hop hslice htag hsd hsm hdd hdm hcount hlen⟩

end Sys2Proof.Machine

/-! ### Memory stacks: sweeps, the initial fill, encryption and key slots (R293, R299, R303, R304, R305) -/

namespace Sys2Proof.Machine

theorem pageOf_hbmPage {i off : Nat} (hi : i < 5) (ho : off < 0x1000) :
    pageOf (0x1080000 + 0x1000 * i + off) = some (8, i, off) :=
  pageOf_of_eq (pg := 0x80 + i) (by omega) ho (by omega) (by omega) (by decide) (by decide) (by decide)
    (by simp only [pageBlock, Nat.le_of_lt_succ hi, if_true]; split <;> rfl)

theorem pageOf_HBM_CTL : pageOf Reg.HBM_CTL = some (8, 4, 0x100) :=
  pageOf_hbmPage (i := 4) (off := 0x100) (by decide) (by decide)

theorem pageOf_HBM_SWEEP : pageOf Reg.HBM_SWEEP = some (8, 4, 0x110) :=
  pageOf_hbmPage (i := 4) (off := 0x110) (by decide) (by decide)

theorem pageOf_HBM_SLOT_STAT {n : Nat} (hn : n < 16) : pageOf (Reg.HBM_SLOT_STAT n) = some (8, 4, 0x208 + 0x10 * n) := by
  have ha : Reg.HBM_SLOT_STAT n = 0x1080000 + 0x1000 * 4 + (0x208 + 0x10 * n) := by
    unfold Reg.HBM_SLOT_STAT
    omega
  rw [ha, pageOf_hbmPage (by decide) (by omega)]

section
variable {data : Word} {aux : Option Nat} {n : Nat} {s : State} {w : RegWrite}

theorem regHook_hbmPage {off : Nat} (h : 0x100 ≤ off) : regHook data aux 8 4 off s w = hookHbm 4 off s w := by
  simp [regHook, Nat.not_lt.mpr h]

theorem regHook_HBM_CTL : regHook data aux 8 4 0x100 s w = hookHbmCtl s w := by
  rw [regHook_hbmPage (by decide), hookHbm, if_pos rfl, if_pos rfl]

theorem regHook_HBM_SWEEP : regHook data aux 8 4 0x110 s w = hookHbmSweep s w := by
  rw [regHook_hbmPage (by decide), hookHbm, if_pos rfl, if_neg (by decide), if_pos rfl]

theorem regHook_HBM_SLOT_STAT : regHook data aux 8 4 (0x208 + 0x10 * n) s w = hookSlotStat n s w := by
  have hreg : 0x200 ≤ 0x208 + 0x10 * n ∧ (0x208 + 0x10 * n) % 0x10 = 8 := by omega
  have hn : (0x208 + 0x10 * n - 0x200) / 0x10 = n := by omega
  rw [regHook_hbmPage (by omega), hookHbm, if_pos rfl, if_neg (by omega), if_neg (by omega), if_pos hreg, hn]

/-- START starts the sweep that the fields name, where none of them is refused (R304). -/
theorem hookHbmSweep_of_start {t : State} (hstart : w.actF F.HBM_SWEEP_START = 1)
    (ht : s.takeWrite (w.setNew F.HBM_SWEEP_START 0) = t) (ha : t.flag F.HBM_STAT_SWEEP_ACTIVE = false)
    (hle : t.get F.HBM_SWEEP_FIRST_REGION ≤ t.get F.HBM_SWEEP_LAST_REGION) (hlt : t.get F.HBM_SWEEP_LAST_REGION < regionCount)
    (hr : t.flag (F.HBM_SLOT_STAT_RETIRED (t.get F.HBM_SWEEP_NEW_SLOT)) = false) (hm : t.flag F.HBM_SWEEP_MODE = false)
    (hall : t.flag F.HBM_SWEEP_ALL_SLOTS = false) :
    hookHbmSweep s w = t.startSweep
      { first := t.get F.HBM_SWEEP_FIRST_REGION, last := t.get F.HBM_SWEEP_LAST_REGION, fill := false, all := false,
        newSlot := t.get F.HBM_SWEEP_NEW_SLOT, kind := 0 } := by
  simp [hookHbmSweep, hstart, ht, ha, Nat.not_lt.mpr hle, Nat.not_le.mpr hlt, hr, hm, hall]

/-- While a sweep is active another is rejected (R304). -/
theorem hookHbmSweep_of_active {t : State} (hstart : w.actF F.HBM_SWEEP_START = 1)
    (ht : s.takeWrite (w.setNew F.HBM_SWEEP_START 0) = t) (ha : t.flag F.HBM_STAT_SWEEP_ACTIVE = true) :
    hookHbmSweep s w = (t.putFlag F.HBM_STAT_SWEEP_REJ true).rejected 8 4 := by
  simp [hookHbmSweep, hstart, ht, ha]

/-- INIT before the fill is done starts it over every region with slot 0 (R305). -/
theorem hookHbmCtl_of_init (hact : w.actF F.HBM_CTL_INIT = 1)
    (hmode : w.newF F.HBM_CTL_HATCH_MODE = w.oldF F.HBM_CTL_HATCH_MODE) (hdone : s.flag F.HBM_STAT_INIT_DONE = false)
    (hdone' : (s.takeWrite w).flag F.HBM_STAT_INIT_DONE = false) (ha : (s.takeWrite w).flag F.HBM_STAT_SWEEP_ACTIVE = false) :
    hookHbmCtl s w = (s.takeWrite w).startSweep
      { first := 0, last := regionCount - 1, fill := true, all := true, newSlot := 0, kind := 1 } := by
  simp [hookHbmCtl, hact, hmode, hdone, hdone', ha]

/-- ENC_EN is fixed once the fill is done: it keeps its value, and the write is rejected (R299). -/
theorem hookHbmCtl_of_late_encryption (hdone : s.flag F.HBM_STAT_INIT_DONE = true)
    (henc : w.newF F.HBM_CTL_ENC_EN ≠ w.oldF F.HBM_CTL_ENC_EN)
    (hmode : w.newF F.HBM_CTL_HATCH_MODE = w.oldF F.HBM_CTL_HATCH_MODE) (hact : w.actF F.HBM_CTL_INIT = 0) :
    hookHbmCtl s w = ((s.takeWrite (w.keep F.HBM_CTL_ENC_EN)).putFlag F.HBM_STAT_CFG_REJ true).rejected 8 4 := by
  simp [hookHbmCtl, hdone, henc, hmode, hact]

theorem hookHbmCtl_of_early (hdone : s.flag F.HBM_STAT_INIT_DONE = false)
    (hmode : w.newF F.HBM_CTL_HATCH_MODE = w.oldF F.HBM_CTL_HATCH_MODE) (hact : w.actF F.HBM_CTL_INIT = 0) :
    hookHbmCtl s w = s.takeWrite w := by
  simp [hookHbmCtl, hdone, hmode, hact]

/-- A new HATCH_MODE is in effect from the next turn: the old one is kept with the turn of the write (R293). -/
theorem hookHbmCtl_of_mode (henc : w.newF F.HBM_CTL_ENC_EN = w.oldF F.HBM_CTL_ENC_EN)
    (hmode : w.newF F.HBM_CTL_HATCH_MODE ≠ w.oldF F.HBM_CTL_HATCH_MODE) (hact : w.actF F.HBM_CTL_INIT = 0) :
    hookHbmCtl s w = { s.takeWrite w with hbm := { (s.takeWrite w).hbm with hatchOld := some (s.hatchMode, s.clk) } } := by
  simp [hookHbmCtl, henc, hmode, hact]

/-- RETIRE takes a slot that nothing refers to out of use, and is rejected for any other (R303). -/
theorem hookSlotStat_of_retire {t : State} (hret : w.actF (F.HBM_SLOT_STAT_RETIRE n) = 1)
    (hre : w.actF (F.HBM_SLOT_STAT_REARM n) = 0)
    (ht : s.takeWrite ((w.setNew (F.HBM_SLOT_STAT_RETIRE n) 0).setNew (F.HBM_SLOT_STAT_REARM n) 0) = t) :
    hookSlotStat n s w = (if t.get (F.HBM_SLOT_STAT_REFS n) = 0 then t.putFlag (F.HBM_SLOT_STAT_RETIRED n) true
      else (t.putFlag F.HBM_STAT_SLOT_REJ true).rejected 8 4) := by
  simp [hookSlotStat, hret, hre, ht]

/-- REARM returns a retired slot to use with its salt plus one (R303). -/
theorem hookSlotStat_of_rearm {t : State} (hret : w.actF (F.HBM_SLOT_STAT_RETIRE n) = 0)
    (hre : w.actF (F.HBM_SLOT_STAT_REARM n) = 1)
    (ht : s.takeWrite ((w.setNew (F.HBM_SLOT_STAT_RETIRE n) 0).setNew (F.HBM_SLOT_STAT_REARM n) 0) = t)
    (hr : t.flag (F.HBM_SLOT_STAT_RETIRED n) = true) :
    hookSlotStat n s w = (t.putFlag (F.HBM_SLOT_STAT_RETIRED n) false).setReg (Reg.HBM_SLOT_SALT n)
      (t.reg (Reg.HBM_SLOT_SALT n) + 1) := by
  simp [hookSlotStat, hret, hre, ht, hr]

end

/-- A sweep advances in its background slots (R304, R306). -/
theorem State.doSweepSlot_of_background {s : State} {w : Sweep} (hw : s.hbm.sweep = some w)
    (hb : s.inBackground [3, 11] = true) : s.doSweepSlot = s.sweepAdvance w := by
  simp [State.doSweepSlot, hw, hb]

/-- Settles O37: the commands that write a register by the register's rule, and the sweep's slot by its effect. -/
theorem hbmControlCommandsComplete : Obligations.HbmControlCommandsComplete := by
  refine ⟨?_, ?_, ?_, ?_, ?_, ?_, ?_, ?_, ?_⟩
  · intro s t p data hs ho hstart ht ha hle hlt hr hm hall
    exact runCmd_pathWrite_of_open hs ho pageOf_HBM_SWEEP
      (regHook_HBM_SWEEP.trans (hookHbmSweep_of_start hstart ht ha hle hlt hr hm hall))
  · intro s t p data hs ho hstart ht ha
    exact runCmd_pathWrite_of_open hs ho pageOf_HBM_SWEEP (regHook_HBM_SWEEP.trans (hookHbmSweep_of_active hstart ht ha))
  · intro s w hs hw hb
    exact runCmd_of_eq hs (State.doSweepSlot_of_background (s := s.fresh) hw hb)
  · intro s p data w hs ho hw hact hmode hdone hdone' ha
    subst hw
    exact runCmd_pathWrite_of_open hs ho pageOf_HBM_CTL
      (regHook_HBM_CTL.trans (hookHbmCtl_of_init (s := s.fresh) hact hmode hdone hdone' ha))
  · intro s p data w hs ho hw hdone henc hmode hact
    subst hw
    exact runCmd_pathWrite_of_open hs ho pageOf_HBM_CTL
      (regHook_HBM_CTL.trans (hookHbmCtl_of_late_encryption (s := s.fresh) hdone henc hmode hact))
  · intro s p data w hs ho hw hdone hmode hact
    subst hw
    exact runCmd_pathWrite_of_open hs ho pageOf_HBM_CTL
      (regHook_HBM_CTL.trans (hookHbmCtl_of_early (s := s.fresh) hdone hmode hact))
  · intro s p data w hs ho hw henc hmode hact
    subst hw
    exact runCmd_pathWrite_of_open hs ho pageOf_HBM_CTL
      (regHook_HBM_CTL.trans (hookHbmCtl_of_mode (s := s.fresh) henc hmode hact))
  · intro s t p n data hs ho hret hre ht
    exact runCmd_pathWrite_of_open hs ho (pageOf_HBM_SLOT_STAT n.isLt)
      (regHook_HBM_SLOT_STAT.trans (hookSlotStat_of_retire hret hre ht))
  · intro s t p n data hs ho hret hre ht hr
    exact runCmd_pathWrite_of_open hs ho (pageOf_HBM_SLOT_STAT n.isLt)
      (regHook_HBM_SLOT_STAT.trans (hookSlotStat_of_rearm hret hre ht hr))

end Sys2Proof.Machine

/-! ### Memory stacks: background slots, repairs and identities (R306 to R311) -/

namespace Sys2Proof.Machine

/-- The rotation of R307 reaches every row of a pseudo-channel, each in one slot of 17 rows (notes/assumptions/65). -/
theorem row_in_rotation {r : Nat} (h : r < channelRows) :
    r / rowsPerSlot < 125000 ∧ min channelRows (rowsPerSlot * (r / rowsPerSlot)) ≤ r ∧
      r < min channelRows (rowsPerSlot * (r / rowsPerSlot + 1)) := by
  unfold channelRows rowsPerSlot at *
  omega

section
variable {s : State}

/-- The rotation runs through a period's 125,000 slots (R307). -/
theorem State.refreshSlot_eq (s : State) : s.refreshSlot = s.now / 32 % 125000 := rfl

theorem calibrated_eq (k : Nat) :
    calibrated k = (List.range 32).filter (fun pc => Config.calibrationSlot pc % 125000 == k) := rfl

/-- In a refresh slot the rotation's rows are refreshed and its interfaces calibrated; activation counts begin anew with each
refresh period (R307, R309, R349). -/
theorem State.doRefreshSlot_of_slot (h : s.inBackground [0, 2, 4, 6, 8, 10, 12, 14] = true) :
    s.doRefreshSlot = (let k := s.now / 32 % 125000
      let t := (s.emit (.hbmRefreshRows k (min channelRows (17 * k)) (min channelRows (17 * (k + 1))))).emit
        (.hbmCalibrate ((List.range 32).filter (fun pc => Config.calibrationSlot pc % 125000 == k)))
      if s.hbm.refreshStart + refreshPeriod ≤ s.clk then
        { t with hbm := { t.hbm with acts := [], flagged := [], refreshStart := t.clk } }
      else t) := by
  rw [State.doRefreshSlot, if_pos h]
  simp only [State.refreshSlot_eq, calibrated_eq, rowsPerSlot, State.emit_clk]

/-- Without write-backs a scrub slot reads SCRUB_RATE granules on from POS (R308). -/
theorem State.doScrubSlot_of_no_writeBack {t : Fin 24} (hb : s.inBackground [1, 5, 9, 13] = true) (hw : s.hbm.writeBack = [])
    (he : s.flag F.HBM_CTL_SCRUB_EN = true)
    (hp : s.get (F.HBM_S_SCRUB_POS t) + min 256 (s.get F.HBM_CTL_SCRUB_RATE) < stackGranules) :
    s.doScrubSlot t [] = (s.scrubSpan t (s.get (F.HBM_S_SCRUB_POS t)) (min (min 256 (s.get F.HBM_CTL_SCRUB_RATE))
      (stackGranules - s.get (F.HBM_S_SCRUB_POS t)))).put (F.HBM_S_SCRUB_POS t)
        (s.get (F.HBM_S_SCRUB_POS t) + min 256 (s.get F.HBM_CTL_SCRUB_RATE)) := by
  simp only [State.doScrubSlot, List.foldl_nil, hb, hw, List.filter_nil, List.take_nil, List.length_nil, Nat.sub_zero, he, hp,
    if_true]

/-- In any other turn nothing is scrubbed; what strikes the stack is in it (R308). -/
theorem State.doScrubSlot_of_other_turn {t : State} {n : Fin 24} {struck : List (Nat × SymbolErrors)}
    (ht : struck.foldl (fun (s : State) e => s.hbmStrike (stackGranule n (e.1 % stackGranules)) e.2) s = t)
    (hb : t.inBackground [1, 5, 9, 13] = false) : s.doScrubSlot n struck = t := by
  simp [State.doScrubSlot, ht, hb]

/-- The rows on both sides of an aggressor are refreshed, which ends its wait (R309). -/
theorem State.doWearSlot_of_aggressor {t : Fin 24} {a : HbmRow} (hb : s.inBackground [7] = true)
    (he : s.flag F.HBM_WEAR_EN = true) (hd : s.get F.HBM_WEAR_DIST = 1) (ha : s.hbm.aggressors = [a]) (hst : a.1 = t.val)
    (hrow : 1 ≤ a.2.2) :
    s.doWearSlot t = (({ (s.emit (.hbmRefresh a.1 a.2.1 (a.2.2 - 1))).emit (.hbmRefresh a.1 a.2.1 (a.2.2 + 1)) with
      hbm := { s.hbm with
        aggressors := []
        bankHeld := s.hbm.bankHeld.filter (fun x => !(x == a)) } } : State).count (F.HBM_S_WEAR_MITIGATED t) 1).put
          (F.HBM_S_WEAR_QUEUED t) 0 := by
  have hrow' : ¬ a.2.2 < 0 + 1 := Nat.not_lt.mpr hrow
  have hmine : decide (a.1 = t.val) = true := decide_eq_true hst
  simp only [State.doWearSlot, hb, he, hd, ha, hmine, hrow', Bool.and_self, if_true, if_false, List.filter_cons, List.filter_nil,
    List.take_succ_cons, List.take_nil, List.range_succ, List.range_zero, List.nil_append, List.foldl_cons, List.foldl_nil,
    List.contains_cons, List.contains_nil, Bool.or_false, BEq.rfl, Bool.not_true, Bool.false_eq_true, List.length_cons,
    List.length_nil, Nat.zero_add, Nat.sub_self, State.emit_hbm]

/-- A row whose corrections have reached PPR_THRESH is copied to a spare, granule by granule (R310). -/
theorem State.doRepairSlot_of_spare {t : Fin 24} {pc : Fin 32} {r : HbmRow} {n : Nat} (hb : s.inBackground [15] = true)
    (hf : s.hbm.rowFix.find? (fun e => e.1.1 = t.val ∧ e.1.2.1 = pc.val ∧ s.get (F.HBM_S_REPAIR_PPR_THRESH t) ≤ e.2) =
      some (r, n)) :
    s.doRepairSlot t pc true =
      (let t0 : State := { s with hbm := { s.hbm with rowFix := s.hbm.rowFix.filter (fun e => e.1 ≠ r) } }
       let u := (rowGranules r).foldl (fun (s : State) g => (s.hbmScrubGranule g false).2) t0
       let v : State := { u with hbm := { u.hbm with repaired := u.hbm.repaired.erase r ++ [r] } }
       (v.put (F.HBM_S_REPAIR_SOFT_USED t) (v.get (F.HBM_S_REPAIR_SOFT_USED t) + 1)).emit (.hbmRepair false r.1 r.2.1 r.2.2)) := by
  simp only [State.doRepairSlot, hb, hf, if_true]

/-- Without a spare the row is recorded (R310). -/
theorem State.doRepairSlot_of_no_spare {t : Fin 24} {pc : Fin 32} {r : HbmRow} {n : Nat} (hb : s.inBackground [15] = true)
    (hf : s.hbm.rowFix.find? (fun e => e.1.1 = t.val ∧ e.1.2.1 = pc.val ∧ s.get (F.HBM_S_REPAIR_PPR_THRESH t) ≤ e.2) =
      some (r, n)) :
    s.doRepairSlot t pc false =
      (({ s with hbm := { s.hbm with rowFix := s.hbm.rowFix.filter (fun e => e.1 ≠ r) } } : State).count
        (F.HBM_S_REPAIR_SOFT_FAIL t) 1).fault 4 0x0005 8 (t / 6) { detail0 := t + pc * 0x100, detail1 := r.2.2 } := by
  simp only [State.doRepairSlot, hb, hf, if_true, Bool.false_eq_true, if_false]

/-- Running firmware issues a hard repair while ADMIT is 0 and some are left (R310). -/
theorem State.doHardRepair_of_left {t : Fin 24} {pc : Fin 32} {row : Nat} (ha : s.admitted = false)
    (hb : s.get F.MGT_STAT_BOOT = 1) (hl : 0 < s.get (F.HBM_S_REPAIR_HARD_LEFT t)) :
    s.doHardRepair t pc row = (s.put (F.HBM_S_REPAIR_HARD_LEFT t) (s.get (F.HBM_S_REPAIR_HARD_LEFT t) - 1)).emit
      (.hbmRepair true t pc row) := by
  simp [State.doHardRepair, ha, hb, hl]

/-- Once the PLL is locked a stack's identity is taken as it comes; OK needs 16 dies of 32 Gb (R311). -/
theorem State.doStackIdentityRead_of_locked {t : Fin 24} {mfr : Byte} {part date : BitVec 16} {height density : Byte}
    {hardLeft : BitVec 16} (h : s.up.pllLocked = true) :
    s.doStackIdentityRead t mfr part date height density hardLeft =
      { ((((((s.put (F.HBM_S_ID_MFR t) mfr.toNat).put (F.HBM_S_ID_PART t) part.toNat).put (F.HBM_S_ID_DATE t)
          date.toNat).put (F.HBM_S_ID_HEIGHT t) height.toNat).put (F.HBM_S_ID_DENSITY t) density.toNat).put
          (F.HBM_S_REPAIR_HARD_LEFT t) hardLeft.toNat).putFlag (F.HBM_S_ID_OK t) (height == 16 && density == 32) with
        up := { s.up with stacksRead := setBitAt s.up.stacksRead t true } } := by
  rw [State.doStackIdentityRead, if_pos h]
  dsimp only
  rw [State.putFlag_up, State.put_up, State.put_up, State.put_up, State.put_up, State.put_up, State.put_up]

end

/-- Settles O38: each command's effect in its slot, by the lemma about that effect; the rotation of refresh slots by
arithmetic. -/
theorem hbmBackgroundCommandsComplete : Obligations.HbmBackgroundCommandsComplete := by
  refine ⟨?_, ?_, ?_, ?_, ?_, ?_, ?_, ?_, ?_⟩
  · intro r h
    exact row_in_rotation h
  · intro s hs hb
    exact runCmd_of_eq hs (State.doRefreshSlot_of_slot (s := s.fresh) hb)
  · intro s t hs hb hw he hp
    exact runCmd_of_eq hs (State.doScrubSlot_of_no_writeBack (s := s.fresh) hb hw he hp)
  · intro s t n struck hs ht hb
    exact runCmd_of_eq hs (State.doScrubSlot_of_other_turn ht hb)
  · intro s t a hs hb he hd ha hst hrow
    exact runCmd_of_eq hs (State.doWearSlot_of_aggressor (s := s.fresh) hb he hd ha hst hrow)
  · intro s t pc r n hs hb hf
    refine (runCmd_of_eq hs (State.doRepairSlot_of_spare (s := s.fresh) hb hf)).trans ?_
    simp only [State.fresh_hbm]
  · intro s t pc r n hs hb hf
    exact runCmd_of_eq hs (State.doRepairSlot_of_no_spare (s := s.fresh) hb hf)
  · intro s t pc row hs ha hb hl
    exact runCmd_of_eq hs (State.doHardRepair_of_left (s := s.fresh) ha hb hl)
  · intro s t mfr part date height density hardLeft hs hp
    exact runCmd_of_eq hs (State.doStackIdentityRead_of_locked (s := s.fresh) hp)

end Sys2Proof.Machine

/-! ### Host requests to the BARs, the link and configuration (R72, R313, R316 to R324) -/

namespace Sys2Proof.Machine

theorem pageOf_msgQueuePage {i off : Nat} (hi : i < 9) (ho : off < 0x1000) :
    pageOf (0x10b0000 + 0x1000 * i + off) = some (11, i, off) :=
  pageOf_of_eq (pg := 0xb0 + i) (by omega) ho (by omega) (by omega) (by decide) (by decide) (by decide)
    (by simp only [pageBlock, Nat.le_of_lt_succ hi, if_true]; split <;> rfl)

/-- Each message page after the first holds 64 send queues. -/
theorem pageOf_MSG_Q_IDX {q : Nat} (hq : q < 512) :
    pageOf (Reg.MSG_Q_IDX q) = some (11, q / 64 + 1, 0x110 + 0x18 * (q % 64)) := by
  have ha : Reg.MSG_Q_IDX q = 0x10b0000 + 0x1000 * (q / 64 + 1) + (0x110 + 0x18 * (q % 64)) := by
    unfold Reg.MSG_Q_IDX
    omega
  rw [ha, pageOf_msgQueuePage (by omega) (by omega)]

theorem regHook_MSG_Q_IDX {data : Word} {aux : Option Nat} {q : Nat} {s : State} {w : RegWrite} :
    regHook data aux 11 (q / 64 + 1) (0x110 + 0x18 * (q % 64)) s w = hookMsgQIdx q s w := by
  have hreg : (0x110 + 0x18 * (q % 64) - 0x100) % 0x18 = 0x10 := by omega
  have hq : 64 * (q / 64 + 1 - 1) + (0x110 + 0x18 * (q % 64) - 0x100) / 0x18 = q := by omega
  have hoff : ¬ 0x110 + 0x18 * (q % 64) < 0x100 := by omega
  have hpage : regHook data aux 11 (q / 64 + 1) (0x110 + 0x18 * (q % 64)) s w =
      hookMsg (q / 64 + 1) (0x110 + 0x18 * (q % 64)) s w := by
    simp [regHook, hoff]
  rw [hpage, hookMsg, if_neg (Nat.succ_ne_zero _), if_pos hreg, hq]

/-- A TAIL that does not overfill the ring is in effect, modulo twice the ring (R131, R321). -/
theorem State.advanceMsg_of_room {s : State} {q tail : Nat} (h : tailOver (s.msgN q) (s.get (F.MSG_Q_IDX_HEAD q)) tail = false) :
    s.advanceMsg q tail = s.put (F.MSG_Q_IDX_TAIL q) (tail % (2 * s.msgN q)) := by
  simp [State.advanceMsg, h]

/-! #### BAR2 and the doorbells -/

section
variable {s : State} {a : Fin 16} {p q addr j : Nat} {tag : BitVec 14} {off : BitVec 42}

theorem State.doBar2Read_of_slot {len : Nat} (hp : s.servingPort a = p) (ho : s.barOpen p = some true)
    (hs : s.bar2Slot p off.toNat = some (addr, q)) :
    s.doBar2Read a tag off len = (s.bar2Begin p tag.toNat addr len false).issueMemory q opLoad addr len [] 0
      (.bar2 p (s.attach p).nextId) := by
  simp only [State.doBar2Read, State.bar2Read, hp, ho, hs]

/-- A miss is counted and answered with Completer Abort (R318). -/
theorem State.doBar2Read_of_miss {len : Nat} (hp : s.servingPort a = p) (ho : s.barOpen p = some true)
    (hs : s.bar2Slot p off.toNat = none) :
    s.doBar2Read a tag off len = (s.count (F.ATT_B2_CTL_MISS p) 1).emit (.completion p tag.toNat cplCa [] false) := by
  simp only [State.doBar2Read, State.bar2Read, hp, ho, hs]

theorem State.doBar2Write_of_slot {data : List Byte} {poison : Bool} (hp : s.servingPort a = p)
    (ho : s.barOpen p = some true) (hs : s.bar2Slot p off.toNat = some (addr, q)) :
    s.doBar2Write a off data poison = s.issueData q opStore addr data.length data 0 poison .none := by
  simp only [State.doBar2Write, State.bar2Write, hp, ho, hs]

theorem State.doBar2Atomic_of_fetchAdd {x : Word} (hp : s.servingPort a = p) (ho : s.barOpen p = some true)
    (hs : s.bar2Slot p off.toNat = some (addr, q)) :
    s.doBar2Atomic a tag off (.fetchAdd x) = (s.bar2Begin p tag.toNat addr 8 true).issueMemory q 0x10 addr 8
      (toBytesLE 8 x.toNat) 0 (.bar2 p (s.attach p).nextId) := by
  simp only [State.doBar2Atomic, State.bar2Atomic, hp, ho, hs]

/-- A request type that is none of the three atomics is an Unsupported Request (R318). -/
theorem State.doBar2Atomic_of_other (hp : s.servingPort a = p) (ho : s.barOpen p = some true) :
    s.doBar2Atomic a tag off .other = (s.count (F.ATT_DB_STAT_REJ p) 1).emit (.completion p tag.toNat cplUr [] false) := by
  simp only [State.doBar2Atomic, State.bar2Atomic, hp, ho]

variable {n : Fin 512} {pasid : Option (BitVec 20)} {data : Word}

/-- An accepted doorbell of an op queue is a TAIL in effect (R131, R320). -/
theorem State.doDbTail_of_opQueue (hp : s.servingPort a = p) (ho : s.barOpen p = some true) (hown : s.owner n = some 17)
    (hc : n.val ≠ s.colq) (ht : s.ringTakes p pasid (F.PLT_OQ_CFG_EN n) (F.PLT_OQ_CFG_PORT n) (F.PLT_OQ_CFG_PASID n) = true)
    (hover : tailOver (s.oqN n) (s.oqHead n) (fieldGet data 16 0) = false) (hg : s.oqGated n = false) :
    s.doDbTail a n pasid data = s.setOqTail n (fieldGet data 16 0) := by
  simp [State.doDbTail, State.dbTail, hp, ho, hown, hc, ht, hover, hg, State.advanceOq, State.gateTail]

theorem State.doDbTail_of_not_taken (hp : s.servingPort a = p) (ho : s.barOpen p = some true) (hown : s.owner n = some 17)
    (hc : n.val ≠ s.colq)
    (ht : s.ringTakes p pasid (F.PLT_OQ_CFG_EN n) (F.PLT_OQ_CFG_PORT n) (F.PLT_OQ_CFG_PASID n) = false) :
    s.doDbTail a n pasid data = s.count (F.ATT_DB_STAT_REJ p) 1 := by
  simp [State.doDbTail, State.dbTail, hp, ho, hown, hc, ht]

theorem State.doDbFence_of_entry (hp : s.servingPort a = p) (ho : s.barOpen p = some true)
    (he : s.fqEntry p n pasid = some j) :
    s.doDbFence a n pasid data = s.placeFence n (fieldGet data 1 0) (fieldGet data 3 2) (.bar4 p j (fieldGet data 63 16)) := by
  simp only [State.doDbFence, State.dbFence, hp, ho, he]

theorem State.doDbDma_of_entry (hp : s.servingPort a = p) (ho : s.barOpen p = some true) (he : s.fqEntry p n pasid = some j)
    (hover : tailOver (s.fqN p j) (s.get (F.ATT_FQ_D_HEAD p j)) (fieldGet data 16 0) = false) :
    s.doDbDma a n pasid data = s.put (F.ATT_FQ_D_TAIL p j) (fieldGet data 16 0) := by
  simp [State.doDbDma, State.dbDma, State.setFqTail, hp, ho, he, hover]

end

/-! #### The link and configuration -/

section
variable {s : State} {a : Fin 16}

/-- An enabled port whose link is down trains in Flit mode once the PLL has locked, at most 8 lanes wide when not bonded (R314). -/
theorem State.doAttachLinkUp_of_enabled {speed : Byte} {width : Fin 17} (hpll : s.up.pllLocked = true)
    (hen : s.flag (F.ATT_CTL_EN a) = true) (hb : s.flag (F.ATT_LINK_BONDED a) = false) (hup : s.flag (F.ATT_LINK_UP a) = false) :
    s.doAttachLinkUp a true speed width = ((((s.putFlag (F.ATT_LINK_UP a) true).putFlag (F.ATT_LINK_FLIT a) true).put
      (F.ATT_LINK_SPEED a) speed.toNat).put (F.ATT_LINK_WIDTH a) (min width.val 8)).attPump a := by
  simp [State.doAttachLinkUp, hpll, hen, hb, hup]

/-- Requests to the configuration space of a port that waits get Request Retry Status (R335). -/
theorem State.doConfigurationRequest_of_wait {req : ConfigReq} (hon : s.portOn a = true) (hw : s.cfgWaits a = true)
    (hm : s.mem4 a req = none) : s.doConfigurationRequest a req = s.emit (.cfgCompletion a cplRrs) := by
  simp [State.doConfigurationRequest, hon, hw, hm]

/-- A configuration read returns the field and completes (R313). -/
theorem State.doConfigurationRequest_read {f : CfgField} (hon : s.portOn a = true) (hw : s.cfgWaits a = false) :
    s.doConfigurationRequest a (.read f) =
      (s.emit (.cfgData a (toBytesLE 4 (s.cfgField a f)))).emit (.cfgCompletion a cplSc) := by
  simp [State.doConfigurationRequest, hon, hw, State.mem4]

theorem State.doConfigurationRequest_priEnable {on : Bool} {alloc : Nat} (hon : s.portOn a = true) (hw : s.cfgWaits a = false) :
    s.doConfigurationRequest a (.priEnable on alloc) =
      (s.setAttach a { s.attach a with priEnabled := on, priAlloc := alloc }).emit (.cfgCompletion a cplSc) := by
  simp [State.doConfigurationRequest, hon, hw, State.mem4]

theorem State.doConfigurationRequest_bar2Read (hon : s.portOn a = true) (hw : s.cfgWaits a = false) :
    s.doConfigurationRequest a .bar2Read =
      (s.emit (.cfgData a (toBytesLE 8 (s.bar2Reg a)))).emit (.cfgCompletion a cplSc) := by
  simp [State.doConfigurationRequest, hon, hw, State.mem4]

theorem State.doConfigurationRequest_bar0Read (hon : s.portOn a = true) (hw : s.cfgWaits a = false) :
    s.doConfigurationRequest a .bar0Read =
      (s.emit (.cfgData a (toBytesLE 8 (barReg (s.attach a).bar0Base bar0Size)))).emit (.cfgCompletion a cplSc) := by
  simp [State.doConfigurationRequest, hon, hw, State.mem4]

theorem State.doConfigurationRequest_bar4Read (hon : s.portOn a = true) (hw : s.cfgWaits a = false) :
    s.doConfigurationRequest a .bar4Read =
      (s.emit (.cfgData a (toBytesLE 8 (barReg (s.attach a).bar4Base bar4Size)))).emit (.cfgCompletion a cplSc) := by
  simp [State.doConfigurationRequest, hon, hw, State.mem4]

/-- BAR2's size is 256 slots (R72). -/
theorem State.bar2Reg_eq_slots (s : State) (a : Nat) :
    s.bar2Reg a = (let size := 256 * 2 ^ (s.attach a).slotShift
      (s.attach a).bar2Base / size * size + 4 + (if Config.bar2Prefetchable a then 8 else 0)) := by
  have hsize : 2 ^ ((s.attach a).slotShift + 8) = 256 * 2 ^ (s.attach a).slotShift := by
    rw [Nat.pow_add, Nat.mul_comm]
  simp only [State.bar2Reg, hsize]

/-- The doorbell pages of BAR4 read as zero (R317). -/
theorem MsixState.bar4Word_of_doorbell {m : MsixState} {k : Nat} (h : k < 0x40000) : m.bar4Word k = 0 := by
  simp [MsixState.bar4Word, h]

theorem State.doConfigurationRequest_of_doorbell_read {tag : BitVec 14} {k : BitVec 19} (ho : s.barOpen a = some true)
    (hk : k.toNat < 0x40000) :
    s.doConfigurationRequest a (.mem4Read tag k) = s.emit (.completion a tag.toNat cplSc (toBytesLE 8 0) false) := by
  simp [State.doConfigurationRequest, State.mem4, ho, MsixState.bar4Word_of_doorbell hk]

end

/-- Settles O39: each request by its effect at the port that serves it, the send queue's TAIL by its register's rule. -/
theorem hostRequestCommandsComplete : Obligations.HostRequestCommandsComplete := by
  refine ⟨?_, ?_, ?_, ?_, ?_, ?_, ?_, ?_, ?_, ?_, ?_, ?_, ?_, ?_, ?_, ?_, ?_⟩
  · intro s a p tag off len addr q hs hp ho hslot
    exact runCmd_of_eq hs (State.doBar2Read_of_slot (s := s.fresh) hp ho hslot)
  · intro s a p tag off len hs hp ho hslot
    exact runCmd_of_eq hs (State.doBar2Read_of_miss (s := s.fresh) hp ho hslot)
  · intro s a p off data poison addr q hs hp ho hslot
    exact runCmd_of_eq hs (State.doBar2Write_of_slot (s := s.fresh) hp ho hslot)
  · intro s a p tag off x addr q hs hp ho hslot
    exact runCmd_of_eq hs (State.doBar2Atomic_of_fetchAdd (s := s.fresh) hp ho hslot)
  · intro s a p tag off hs hp ho
    exact runCmd_of_eq hs (State.doBar2Atomic_of_other (s := s.fresh) hp ho)
  · intro s p q data hs ho hroom
    exact runCmd_pathWrite_of_open hs ho (pageOf_MSG_Q_IDX q.isLt)
      (regHook_MSG_Q_IDX.trans (State.advanceMsg_of_room (s := s.fresh) hroom))
  · intro s a p q pasid data hs hp ho hown hc ht hover hg
    exact runCmd_of_eq hs (State.doDbTail_of_opQueue (s := s.fresh) hp ho hown hc ht hover hg)
  · intro s a p q pasid data hs hp ho hown hc ht
    exact runCmd_of_eq hs (State.doDbTail_of_not_taken (s := s.fresh) hp ho hown hc ht)
  · intro s a p q pasid data j hs hp ho he
    exact runCmd_of_eq hs (State.doDbFence_of_entry (s := s.fresh) hp ho he)
  · intro s a p q pasid data j hs hp ho he hover
    exact runCmd_of_eq hs (State.doDbDma_of_entry (s := s.fresh) hp ho he hover)
  · intro s a speed width hs hpll hen hb hup
    exact runCmd_of_eq hs (State.doAttachLinkUp_of_enabled (s := s.fresh) hpll hen hb hup)
  · intro s a req hs hon hw hm
    have hm' : s.fresh.mem4 a req = none := by
      cases req <;> simp_all [State.mem4]
    exact runCmd_of_eq hs (State.doConfigurationRequest_of_wait (s := s.fresh) hon hw hm')
  · intro s a hs hon hw
    refine ⟨?_, ?_, ?_⟩ <;> exact runCmd_of_eq hs (State.doConfigurationRequest_read (s := s.fresh) hon hw)
  · intro s a on alloc hs hon hw
    exact runCmd_of_eq hs (State.doConfigurationRequest_priEnable (s := s.fresh) hon hw)
  · intro s a hs hon hw
    refine runCmd_of_eq hs ((State.doConfigurationRequest_bar2Read (s := s.fresh) hon hw).trans ?_)
    rw [State.bar2Reg_eq_slots, State.fresh_attach]
  · intro s a hs hon hw
    exact ⟨runCmd_of_eq hs (State.doConfigurationRequest_bar0Read (s := s.fresh) hon hw),
      runCmd_of_eq hs (State.doConfigurationRequest_bar4Read (s := s.fresh) hon hw)⟩
  · intro s a tag k hs ho hk
    exact runCmd_of_eq hs (State.doConfigurationRequest_of_doorbell_read (s := s.fresh) ho hk)

end Sys2Proof.Machine

/-! ### Accesses to the host, translations, page requests, fault batches and DMA rings (R324 to R331) -/

namespace Sys2Proof.Machine

section
variable {s : State} {a : Fin 16} {j : Fin 32}

/-- A ring with a descriptor to fetch, and none of its port under way, fetches it (R324). -/
theorem State.doDmaDescriptorFetch_of_idle (hm : s.mayHost a = true) (hv : s.flag (F.ATT_FQ_A_VALID a j) = true)
    (ho : s.portOwns a (s.get (F.ATT_FQ_A_QUEUE a j)) = true) (hj : (s.attach a).jobs = [])
    (hr : s.ringHeld a (s.get (F.ATT_FQ_A_QUEUE a j)) = false)
    (hne : s.get (F.ATT_FQ_D_HEAD a j) % (2 * s.fqN a j) ≠ s.get (F.ATT_FQ_D_TAIL a j) % (2 * s.fqN a j)) :
    s.doDmaDescriptorFetch a j =
      (let h := s.get (F.ATT_FQ_D_HEAD a j) % (2 * s.fqN a j)
       let t := (s.setAttach a { s.attach a with
          jobs := [{ entry := j, queue := s.get (F.ATT_FQ_A_QUEUE a j), pasid := s.get (F.ATT_FQ_B_PASID a j), index := h }] }).put
          (F.ATT_FQ_D_HEAD a j) ((h + 1) % (2 * s.fqN a j))
       (t.addAccess a (s.get (F.ATT_FQ_B_PASID a j)) (t.get (F.ATT_FQ_C_RING a j) * 4096 + 64 * (h % s.fqN a j)) 64 false
          (.descFetch j)).attPump a) := by
  have hgo : (s.get (F.ATT_FQ_D_HEAD a j) % (2 * s.fqN a j) != s.get (F.ATT_FQ_D_TAIL a j) % (2 * s.fqN a j)) = true :=
    bne_iff_ne.mpr hne
  simp only [State.doDmaDescriptorFetch, hm, hv, ho, hj, hr, hgo, List.any_nil, List.nil_append, Bool.not_false, Bool.and_self,
    if_true]

/-- A ring that waits for room in the park table fetches nothing (R408). -/
theorem State.doDmaDescriptorFetch_of_held (h : s.ringHeld a (s.get (F.ATT_FQ_A_QUEUE a j)) = true) :
    s.doDmaDescriptorFetch a j = s := by
  simp [State.doDmaDescriptorFetch, h]

/-- Toward the host a translated part is read from the fabric in pieces of at most 256 bytes (R325). -/
theorem State.doDmaPageMove_of_toHost {job : DmaJob} {k : Nat} {p : DmaPart}
    (hj : (s.attach a).jobs.find? (fun y => y.entry == j.val) = some job)
    (hk : job.parts.findIdx? (fun p => p.step == 1) = some k) (hp : job.parts[k]? = some p) (hm : s.mayHost a = true)
    (hd : dmaToHost job.desc = true) :
    s.doDmaPageMove a j =
      ((pieces256 p.len).foldl (fun (t : State) (o, n) => t.issueMemory job.queue opLoad (p.fabric + o) n [] 0 (.dma a j k))
        (s.mapJob a j (fun y => { y with parts := (y.parts.zipIdx).map (fun (p, i) =>
          if i = k then { p with step := 2 } else p) }))).attPump a := by
  simp only [State.doDmaPageMove, hj, hk, hp, hm, hd, Bool.not_true, Bool.false_eq_true, if_false, if_true]

/-- A tile's flag follows its data by PROOF_WRITE (R325). -/
theorem State.doDmaTileFlag_of_ready {job : DmaJob} (hj : (s.attach a).jobs.find? (fun y => y.entry == j.val) = some job)
    (hd : job.desc ≠ []) (he : job.ending = false) (hen : dmaFlagEn job.desc = true) (hp : job.parts ≠ [])
    (hr : job.flagReady = true) (hf : job.fail = none) (hc : job.flags.contains job.tile = false) (ht : job.done ≤ job.tile) :
    s.doDmaTileFlag a j =
      ((s.mapJob a j (fun y => { y with flags := y.flags ++ [y.tile] })).issueMemory job.queue opProof
        (bytesAt job.desc 32 8 + 8 * job.tile) 8 ((job.desc.drop 40).take 8) 0 (.dma a j (2 ^ 40 + job.tile))).attPump a := by
  have hall : job.desc ≠ [] ∧ job.ending = false ∧ dmaFlagEn job.desc = true ∧ job.parts ≠ [] ∧ job.flagReady = true ∧
      job.fail = none ∧ job.flags.contains job.tile = false ∧ job.done ≤ job.tile := ⟨hd, he, hen, hp, hr, hf, hc, ht⟩
  simp only [State.doDmaTileFlag, hj]
  rw [if_pos hall]

variable {tag : BitVec 14} {h : HostAccess}

theorem State.doHostReadCompletion_of_data {bytes : List Byte} {poison : Bool} (ht : (s.attach a).byTag tag.toNat = some h) :
    s.doHostReadCompletion a tag (.data bytes poison) = (s.readReturned a h bytes poison).attPump a := by
  simp only [State.doHostReadCompletion, ht]

theorem State.doHostReadCompletion_of_unsupported (ht : (s.attach a).byTag tag.toNat = some h) :
    s.doHostReadCompletion a tag .unsupported = (s.failAccess a h 0x41).attPump a := by
  simp only [State.doHostReadCompletion, ht]

/-- A read that CPL_TO turns have not answered ends TranslationError (R327). -/
theorem State.doHostCompletionTimeout_of_late {x since : Nat} (ht : (s.attach a).byTag tag.toNat = some h)
    (hs : h.step = .sent x since) (hl : since + max 256 (s.get (F.ATT_CTL_CPL_TO a)) ≤ s.clk) :
    s.doHostCompletionTimeout a tag = (s.failAccess a h 0x41).attPump a := by
  simp only [State.doHostCompletionTimeout, ht, hs, hl, if_true]

/-- A translation that was asked for is cached, and the accesses that wait for it go on (R328). -/
theorem State.doAtsTranslationResponse_of_asked {pasid : BitVec 20} {page : BitVec 52} {r : AtsResult}
    (hc : (s.attach a).atsOut.contains (pasid.toNat, page.toNat) = true) :
    s.doAtsTranslationResponse a pasid page (some r) =
      (let e : AtcEntry := { pasid := pasid.toNat, page := page.toNat / 2 ^ r.log2.val * 2 ^ r.log2.val, log2 := r.log2, addr := r.addr.toNat, read := r.read, write := r.write }
       let t := s.setAttach a (({ s.attach a with
          atsOut := (s.attach a).atsOut.erase (pasid.toNat, page.toNat) } : AttachState).cache e)
       (t.translated a pasid.toNat page.toNat (some e)).attPump a) := by
  simp only [State.doAtsTranslationResponse, hc, if_true, Option.map_some]

/-- An invalidation drops the entries of its PASID at once, and its completion waits for the reads in flight (R329). -/
theorem State.doAtsInvalidateRequest_of_on {itag : Fin 32} {pasid : Option (BitVec 20)} (hon : s.portOn a = true) :
    s.doAtsInvalidateRequest a itag pasid =
      (let t := s.dropAtc a (pasid.map (·.toNat))
       let ws := ((t.attach a).accesses.filter (fun h => invMatches (pasid.map (·.toNat)) h.pasid && match h.step with
          | .sent _ _ => true
          | .ready | .translating | .paging _ | .batched => false)).map (·.id)
       t.setAttach a { t.attach a with
          invals := (t.attach a).invals ++ [{ itag := itag, pasid := pasid.map (·.toNat), waits := ws }] }) := by
  rw [State.doAtsInvalidateRequest]
  exact if_pos hon

theorem State.doInvalidateCompletion_of_done {i : Invalidation}
    (hi : (s.attach a).invals.find? (fun i => i.waits.all (fun w => !(s.attach a).accesses.any (fun h => h.id == w))) = some i) :
    s.doInvalidateCompletion a =
      ((s.setAttach a { s.attach a with invals := (s.attach a).invals.erase i }).emit (.invalidateDone a i.itag)).attPump a := by
  simp only [State.doInvalidateCompletion, hi]

/-- The accesses of a page request that succeeded go on (R330). -/
theorem State.doPageRequestGroupResponse_of_success {group : BitVec 9}
    (ho : (s.attach a).pageOut.any (fun o => o.1 == group.toNat) = true) :
    s.doPageRequestGroupResponse a group 0 =
      (((s.attach a).accesses.filter (fun h => h.group == some group.toNat)).foldl
        (fun (t : State) h => t.setAccess a { h with step := .ready })
        (s.setAttach a { s.attach a with pageOut := (s.attach a).pageOut.filter (fun o => o.1 != group.toNat) })).attPump a := by
  simp [State.doPageRequestGroupResponse, ho]

theorem State.doPeerHoldTimeout_of_late (hf : (s.attach a).accesses.find? (fun (h : HostAccess) => h.group.isSome &&
      h.use.way == .page false && decide (h.heldAt.getD s.clk + s.get (F.ATT_PRI_HOLD a) < s.clk)) = some h) :
    s.doPeerHoldTimeout a = (s.failAccess a h 0x40).attPump a := by
  simp only [State.doPeerHoldTimeout, hf]

/-- BATCH_N faults held are written, in order (R331). -/
theorem State.doFaultBatch_of_count (hn : max 1 (s.get (F.ATT_PRI_BATCH_N a)) ≤ (s.attach a).faults.length) :
    s.doFaultBatch a = State.writeFaults (s.setAttach a { s.attach a with faults := [] }) a (s.attach a).faults := by
  simp only [State.doFaultBatch, hn, decide_true, Bool.true_or, if_true]

/-- The only fault held is written BATCH_T turns after it was gathered (R331). -/
theorem State.doFaultBatch_of_time {p : PendingFault} (hf : (s.attach a).faults = [p])
    (ht : p.since + s.get (F.ATT_PRI_BATCH_T a) ≤ s.clk) :
    s.doFaultBatch a = State.writeFaults (s.setAttach a { s.attach a with faults := [] }) a [p] := by
  simp [State.doFaultBatch, hf, ht]

/-- A fault of a PEER request has its record, with the turn of the fault (R331). -/
theorem State.writeFaults_of_peer {p : PendingFault} {a : Nat} (hd : p.dma = false) :
    State.writeFaults s a [p] = s.fault 1 0x0020 7 a
      { pasid := p.pasid, addr := 4096 * p.page, tag := p.queue, detail0 := a + b2n p.write * 0x100, detail1 := 0,
        turn := some p.turn } := by
  simp [State.writeFaults, hd, b2n]

end

/-- Settles O40: each command by its effect on the access, the translation, the request or the descriptor that it is for. -/
theorem hostAccessCommandsComplete : Obligations.HostAccessCommandsComplete := by
  refine ⟨?_, ?_, ?_, ?_, ?_, ?_, ?_, ?_, ?_, ?_, ?_, ?_, ?_, ?_⟩
  · intro s a j hs hm hv ho hj hr hne
    exact runCmd_of_eq hs (State.doDmaDescriptorFetch_of_idle (s := s.fresh) hm hv ho hj hr hne)
  · intro s a j job k p hs hj hk hp hm hd
    exact runCmd_of_eq hs (State.doDmaPageMove_of_toHost (s := s.fresh) hj hk hp hm hd)
  · intro s a j job hs hj hd he hen hp hr hf hc ht
    exact runCmd_of_eq hs (State.doDmaTileFlag_of_ready (s := s.fresh) hj hd he hen hp hr hf hc ht)
  · intro s a tag h bytes poison hs ht
    exact runCmd_of_eq hs (State.doHostReadCompletion_of_data (s := s.fresh) ht)
  · intro s a tag h hs ht
    exact runCmd_of_eq hs (State.doHostReadCompletion_of_unsupported (s := s.fresh) ht)
  · intro s a tag h x since hs ht hstep hl
    exact runCmd_of_eq hs (State.doHostCompletionTimeout_of_late (s := s.fresh) ht hstep hl)
  · intro s a pasid page r hs hc
    exact runCmd_of_eq hs (State.doAtsTranslationResponse_of_asked (s := s.fresh) hc)
  · intro s a itag pasid hs hon _
    exact runCmd_of_eq hs (State.doAtsInvalidateRequest_of_on (s := s.fresh) hon)
  · intro s a i hs hi
    exact runCmd_of_eq hs (State.doInvalidateCompletion_of_done (s := s.fresh) hi)
  · intro s a group hs ho
    exact runCmd_of_eq hs (State.doPageRequestGroupResponse_of_success (s := s.fresh) ho)
  · intro s a h hs hf
    exact runCmd_of_eq hs (State.doPeerHoldTimeout_of_late (s := s.fresh) hf)
  · intro s a hs hn
    exact runCmd_of_eq hs (State.doFaultBatch_of_count (s := s.fresh) hn)
  · intro s a j hs hr
    exact runCmd_of_eq hs (State.doDmaDescriptorFetch_of_held (s := s.fresh) hr)
  · intro s a p hs hf ht hd
    exact runCmd_of_eq hs ((State.doFaultBatch_of_time (s := s.fresh) hf ht).trans (State.writeFaults_of_peer hd))

end Sys2Proof.Machine

/-! ### SPDM and TDISP (R334, R336, R361) -/

namespace Sys2Proof.Machine

section
variable {s : State} {a : Nat} {f : AttachState → State}

/-- A port that is on and does not wait handles SPDM requests (R335, R336). -/
theorem State.spdm_of_open (hon : s.portOn a = true) (hw : s.cfgWaits a = false) : s.spdm a f = f (s.attach a) := by
  simp [State.spdm, hon, hw]

/-- After the algorithms are negotiated every request is handled. -/
theorem State.spdmAfter_of_negotiated (hon : s.portOn a = true) (hw : s.cfgWaits a = false) (h3 : (s.attach a).spdmStep = 3) :
    s.spdmAfter a f = f (s.attach a) := by
  rw [State.spdmAfter, State.spdm_of_open hon hw, if_pos h3]

/-- Before that a request is out of its order. -/
theorem State.spdmAfter_of_early (hon : s.portOn a = true) (hw : s.cfgWaits a = false) (h3 : (s.attach a).spdmStep ≠ 3) :
    s.spdmAfter a f = s.emit (spdmUnexpected a) := by
  rw [State.spdmAfter, State.spdm_of_open hon hw, if_neg h3]

/-- A key programmed into a secure stream replaces the one of its set and leaves the stream secure (R333). -/
theorem State.progKey_of_secure {k : IdeKey} (h : (s.attach a).ide.getD k.stream 0 = 2) :
    s.progKey a k = s.setAttach a { s.attach a with
      ideKeys := (s.attach a).ideKeys.filter (fun y =>
        !(y.stream == k.stream && y.keySet == k.keySet && y.transmit == k.transmit && y.sub == k.sub)) ++ [k] } := by
  rw [State.progKey]
  exact if_pos h

end

/-- Settles O42: the port handles the request (R336), whose handler at the port's state is the answer given. -/
theorem spdmCommandsComplete : Obligations.SpdmCommandsComplete := by
  refine ⟨?_, ?_, ?_, ?_, ?_, ?_, ?_, ?_, ?_, ?_, ?_, ?_, ?_, ?_, ?_⟩
  · intro s a hs hon hw
    exact runCmd_of_eq hs (State.spdm_of_open (s := s.fresh) hon hw)
  · intro s a hs hon hw h1
    exact runCmd_of_eq hs ((State.spdm_of_open (s := s.fresh) hon hw).trans (if_pos h1))
  · intro s a hs hon hw h2
    exact runCmd_of_eq hs ((State.spdm_of_open (s := s.fresh) hon hw).trans
      ((if_neg (not_not.mpr h2)).trans (if_pos rfl)))
  · intro s a hs hon hw h3
    exact runCmd_of_eq hs (State.spdmAfter_of_early (s := s.fresh) hon hw h3)
  · intro s a hs hon hw h3
    exact runCmd_of_eq hs (State.spdmAfter_of_negotiated (s := s.fresh) hon hw h3)
  · intro s a off len hs hon hw h3
    exact runCmd_of_eq hs ((State.spdmAfter_of_negotiated (s := s.fresh) hon hw h3).trans (if_pos rfl))
  · intro s a nonce hs hon hw h3
    exact runCmd_of_eq hs ((State.spdmAfter_of_negotiated (s := s.fresh) hon hw h3).trans (if_pos rfl))
  · intro s a i nonce hs hon hw h3 hlo hhi
    refine runCmd_of_eq hs ((State.spdmAfter_of_negotiated (s := s.fresh) hon hw h3).trans ?_)
    have h0 : i.toNat ≠ 0 := by omega
    have h255 : i.toNat ≠ 255 := by omega
    simp only [h0, h255, hhi, true_or, if_true, if_false, State.fresh_measurement]
  · intro s a share hs hon hw h3 hsess
    exact runCmd_of_eq hs ((State.spdmAfter_of_negotiated (s := s.fresh) hon hw h3).trans (if_pos hsess))
  · intro s a hs hon hw h3 hsess
    exact runCmd_of_eq hs ((State.spdmAfter_of_negotiated (s := s.fresh) hon hw h3).trans
      ((if_neg (not_not.mpr hsess)).trans (if_pos rfl)))
  · intro s a hs hon hw h3 hsess
    exact runCmd_of_eq hs ((State.spdmAfter_of_negotiated (s := s.fresh) hon hw h3).trans (if_pos hsess))
  · intro s a hs hon hw h3 hsess
    exact runCmd_of_eq hs ((State.spdmAfter_of_negotiated (s := s.fresh) hon hw h3).trans (if_pos hsess))
  · intro s a nonce hs hon hw h3 hsess htdi
    exact runCmd_of_eq hs ((State.spdmAfter_of_negotiated (s := s.fresh) hon hw h3).trans
      ((if_neg (not_not.mpr hsess)).trans (if_pos htdi)))
  · intro s a nonce hs hon hw h3 hsess htdi hnonce
    exact runCmd_of_eq hs ((State.spdmAfter_of_negotiated (s := s.fresh) hon hw h3).trans
      ((if_neg (not_not.mpr hsess)).trans (if_pos ⟨htdi, hnonce⟩)))
  · intro s a i set tx sub key iv hs hon hw h3 hsess hide
    refine runCmd_of_eq hs ((State.spdmAfter_of_negotiated (s := s.fresh) hon hw h3).trans
      ((if_neg (not_not.mpr hsess)).trans ?_))
    exact congrArg (State.emit · (.spdm a spdmVendor [])) (State.progKey_of_secure (s := s.fresh) hide)

end Sys2Proof.Machine

/-! ### Fault records: their sequence and where they go (R404 to R407) -/

namespace Sys2Proof.Machine

/-! #### Counters and vectors leave the rest alone -/

section
variable {s : State} {f : RField} {n : Nat}

/-- What counting does: the field, and PG_CNT_VAL of the field's page where it selects the field (R469). -/
theorem State.count_eq (s : State) (f : RField) (n : Nat) :
    s.count f n = s.put f (min f.max (s.get f + n)) ∨
      ∃ sel, s.count f n = (s.put f (min f.max (s.get f + n))).pgCount (pageBaseOf f.addr) sel n := by
  simp only [State.count]
  split
  · exact .inl rfl
  · split
    · split
      · exact .inr ⟨_, rfl⟩
      · exact .inl rfl
    · exact .inl rfl

theorem State.reg_pgCount_of_ne (s : State) {pg sel a : Nat} (h : a ≠ Reg.PG_CNT_VAL pg) :
    (s.pgCount pg sel n).reg a = s.reg a := by
  rw [State.pgCount]
  split
  · exact State.reg_setReg_of_ne _ _ h
  · rfl

/-- A header's registers stand in the first 256 bytes of their page. -/
theorem ne_PG_CNT_VAL {a b : Nat} (h : 0x100 ≤ a % 0x1000) : a ≠ Reg.PG_CNT_VAL (pageBaseOf b) := by
  unfold Reg.PG_CNT_VAL pageBaseOf
  omega

/-- Behind the headers, counting changes the counter alone. -/
theorem State.reg_count (s : State) (f : RField) (n : Nat) {a : Nat} (h : 0x100 ≤ a % 0x1000) :
    (s.count f n).reg a = (s.put f (min f.max (s.get f + n))).reg a := by
  obtain h' | ⟨sel, h'⟩ := s.count_eq f n
  · rw [h']
  · rw [h', State.reg_pgCount_of_ne _ (ne_PG_CNT_VAL h)]

theorem State.get_count (s : State) (f g : RField) (n : Nat) (h : 0x100 ≤ g.addr % 0x1000) :
    (s.count f n).get g = (s.put f (min f.max (s.get f + n))).get g :=
  congrArg (fieldGet · g.hi g.lo) (State.reg_count s f n h)

theorem State.pgCount_eq_regs (s : State) (pg sel n : Nat) :
    s.pgCount pg sel n = { s with regs := (s.pgCount pg sel n).regs } := by
  rw [State.pgCount]
  split <;> rfl

/-- Counting changes registers only. -/
theorem State.count_eq_regs (s : State) (f : RField) (n : Nat) : s.count f n = { s with regs := (s.count f n).regs } := by
  obtain h | ⟨sel, h⟩ := s.count_eq f n <;> rw [h]
  · rfl
  · exact State.pgCount_eq_regs _ _ _ _

theorem State.count_flt (s : State) (f : RField) (n : Nat) : (s.count f n).flt = s.flt := by
  rw [State.count_eq_regs]

theorem State.count_hbm (s : State) (f : RField) (n : Nat) : (s.count f n).hbm = s.hbm := by
  rw [State.count_eq_regs]

/-- A vector is put out or kept pending, and nothing else changes. -/
theorem State.raiseVector_eq (s : State) (a v : Nat) :
    s.raiseVector a v = { s with out := (s.raiseVector a v).out, msix := (s.raiseVector a v).msix } := by
  simp only [State.raiseVector]
  split <;> rfl

/-- Raising vector 64 changes beside it only when it was raised last, and whether it is held. -/
theorem State.fltRaise_eq (s : State) : ∃ o m x, s.fltRaise = { s with out := o, msix := m, flt := x } := by
  have h : ∃ due : Bool, s.fltRaise =
      if due then { s.raiseVector (s.get F.FLT_Q_CFG_PORT) 64 with
        flt := { s.flt with lastRaise := some s.clk, raiseHeld := false } }
      else { s with flt := { s.flt with raiseHeld := true } } := ⟨_, rfl⟩
  obtain ⟨due, h⟩ := h
  rw [h]
  cases due with
  | false => exact ⟨_, _, _, rfl⟩
  | true =>
    rw [State.raiseVector_eq]
    exact ⟨_, _, _, rfl⟩

theorem State.fltRaise_reg (s : State) (a : Nat) : s.fltRaise.reg a = s.reg a := by
  obtain ⟨o, m, x, h⟩ := s.fltRaise_eq
  rw [h]
  rfl

theorem State.fltRaise_get (s : State) (g : RField) : s.fltRaise.get g = s.get g :=
  congrArg (fieldGet · g.hi g.lo) (s.fltRaise_reg g.addr)

/-- The bytes that engines see are those of HBM and of the copies of its lines. -/
theorem State.memByte_of_rep_hbm {s t : State} (hr : t.rep = s.rep) (hh : t.hbm = s.hbm) (a : Nat) :
    t.memByte a = s.memByte a := by
  refine State.memByte_congr ?_ ?_
  · rw [State.copied, State.ep, hr, State.copied, State.ep]
  · rw [State.hbmByte, hh, State.hbmByte]

theorem State.fltRaise_memByte (s : State) (a : Nat) : s.fltRaise.memByte a = s.memByte a := by
  obtain ⟨o, m, x, h⟩ := s.fltRaise_eq
  rw [h]
  exact State.memByte_of_rep_hbm rfl rfl a

theorem State.put_memByte (s : State) (f : RField) (v a : Nat) : (s.put f v).memByte a = s.memByte a :=
  State.memByte_of_rep_hbm (State.put_rep _ _ _) (State.put_hbm _ _ _) a

end

/-! #### The ring, the park table and the count of records lost -/

section
variable {s : State} {r : FaultRec}

theorem FaultRec.bytes_length (r : FaultRec) (phase : Nat) : (r.bytes phase).length = 64 := by
  simp [FaultRec.bytes]

/-- A ring holds at most 2^16 records (Table 18-7). -/
theorem State.fltN_le (s : State) : s.fltN ≤ 2 ^ 16 := by
  unfold State.fltN
  refine Nat.pow_le_pow_right (by decide) ?_
  split <;> omega

/-- Where the next record goes (R404). -/
def State.fltOff (s : State) : Nat :=
  s.get F.FLT_Q_BASE_BASE * 4096 + 64 * (s.get F.FLT_Q_IDX_TAIL % (2 * s.fltN) % s.fltN)

/-- The parity of the lap that TAIL is in (R404). -/
def State.fltPhase (s : State) : Nat := if s.get F.FLT_Q_IDX_TAIL % (2 * s.fltN) < s.fltN then 1 else 0

/-- A record that is written is the 64 bytes at its place, and nothing else that engines see. -/
theorem State.memByte_fltWrite (s : State) (r : FaultRec) (a : Nat) :
    (s.fltWrite r).memByte a =
      if s.fltOff ≤ a ∧ a < s.fltOff + 64 then (r.bytes s.fltPhase).getD (a - s.fltOff) 0 else s.memByte a := by
  have hl := r.bytes_length s.fltPhase
  have hmod : s.fltOff % 32 = 0 := by unfold State.fltOff; omega
  change ((((s.memRewrite (s.fltOff / 32) ((r.bytes s.fltPhase).take 32) false).memRewrite (s.fltOff / 32 + 1)
    ((r.bytes s.fltPhase).drop 32) false).put _ _).fltRaise).memByte a = _
  rw [State.fltRaise_memByte, State.put_memByte, State.memByte_memRewrite _ _ _ (by simp [hl]),
    State.memByte_memRewrite _ _ _ (by simp [hl])]
  generalize s.fltOff = off at *
  generalize r.bytes s.fltPhase = b at *
  simp only [List.getD_eq_getElem?_getD, List.getElem?_drop, List.getElem?_take]
  by_cases h2 : a / 32 = off / 32 + 1
  · rw [if_pos h2, if_pos (by omega), show 32 + a % 32 = a - off by omega]
  by_cases h1 : a / 32 = off / 32
  · rw [if_neg h2, if_pos h1, if_pos (by omega), if_pos (by omega), show a % 32 = a - off by omega]
  · rw [if_neg h2, if_neg h1, if_neg (by omega)]

/-- Writing a record moves TAIL and leaves every other register as it is. -/
theorem State.reg_fltWrite (s : State) (r : FaultRec) (a : Nat) :
    (s.fltWrite r).reg a =
      (s.put F.FLT_Q_IDX_TAIL ((s.get F.FLT_Q_IDX_TAIL % (2 * s.fltN) + 1) % (2 * s.fltN))).reg a := by
  rw [State.fltWrite, State.fltRaise_reg, State.reg_put, State.reg_put]
  simp only [State.memRewrite_reg]

theorem State.get_fltWrite (s : State) (r : FaultRec) (g : RField) :
    (s.fltWrite r).get g =
      (s.put F.FLT_Q_IDX_TAIL ((s.get F.FLT_Q_IDX_TAIL % (2 * s.fltN) + 1) % (2 * s.fltN))).get g :=
  congrArg (fieldGet · g.hi g.lo) (s.reg_fltWrite r g.addr)

/-- With room and nothing parked a record is written. -/
theorem State.fltEnter_of_room (hf : s.fltFull = false) (hp : s.flt.park = []) : s.fltEnter r = s.fltWrite r := by
  simp [State.fltEnter, State.writeOrDrop, hf, hp]

/-- A record of class TRANSACTION that meets a full queue or parked records is parked, or lost where the table is full. -/
theorem State.fltEnter_of_transaction (hc : r.cls = 2) (h : s.fltFull = true ∨ s.flt.park ≠ []) :
    s.fltEnter r = if s.flt.park.length < 1024 then s.setPark (s.flt.park ++ [r]) else s := by
  have hcond : (r.cls == 2 && (s.fltFull || !s.flt.park.isEmpty)) = true := by
    obtain h | h := h <;> simp [hc, h]
  simp only [State.fltEnter, hcond, if_true]

/-- A full queue has no room for a record behind the parked ones either. -/
theorem State.fltNoRoom_of_full (h : s.fltFull = true) : s.fltNoRoom = true := by
  unfold State.fltFull at h
  unfold State.fltNoRoom
  simp only [Bool.or_eq_true, decide_eq_true_eq] at h ⊢
  exact h.imp_right (fun h => by omega)

/-- Any other record that meets a full queue is dropped and counted. -/
theorem State.fltEnter_of_full (hc : r.cls ≠ 2) (h : s.fltFull = true) :
    s.fltEnter r = (s.count F.FLT_LOST_COUNT 1).putFlag F.FLT_STAT_OVERFLOW true := by
  simp [State.fltEnter, State.writeOrDrop, hc, h, State.fltNoRoom_of_full h]

theorem State.setPark_park (s : State) (p : List FaultRec) : (s.setPark p).flt.park = p := by
  rw [State.setPark, State.putFlag_flt, State.put_flt]

/-- The park table shows in FLT_STAT alone. -/
theorem State.get_setPark (s : State) (p : List FaultRec) (g : RField) (h : g.addr ≠ Reg.FLT_STAT) :
    (s.setPark p).get g = s.get g := by
  rw [State.setPark, State.putFlag, State.get_put_of_ne _ _ _ _ h, State.get_put_of_ne _ _ _ _ h]
  rfl

theorem State.get_lost_SEQ (s : State) :
    ((s.count F.FLT_LOST_COUNT 1).putFlag F.FLT_STAT_OVERFLOW true).get F.FLT_LOST_SEQ = s.get F.FLT_LOST_SEQ := by
  rw [State.putFlag, State.get_put_of_ne _ _ _ _ (by decide), State.get_count _ _ _ _ (by decide),
    State.get_put_of_apart _ _ _ _ (by decide) (by decide) (by decide)]

/-- What becomes of a record does not change SEQ (R406). -/
theorem State.get_fltEnter_SEQ (s : State) (r : FaultRec) : (s.fltEnter r).get F.FLT_LOST_SEQ = s.get F.FLT_LOST_SEQ := by
  simp only [State.fltEnter, State.writeOrDrop]
  split
  · split
    · exact State.get_setPark _ _ _ (by decide)
    · rfl
  · split
    · split
      · exact s.get_lost_SEQ
      · rw [State.get_fltWrite, State.get_put_of_ne _ _ _ _ (by decide)]
    · split
      · exact s.get_lost_SEQ
      · rfl

end

/-- Settles O14: the fault sets SEQ to the next value, and what becomes of the record leaves it. -/
theorem faultSequence : Obligations.FaultSequence := by
  intro s cls code t i x
  refine ⟨?_, _, _, rfl, rfl, rfl⟩
  rw [State.fault, State.get_fltEnter_SEQ, State.get_put_self _ _ _ (by decide) (by decide)]
  rfl

/-- Settles O15: a record is written, parked, or dropped and counted, each by the lemma about that outcome. -/
theorem faultRecordPlacement : Obligations.FaultRecordPlacement := by
  refine ⟨?_, ?_, ?_⟩
  · intro s r hf hp ht
    rw [State.fltEnter_of_room hf hp]
    have htail : s.get F.FLT_Q_IDX_TAIL % (2 * s.fltN) = s.get F.FLT_Q_IDX_TAIL := Nat.mod_eq_of_lt ht
    have hoff : s.get F.FLT_Q_BASE_BASE * 4096 + 64 * (s.get F.FLT_Q_IDX_TAIL % s.fltN) = s.fltOff := by
      rw [State.fltOff, htail]
    have hphase : (if s.get F.FLT_Q_IDX_TAIL < s.fltN then 1 else 0) = s.fltPhase := by
      rw [State.fltPhase, htail]
    rw [hoff, hphase]
    refine ⟨?_, ?_, fun a ha => ?_⟩
    · apply List.ext_getElem
      · simp [r.bytes_length]
      · intro k hk hb
        have hk' : k < 64 := by simpa using hk
        simp [State.memBytes, State.memByte_fltWrite, hb, hk']
    · have hn := s.fltN_le
      have hpos : 0 < 2 * s.fltN := by omega
      have hlt : (s.get F.FLT_Q_IDX_TAIL + 1) % (2 * s.fltN) < 2 ^ 17 :=
        Nat.lt_of_lt_of_le (Nat.mod_lt _ hpos) (by omega)
      rw [State.get_fltWrite, State.get_put_self _ _ _ (by decide) (by decide), htail]
      exact Nat.mod_eq_of_lt hlt
    · rw [State.memByte_fltWrite, if_neg (by omega)]
  · intro s r hc h
    rw [State.fltEnter_of_transaction hc h]
    split
    · exact ⟨State.setPark_park _ _, State.setPark_hbm _ _⟩
    · exact ⟨rfl, rfl⟩
  · intro s r hc h
    rw [State.fltEnter_of_full hc h]
    refine ⟨?_, State.flag_putFlag_self _ _ _ rfl (by decide), ?_, ?_⟩
    · have hlt : min F.FLT_LOST_COUNT.max (s.get F.FLT_LOST_COUNT + 1) < 2 ^ 32 :=
        Nat.lt_of_le_of_lt (Nat.min_le_left _ _) (by decide)
      rw [State.putFlag, State.get_put_of_ne _ _ _ _ (by decide), State.get_count _ _ _ _ (by decide),
        State.get_put_self _ _ _ (by decide) (by decide)]
      exact Nat.mod_eq_of_lt hlt
    · rw [State.putFlag_flt, State.count_flt]
    · rw [State.putFlag_hbm, State.count_hbm]

end Sys2Proof.Machine

/-! ### The fault queue, fences and notices, stand-in and rejoin (R405, R407, R413 to R422) -/

namespace Sys2Proof.Machine

/-- The first page of a block type from 12 to 18 (R461). -/
theorem pageOf_firstPage {t off : Nat} (ht : 12 ≤ t ∧ t ≤ 18) (ho : off < 0x1000) :
    pageOf (0x1000000 + 0x10000 * t + off) = some (t, 0, off) := by
  obtain ⟨hlo, hhi⟩ := ht
  refine pageOf_of_eq (pg := 16 * t) (by omega) ho (by omega) (by omega) (by omega) (by omega) (by omega) ?_
  interval_cases t <;> rfl

theorem pageOf_FLT_Q_IDX : pageOf Reg.FLT_Q_IDX = some (14, 0, 0x110) :=
  pageOf_firstPage (t := 14) (off := 0x110) (by decide) (by decide)

theorem pageOf_FLT_Q_HEADF : pageOf Reg.FLT_Q_HEADF = some (14, 0, 0x118) :=
  pageOf_firstPage (t := 14) (off := 0x118) (by decide) (by decide)

theorem pageOf_FLT_STANDIN : pageOf Reg.FLT_STANDIN = some (14, 0, 0x170) :=
  pageOf_firstPage (t := 14) (off := 0x170) (by decide) (by decide)

theorem pageOf_FLT_REJOIN : pageOf Reg.FLT_REJOIN = some (14, 0, 0x180) :=
  pageOf_firstPage (t := 14) (off := 0x180) (by decide) (by decide)

theorem pageOf_FLT_FENCE (k : Fin 2) : pageOf (Reg.FLT_FENCE k) = some (14, 0, 0x138 + 0x8 * k.val) := by
  have ha : Reg.FLT_FENCE k = 0x1000000 + 0x10000 * 14 + (0x138 + 0x8 * k.val) := by
    unfold Reg.FLT_FENCE
    omega
  rw [ha, pageOf_firstPage (by decide) (by omega)]

section
variable {data : Word} {aux : Option Nat} {s : State} {w : RegWrite}

theorem regHook_FLT_Q_IDX : regHook data aux 14 0 0x110 s w = s.takeWrite w := by simp [regHook, hookMidPages]

theorem regHook_FLT_Q_HEADF : regHook data aux 14 0 0x118 s w = s.takeWrite w := by simp [regHook, hookMidPages]

theorem regHook_FLT_STANDIN : regHook data aux 14 0 0x170 s w = hookStandin s w := by simp [regHook, hookMidPages]

theorem regHook_FLT_REJOIN : regHook data aux 14 0 0x180 s w = hookRejoin s w := by simp [regHook, hookMidPages]

theorem regHook_FLT_FENCE (k : Fin 2) : regHook data aux 14 0 (0x138 + 0x8 * k.val) s w = hookFltFence k s w := by
  obtain rfl | rfl : k = 0 ∨ k = 1 := by omega
  · simp [regHook, hookMidPages]
  · simp [regHook, hookMidPages]

/-- Each member named that may be fenced is, with a notice to it (R413). -/
theorem hookFltFence_of_all {k : Nat} {ms : List Nat} (hm : (setBitsList w.act.toNat 64).map (64 * k + ·) = ms)
    (hall : ms.all s.mayFence = true) :
    hookFltFence k s w = ms.foldl (fun (s : State) m => if s.fences m then s
      else
        let t := (s.noteFence true m).setReg (Reg.FLT_FENCE k) (BitVec.ofNat 64 (setBitAt (s.reg (Reg.FLT_FENCE k)).toNat (m % 64) true))
        t.routePip (t.notice 1 m 0 m)) s := by
  have hfilter : ms.filter s.mayFence = ms := List.filter_eq_self.mpr (List.all_eq_true.mp hall)
  simp only [hookFltFence, hm, hfilter, Nat.lt_irrefl, if_false]

/-- A member that may not be fenced is not, and the write counts as rejected (R413). -/
theorem hookFltFence_of_none {k m : Nat} (hm : (setBitsList w.act.toNat 64).map (64 * k + ·) = [m])
    (hno : s.mayFence m = false) : hookFltFence k s w = s.rejected 14 0 := by
  simp [hookFltFence, hm, hno]

/-- A ready spare with a token takes a member of its group (R418, R420). -/
theorem hookStandin_of_ready {t u v : State} {m : Nat} (hgo : w.newF F.FLT_STANDIN_GO = 1) (hm : w.newF F.FLT_STANDIN_MEMBER = m)
    (ht : s.takeWrite (w.setNew F.FLT_STANDIN_GO 0) = t) (hr : t.spareReady = true) (hb : t.flag F.FLT_STANDIN_BUSY = false)
    (hg : bitAt (t.reg (Reg.FLT_GROUP (m / 64))).toNat (m % 64) = true) (hk : t.get F.FLT_BUDGET_TOKENS ≠ 0)
    (hu : (t.put F.FLT_BUDGET_TOKENS (t.get F.FLT_BUDGET_TOKENS - 1)).putFlag F.FLT_STANDIN_BUSY true = u)
    (hv : (u.standinRecord m t.member false).routePip (u.notice 2 m t.member 0) = v) :
    hookStandin s w = { v with
      pip := { v.pip with hbStopped := true }
      flt := { v.flt with standin := .expelling m t.member } } := by
  simp only [hookStandin, hgo, hm, ht, State.orderStandin, hr, hb, hg, hk, hu, hv, Bool.not_true, Bool.or_self,
    Bool.false_eq_true, if_false, if_true]

theorem hookStandin_of_no_token {t : State} {m : Nat} (hgo : w.newF F.FLT_STANDIN_GO = 1) (hm : w.newF F.FLT_STANDIN_MEMBER = m)
    (ht : s.takeWrite (w.setNew F.FLT_STANDIN_GO 0) = t) (hr : t.spareReady = true) (hb : t.flag F.FLT_STANDIN_BUSY = false)
    (hg : bitAt (t.reg (Reg.FLT_GROUP (m / 64))).toNat (m % 64) = true) (hk : t.get F.FLT_BUDGET_TOKENS = 0) :
    hookStandin s w = t.put F.FLT_STANDIN_RESULT 0x10 := by
  simp only [hookStandin, hgo, hm, ht, State.orderStandin, hr, hb, hg, hk, Bool.not_true, Bool.or_self, Bool.false_eq_true,
    if_false, if_true]

/-- An aligned, absent device with a READY edition tells the domain root that it returns (R422). -/
theorem hookRejoin_of_ready {t : State} (hgo : w.newF F.FLT_REJOIN_GO = 1) (ha : s.flag F.TRN_STAT_ALIGNED = true)
    (hadm : s.admitted = false) (hed : s.flag (if s.edition = 1 then F.RTE_ED_READY1 else F.RTE_ED_READY0) = true)
    (hp : bitAt s.present s.member = false) (ht : s.routePip (s.notice 3 s.member 0 0) = t) :
    hookRejoin s w = { t with flt := { t.flt with rejoinAt := some t.clk } } := by
  simp only [hookRejoin, hgo, ha, hadm, hed, hp, ht, Bool.not_true, Bool.or_self, Bool.false_eq_true, if_false, Nat.one_ne_zero]

theorem hookRejoin_of_admitted (hgo : w.newF F.FLT_REJOIN_GO = 1) (hadm : s.admitted = true) :
    hookRejoin s w = s.put F.FLT_REJOIN_RESULT 0x23 := by
  simp [hookRejoin, hgo, hadm]

end

/-! #### Parked records and held vectors -/

section
variable {s : State}

theorem State.parkStep_of_room {r : FaultRec} {p : List FaultRec} (hp : s.flt.park = r :: p) (hf : s.fltFull = false) :
    s.parkStep = ((s.setPark p).fltWrite r).enterWaiting := by
  simp only [State.parkStep, hp, hf, Bool.false_eq_true, if_false]

/-- The oldest parked record enters the ring where it has room, one in a turn (R407). -/
theorem State.doParkDrain_of_room {r : FaultRec} {p : List FaultRec} (hp : s.flt.park = r :: p) (hf : s.fltFull = false)
    (ht : s.flt.parkedAt ≠ some s.clk) :
    s.doParkDrain = ((({ s with flt := { s.flt with parkedAt := some s.clk } } : State).setPark p).fltWrite r).enterWaiting := by
  have hturn : (s.flt.parkedAt == some s.clk) = false := beq_eq_false_iff_ne.mpr ht
  have hgo : (s.flt.park.isEmpty || s.fltFull || s.flt.parkedAt == some s.clk) = false := by
    rw [hp, hf, hturn]
    rfl
  rw [State.doParkDrain, hgo]
  exact (if_neg Bool.false_ne_true).trans (State.parkStep_of_room hp hf)

theorem State.doParkDrain_of_drained (ht : s.flt.parkedAt = some s.clk) : s.doParkDrain = s := by
  simp [State.doParkDrain, ht]

/-- After COAL turns a held vector is raised if records remain (R405). -/
theorem State.doVectorCoalesceExpire_of_records {t : Nat} (hl : s.flt.lastRaise = some t) (hh : s.flt.raiseHeld = true)
    (hd : t + s.get F.FLT_Q_CFG_COAL ≤ s.clk)
    (hne : s.get F.FLT_Q_IDX_HEAD_H % (2 * s.fltN) ≠ s.get F.FLT_Q_IDX_TAIL % (2 * s.fltN)) :
    s.doVectorCoalesceExpire = ({ s with flt := { s.flt with raiseHeld := false } } : State).fltRaise := by
  simp only [State.doVectorCoalesceExpire, hl, hh, hd, hne, decide_true, Bool.and_self, if_true, if_false]

theorem State.doVectorCoalesceExpire_of_none {t : Nat} (hl : s.flt.lastRaise = some t) (hh : s.flt.raiseHeld = true)
    (hd : t + s.get F.FLT_Q_CFG_COAL ≤ s.clk)
    (heq : s.get F.FLT_Q_IDX_HEAD_H % (2 * s.fltN) = s.get F.FLT_Q_IDX_TAIL % (2 * s.fltN)) :
    s.doVectorCoalesceExpire = { s with flt := { s.flt with raiseHeld := false } } := by
  simp only [State.doVectorCoalesceExpire, hl, hh, hd, heq, decide_true, Bool.and_self, if_true]

/-! #### Notices -/

/-- A fence notice names its sender in FLT_FENCED_BY and is recorded (R414). -/
theorem State.doFenceNoticeReceive_of_new {t u : State} {f : PipFrame} {r : Nat} (hn : s.takeNotice 1 = some (f, t))
    (hr : Reg.FLT_FENCED_BY (f.srcMember / 64) = r) (hb : bitAt (t.reg r).toNat (f.srcMember % 64) = false)
    (hu : t.noteFence false f.srcMember = u) :
    s.doFenceNoticeReceive = (u.setReg r (BitVec.ofNat 64 (setBitAt (u.reg r).toNat (f.srcMember % 64) true))).fault 6 0x0062 14 0
      { peer := devicePeer f.srcDomain f.srcMember, detail0 := f.srcMember } := by
  subst hr
  simp only [State.doFenceNoticeReceive, hn, hb, hu, Bool.false_eq_true, if_false]

/-- The notice of an expulsion opens the window for the member's return, and marks a present member absent (R416). -/
theorem State.doStandinNoticeReceive_of_expelled {t : State} {f : PipFrame} {m : Nat} (hn : s.takeNotice 2 = some (f, t))
    (hm : bytesAt f.data 1 1 % 128 = m) (hne : (bytesAt f.data 1 1 != bytesAt f.data 2 1) = true)
    (hp : bitAt (t.openReturn m).present m = true) : s.doStandinNoticeReceive = State.markAbsent 128 (t.openReturn m) m := by
  simp only [State.doStandinNoticeReceive, hn, hm, hne, hp, Bool.and_self, if_true]

/-- A refresh opens the window only (R416). -/
theorem State.doStandinNoticeReceive_of_refresh {t : State} {f : PipFrame} (hn : s.takeNotice 2 = some (f, t))
    (heq : bytesAt f.data 1 1 = bytesAt f.data 2 1) : s.doStandinNoticeReceive = t.openReturn (bytesAt f.data 1 1 % 128) := by
  have hne : (bytesAt f.data 1 1 != bytesAt f.data 2 1) = false := by simp [heq]
  simp only [State.doStandinNoticeReceive, hn, hne, Bool.false_and, Bool.false_eq_true, if_false]

theorem State.doRejoinNoticeReceive_of_no_claim {t : State} {f : PipFrame} {m : Nat} (hn : s.takeNotice 3 = some (f, t))
    (hm : bytesAt f.data 1 1 % 128 = m) (hc : (t.openReturn m).pip.claims.find? (fun r => r.2 == m) = none) :
    s.doRejoinNoticeReceive = t.openReturn m := by
  simp only [State.doRejoinNoticeReceive, hn, hm, hc]

/-- A parent's report of the member's return is accepted with the notice (R53, R422). -/
theorem State.doRejoinNoticeReceive_of_claim {t : State} {f : PipFrame} {m parent : Nat} (hn : s.takeNotice 3 = some (f, t))
    (hm : bytesAt f.data 1 1 % 128 = m) (hc : (t.openReturn m).pip.claims.find? (fun r => r.2 == m) = some (parent, m)) :
    s.doRejoinNoticeReceive = (t.openReturn m).rootReport parent m true := by
  simp only [State.doRejoinNoticeReceive, hn, hm, hc]

/-! #### Stand-in, its budget and rejoin -/

/-- Once the member shows absent the spare takes its number, and near ports train again (R418). -/
theorem State.doStandinTakeNumber_of_absent {t : State} {m prev : Nat} (hst : s.flt.standin = .expelling m prev)
    (hp : bitAt s.present m = false) (ht : (s.put F.MGT_ID_MEMBER m).dueSticky.retrainNear = t) :
    s.doStandinTakeNumber = { t.sendSubtree t.domain with flt := { t.flt with standin := .admitting m prev } } := by
  simp only [State.doStandinTakeNumber, hst, hp, ht, Bool.false_eq_true, if_false]

/-- After ADMIT the refresh notice goes out, and heartbeats go on (R418). -/
theorem State.doStandinRefresh_of_admitted {t : State} {m prev : Nat} (hst : s.flt.standin = .admitting m prev)
    (ha : s.admitted = true) (ht : s.routePip (s.notice 2 m m 0) = t) :
    s.doStandinRefresh = { t with
      pip := { t.pip with hbStopped := t.flag F.TRN_STAT_SYNC_LOST || t.up.detachAt.isSome }
      flt := { t.flt with standin := .refreshing m prev } } := by
  simp only [State.doStandinRefresh, hst, ha, ht, if_true]

theorem State.doRejoinTimeout_of_late {t : Nat} (hr : s.flt.rejoinAt = some t) (hl : t + rejoinLimit ≤ s.clk) :
    s.doRejoinTimeout = { s.put F.FLT_REJOIN_RESULT 0x14 with flt := { s.flt with rejoinAt := none } } := by
  simp only [State.doRejoinTimeout, hr, hl, if_true]

/-- Every REFILL turns one token more, up to CAP (R420). -/
theorem State.doBudgetRefill_of_due (hd : s.flt.lastRefill + s.get F.FLT_BUDGET_REFILL ≤ s.clk) :
    s.doBudgetRefill = { s.put F.FLT_BUDGET_TOKENS (min s.tokenCap (s.get F.FLT_BUDGET_TOKENS + 1)) with
      flt := { s.flt with lastRefill := s.flt.lastRefill + s.get F.FLT_BUDGET_REFILL } } := by
  simp only [State.doBudgetRefill, hd, if_true]

/-- A fence binds from the turn after its own (R413, R414). -/
theorem State.isFenced_iff {m : Nat} : s.isFenced m = true ↔
    (bitAt (s.reg (Reg.FLT_FENCE (m / 64))).toNat (m % 64) = true ∧ (true, m, s.clk) ∉ s.flt.newFences) ∨
    (bitAt (s.reg (Reg.FLT_FENCED_BY (m / 64))).toNat (m % 64) = true ∧ (false, m, s.clk) ∉ s.flt.newFences) := by
  simp [State.isFenced]

end

/-- Settles O50: the queue's heads by their registers' plain rule, the rest by its effect. -/
theorem faultQueueCommandsComplete : Obligations.FaultQueueCommandsComplete := by
  refine ⟨?_, ?_, ?_, ?_, ?_, ?_⟩
  · intro s r p hs hp hf ht
    exact runCmd_of_eq hs (State.doParkDrain_of_room (s := s.fresh) hp hf ht)
  · intro s hs ht
    exact runCmd_of_eq hs (State.doParkDrain_of_drained (s := s.fresh) ht)
  · intro s p data hs ho
    exact runCmd_pathWrite_of_open hs ho pageOf_FLT_Q_IDX regHook_FLT_Q_IDX
  · intro s p data hs ho
    exact runCmd_pathWrite_of_open hs ho pageOf_FLT_Q_HEADF regHook_FLT_Q_HEADF
  · intro s t hs hl hh hd hne
    exact runCmd_of_eq hs (State.doVectorCoalesceExpire_of_records (s := s.fresh) hl hh hd hne)
  · intro s t hs hl hh hd heq
    exact runCmd_of_eq hs (State.doVectorCoalesceExpire_of_none (s := s.fresh) hl hh hd heq)

/-- Settles O51: the fence register by its rule, a notice by the effect of receiving it. -/
theorem fenceAndNoticeCommandsComplete : Obligations.FenceAndNoticeCommandsComplete := by
  refine ⟨?_, ?_, ?_, ?_, ?_, ?_, ?_, ?_⟩
  · intro s p k data ms hs ho hm hall
    exact runCmd_pathWrite_of_open hs ho (pageOf_FLT_FENCE k)
      ((regHook_FLT_FENCE k).trans (hookFltFence_of_all (s := s.fresh) hm hall))
  · intro s p k data m hs ho hm hno
    exact runCmd_pathWrite_of_open hs ho (pageOf_FLT_FENCE k)
      ((regHook_FLT_FENCE k).trans (hookFltFence_of_none (s := s.fresh) hm hno))
  · intro s t u f r hs hn hr hb hu
    exact runCmd_of_eq hs (State.doFenceNoticeReceive_of_new hn hr hb hu)
  · intro s m _ hf
    exact State.isFenced_iff.mp hf
  · intro s t f m hs hn hm hne hp
    exact runCmd_of_eq hs (State.doStandinNoticeReceive_of_expelled hn hm hne hp)
  · intro s t f hs hn heq
    exact runCmd_of_eq hs (State.doStandinNoticeReceive_of_refresh hn heq)
  · intro s t f m hs hn hm hc
    exact runCmd_of_eq hs (State.doRejoinNoticeReceive_of_no_claim hn hm hc)
  · intro s t f m parent hs hn hm hc
    exact runCmd_of_eq hs (State.doRejoinNoticeReceive_of_claim hn hm hc)

/-- Settles O52: STANDIN and REJOIN by their registers' rules, the rest by its effect. -/
theorem standinAndRejoinCommandsComplete : Obligations.StandinAndRejoinCommandsComplete := by
  refine ⟨?_, ?_, ?_, ?_, ?_, ?_, ?_, ?_⟩
  · rintro s t u v p data _ m hs ho rfl hgo hm ht hr hb hg hk hu hv
    exact runCmd_pathWrite_of_open hs ho pageOf_FLT_STANDIN
      (regHook_FLT_STANDIN.trans (hookStandin_of_ready hgo hm ht hr hb hg hk hu hv))
  · rintro s t p data _ m hs ho rfl hgo hm ht hr hb hg hk
    exact runCmd_pathWrite_of_open hs ho pageOf_FLT_STANDIN
      (regHook_FLT_STANDIN.trans (hookStandin_of_no_token hgo hm ht hr hb hg hk))
  · intro s t m prev hs hst hp ht
    exact runCmd_of_eq hs (State.doStandinTakeNumber_of_absent (s := s.fresh) hst hp ht)
  · intro s t m prev hs hst ha ht
    exact runCmd_of_eq hs (State.doStandinRefresh_of_admitted (s := s.fresh) hst ha ht)
  · intro s t p data hs ho hgo ha hadm hed hp ht
    exact runCmd_pathWrite_of_open hs ho pageOf_FLT_REJOIN
      (regHook_FLT_REJOIN.trans (hookRejoin_of_ready (s := s.fresh) hgo ha hadm hed hp ht))
  · intro s p data hs ho hgo hadm
    exact runCmd_pathWrite_of_open hs ho pageOf_FLT_REJOIN
      (regHook_FLT_REJOIN.trans (hookRejoin_of_admitted (s := s.fresh) hgo hadm))
  · intro s t hs hr hl
    exact runCmd_of_eq hs (State.doRejoinTimeout_of_late (s := s.fresh) hr hl)
  · intro s hs hd
    exact runCmd_of_eq hs (State.doBudgetRefill_of_due (s := s.fresh) hd)

end Sys2Proof.Machine

/-! ### The lock, bound sets and burnish (R357, R358, R362 to R373) -/

namespace Sys2Proof.Machine

theorem pageOf_SEC_LOCK : pageOf Reg.SEC_LOCK = some (13, 0, 0x108) :=
  pageOf_firstPage (t := 13) (off := 0x108) (by decide) (by decide)

theorem pageOf_SEC_BURN : pageOf Reg.SEC_BURN = some (13, 0, 0x148) :=
  pageOf_firstPage (t := 13) (off := 0x148) (by decide) (by decide)

theorem pageOf_SEC_BS_CMD : pageOf Reg.SEC_BS_CMD = some (13, 0, 0x158) :=
  pageOf_firstPage (t := 13) (off := 0x158) (by decide) (by decide)

section
variable {data : Word} {aux : Option Nat} {s : State} {w : RegWrite}

theorem regHook_SEC_LOCK : regHook data aux 13 0 0x108 s w = hookSecLock s w := by simp [regHook, hookMidPages]

theorem regHook_SEC_BURN : regHook data aux 13 0 0x148 s w = hookSecBurn s w := by simp [regHook, hookMidPages]

theorem regHook_SEC_BS_CMD : regHook data aux 13 0 0x158 s w = hookBsCmd s w := by simp [regHook, hookMidPages]

/-- A 1 sets the lock; the first one closes the JTAG port to its non-public instructions (R357, R358). -/
theorem hookSecLock_of_lock (h : w.actF F.SEC_LOCK_LOCK = 1) :
    hookSecLock s w = (if s.flag F.SEC_LOCK_LOCK then s else s.emit .jtagLocked).putFlag F.SEC_LOCK_LOCK true := by
  rw [hookSecLock, if_pos h]

/-- LOAD of an EMPTY entry begins to load the image that SEC_BS_SRC names (R365). -/
theorem hookBsCmd_of_load {e : Nat} (ho : w.actF F.SEC_BS_CMD_OP = 1) (he : w.actF F.SEC_BS_CMD_ENTRY = e)
    (hst : s.get (F.SEC_BS_ENT_A_STATE e) = 0) :
    hookBsCmd s w = ({ s with sec := { s.sec with
      loading := s.sec.loading ++ [(e, s.get F.SEC_BS_SRC_BASE * 4096)] } } : State).put (F.SEC_BS_ENT_A_STATE e) 1 := by
  simp only [hookBsCmd, ho, he, hst, if_true, ne_eq, not_true_eq_false, if_false]

theorem hookBsCmd_of_busy {e : Nat} (ho : w.actF F.SEC_BS_CMD_OP = 1) (he : w.actF F.SEC_BS_CMD_ENTRY = e)
    (hst : s.get (F.SEC_BS_ENT_A_STATE e) ≠ 0) : hookBsCmd s w = s.put (F.SEC_BS_ENT_A_RESULT e) 6 := by
  simp only [hookBsCmd, ho, he, hst, if_true, ne_eq, not_false_eq_true]

/-- UNLOAD erases a LOADED entry that has no users; one that has some is UNLOADING (R369). -/
theorem hookBsCmd_of_unload {e : Nat} (ho : w.actF F.SEC_BS_CMD_OP = 2) (he : w.actF F.SEC_BS_CMD_ENTRY = e)
    (hst : s.get (F.SEC_BS_ENT_A_STATE e) = 2) :
    hookBsCmd s w = if s.get (F.SEC_BS_ENT_A_USERS e) = 0 then s.eraseSet e else s.put (F.SEC_BS_ENT_A_STATE e) 3 := by
  simp [hookBsCmd, ho, he, hst]

/-- START starts burnish where none runs (R370). -/
theorem hookSecBurn_of_start {t : State} (hstart : w.actF F.SEC_BURN_START = 1) (ha : s.flag F.SEC_BURN_ACTIVE = false)
    (ht : ((List.range 16).foldl State.burnAttach
      (((s.clearAdmit.discardArray.dropMailboxes.resetCores).colResignAll 1).setActive []).loseStandin).dropFrames = t) :
    hookSecBurn s w = { t.putFlag F.SEC_BURN_ACTIVE true with
      rep := {}
      msg := {}
      sec := { t.sec with
        burnStart := some t.clk
        burnStep := 1
        burnReadback := true } } := by
  rw [hookSecBurn, if_pos ⟨hstart, ha⟩]
  simp only [State.burnStartNow, ht]

/-- While burnish runs START is ignored (R370). -/
theorem hookSecBurn_of_active (ha : s.flag F.SEC_BURN_ACTIVE = true) : hookSecBurn s w = s := by
  simp [hookSecBurn, ha]

end

/-- With the lock set the JTAG port runs its public instructions alone (R358). -/
theorem State.jtagRuns_of_lock (s : State) (i : JtagInstr) :
    (s.putFlag F.SEC_LOCK_LOCK true).jtagRuns i = (i != .nonPublic) := by
  rw [State.jtagRuns, State.flag_putFlag_self _ _ _ rfl (by decide), Bool.not_true, Bool.or_false]

section
variable {s : State}

/-- An image whose checks are made is LOADED, or leaves its entry EMPTY with the result of the check it failed (R365). -/
theorem State.doBoundSetLoadDone_of_loading {e : Fin 8} {base : Nat} (ho : s.hbmOpen = true)
    (hl : s.sec.loading.find? (fun x => x.1 == e.val) = some (e.val, base)) :
    s.doBoundSetLoadDone e =
      (match ({ s with sec := { s.sec with loading := s.sec.loading.filter (fun x => x.1 != e.val) } } : State).bsetCheck base with
        | (r, none, t) => (t.put (F.SEC_BS_ENT_A_STATE e) 0).put (F.SEC_BS_ENT_A_RESULT e) r
        | (r, some (b, hash), t) =>
          let u := (List.range 6).foldl (fun (s : State) k => s.setReg (Reg.SEC_BS_HASH e k) (BitVec.ofNat 64 (hash.toNat / 2 ^ (64 * k))))
            { t with sec := { t.sec with sets := t.sec.sets ++ [(e.val, b)] } }
          ((((((u.put (F.SEC_BS_ENT_A_STATE e) 2).put (F.SEC_BS_ENT_A_RESULT e) r).put (F.SEC_BS_ENT_A_SLICE e) u.slice).put
            (F.SEC_BS_ENT_A_OPS e) (bytesAt b.header 12 4)).put (F.SEC_BS_ENT_A_USERS e) 0).put
            (F.SEC_BS_ENT_B_CHUNKS e) (bytesAt b.header 16 8 / 4096)).put
            (F.SEC_BS_ENT_B_BASE e) ((base + bsetContent (bytesAt b.header 6 2)) / 4096)) := by
  have hf : s.sec.loading.find? (fun x => x.1 == e.val && s.hbmOpen) = some (e.val, base) := by
    simpa only [ho, Bool.and_true] using hl
  simp only [State.doBoundSetLoadDone, State.bsetLoadDone, hf]
  generalize State.bsetCheck _ base = x
  obtain ⟨r, _ | ⟨b, hash⟩, t⟩ := x
  · rfl
  · rfl

/-- 2,500 turns after its start burnish has new salts, the key map on slot 0 and no bound set, and begins the fill (R370, Table
16-5). -/
theorem State.doBurnishDiscardDone_of_due {t u : State} (hstep : s.sec.burnStep = 1) (hage : 2500 ≤ s.burnAge)
    (ht : (List.range 16).foldl (fun (s : State) n => s.put (F.HBM_SLOT_STAT_REFS n) (if n = 0 then regionCount else 0))
      (State.newSalts 16 s.endSweep) = t)
    (hu : (List.range 8).foldl State.eraseSet
      { t with
        hbm := { t.hbm with
          keyMap := []
          fillDone := false }
        sec := { t.sec with
          burnStep := 2
          loading := []
          sets := [] } } = u) :
    s.doBurnishDiscardDone =
      u.startSweep { first := 0, last := regionCount - 1, fill := true, all := true, newSlot := 0, kind := 2 } := by
  have hdue : ¬(s.sec.burnStep ≠ 1 ∨ s.burnAge < 2500) := by omega
  rw [State.doBurnishDiscardDone, if_neg hdue]
  simp only [ht, hu]

theorem State.doBurnishReadback_of_step {z : Bool} (hstep : s.sec.burnStep = 2) :
    s.doBurnishReadback z = { s with sec := { s.sec with
      burnStep := 3
      burnReadback := z } } := by
  rw [State.doBurnishReadback, if_neg (not_not.mpr hstep)]

/-- Burnish can end: its fill is complete, its read-back made and firmware tried (R373). -/
structure State.BurnDone (s : State) : Prop where
  step : s.sec.burnStep = 3
  fill : s.hbm.fillDone = true
  firmware : s.up.firmwareTried = true

theorem State.BurnDone.not_waiting (h : s.BurnDone) :
    ¬(s.sec.burnStep ≠ 3 ∨ s.hbm.fillDone = false ∨ s.up.firmwareTried = false) := by
  simp [h.step, h.fill, h.firmware]

/-- A burnish whose read-back is zero passes, unless one has failed before, and leaves the slice free (R371, R373). -/
theorem State.doBurnishEnd_of_pass {t : State} (h : s.BurnDone) (hz : s.sec.burnReadback = true)
    (hr : s.get F.SEC_BURN_RESULT ≠ 2)
    (ht : (((s.burnRegs.disarm.putFlag F.SEC_BURN_ACTIVE false).put F.SEC_BURN_RESULT 1).put F.SEC_BURN_COUNT
      (min 65535 (s.get F.SEC_BURN_COUNT + 1))).put F.SEC_BURN_LAST_TURNS (min (2 ^ 32 - 1) s.burnAge) = t) :
    s.doBurnishEnd = (List.range 16).foldl (fun (s : State) a => (s.putFlag (F.ATT_SEC_RRS a) false).flushVectors a)
      { t with sec := { t.sec with
        burnStep := 0
        sliceFree := true } } := by
  have hpass : (s.get F.SEC_BURN_RESULT != 2) = true := bne_iff_ne.mpr hr
  rw [State.doBurnishEnd, if_neg h.not_waiting]
  simp only [hz, hpass, Bool.and_self, if_true, ht, Bool.or_true]

/-- A read-back that failed gives RESULT FAIL and a record of class OUT_OF_SERVICE (R373). -/
theorem State.doBurnishEnd_of_fail {t u : State} (h : s.BurnDone) (hz : s.sec.burnReadback = false)
    (ht : (((s.burnRegs.disarm.putFlag F.SEC_BURN_ACTIVE false).put F.SEC_BURN_RESULT 2).put F.SEC_BURN_COUNT
      (min 65535 (s.get F.SEC_BURN_COUNT + 1))).put F.SEC_BURN_LAST_TURNS (min (2 ^ 32 - 1) s.burnAge) = t)
    (hu : (List.range 16).foldl (fun (s : State) a => (s.putFlag (F.ATT_SEC_RRS a) false).flushVectors a)
      { t with sec := { t.sec with burnStep := 0 } } = u) :
    s.doBurnishEnd = u.fault 5 0x0041 13 0 { detail0 := (u.reg Reg.SEC_BURN).toNat } := by
  rw [State.doBurnishEnd, if_neg h.not_waiting]
  simp only [hz, Bool.false_and, Bool.false_eq_true, if_false, ht, Bool.or_false, hu]

end

/-- Settles O46: SEC_LOCK and SEC_BS_CMD by their registers' rules, what is loaded by the effect of the checks. -/
theorem lockAndBoundSetCommandsComplete : Obligations.LockAndBoundSetCommandsComplete := by
  refine ⟨?_, ?_, ?_, ?_, ?_, ?_⟩
  · intro s p data hs ho hl
    exact runCmd_pathWrite_of_open hs ho pageOf_SEC_LOCK (regHook_SEC_LOCK.trans (hookSecLock_of_lock (s := s.fresh) hl))
  · exact State.jtagRuns_of_lock
  · intro s p data e hs ho hop he hst
    exact runCmd_pathWrite_of_open hs ho pageOf_SEC_BS_CMD
      (regHook_SEC_BS_CMD.trans (hookBsCmd_of_load (s := s.fresh) hop he hst))
  · intro s p data e hs ho hop he hst
    exact runCmd_pathWrite_of_open hs ho pageOf_SEC_BS_CMD
      (regHook_SEC_BS_CMD.trans (hookBsCmd_of_busy (s := s.fresh) hop he hst))
  · intro s e base hs ho hl
    exact runCmd_of_eq hs (State.doBoundSetLoadDone_of_loading (s := s.fresh) ho hl)
  · intro s p data e hs ho hop he hst
    exact runCmd_pathWrite_of_open hs ho pageOf_SEC_BS_CMD
      (regHook_SEC_BS_CMD.trans (hookBsCmd_of_unload (s := s.fresh) hop he hst))

/-- Settles O47: START by its register's rule, each later step of Table 16-5 by its effect. -/
theorem burnishCommandsComplete : Obligations.BurnishCommandsComplete := by
  refine ⟨?_, ?_, ?_, ?_, ?_, ?_⟩
  · intro s t p data hs ho hstart ha ht
    exact runCmd_pathWrite_of_open hs ho pageOf_SEC_BURN
      (regHook_SEC_BURN.trans (hookSecBurn_of_start (s := s.fresh) hstart ha ht))
  · intro s p data hs ho ha
    exact runCmd_pathWrite_of_open hs ho pageOf_SEC_BURN (regHook_SEC_BURN.trans (hookSecBurn_of_active (s := s.fresh) ha))
  · intro s t u hs hstep hage ht hu
    exact runCmd_of_eq hs (State.doBurnishDiscardDone_of_due (s := s.fresh) hstep hage ht hu)
  · intro s z hs hstep
    exact runCmd_of_eq hs (State.doBurnishReadback_of_step (s := s.fresh) hstep)
  · intro s t hs hstep hfill hfw hz hr ht
    exact runCmd_of_eq hs (State.doBurnishEnd_of_pass (s := s.fresh) ⟨hstep, hfill, hfw⟩ hz hr ht)
  · intro s t u hs hstep hfill hfw hz ht hu
    exact runCmd_of_eq hs (State.doBurnishEnd_of_fail (s := s.fresh) ⟨hstep, hfill, hfw⟩ hz ht hu)

end Sys2Proof.Machine

/-! ### Crossings and counterproof (R389, R391, R393 to R398) -/

namespace Sys2Proof.Machine

section
variable {s : State}

/-- An attempt whose samples all pass pins depths and digest, and the device is aligned (R36, R389). -/
theorem State.doAlignmentAttempt_of_pass {t : State} {depths d : List (Option (Fin 16))} {a k : Nat} {raw : List Nat}
    (ha : s.pip.alignAt = some a) (hk : s.get F.TRN_CDC_STAT_ATTEMPTS = k) (hd : s.flag F.TRN_CDC_STAT_DONE = false)
    (hf : s.flag F.TRN_CDC_STAT_FAILED = false) (h8 : k < 8) (hclk : a + 1000 * k + 272 ≤ s.clk)
    (hds : sliceD none depths 0 204 = d) (hall : (List.range 204).find? (fun i => !cdcPasses i (d.getD i none)) = none)
    (hraw : d.map (fun x => match x with | some y => y.val | none => 0) = raw)
    (ht : (List.range 13).foldl (fun (s : State) j => s.setReg (Reg.TRN_CDC_DEPTH j)
      (BitVec.ofNat 64 ((sliceD 0 raw (16 * j) 16).foldr (fun n v => v * 16 + n) 0))) (s.put F.TRN_CDC_STAT_ATTEMPTS (k + 1)) = t) :
    s.doAlignmentAttempt depths =
      (let u := (((t.put F.TRN_CDC_STAT_DIGEST (crc32 (raw.map (fun n => BitVec.ofNat 8 n)))).put
          F.TRN_CDC_STAT_FIRST_BAD 0xFF).putFlag F.TRN_CDC_STAT_DONE true).putFlag F.TRN_STAT_ALIGNED true
       ({ u with pip := { u.pip with badOffsets := 0 } } : State).rootSelf) := by
  have hdue : decide (8 ≤ k ∨ s.clk < a + 1000 * k + 272) = false := decide_eq_false (by omega)
  subst hraw
  subst ht
  simp only [State.doAlignmentAttempt, ha, hk, hd, hf, hdue, hds, hall, Bool.or_self, Bool.false_eq_true, if_false] <;>
    rfl

/-- The first crossing that fails is named, and attempts go on up to the eighth (R389). -/
theorem State.doAlignmentAttempt_of_fail {depths : List (Option (Fin 16))} {a k i : Nat} (ha : s.pip.alignAt = some a)
    (hk : s.get F.TRN_CDC_STAT_ATTEMPTS = k) (hd : s.flag F.TRN_CDC_STAT_DONE = false)
    (hf : s.flag F.TRN_CDC_STAT_FAILED = false) (h7 : k < 7) (hclk : a + 1000 * k + 272 ≤ s.clk)
    (hi : (List.range 204).find? (fun i => !cdcPasses i ((sliceD none depths 0 204).getD i none)) = some i) :
    s.doAlignmentAttempt depths = (s.put F.TRN_CDC_STAT_ATTEMPTS (k + 1)).put F.TRN_CDC_STAT_FIRST_BAD i := by
  have hdue : decide (8 ≤ k ∨ s.clk < a + 1000 * k + 272) = false := decide_eq_false (by omega)
  simp only [State.doAlignmentAttempt, ha, hk, hd, hf, hdue, hi, h7, Bool.or_self, Bool.false_eq_true, if_false, if_true]

/-- A slip of a pinned crossing poisons what it damaged, and time is lost (R391). -/
theorem State.doCdcSlip_of_done {crossing : Fin 204} {damaged : List (Nat × Nat)} (hd : s.flag F.TRN_CDC_STAT_DONE = true) :
    s.doCdcSlip crossing damaged = (damaged.foldl (fun (s : State) d => s.slipDamage crossing d)
      (s.putFlag F.TRN_CDC_STAT_SLIP true)).loseTime.fault 5 0x0032 12 0 { detail0 := crossing } := by
  simp only [State.doCdcSlip, hd, Bool.not_true, Bool.false_eq_true, if_false]

end

/-- Settles O48: an attempt by whether its crossings pass, a slip by its effect. -/
theorem crossingCommandsComplete : Obligations.CrossingCommandsComplete := by
  refine ⟨?_, ?_, ?_⟩
  · intro s t depths d a k raw hs ha hk hd hf h8 hclk hds hall hraw ht
    exact runCmd_of_eq hs (State.doAlignmentAttempt_of_pass (s := s.fresh) ha hk hd hf h8 hclk hds hall hraw ht)
  · intro s depths a k i hs ha hk hd hf h7 hclk hi
    exact runCmd_of_eq hs (State.doAlignmentAttempt_of_fail (s := s.fresh) ha hk hd hf h7 hclk hi)
  · intro s crossing damaged hs hd
    exact runCmd_of_eq hs (State.doCdcSlip_of_done (s := s.fresh) hd)

theorem pageOf_TWN_CTL : pageOf Reg.TWN_CTL = some (18, 0, 0x100) :=
  pageOf_firstPage (t := 18) (off := 0x100) (by decide) (by decide)

theorem pageOf_TWN_REL : pageOf Reg.TWN_REL = some (18, 0, 0x150) :=
  pageOf_firstPage (t := 18) (off := 0x150) (by decide) (by decide)

section
variable {data : Word} {aux : Option Nat} {s : State} {w : RegWrite}

theorem regHook_TWN_CTL : regHook data aux 18 0 0x100 s w = hookTwnCtl s w := by simp [regHook, hookLatePages]

theorem regHook_TWN_REL : regHook data aux 18 0 0x150 s w = hookTwnRel s w := by simp [regHook, hookLatePages]

/-- EN set with a START_TURN still to come begins a pairing (R393). -/
theorem hookTwnCtl_of_begin (hold : w.oldF F.TWN_CTL_EN = 0) (hnew : w.newF F.TWN_CTL_EN = 1)
    (hm : s.get F.TWN_START_START_TURN % 1024 = 0) (ht : s.now < s.get F.TWN_START_START_TURN) :
    hookTwnCtl s w = s.twnBegin w := by
  simp only [hookTwnCtl, hold, hnew]
  exact if_pos ⟨hm, ht⟩

theorem hookTwnCtl_of_late (hold : w.oldF F.TWN_CTL_EN = 0) (hnew : w.newF F.TWN_CTL_EN = 1)
    (ht : s.get F.TWN_START_START_TURN ≤ s.now) : hookTwnCtl s w = s.twnRejected := by
  simp only [hookTwnCtl, hold, hnew]
  exact if_neg fun h => Nat.not_lt.mpr ht h.2

theorem hookTwnCtl_of_end (hold : w.oldF F.TWN_CTL_EN = 1) (hnew : w.newF F.TWN_CTL_EN = 0) : hookTwnCtl s w = s.twnEnd w := by
  simp only [hookTwnCtl, hold, hnew]

/-- A multiple of 16 at least 4,096 turns ahead arms the release of gated TAILs (R395). -/
theorem hookTwnRel_of_ahead {t : State} (hm : w.newF F.TWN_REL_TURN % 16 = 0) (ha : s.now + 4096 ≤ w.newF F.TWN_REL_TURN)
    (ht : s.takeWrite w = t) : hookTwnRel s w = { t with twn := { s.twn with relArmed := true } } := by
  subst ht
  rw [hookTwnRel]
  exact if_pos ⟨hm, ha⟩

theorem hookTwnRel_of_near (h : w.newF F.TWN_REL_TURN < s.now + 4096) : hookTwnRel s w = s.twnRejected := by
  rw [hookTwnRel]
  exact if_neg fun h' => Nat.not_le.mpr h h'.2

end

section
variable {s : State}

/-- The record of the oldest window that has ended goes to the paired device (R394). -/
theorem State.doWindowRecordSend_of_ended {t : State} {w : Nat} {x : TwnWindow} (hon : s.twnOn = true) (hw : s.twn.next = w)
    (hstart : s.get F.TWN_START_START_TURN ≤ 1024 * w) (hend : 1024 * (w + 1) ≤ s.now) (hx : s.twnWin w = x)
    (ht : (({ s with twn := { s.twn with
      next := w + 1
      open' := s.twn.open' ++ [w]
      brkSeen := s.twn.brkSeen || x.brk
      wins := s.twn.wins.filter (fun y => decide (w ≤ y.w + 4)) } } : State).setTwnWin x).twnSend (x.record false 0) = t) :
    s.doWindowRecordSend = State.twnCatchUp t.twn.peer.length t := by
  subst ht
  subst hx
  subst hw
  have hgo : (s.twnOn && decide (s.get F.TWN_START_START_TURN ≤ 1024 * s.twn.next ∧ 1024 * (s.twn.next + 1) ≤ s.now)) = true := by
    simp [hon, hstart, hend]
  rw [State.doWindowRecordSend]
  exact if_pos hgo

/-- A record that is missing 768 turns after its window's end is a mismatch of cause 3 (R396). -/
theorem State.doRecordDeadline_of_late {w : Nat} {ws : List Nat} (hon : s.twnOn = true) (ho : s.twn.open' = w :: ws)
    (hl : 1024 * (w + 1) + 768 ≤ s.now) :
    s.doRecordDeadline = ({ s with twn := { s.twn with open' := ws } } : State).twnMismatch (s.twnWin w) 3 0 0 := by
  simp only [State.doRecordDeadline, ho, hon, hl, decide_true, Bool.and_self, if_true]

/-- The device stops at turn 1,024(w + 3) (R396). -/
theorem State.doCounterproofStop_of_due {t : State} {w cause sig : Nat} (hst : s.twn.stop = some (w, cause, sig))
    (hon : s.twnOn = true) (hl : 1024 * (w + 3) ≤ s.now)
    (ht : ((((s.put F.TWN_STAT_WINDOW w).put F.TWN_STAT_CAUSE cause).put F.TWN_STAT_SIG sig).putFlag
      F.TWN_STAT_STOPPED true).putFlag F.TWN_STAT_MISMATCH true = t) :
    s.doCounterproofStop = t.fault 6 0x0050 18 0
      { peer := devicePeer (s.get F.TWN_CTL_PEER_DOMAIN) (s.get F.TWN_CTL_PEER_MEMBER), detail0 := cause + w % 2 ^ 32 * 2 ^ 32,
        detail1 := (t.reg Reg.TWN_STAT).toNat } := by
  simp only [State.doCounterproofStop, hst, hon, hl, ht, decide_true, Bool.and_self, if_true]

/-- Equal checkpoints leave the upper half of the range (R397). -/
theorem State.doLocateRound_of_equal {t : State} {peer : Word} {w cause sig lo hi : Nat} {own : List Byte} {bad : Bool}
    (hst : s.twn.stop = some (w, cause, sig)) (hloc : s.twn.locate = some (lo, hi)) (hon : s.twnStopped = true) (hlt : lo < hi)
    (hf : s.hbmFetch (s.twnLogAt w ((lo + hi) / 2)) 8 = (own, bad, t)) (heq : ofBytesLE own = peer.toNat)
    (hmid : (lo + hi) / 2 + 1 < hi) :
    s.doLocateRound peer = { t.sendCheckpoint ((lo + hi) / 2) (ofBytesLE own) with
      twn := { (t.sendCheckpoint ((lo + hi) / 2) (ofBytesLE own)).twn with locate := some ((lo + hi) / 2 + 1, hi) } } := by
  have hne : lo ≠ hi := Nat.ne_of_lt hlt
  have hmore : (lo + hi) / 2 + 1 ≠ hi := Nat.ne_of_lt hmid
  simp only [State.doLocateRound, hst, hloc, hon, hf, heq, hne, hmore, if_true, if_false]

/-- Different checkpoints leave the lower half; one block left is the block (R397). -/
theorem State.doLocateRound_of_last {t : State} {peer : Word} {w cause sig lo hi : Nat} {own : List Byte} {bad : Bool}
    (hst : s.twn.stop = some (w, cause, sig)) (hloc : s.twn.locate = some (lo, hi)) (hon : s.twnStopped = true) (hlt : lo < hi)
    (hf : s.hbmFetch (s.twnLogAt w ((lo + hi) / 2)) 8 = (own, bad, t)) (hneq : ofBytesLE own ≠ peer.toNat)
    (hmid : (lo + hi) / 2 = lo) :
    s.doLocateRound peer =
      { ((t.sendCheckpoint ((lo + hi) / 2) (ofBytesLE own)).put F.TWN_GRAN_GRANULE (1024 * lo)).putFlag F.TWN_STAT_LOCATED true with
        twn := { (t.sendCheckpoint ((lo + hi) / 2) (ofBytesLE own)).twn with locate := none } } := by
  have hne : lo ≠ hi := Nat.ne_of_lt hlt
  rw [hmid] at hf ⊢
  simp only [State.doLocateRound, hst, hloc, hon, hmid, hf, hneq, hne, if_true, if_false]

theorem State.doGatedTailRelease_of_due (ha : s.twn.relArmed = true) (ht : s.get F.TWN_REL_TURN ≤ s.now) :
    s.doGatedTailRelease = ({ s with twn := { s.twn with relArmed := false } } : State).releaseGated := by
  simp only [State.doGatedTailRelease, ha, ht, decide_true, Bool.and_self, if_true]

end

/-- Settles O49: TWN_CTL and TWN_REL by their registers' rules, the rest by its effect. -/
theorem counterproofCommandsComplete : Obligations.CounterproofCommandsComplete := by
  refine ⟨?_, ?_, ?_, ?_, ?_, ?_, ?_, ?_, ?_, ?_, ?_⟩
  · rintro s p data _ hs ho rfl hold hnew hm ht
    exact runCmd_pathWrite_of_open hs ho pageOf_TWN_CTL
      (regHook_TWN_CTL.trans (hookTwnCtl_of_begin (s := s.fresh) hold hnew hm ht))
  · rintro s p data _ hs ho rfl hold hnew ht
    exact runCmd_pathWrite_of_open hs ho pageOf_TWN_CTL
      (regHook_TWN_CTL.trans (hookTwnCtl_of_late (s := s.fresh) hold hnew ht))
  · intro s t w x hs hon hw hstart hend hx ht
    exact runCmd_of_eq hs (State.doWindowRecordSend_of_ended (s := s.fresh) hon hw hstart hend hx ht)
  · intro s w ws hs hon ho hl
    exact runCmd_of_eq hs (State.doRecordDeadline_of_late (s := s.fresh) hon ho hl)
  · intro s t w cause sig hs hst hon hl ht
    exact runCmd_of_eq hs (State.doCounterproofStop_of_due (s := s.fresh) hst hon hl ht)
  · intro s t peer w cause sig lo hi own bad hs hst hloc hon hlt hf heq hmid
    exact runCmd_of_eq hs (State.doLocateRound_of_equal (s := s.fresh) hst hloc hon hlt hf heq hmid)
  · intro s t peer w cause sig lo hi own bad hs hst hloc hon hlt hf hneq hmid
    exact runCmd_of_eq hs (State.doLocateRound_of_last (s := s.fresh) hst hloc hon hlt hf hneq hmid)
  · rintro s t p data _ hs ho rfl hm ha ht
    exact runCmd_pathWrite_of_open hs ho pageOf_TWN_REL (regHook_TWN_REL.trans (hookTwnRel_of_ahead (s := s.fresh) hm ha ht))
  · rintro s p data _ hs ho rfl h
    exact runCmd_pathWrite_of_open hs ho pageOf_TWN_REL (regHook_TWN_REL.trans (hookTwnRel_of_near (s := s.fresh) h))
  · intro s hs ha ht
    exact runCmd_of_eq hs (State.doGatedTailRelease_of_due (s := s.fresh) ha ht)
  · rintro s p data _ hs ho rfl hold hnew
    exact runCmd_pathWrite_of_open hs ho pageOf_TWN_CTL (regHook_TWN_CTL.trans (hookTwnCtl_of_end (s := s.fresh) hold hnew))

end Sys2Proof.Machine

/-! ### Reset, firmware, the carrier identity memory, modules and detaching (R424 to R430, R435 to R439) -/

namespace Sys2Proof.Machine

section
variable {s : State}

/-- A low pulse of at least 2,500 turns is a fundamental reset (R424, R314). -/
theorem State.doResetNRelease_of_long {n : Nat} (hl : s.up.resetLow = true) (ht : s.up.tripped = false) (hn : 2500 ≤ n) :
    s.doResetNRelease n = s.bondPorts { State.reset with
      pending := s.pending
      freeIx := s.freeIx } := by
  simp only [State.doResetNRelease, hl, ht, hn, Bool.not_true, Bool.false_eq_true, if_false, if_true]

/-- After THERMTRIP the clocks stay stopped whatever RESET_N does (R453). -/
theorem State.doResetNRelease_of_tripped {n : Nat} (hl : s.up.resetLow = true) (ht : s.up.tripped = true) :
    s.doResetNRelease n = { s with up := { s.up with resetLow := false } } := by
  simp only [State.doResetNRelease, hl, ht, Bool.not_true, Bool.false_eq_true, if_false, if_true]

/-- The pairs that BOND names are bonded; what the last command put out plays no part. -/
theorem State.fresh_bondPorts (s t : State) : s.fresh.bondPorts t = s.bondPorts t := rfl

/-- PLL lock reads the fuses, draws the salts and connects the chain (R303, R470). -/
theorem State.doPllLock_of_unlocked {t : State} (hp : s.up.pllLocked = false)
    (ht : State.newSalts 16 (((s.put F.MGT_DEV_ID_STEPPING Config.fusedStepping.toNat).put F.MGT_DEV_SN_SERIAL
      Config.fusedSerial.toNat).put F.SEC_ID_KEY_FAMILY (Config.fusedKeyFamily.toNat % 10000)) = t) :
    s.doPllLock = { t with up := { t.up with
      pllLocked := true
      bypassHigh := true } } := by
  simp only [State.doPllLock, hp, ht, Bool.false_eq_true, if_false]

/-- Slot A runs where it passes, else slot B (R426, R427). -/
theorem State.doFirmwareVerify_of_first {t : State} {a b : List Byte} (hp : s.up.pllLocked = true)
    (hf : s.up.firmwareTried = false) (hc : s.coresHeld = false)
    (ht : ({ s with up := { s.up with
      firmwareTried := true
      attachOpen := true } } : State) = t) :
    s.doFirmwareVerify a b = (if slotPasses a then t.bootSlot a false
      else if slotPasses b then t.bootSlot b true
      else (t.putFlag F.SEC_STAT_FW_OK false).put F.MGT_STAT_BOOT 2) := by
  subst ht
  have hgo : (!s.up.pllLocked || s.up.firmwareTried || s.coresHeld) = false := by simp [hp, hf, hc]
  rw [State.doFirmwareVerify, hgo]
  exact if_neg Bool.false_ne_true

/-- A valid carrier identity memory is loaded, then the frames held for it are acted on in order (R428). -/
theorem State.doCimReadDone_of_valid {b : List Byte} (hp : s.up.pllLocked = true) (hr : s.up.cimRead = false)
    (hb : cimValid b = true) :
    s.doCimReadDone (some b) = (let t := (({ s with up := { s.up with
        cimRead := true
        cim := b
        cimNow := b
        heldChain := [] } } : State).loadCim b).putFlag F.MGT_STAT_CIM_OK true
      s.up.heldChain.foldl (fun (s : State) f => s.enumFrame f.1 f.2.1 f.2.2) (if t.portsHeld then t.holdPorts else t)) := by
  have hgood : (some b).filter cimValid = some b := by simp [Option.filter, hb]
  simp only [State.doCimReadDone, hp, hr, hgood, Option.getD_some, Bool.not_true, Bool.or_self, Bool.false_eq_true, if_false]

/-- A bad memory holds every Vangeri port (R428). -/
theorem State.portsHeld_of_bad (s : State) : (s.putFlag F.MGT_STAT_CIM_BAD true).portsHeld = true := by
  rw [State.portsHeld, State.flag_putFlag_self _ _ _ rfl (by decide), Bool.true_or]

theorem State.doCimReadDone_of_none (hp : s.up.pllLocked = true) (hr : s.up.cimRead = false) (hh : s.up.heldChain = []) :
    s.doCimReadDone none = (({ s with up := { s.up with
      cimRead := true
      cim := []
      cimNow := []
      heldChain := [] } } : State).putFlag F.MGT_STAT_CIM_BAD true).holdPorts := by
  simp only [State.doCimReadDone, hp, hr, hh, Option.filter_none, Option.getD_none, List.foldl_nil, State.portsHeld_of_bad,
    Bool.not_true, Bool.or_self, Bool.false_eq_true, if_false, if_true]

end

/-- Settles O53: the pin's commands by what they do to the clocks, the rest by its effect. -/
theorem bringupCommandsComplete : Obligations.BringupCommandsComplete := by
  refine ⟨?_, ?_, ?_, ?_, ?_, ?_, ?_⟩
  · intro s
    exact runPin_of_eq rfl
  · intro s n hl ht hn
    have h := State.doResetNRelease_of_long (s := s.fresh) hl ht hn
    rw [State.fresh_bondPorts, State.fresh_pending, State.fresh_freeIx] at h
    rw [exec_resetNRelease, runPin_of_eq h]
  · intro s n hl ht
    rw [exec_resetNRelease, runPin_of_eq (State.doResetNRelease_of_tripped (s := s.fresh) hl ht), State.fresh_up]
  · intro s t hs hp ht
    exact runCmd_of_eq hs (State.doPllLock_of_unlocked (s := s.fresh) hp ht)
  · intro s t a b hs hp hf hc ht
    exact runCmd_of_eq hs (State.doFirmwareVerify_of_first (s := s.fresh) hp hf hc ht)
  · intro s b hs hp hr hb
    exact runCmd_of_eq hs (State.doCimReadDone_of_valid (s := s.fresh) hp hr hb)
  · intro s hs hp hr hh
    exact runCmd_of_eq hs (State.doCimReadDone_of_none (s := s.fresh) hp hr hh)

/-! #### Modules, access registers and detaching -/

theorem pageOf_MGT_CTL : pageOf Reg.MGT_CTL = some (16, 0, 0x128) :=
  pageOf_firstPage (t := 16) (off := 0x128) (by decide) (by decide)

theorem pageOf_MGT_CIM_ACC : pageOf Reg.MGT_CIM_ACC = some (16, 0, 0x130) :=
  pageOf_firstPage (t := 16) (off := 0x130) (by decide) (by decide)

theorem pageOf_MGT_CAGE_ACC : pageOf Reg.MGT_CAGE_ACC = some (16, 0, 0x140) :=
  pageOf_firstPage (t := 16) (off := 0x140) (by decide) (by decide)

section
variable {data : Word} {aux : Option Nat} {s : State} {w : RegWrite}

theorem regHook_MGT_CTL : regHook data aux 16 0 0x128 s w = hookMgtCtl s w := by simp [regHook, hookLatePages]

theorem regHook_MGT_CIM_ACC : regHook data aux 16 0 0x130 s w = hookCimAcc (aux.getD 0) s w := by
  simp [regHook, hookLatePages]

theorem regHook_MGT_CAGE_ACC : regHook data aux 16 0 0x140 s w = hookCageAcc (aux.getD 0) s w := by
  simp [regHook, hookLatePages]

theorem hookCageAcc_of_read {t : State} {byte : Nat} (ht : (s.takeWrite w).putFlag F.MGT_CAGE_ACC_DONE true = t)
    (ho : w.newF F.MGT_CAGE_ACC_OP = 1) : hookCageAcc byte s w = t.put F.MGT_CAGE_ACC_DATA byte := by
  simp only [hookCageAcc, ht, ho, if_true]

theorem hookCageAcc_of_write {t : State} {byte : Nat} (ht : (s.takeWrite w).putFlag F.MGT_CAGE_ACC_DONE true = t)
    (ho : w.newF F.MGT_CAGE_ACC_OP = 2) :
    hookCageAcc byte s w = t.emit (.cageWrite (w.newF F.MGT_CAGE_ACC_CAGE) (w.newF F.MGT_CAGE_ACC_PAGE)
      (w.newF F.MGT_CAGE_ACC_BYTE) (BitVec.ofNat 8 (w.newF F.MGT_CAGE_ACC_DATA))) := by
  simp [hookCageAcc, ht, ho]

theorem hookCimAcc_of_read {t : State} {byte : Nat} (ht : (s.takeWrite w).putFlag F.MGT_CIM_ACC_DONE true = t)
    (ho : w.newF F.MGT_CIM_ACC_OP = 1) : hookCimAcc byte s w = t.put F.MGT_CIM_ACC_DATA byte := by
  simp only [hookCimAcc, ht, ho, if_true]

theorem hookCimAcc_of_write {t : State} {byte : Nat} (ht : (s.takeWrite w).putFlag F.MGT_CIM_ACC_DONE true = t)
    (ho : w.newF F.MGT_CIM_ACC_OP = 2) :
    hookCimAcc byte s w = ({ t with up := { t.up with
      cimNow := listSet t.up.cimNow (t.get F.MGT_CIM_ADDR_ADDR) (BitVec.ofNat 8 (w.newF F.MGT_CIM_ACC_DATA)) } } : State).emit
        (.cimWrite (t.get F.MGT_CIM_ADDR_ADDR) (BitVec.ofNat 8 (w.newF F.MGT_CIM_ACC_DATA))) := by
  simp [hookCimAcc, ht, ho]

/-- KF_OVERRIDE releases the ports that a key family alone held (R430). -/
theorem hookMgtCtl_of_override (hk : w.actF F.MGT_CTL_KF_OVERRIDE = 1) (hd : w.actF F.MGT_CTL_DETACH = 0) :
    hookMgtCtl s w = (if s.portsHeld && !(s.putFlag F.MGT_CTL_KF_OVERRIDE true).portsHeld then
      (s.putFlag F.MGT_CTL_KF_OVERRIDE true).releasePorts else s.putFlag F.MGT_CTL_KF_OVERRIDE true) := by
  simp only [hookMgtCtl, hk, hd, if_true, Nat.zero_ne_one, if_false]

/-- With KF_OVERRIDE set only a bad memory holds the ports. -/
theorem State.portsHeld_of_override (s : State) :
    (s.putFlag F.MGT_CTL_KF_OVERRIDE true).portsHeld = s.flag F.MGT_STAT_CIM_BAD := by
  rw [State.portsHeld, State.flag_putFlag_self _ _ _ rfl (by decide), State.putFlag, State.flag_put_of_ne _ _ _ _ (by decide),
    Bool.not_true, Bool.and_false, Bool.or_false]

/-- DETACH takes the ports to deep idle, stops heartbeats and bypasses the chain (R439). -/
theorem hookMgtCtl_of_detach {t : State} (hk : w.actF F.MGT_CTL_KF_OVERRIDE = 0) (hd : w.actF F.MGT_CTL_DETACH = 1)
    (hn : s.up.detachAt = none) (ht : s.putFlag F.MGT_CTL_DETACH true = t) :
    hookMgtCtl s w = (List.range 128).foldl State.portDeepIdle { t with
      up := { t.up with
        detachAt := some s.clk
        bypassHigh := false }
      pip := { t.pip with hbStopped := true } } := by
  have hup : t.up.detachAt = none := by rw [← ht, State.putFlag_up, hn]
  have hclk : t.clk = s.clk := by rw [← ht, State.putFlag_clk]
  simp only [hookMgtCtl, hk, hd, ht, State.startDetach, hup, hclk, Nat.zero_ne_one, if_true, if_false, Option.isSome_none,
    Bool.false_eq_true]

/-- A cage that holds a module is read every 250,000 turns (R436). -/
theorem State.doModuleIdentityRead_of_due {c : Fin 64} {r : ModuleRead} (hp : s.flag (F.MGT_CAGE_PRESENT c) = true)
    (hd : ((s.up.cageAt.find? (fun x => x.1 == c.val)).map (·.2)).getD 0 + 250000 ≤ s.clk) :
    s.doModuleIdentityRead c r = (match r with
      | .bytes lower upper => (s.noteCage c).moduleRead c lower upper
      | .failed => (s.noteCage c).putFlag (F.MGT_CAGE_READ_ERR c) true
      | .absent => (s.noteCage c).putFlag (F.MGT_CAGE_PRESENT c) false) := by
  have hgo : (s.flag (F.MGT_CAGE_PRESENT c) &&
      decide (((s.up.cageAt.find? (fun x => x.1 == c.val)).map (·.2)).getD 0 + 250000 ≤ s.clk)) = true := by
    rw [hp, decide_eq_true hd]
    rfl
  rw [State.doModuleIdentityRead]
  exact if_pos hgo

theorem State.doDetached_of_bridged {t : Nat} (hd : s.up.detachAt = some t) (ht : t + relayTurns ≤ s.clk) :
    s.doDetached = s.putFlag F.MGT_STAT_DETACHED true := by
  simp only [State.doDetached, hd, ht, if_true]

end

/-- Settles O55: the access registers and MGT_CTL by their rules, a module read by the cage's state and time. -/
theorem identityCommandsComplete : Obligations.IdentityCommandsComplete := by
  refine ⟨?_, ?_, ?_, ?_, ?_, ?_, ?_, ?_, ?_, ?_, ?_, ?_⟩
  · intro s c lower upper hs
    exact runCmd_of_eq hs rfl
  · intro s c lower upper hs hp hd
    exact runCmd_of_eq hs (State.doModuleIdentityRead_of_due (s := s.fresh) hp hd)
  · intro s c hs hp hd
    exact runCmd_of_eq hs (State.doModuleIdentityRead_of_due (s := s.fresh) hp hd)
  · intro s c hs hp hd
    exact runCmd_of_eq hs (State.doModuleIdentityRead_of_due (s := s.fresh) hp hd)
  · rintro s t p data byte _ hs ho rfl ht hop
    exact runCmd_pathWrite_of_open hs ho pageOf_MGT_CAGE_ACC (regHook_MGT_CAGE_ACC.trans (hookCageAcc_of_read ht hop))
  · rintro s t p data byte _ hs ho rfl ht hop
    exact runCmd_pathWrite_of_open hs ho pageOf_MGT_CAGE_ACC (regHook_MGT_CAGE_ACC.trans (hookCageAcc_of_write ht hop))
  · rintro s t p data byte _ hs ho rfl ht hop
    exact runCmd_pathWrite_of_open hs ho pageOf_MGT_CIM_ACC (regHook_MGT_CIM_ACC.trans (hookCimAcc_of_read ht hop))
  · rintro s t p data _ hs ho rfl ht hop
    exact runCmd_pathWrite_of_open hs ho pageOf_MGT_CIM_ACC (regHook_MGT_CIM_ACC.trans (hookCimAcc_of_write ht hop))
  · intro s p data hs ho hk hd hheld
    refine runCmd_pathWrite_of_open hs ho pageOf_MGT_CTL (regHook_MGT_CTL.trans ((hookMgtCtl_of_override hk hd).trans ?_))
    rw [State.fresh_portsHeld, hheld, Bool.false_and]
    exact if_neg Bool.false_ne_true
  · intro s p data hs ho hk hd hheld hbad
    refine runCmd_pathWrite_of_open hs ho pageOf_MGT_CTL (regHook_MGT_CTL.trans ((hookMgtCtl_of_override hk hd).trans ?_))
    have hbad' : s.fresh.flag F.MGT_STAT_CIM_BAD = false := hbad
    rw [State.fresh_portsHeld, hheld, State.portsHeld_of_override, hbad']
    exact if_pos rfl
  · intro s t p data hs ho hk hd hn ht
    exact runCmd_pathWrite_of_open hs ho pageOf_MGT_CTL
      (regHook_MGT_CTL.trans (hookMgtCtl_of_detach (s := s.fresh) hk hd hn ht))
  · intro s t hs hd ht
    exact runCmd_of_eq hs (State.doDetached_of_bridged (s := s.fresh) hd ht)

end Sys2Proof.Machine

/-! ### Out-of-band reads and armed injections (R435, R469) -/

namespace Sys2Proof.Machine

/-- The granule that carries a register's value is checked on its way out (Table 13-3), so that a read of a register takes an
injection that is armed there: a device whose PLL has locked, with such an injection armed. -/
def armedDevice : State :=
  ({ State.reset with up := { State.reset.up with pllLocked := true } } : State).setReg (Reg.PG_INJ (pageBase 17 0))
    0x8100000000000000#64

/-- The injection of the Ilnyx page is armed in the state that a command answers. -/
def injectionArmed : Host.Outcome State Fault Refusal → Bool
  | .next t => t.flag (F.PG_INJ_ARM (pageBase 17 0))
  | .fault _ => false
  | .refused _ => false

/-- The read takes the injection. -/
theorem injectionArmed_oobRead : injectionArmed (exec (.oobRead [0x00, 0x01, 0x0d, 0x01] true) armedDevice) = false := by
  decide +kernel

/-- The answer that the statement gives leaves it armed. -/
theorem injectionArmed_stated :
    injectionArmed (.next ((armedDevice.fresh.regCleared 0x010d0100).emit (.oob (toBytesLE 1 0x01 ++
      toBytesLE 8 (armedDevice.regRead 0x010d0100).toNat))).settled) = true := by
  decide +kernel

/-- Refutes O54: the clause of OOB_READ has no hypothesis that excludes an armed injection. Where one of one symbol is armed on the
Ilnyx page, the read of SEC_ID takes it: the granule is corrected and counted, and PG_INJ is armed no more (R469), while the state
stated has it armed still. -/
theorem not_chainCommandsComplete : ¬ Obligations.ChainCommandsComplete := by
  rintro ⟨-, -, -, -, -, -, -, -, -, -, -, hread⟩
  have h := hread armedDevice [0x00, 0x01, 0x0d, 0x01] 0x010d0100 (by decide +kernel) (by decide +kernel) (by decide)
    (by decide +kernel) (by decide)
  have hflag := injectionArmed_oobRead
  rw [h, injectionArmed_stated] at hflag
  exact absurd hflag (by decide)

end Sys2Proof.Machine

/-! ### Power: PMBus, fill activity and freezes (R443 to R449) -/

namespace Sys2Proof.Machine

theorem pageOf_PWR_THERM : pageOf Reg.PWR_THERM = some (15, 0, 0x118) :=
  pageOf_firstPage (t := 15) (off := 0x118) (by decide) (by decide)

theorem pageOf_PWR_PMB_ACC : pageOf Reg.PWR_PMB_ACC = some (15, 0, 0x300) :=
  pageOf_firstPage (t := 15) (off := 0x300) (by decide) (by decide)

section
variable {data : Word} {aux : Option Nat} {s : State} {w : RegWrite}

theorem regHook_PWR_THERM : regHook data aux 15 0 0x118 s w = hookPwrTherm s w := by simp [regHook, hookMidPages]

theorem regHook_PWR_PMB_ACC : regHook data aux 15 0 0x300 s w = hookPmbAcc aux s w := by simp [regHook, hookMidPages]

@[simp] theorem State.writeOf_path (s : State) (p : Path) (a : Nat) (data : Word) : (s.writeOf p a data).path = p := by
  unfold State.writeOf
  split <;> rfl

@[simp] theorem State.takeWrite_pwr (s : State) (w : RegWrite) : (s.takeWrite w).pwr = s.pwr := rfl

/-- OP 1 reads a word; DONE is cleared until the answer comes (R443). -/
theorem hookPmbAcc_of_read {t : State} (hp : Path.management w.path = true) (ho : w.newF F.PWR_PMB_ACC_OP = 1)
    (ht : (s.takeWrite w).putFlag F.PWR_PMB_ACC_DONE false = t) :
    hookPmbAcc aux s w = ({ t with pwr := { s.pwr with access := some (1, aux) } } : State).emit
      (.pmbRead (w.newF F.PWR_PMB_ACC_ADDR) (w.newF F.PWR_PMB_ACC_CMD)) := by
  simp only [hookPmbAcc, hp, ho, ht, State.takeWrite_pwr, Bool.not_true, Bool.false_eq_true, if_false, true_or, if_true]

theorem hookPmbAcc_of_write {t : State} (hp : Path.management w.path = true) (ho : w.newF F.PWR_PMB_ACC_OP = 2)
    (ht : (s.takeWrite w).putFlag F.PWR_PMB_ACC_DONE false = t) :
    hookPmbAcc aux s w = ({ t with pwr := { s.pwr with access := some (2, aux) } } : State).emit
      (.pmbWrite (w.newF F.PWR_PMB_ACC_ADDR) (w.newF F.PWR_PMB_ACC_CMD) (w.newF F.PWR_PMB_ACC_DATA)) := by
  simp only [hookPmbAcc, hp, ho, ht, State.takeWrite_pwr, Bool.not_true, Bool.false_eq_true, if_false, or_true, if_true,
    OfNat.ofNat_ne_one]

end

section
variable {s : State}

/-- Every 25,000 turns each rail with a limit is read (R443). -/
theorem State.doPmbusPoll_of_due {answers : List (Option (BitVec 16 × BitVec 16 × Byte × BitVec 16))} (hc : s.up.cimRead = true)
    (hd : s.pwr.polledAt + 25000 ≤ s.clk) :
    s.doPmbusPoll answers =
      s.polledRails.foldl (fun (s : State) r => (s.pmbReads r pollCodes).railPoll r (answers.getD r none))
        { s with pwr := { s.pwr with polledAt := s.clk } } := by
  simp only [State.doPmbusPoll, hc, hd, decide_true, Bool.and_self, if_true]

/-- A rail whose controller answers an alert is not stale (R443). -/
theorem State.doPmbAlert_eq (s : State) (status : List (Option (BitVec 16))) :
    s.doPmbAlert status = s.polledRails.foldl (fun (s : State) r => match status.getD r none with
      | some st => ((s.pmbReads r [0x79]).put (F.PWR_RAIL_STATUS r) (st.toNat % 256)).setMisses r 0
      | none => s.pmbReads r [0x79]) s := rfl

/-- An access ends with DONE and NAK, and the word of a read that is answered. -/
theorem State.endAccess_of_access {op : Nat} {a : Option Nat} (h : s.pwr.access = some (op, a)) :
    s.endAccess.flag F.PWR_PMB_ACC_DONE = true ∧ s.endAccess.flag F.PWR_PMB_ACC_NAK = a.isNone ∧
      s.endAccess.pwr.access = none := by
  have hdone (t : State) (b : Bool) : ((t.putFlag F.PWR_PMB_ACC_DONE true).putFlag F.PWR_PMB_ACC_NAK b).flag
      F.PWR_PMB_ACC_DONE = true := by
    rw [State.flag, State.putFlag, State.get_put_of_apart _ _ _ _ (by decide) (by decide) (by decide)]
    exact State.flag_putFlag_self _ _ true rfl (by decide)
  have hdata (t : State) (v : Nat) (f : RField) (hf : F.PWR_PMB_ACC_DATA.hi < f.lo ∨ f.hi < F.PWR_PMB_ACC_DATA.lo) :
      (t.put F.PWR_PMB_ACC_DATA v).flag f = t.flag f := by
    rw [State.flag, State.get_put_of_apart _ _ _ _ (by decide) (by decide) hf, State.flag]
  have hnak (t : State) (b : Bool) := State.flag_putFlag_self t F.PWR_PMB_ACC_NAK b rfl (by decide)
  simp only [State.endAccess, h]
  split
  · split
    · exact ⟨(hdata _ _ _ (by decide)).trans (hdone _ _), (hdata _ _ _ (by decide)).trans (hnak _ _),
        by rw [State.put_pwr, State.putFlag_pwr, State.putFlag_pwr]⟩
    · exact ⟨hdone _ _, hnak _ _, by rw [State.putFlag_pwr, State.putFlag_pwr]⟩
  · exact ⟨hdone _ _, hnak _ _, by rw [State.putFlag_pwr, State.putFlag_pwr]⟩

theorem State.endAccess_data {v : Nat} (h : s.pwr.access = some (1, some v)) :
    s.endAccess.get F.PWR_PMB_ACC_DATA = v % 2 ^ 16 := by
  simp only [State.endAccess, h, if_true]
  exact State.get_put_self _ _ _ (by decide) (by decide)

/-- A ramp up takes 64 turns (R445). -/
theorem State.doArrayRampEnd_of_up (hf : s.flag F.PWR_STAT_FROZEN = false) (ha : s.get F.PWR_STAT_ARRAY = 1)
    (hd : s.pwr.rampAt + 64 ≤ s.clk) : s.doArrayRampEnd = s.put F.PWR_STAT_ARRAY 2 := by
  simp only [State.doArrayRampEnd, hf, ha, hd, Bool.false_eq_true, if_false, and_self, if_true]

/-- A ramp down takes 8 turns a step (R445). -/
theorem State.doArrayRampEnd_of_down (hf : s.flag F.PWR_STAT_FROZEN = false) (ha : s.get F.PWR_STAT_ARRAY = 3)
    (hd : s.pwr.rampAt + 8 * s.pwr.rampStep ≤ s.clk) : s.doArrayRampEnd = s.put F.PWR_STAT_ARRAY 0 := by
  simp [State.doArrayRampEnd, hf, ha, hd]

/-- A trip outside a stretch is counted, and the freeze begins with it (R448, R449). -/
theorem State.doDroopTrip_of_first {t : State} (hs : s.pwr.stretchAt = none) (hf : s.pwr.freezeAt = none)
    (hd : s.dutyFrozen = false)
    (ht : ((((s.count F.PWR_CNT_FROZEN_TURNS 1).count F.TWN_TBRK0_STRETCH_TURNS 1).count F.PWR_DROOP_EVENTS 1).putFlag
      F.PWR_STAT_STRETCH true).freeze.twnBreak = t) :
    s.doDroopTrip = ({ t with pwr := { t.pwr with
      stretchAt := some s.clk
      freezeAt := some s.clk
      freezeDue := none } } : State).powerEvent := by
  have hnone : s.pwr.stretchAt.isNone = true := by rw [hs]; rfl
  have hfreeze : s.pwr.freezeAt.orElse (fun _ => some s.clk) = some s.clk := by rw [hf]; rfl
  have hdroop : s.droopFrozen = false := by simp [State.droopFrozen, hf]
  have hcount : s.countTrip = (s.count F.PWR_CNT_FROZEN_TURNS 1).count F.TWN_TBRK0_STRETCH_TURNS 1 := by
    simp [State.countTrip, hdroop, hd]
  simp only [State.doDroopTrip, hcount, hnone, hfreeze, ht, if_true]

/-- A trip within a stretch lets HOLD run anew (R448). -/
theorem State.doDroopTrip_of_later {t : State} {a f : Nat} (hs : s.pwr.stretchAt = some a) (hf : s.pwr.freezeAt = some f)
    (hd : s.droopFrozen = true) (ht : (s.putFlag F.PWR_STAT_STRETCH true).freeze.twnBreak = t) :
    s.doDroopTrip = ({ t with pwr := { t.pwr with
      stretchAt := some s.clk
      freezeAt := some f
      freezeDue := none } } : State).powerEvent := by
  have hsome : s.pwr.stretchAt.isNone = false := by rw [hs]; rfl
  have hfreeze : s.pwr.freezeAt.orElse (fun _ => some s.clk) = some f := by rw [hf]; rfl
  have hcount : s.countTrip = s := by simp [State.countTrip, hd]
  simp only [State.doDroopTrip, hcount, hsome, hfreeze, ht, Bool.false_eq_true, if_false]

/-- HOLD after the last trip the freeze is due to end, at a multiple of 256 turns from its start (R448). -/
theorem State.doStretchEnd_of_held {t : State} {a f : Nat} (hs : s.pwr.stretchAt = some a) (hf : s.pwr.frozenAt = some f)
    (hd : a + max 1 (s.get F.PWR_DROOP_HOLD) ≤ s.clk) (ht : s.putFlag F.PWR_STAT_STRETCH false = t) :
    s.doStretchEnd = { t with pwr := { s.pwr with
      stretchAt := none
      freezeDue := some (f + 256 * ceilDiv (s.clk + 64 - f) 256) } } := by
  simp only [State.doStretchEnd, hs, hf, hd, ht, if_true]

/-- When nothing freezes the array any more its work goes on where it stopped (R449). -/
theorem State.doFreezeEnd_of_over {t : State} {f : Nat} (hf : s.pwr.frozenAt = some f) (hs : s.pwr.stretchAt = none)
    (hd : s.droopFrozen = false) (hu : s.dutyFrozen = false) (ha : s.get F.PWR_STAT_ARRAY = 2)
    (ht : (s.thawArray (s.clk - f)).putFlag F.PWR_STAT_FROZEN false = t) :
    s.doFreezeEnd = ({ t with pwr := { t.pwr with
      frozenAt := none
      freezeAt := none
      freezeDue := none
      dutyDue := none
      rampAt := s.pwr.rampAt } } : State).resumeReads := by
  subst ht
  have hramp : ¬(s.get F.PWR_STAT_ARRAY = 1 ∨ s.get F.PWR_STAT_ARRAY = 3) := by omega
  have hgo : (s.pwr.stretchAt.isSome || s.droopFrozen || s.dutyFrozen) = false := by
    rw [hs, hd, hu]
    rfl
  simp only [State.doFreezeEnd, hf, hgo, Bool.false_eq_true, if_false]
  rw [if_neg hramp]

end

/-- Settles O56: the access register by its rule, the rest by its effect. -/
theorem powerSupplyCommandsComplete : Obligations.PowerSupplyCommandsComplete := by
  refine ⟨?_, ?_, ?_, ?_, ?_, ?_, ?_, ?_, ?_, ?_, ?_, ?_⟩
  · intro s answers hs hc hd
    exact runCmd_of_eq hs (State.doPmbusPoll_of_due (s := s.fresh) hc hd)
  · intro s status hs
    exact runCmd_of_eq hs (State.doPmbAlert_eq s.fresh status)
  · rintro s t p data v _ hs ho hm rfl ht hop
    exact runCmd_pathWrite_of_open hs ho pageOf_PWR_PMB_ACC
      (regHook_PWR_PMB_ACC.trans (hookPmbAcc_of_read (s := s.fresh) (by rwa [State.writeOf_path]) hop ht))
  · rintro s t p data v _ hs ho hm rfl ht hop
    exact runCmd_pathWrite_of_open hs ho pageOf_PWR_PMB_ACC
      (regHook_PWR_PMB_ACC.trans (hookPmbAcc_of_write (s := s.fresh) (by rwa [State.writeOf_path]) hop ht))
  · intro s op a h
    exact State.endAccess_of_access h
  · intro s v h
    exact State.endAccess_data h
  · intro s hs hf ha hd
    exact runCmd_of_eq hs (State.doArrayRampEnd_of_up (s := s.fresh) hf ha hd)
  · intro s hs hf ha hd
    exact runCmd_of_eq hs (State.doArrayRampEnd_of_down (s := s.fresh) hf ha hd)
  · intro s t hs hst hf hd ht
    exact runCmd_of_eq hs (State.doDroopTrip_of_first (s := s.fresh) hst hf hd ht)
  · intro s t a f hs hst hf hd ht
    exact runCmd_of_eq hs (State.doDroopTrip_of_later (s := s.fresh) hst hf hd ht)
  · intro s t a f hs hst hf hd ht
    exact runCmd_of_eq hs (State.doStretchEnd_of_held (s := s.fresh) hst hf hd ht)
  · intro s t f hs hf hst hd hu ha ht
    exact runCmd_of_eq hs (State.doFreezeEnd_of_over (s := s.fresh) hf hst hd hu ha ht)

end Sys2Proof.Machine

/-! ### Power: temperature and the supply warning (R450 to R455) -/

namespace Sys2Proof.Machine

section
variable {s : State}

/-- A sample sets TJ_EFF and PEAK, and trips the device at TRIP (R450, R453). -/
theorem State.doThermalSample_of_due {t u : State} {sensors temps : List Byte} {j e : Nat} (hc : s.clk % 256 = 0)
    (ht : s.stackTemps temps = t) (hj : maxOf (sensors.map (·.toNat)) = j)
    (he : min 255 (max j (maxOf ((List.range 24).map (fun n => t.get (F.HBM_S_TEMP_TEMP n))) + 10)) = e)
    (hu : (t.put F.PWR_STAT_TJ_EFF e).put F.PWR_THERM_PEAK (max e (t.get F.PWR_THERM_PEAK)) = u) :
    s.doThermalSample sensors temps =
      (let v : State := { u with pwr := { u.pwr with junction := j } }
       if v.get F.PWR_THERM_TRIP ≤ j then v.trip else v) := by
  have htrip : ({ u with pwr := { u.pwr with junction := j } } : State).get F.PWR_THERM_TRIP = t.get F.PWR_THERM_TRIP := by
    change u.get _ = _
    rw [← hu, State.get_put_of_apart _ _ _ _ (by decide) (by decide) (by decide), State.get_put_of_ne _ _ _ _ (by decide)]
  rw [State.doThermalSample, if_neg (not_not.mpr hc)]
  simp only [ht, hj, he, hu, htrip]

theorem State.doThermtrip_of_hot {n : Byte} (h : s.get F.PWR_THERM_TRIP ≤ n.toNat) : s.doThermtrip n = s.trip := by
  rw [State.doThermtrip, if_pos h]

/-- At the device's slot of 4,096 turns F is set anew (R452); over-current keeps it at 4 or more (R444). -/
theorem State.doDutyWindowStart_of_slot {t : State} {f : Nat} (hn : s.now % 4096 = 512 * s.staggerSlot)
    (hw : s.pwr.windowAt ≠ some s.clk)
    (hf : (if s.overAgain then max 4 (dutyF (s.get F.PWR_STAT_TJ_EFF) (s.get F.PWR_THERM_DUTY_ON))
      else dutyF (s.get F.PWR_STAT_TJ_EFF) (s.get F.PWR_THERM_DUTY_ON)) = f)
    (ht : ((s.putFlag F.PWR_STAT_OVERCURRENT s.overAgain).put F.PWR_STAT_DUTY_F f).putFlag F.PWR_STAT_DUTY
      (decide (0 < f)) = t) :
    s.doDutyWindowStart =
      (let u : State := { t with pwr := { t.pwr with windowAt := some s.clk, overRails := s.stillOver } }
       if 0 < f then (u.count F.PWR_THERM_DUTY_WINDOWS 1).powerEvent else u) := by
  have hgo : ¬(s.now % 4096 ≠ 512 * s.staggerSlot ∨ s.pwr.windowAt = some s.clk) := not_or.mpr ⟨not_not.mpr hn, hw⟩
  rw [State.doDutyWindowStart, if_neg hgo]
  simp only [hf, ht]

/-- The supply warning is step 1, counted, and told to the operation and the collectives (R454). -/
theorem State.doPwrWarn_of_enabled {t : State} (he : s.flag F.PWR_CTL_WARN_EN = true) (hw : s.flag F.PWR_STAT_WARN = false)
    (ht : ((s.putFlag F.PWR_STAT_WARN true).put F.PWR_STAT_WARN_STEP 1).count F.PWR_CNT_WARNS 1 = t) :
    s.doPwrWarn = ({ t with pwr := { t.pwr with warnAt := some s.clk } } : State).warnOp.colWarned.powerEvent := by
  simp only [State.doPwrWarn, he, hw, ht, Bool.not_true, Bool.or_self, Bool.false_eq_true, if_false]

/-- After 250,000 turns of warning a stroke whose write-out has not begun is discarded (R454). -/
theorem State.doWarnStrokeLimit_of_stroke {o : PlateOp} {x : Nat} (hw : s.warnedFor 250000 = true)
    (hp : s.plate.phase = .stroke x) (ho : s.plate.op = some o) :
    s.doWarnStrokeLimit = s.startRetire { o with aborted := true } := by
  simp only [State.doWarnStrokeLimit, hw, hp, ho, Bool.not_true, Bool.false_eq_true, if_false]

/-- After 375,000 turns of warning the device detaches (R454). -/
theorem State.doWarnDetach_of_late (hw : s.warnedFor 375000 = true) (hs : s.get F.PWR_STAT_WARN_STEP ≠ 3) :
    s.doWarnDetach = ((s.put F.PWR_STAT_WARN_STEP 3).loseStandin).startDetach := by
  have hgo : (s.warnedFor 375000 && s.get F.PWR_STAT_WARN_STEP != 3) = true := by
    rw [hw, bne_iff_ne.mpr hs]
    rfl
  rw [State.doWarnDetach]
  exact if_pos hgo

/-- A warning that ends before the device detaches leaves no step (R455). -/
theorem State.doWarnRelease_of_early {t : State} (hf : s.flag F.PWR_STAT_WARN = true) (hw : s.warnedFor 375000 = false)
    (ht : (s.putFlag F.PWR_STAT_WARN false).put F.PWR_STAT_WARN_STEP 0 = t) :
    s.doWarnRelease = ({ t with pwr := { t.pwr with warnAt := none } } : State).releaseWarned := by
  simp only [State.doWarnRelease, hf, hw, ht, Bool.not_false, Bool.and_self, if_true]

/-- DUTY_ON up to the class's value is taken (R451). -/
theorem hookPwrTherm_of_low {w : RegWrite} (h : w.newF F.PWR_THERM_DUTY_ON ≤ s.pwr.classDuty) :
    hookPwrTherm s w = s.takeWrite w := if_neg (Nat.not_lt.mpr h)

theorem hookPwrTherm_of_high {w : RegWrite} (h : s.pwr.classDuty < w.newF F.PWR_THERM_DUTY_ON) :
    hookPwrTherm s w = s.rejected 15 0 := if_pos h

end

/-- Settles O57: PWR_THERM by its rule, the rest by its effect. -/
theorem thermalAndWarningCommandsComplete : Obligations.ThermalAndWarningCommandsComplete := by
  refine ⟨?_, ?_, ?_, ?_, ?_, ?_, ?_, ?_, ?_⟩
  · intro s t sensors temps j e hs hc ht hj he
    exact runCmd_of_eq hs (State.doThermalSample_of_due (s := s.fresh) hc ht hj he (Eq.refl (State.put _ _ _)))
  · intro s n hs h
    exact runCmd_of_eq hs (State.doThermtrip_of_hot (s := s.fresh) h)
  · intro s t f hs hn hw hf ht
    exact runCmd_of_eq hs (State.doDutyWindowStart_of_slot (s := s.fresh) hn hw hf ht)
  · intro s p data hs ho h
    exact runCmd_pathWrite_of_open hs ho pageOf_PWR_THERM (regHook_PWR_THERM.trans (hookPwrTherm_of_low (s := s.fresh) h))
  · intro s p data hs ho h
    exact runCmd_pathWrite_of_open hs ho pageOf_PWR_THERM (regHook_PWR_THERM.trans (hookPwrTherm_of_high (s := s.fresh) h))
  · intro s t hs he hw ht
    exact runCmd_of_eq hs (State.doPwrWarn_of_enabled (s := s.fresh) he hw ht)
  · intro s o x hs hw hp ho
    exact runCmd_of_eq hs (State.doWarnStrokeLimit_of_stroke (s := s.fresh) hw hp ho)
  · intro s hs hw hst
    exact runCmd_of_eq hs (State.doWarnDetach_of_late (s := s.fresh) hw hst)
  · intro s t hs hf hw ht
    exact runCmd_of_eq hs (State.doWarnRelease_of_early (s := s.fresh) hf hw ht)

end Sys2Proof.Machine

/-! ### Register pages and fields -/

namespace Sys2Proof.Machine

/-! #### Pages (R461, Table 21-2) -/

/-- A page stands where its block has registers, and not outside Table 21-2. -/
theorem pageBlock_isSome_bounds {t i : Nat} (h : (pageBlock t i).isSome = true) : t < 19 ∧ i < 21 := by
  unfold pageBlock at h
  grind

theorem registerPages_all : ∀ e ∈ registerPages, (pageBlock e.1 e.2).isSome = true := by decide +kernel

theorem mem_registerPages_of_bounds : ∀ (t : Fin 19) (i : Fin 21),
    (pageBlock t i).isSome = true → (t.val, i.val) ∈ registerPages := by
  decide +kernel

theorem mem_registerPages_iff {t i : Nat} : (t, i) ∈ registerPages ↔ (pageBlock t i).isSome = true := by
  constructor
  · exact registerPages_all (t, i)
  · intro h
    obtain ⟨ht, hi⟩ := pageBlock_isSome_bounds h
    exact mem_registerPages_of_bounds ⟨t, ht⟩ ⟨i, hi⟩ h

/-- Only the end-points' block has more than 16 pages. -/
theorem page_bounds : ∀ e ∈ registerPages, 1 ≤ e.1 ∧ e.1 < 19 ∧ e.2 < (if e.1 = 6 then 21 else 16) := by decide +kernel

/-- Every address of a page is found there. -/
theorem pageOf_pageBase_add {t i off : Nat} (h : (t, i) ∈ registerPages) (ho : off < 0x1000) :
    pageOf (pageBase t i + off) = some (t, i, off) := by
  obtain ⟨h1, h19, hi⟩ := page_bounds _ h
  dsimp only at h1 h19 hi
  have hb := mem_registerPages_iff.1 h
  unfold pageBase
  by_cases h7 : t = 7
  · subst h7
    rw [if_pos rfl]
    exact pageOf_of_att rfl ho hi
  · rw [if_neg h7]
    by_cases h6 : t = 6 ∧ 16 ≤ i
    · obtain ⟨rfl, h16⟩ := h6
      rw [if_pos rfl] at hi
      obtain ⟨k, rfl⟩ := Nat.exists_eq_add_of_le h16
      exact pageOf_of_rep (by omega) ho (by omega)
    · have hi' : i < 16 := by split at hi <;> omega
      exact pageOf_of_eq (pg := 16 * t + i) (by omega) ho (by omega) (by omega) (by omega) h7 (by omega) hb

/-- Where a page is found, the address lies in it. -/
theorem page_of_pageOf {a t i off : Nat} (h : pageOf a = some (t, i, off)) :
    (t, i) ∈ registerPages ∧ a = pageBase t i + off ∧ off < 0x1000 := by
  unfold pageOf at h
  split at h
  · cases h
  · next hlo =>
    dsimp only at h
    split at h
    · next h7 =>
      split at h
      · next hi =>
        obtain ⟨rfl, rfl, rfl⟩ : 6 = t ∧ _ = i ∧ _ = off := by simpa using h
        refine ⟨mem_registerPages_iff.2 ?_, ?_, by omega⟩
        · rw [pageBlock, if_pos (by omega)]
          rfl
        · rw [pageBase, if_neg (by decide)]
          omega
      · cases h
    · next hn7 =>
      split at h
      · next h17 =>
        obtain ⟨rfl, rfl, rfl⟩ : 7 = t ∧ _ = i ∧ _ = off := by simpa using h
        refine ⟨mem_registerPages_iff.2 ?_, ?_, by omega⟩
        · rw [pageBlock, if_pos (by omega)]
          rfl
        · rw [pageBase, if_pos rfl]
          omega
      · split at h
        · cases h
        · split at h
          · next hb =>
            obtain ⟨rfl, rfl, rfl⟩ : _ = t ∧ _ = i ∧ _ = off := by simpa using h
            refine ⟨mem_registerPages_iff.2 (by rw [hb]; rfl), ?_, by omega⟩
            rw [pageBase, if_neg hn7]
            omega
          · cases h

theorem pageBase_of_page : ∀ e ∈ registerPages,
    pageBase e.1 e.2 = (if e.1 = 7 then 0x1170000 + (e.2 <<< 12) else 0x1000000 + (e.1 <<< 16) + (e.2 <<< 12)) := by
  intro e _
  rw [pageBase, Nat.shiftLeft_eq, Nat.shiftLeft_eq, Nat.mul_comm e.1, Nat.mul_comm e.2]

/-! #### Registers -/

/-- What a register found at an address says of the address. -/
theorem State.of_regAt {s : State} {a t i off : Nat} {fs : List FieldDesc} (h : s.regAt a = some (t, i, off, fs)) :
    pageOf a = some (t, i, off) ∧ regFields a = some fs ∧ s.regPresent t i off = true := by
  unfold State.regAt at h
  cases hp : pageOf a with
  | none => simp [hp] at h
  | some v =>
    obtain ⟨t', i', off'⟩ := v
    cases hf : regFields a with
    | none => simp [hp, hf] at h
    | some l =>
      simp only [hp, hf] at h
      split at h
      · next hpr =>
        obtain ⟨rfl, rfl, rfl, rfl⟩ : t' = t ∧ i' = i ∧ off' = off ∧ l = fs := by simpa using h
        exact ⟨rfl, rfl, hpr⟩
      · cases h

/-- A register away from the attach ports' pages is always present. -/
theorem State.regAt_of_not_att (s : State) {a t i off : Nat} {fs : List FieldDesc} (hp : pageOf a = some (t, i, off))
    (hf : regFields a = some fs) (ht : t ≠ 7) : s.regAt a = some (t, i, off, fs) := by
  have hpr : s.regPresent t i off = true := by simp [State.regPresent, ht]
  rw [State.regAt, hp, hf]
  exact if_pos hpr

theorem eq_of_accessReg {a : Nat} (h : accessReg a = true) :
    a = Reg.MGT_CIM_ACC ∨ a = Reg.MGT_CAGE_ACC ∨ a = Reg.PWR_PMB_ACC := by
  simpa [accessReg, or_assoc] using h

/-- Every access register is a register. -/
theorem State.regAt_ne_none_of_accessReg (s : State) {a : Nat} (h : accessReg a = true) : s.regAt a ≠ none := by
  have hreg : ∀ b, b = Reg.MGT_CIM_ACC ∨ b = Reg.MGT_CAGE_ACC ∨ b = Reg.PWR_PMB_ACC →
      ∃ t i off fs, pageOf b = some (t, i, off) ∧ regFields b = some fs ∧ t ≠ 7 := by
    rintro _ (rfl | rfl | rfl)
    · exact ⟨16, 0, 0x130, _, rfl, rfl, by decide⟩
    · exact ⟨16, 0, 0x140, _, rfl, rfl, by decide⟩
    · exact ⟨15, 0, 0x300, _, rfl, rfl, by decide⟩
  obtain ⟨t, i, off, fs, hp, hf, ht⟩ := hreg a (eq_of_accessReg h)
  rw [s.regAt_of_not_att hp hf ht]
  exact Option.some_ne_none _

/-! #### Accesses to an address without a register (R461) -/

theorem State.accessAux_of_not_access (s : State) {a : Nat} (h : accessReg a = false) : s.accessAux a = (none, s) := by
  rw [State.accessAux, h]
  rfl

theorem State.busWrite_of_no_register {s : State} {a : Nat} (h : s.regAt a = none) (p : Path) (data : Word) :
    s.busWrite p a data = (false, s) := by
  have hacc : accessReg a = false := by
    by_contra hn
    exact s.regAt_ne_none_of_accessReg (by simpa using hn) h
  rw [State.busWrite, s.accessAux_of_not_access hacc]
  simp only [State.regWrite, h]

theorem bytesAt_replicate_zero (n i k : Nat) : bytesAt (List.replicate n 0) i k = 0 := by
  have hz : ∀ l : List Byte, (∀ b ∈ l, b = 0) → ofBytesLE l = 0 := by
    intro l hl
    induction l with
    | nil => rfl
    | cons b l ih => rw [ofBytesLE, ih (fun c hc => hl c (List.mem_cons_of_mem _ hc)), hl b List.mem_cons_self]; rfl
  refine hz _ (fun b hb => ?_)
  simp only [sliceD, List.mem_append, List.mem_replicate] at hb
  obtain hb | ⟨-, hb⟩ := hb
  · exact (List.mem_replicate.1 (List.mem_of_mem_drop (List.mem_of_mem_take hb))).2
  · exact hb

theorem State.busRead_of_no_register {s : State} {a : Nat} (h : s.regAt a = none) : s.busRead a = (0x01, 0, s) := by
  have hg : s.readGranule a = ({ data := List.replicate 32 0 }, s) := by rw [State.readGranule, h]; rfl
  simp only [State.busRead, hg, bytesAt_replicate_zero]
  rfl

/-! #### A path's access of 8 bytes -/

theorem State.pathRead_of_open {s s' : State} {p : Path} {a st : Nat} {v : Word} (ho : s.pathOpen p = true)
    (hb : badAccess p a = false) (hr : s.busRead a = (st, v, s')) : s.pathRead p a = s'.answerPath p false st v := by
  rw [State.pathRead, ho, hb, hr]
  rfl

/-- A register write whose answer the command does not name is the write on the bus, answered. -/
theorem State.doRegisterWrite_of_open {s s' : State} {p : Path} {addr : BitVec 32} {data : Word} {gone : Bool}
    (ho : s.pathOpen p = true) (hb : badAccess p addr.toNat = false) (hw : s.busWrite p addr.toNat data = (gone, s')) :
    s.doRegisterWrite p ⟨addr, 8⟩ data = s'.answerPath p true (if gone && p == .fabric then 0x23 else 0x01) 0 := by
  have ho' : (s.accessAux addr.toNat).2.pathOpen p = true := by
    rw [State.accessAux]
    split
    · exact ho
    · exact ho
  have hw' : (s.accessAux addr.toNat).2.regWrite p addr.toNat data (s.accessAux addr.toNat).1 = (gone, s') := hw
  simp only [State.doRegisterWrite, ne_eq, not_true_eq_false, if_false, State.pathWrite, ho', hb, hw', Bool.not_true,
    Bool.false_eq_true]

/-- Settles O12: the pages are told from their instances, and where no register is nothing is read or written. -/
theorem registerPageMap : Obligations.RegisterPageMap := by
  unfold Obligations.RegisterPageMap
  refine ⟨by decide +kernel, pageBase_of_page, ?_, ?_, by decide +kernel, ?_⟩
  · exact fun e he off ho => pageOf_pageBase_add he ho
  · intro a e off h
    obtain ⟨hm, ha, -⟩ := page_of_pageOf h
    exact ⟨hm, ha⟩
  · intro s p addr hs ho hb hn
    refine ⟨?_, fun data => ?_⟩
    · exact runCmd_of_eq hs (State.pathRead_of_open (s := s.fresh) ho hb (State.busRead_of_no_register hn))
    · have hw := State.busWrite_of_no_register (s := s.fresh) hn p data
      refine runCmd_of_eq hs ((State.doRegisterWrite_of_open (s := s.fresh) ho hb hw).trans ?_)
      rfl

end Sys2Proof.Machine

/-! ### What a write and a clearing read make of a field -/

namespace Sys2Proof.Machine

/-! #### Every register's fields lie apart (Tables 2-9 to 21-7) -/

/-- Two fields share no bit. -/
def FieldDesc.apart (f g : FieldDesc) : Bool := decide (f.hi < g.lo ∨ g.hi < f.lo)

/-- Fields of a 64-bit register that lie apart from one another. -/
def tidyFields : List FieldDesc → Bool
  | [] => true
  | f :: fs => decide (f.lo ≤ f.hi ∧ f.hi < 64) && fs.all f.apart && tidyFields fs

theorem tidyFields_cons {f : FieldDesc} {fs : List FieldDesc} :
    tidyFields (f :: fs) = true ↔
      (f.lo ≤ f.hi ∧ f.hi < 64) ∧ (∀ g ∈ fs, f.hi < g.lo ∨ g.hi < f.lo) ∧ tidyFields fs = true := by
  simp [tidyFields, FieldDesc.apart, and_assoc]

theorem tidyFields_pageHeader : ∀ d ∈ pageHeader, tidyFields d.fields = true := by decide +kernel

theorem tidyFields_pages : registerPages.all (fun e => ((pageBlock e.1 e.2).getD []).all (fun d => tidyFields d.fields)) = true := by
  decide +kernel

theorem tidyFields_pageBlock {t i : Nat} {ds : List RegDesc} (h : pageBlock t i = some ds) :
    ∀ d ∈ ds, tidyFields d.fields = true := by
  have hm : (t, i) ∈ registerPages := mem_registerPages_iff.2 (by rw [h]; rfl)
  have hall := List.all_eq_true.1 tidyFields_pages _ hm
  rw [h] at hall
  exact List.all_eq_true.1 hall

theorem findDesc_mem {off : Nat} {ds : List RegDesc} {d : RegDesc} (h : findDesc off ds = some d) : d ∈ ds := by
  induction ds with
  | nil => cases h
  | cons e ds ih =>
    have hstep : findDesc off (e :: ds) = some e ∨ findDesc off (e :: ds) = findDesc off ds := ite_eq_or_eq _ _ _
    obtain hs | hs := hstep
    · obtain rfl : e = d := Option.some.inj (hs.symm.trans h)
      exact List.mem_cons_self
    · exact List.mem_cons_of_mem _ (ih (hs.symm.trans h))

/-- The fields found at an address are those of a layout of its page's header or of its block. -/
theorem regFields_eq_some {a : Nat} {fs : List FieldDesc} (h : regFields a = some fs) :
    ∃ t i off ds d, pageOf a = some (t, i, off) ∧ findDesc off ds = some d ∧ fs = d.fields ∧
      (ds = pageHeader ∨ pageBlock t i = some ds) := by
  unfold regFields at h
  cases hp : pageOf a with
  | none => simp [hp] at h
  | some v =>
    obtain ⟨t, i, off⟩ := v
    simp only [hp] at h
    split at h
    · obtain ⟨d, hd, rfl⟩ := Option.map_eq_some_iff.1 h
      exact ⟨t, i, off, pageHeader, d, rfl, hd, rfl, .inl rfl⟩
    · split at h
      · next ds hb =>
        obtain ⟨d, hd, rfl⟩ := Option.map_eq_some_iff.1 h
        exact ⟨t, i, off, ds, d, rfl, hd, rfl, .inr hb⟩
      · cases h

theorem tidyFields_of_regFields {a : Nat} {fs : List FieldDesc} (h : regFields a = some fs) : tidyFields fs = true := by
  obtain ⟨t, i, off, ds, d, -, hd, rfl, hds | hds⟩ := regFields_eq_some h
  · exact tidyFields_pageHeader d (hds ▸ findDesc_mem hd)
  · exact tidyFields_pageBlock hds d (findDesc_mem hd)

/-! #### A value made field by field -/

/-- `v` and `w` agree in the bits of field `f`. -/
def FieldDesc.agree (f : FieldDesc) (v w : Word) : Prop := ∀ k, f.lo ≤ k → k ≤ f.hi → v.getLsbD k = w.getLsbD k

theorem FieldDesc.agree.trans {f : FieldDesc} {u v w : Word} (h1 : f.agree u v) (h2 : f.agree v w) : f.agree u w :=
  fun k hl hh => (h1 k hl hh).trans (h2 k hl hh)

theorem FieldDesc.agree.fieldGet {f : FieldDesc} {v w : Word} (h : f.agree v w) :
    fieldGet v f.hi f.lo = fieldGet w f.hi f.lo := fieldGet_congr h

/-- `upd`, which takes a value field by field, changes a field's own bits alone. -/
def KeepsOthers (upd : Word → FieldDesc → Word) : Prop :=
  ∀ v g, g.lo ≤ g.hi → g.hi < 64 → ∀ k, k < g.lo ∨ g.hi < k → (upd v g).getLsbD k = v.getLsbD k

/-- Fields that lie apart from `f` leave it as it was. -/
theorem foldl_agree_of_apart {upd : Word → FieldDesc → Word} (hu : KeepsOthers upd) {f : FieldDesc} {fs : List FieldDesc}
    (ht : tidyFields fs = true) (ha : ∀ g ∈ fs, f.hi < g.lo ∨ g.hi < f.lo) (v : Word) : f.agree (fs.foldl upd v) v := by
  induction fs generalizing v with
  | nil => exact fun _ _ _ => rfl
  | cons g fs ih =>
    obtain ⟨⟨hlh, h64⟩, -, ht'⟩ := tidyFields_cons.1 ht
    refine (ih ht' (fun x hx => ha x (List.mem_cons_of_mem _ hx)) (upd v g)).trans (fun k hl hh => hu v g hlh h64 k ?_)
    have := ha g List.mem_cons_self
    omega

/-- A field of a register ends up as its own step made it, from a value that agreed in it with the first. -/
theorem exists_agree_foldl {upd : Word → FieldDesc → Word} (hu : KeepsOthers upd) {f : FieldDesc} {fs : List FieldDesc}
    (ht : tidyFields fs = true) (hf : f ∈ fs) (v : Word) : ∃ u, f.agree u v ∧ f.agree (fs.foldl upd v) (upd u f) := by
  induction fs generalizing v with
  | nil => cases hf
  | cons g fs ih =>
    obtain ⟨⟨hlh, h64⟩, ha, ht'⟩ := tidyFields_cons.1 ht
    obtain rfl | hf := List.mem_cons.1 hf
    · exact ⟨v, fun _ _ _ => rfl, foldl_agree_of_apart hu ht' ha _⟩
    · obtain ⟨u, h1, h2⟩ := ih ht' hf (upd v g)
      refine ⟨u, h1.trans (fun k hl hh => hu v g hlh h64 k ?_), h2⟩
      have := ha f hf
      omega

theorem tidyFields_mem {fs : List FieldDesc} (ht : tidyFields fs = true) {f : FieldDesc} (hf : f ∈ fs) :
    f.lo ≤ f.hi ∧ f.hi < 64 := by
  induction fs with
  | nil => cases hf
  | cons g fs ih =>
    obtain ⟨hg, -, ht'⟩ := tidyFields_cons.1 ht
    obtain rfl | hf := List.mem_cons.1 hf
    · exact hg
    · exact ih ht' hf

theorem getLsbD_fieldPut_of_outside (v : Word) (x : Nat) {hi lo k : Nat} (h : lo ≤ hi) (h64 : hi < 64) (hk : k < lo ∨ hi < k) :
    (fieldPut v hi lo x).getLsbD k = v.getLsbD k := by
  rw [getLsbD_fieldPut v x k h h64, if_neg (by omega)]

/-! #### A write, field by field (R463, R473) -/

/-- What a write makes of one field of value `v`. -/
def writeField (closed : FieldDesc → Nat) (old data v : Word) (f : FieldDesc) : Word :=
  if closed f ≠ 0 then v
  else match f.acc with
    | .rw | .rwl => fieldPut v f.hi f.lo (fieldGet data f.hi f.lo)
    | .w1c => fieldPut v f.hi f.lo (fieldGet old f.hi f.lo - (fieldGet old f.hi f.lo &&& fieldGet data f.hi f.lo))
    | .ro | .rc | .w1s | .wo => v

theorem nextValue_eq_foldl (closed : FieldDesc → Nat) (fs : List FieldDesc) (old data : Word) :
    nextValue closed fs old data = fs.foldl (writeField closed old data) old := by
  have hstep : (fun (v : Word) (f : FieldDesc) =>
      let d := fieldGet data f.hi f.lo
      let o := fieldGet old f.hi f.lo
      if closed f ≠ 0 then v
      else match f.acc with
        | .rw => fieldPut v f.hi f.lo d
        | .rwl => fieldPut v f.hi f.lo d
        | .w1c => fieldPut v f.hi f.lo (o - (o &&& d))
        | .ro => v
        | .rc => v
        | .w1s => v
        | .wo => v) = writeField closed old data := by
    funext v f
    obtain ⟨hi, lo, acc, r⟩ := f
    cases acc <;> rfl
  rw [← hstep]
  rfl

theorem keepsOthers_writeField (closed : FieldDesc → Nat) (old data : Word) : KeepsOthers (writeField closed old data) := by
  intro v g hlh h64 k hk
  unfold writeField
  split
  · rfl
  · split
    · exact getLsbD_fieldPut_of_outside _ _ hlh h64 hk
    · exact getLsbD_fieldPut_of_outside _ _ hlh h64 hk
    · exact getLsbD_fieldPut_of_outside _ _ hlh h64 hk
    all_goals rfl

theorem writeField_of_kept {closed : FieldDesc → Nat} {f : FieldDesc}
    (h : closed f ≠ 0 ∨ f.acc = .ro ∨ f.acc = .rc ∨ f.acc = .w1s ∨ f.acc = .wo) (old data v : Word) :
    writeField closed old data v f = v := by
  unfold writeField
  by_cases hc : closed f ≠ 0
  · exact if_pos hc
  · rw [if_neg hc]
    obtain h | h | h | h | h := h
    · exact absurd h hc
    all_goals rw [h]

theorem writeField_of_taken {closed : FieldDesc → Nat} {f : FieldDesc} (hc : closed f = 0) (h : f.acc = .rw ∨ f.acc = .rwl)
    (old data v : Word) : writeField closed old data v f = fieldPut v f.hi f.lo (fieldGet data f.hi f.lo) := by
  rw [writeField, if_neg (not_not.2 hc)]
  obtain h | h := h
  all_goals rw [h]

theorem writeField_of_w1c {closed : FieldDesc → Nat} {f : FieldDesc} (hc : closed f = 0) (h : f.acc = .w1c) (old data v : Word) :
    writeField closed old data v f =
      fieldPut v f.hi f.lo (fieldGet old f.hi f.lo - (fieldGet old f.hi f.lo &&& fieldGet data f.hi f.lo)) := by
  rw [writeField, if_neg (not_not.2 hc), h]

/-- What is left of a number without the bits it shares with another. -/
theorem testBit_sub_and (x y k : Nat) : (x - (x &&& y)).testBit k = (x.testBit k && !y.testBit k) := by
  induction k generalizing x y with
  | zero =>
    have hm : (x &&& y) % 2 = 1 ↔ x % 2 = 1 ∧ y % 2 = 1 := Nat.and_mod_two_eq_one
    have hle : (x &&& y) ≤ x := Nat.and_le_left
    have hsub : (x - (x &&& y)) % 2 = 1 ↔ x % 2 = 1 ∧ ¬ y % 2 = 1 := by omega
    simp only [Nat.testBit_zero, hsub, Bool.decide_and, decide_not]
  | succ k ih =>
    have hm : (x &&& y) % 2 = 1 ↔ x % 2 = 1 ∧ y % 2 = 1 := Nat.and_mod_two_eq_one
    have hd : (x &&& y) / 2 = x / 2 &&& y / 2 := Nat.and_div_two
    have hle : (x / 2 &&& y / 2) ≤ x / 2 := Nat.and_le_left
    have hsub : (x - (x &&& y)) / 2 = x / 2 - (x / 2 &&& y / 2) := by omega
    rw [Nat.testBit_succ, hsub, ih, ← Nat.testBit_succ, ← Nat.testBit_succ]

/-! #### A clearing read, field by field -/

theorem keepsOthers_resetField (p : Access → Bool) (r : Word) :
    KeepsOthers (fun v f => if p f.acc then fieldPut v f.hi f.lo (fieldGet r f.hi f.lo) else v) := by
  intro v g hlh h64 k hk
  dsimp only
  split
  · exact getLsbD_fieldPut_of_outside _ _ hlh h64 hk
  · rfl

theorem fieldGet_resetFields {fs : List FieldDesc} (ht : tidyFields fs = true) {f : FieldDesc} (hf : f ∈ fs) (p : Access → Bool)
    (r v : Word) : fieldGet (resetFields fs p r v) f.hi f.lo = fieldGet (if p f.acc then r else v) f.hi f.lo := by
  obtain ⟨u, hu, hr⟩ := exists_agree_foldl (keepsOthers_resetField p r) ht hf v
  obtain ⟨hlh, h64⟩ := tidyFields_mem ht hf
  rw [resetFields, hr.fieldGet]
  split
  · rw [fieldGet_fieldPut _ _ hlh h64]
    exact Nat.mod_eq_of_lt (bitsOf_lt _ _ _)
  · exact hu.fieldGet

theorem State.fieldClosed_of_locked {s : State} {p : Path} {f : FieldDesc} (hf : f.acc = .rwl) (hl : s.flag F.SEC_LOCK_LOCK = true)
    (hp : Path.management p = false) (t i off : Nat) : s.fieldClosed p t i off f ≠ 0 := by
  unfold State.fieldClosed
  dsimp only
  rw [hp, if_neg Bool.false_ne_true, if_pos (show f.acc = .rwl ∧ s.flag F.SEC_LOCK_LOCK = true from ⟨hf, hl⟩)]
  split
  · decide
  · decide

/-- Settles O13: a register's fields lie apart, so that each ends up as its own step of the write made it. -/
theorem fieldAccessRules : Obligations.FieldAccessRules := by
  unfold Obligations.FieldAccessRules
  refine ⟨?_, ?_, ?_, ?_, ?_⟩
  · intro a fs f closed old data hfs hf hkept
    obtain ⟨u, hu, hr⟩ := exists_agree_foldl (keepsOthers_writeField closed old data) (tidyFields_of_regFields hfs) hf old
    rw [writeField_of_kept hkept] at hr
    rw [nextValue_eq_foldl]
    exact (hr.trans hu).fieldGet
  · intro a fs f closed old data hfs hf hc hacc
    obtain ⟨u, -, hr⟩ := exists_agree_foldl (keepsOthers_writeField closed old data) (tidyFields_of_regFields hfs) hf old
    obtain ⟨hlh, h64⟩ := tidyFields_mem (tidyFields_of_regFields hfs) hf
    rw [nextValue_eq_foldl, hr.fieldGet, writeField_of_taken hc hacc, fieldGet_fieldPut _ _ hlh h64]
    exact Nat.mod_eq_of_lt (bitsOf_lt _ _ _)
  · intro a fs f closed old data k hfs hf hc hacc hl hh
    obtain ⟨u, -, hr⟩ := exists_agree_foldl (keepsOthers_writeField closed old data) (tidyFields_of_regFields hfs) hf old
    obtain ⟨hlh, h64⟩ := tidyFields_mem (tidyFields_of_regFields hfs) hf
    have hk : k - f.lo < f.hi + 1 - f.lo := by omega
    rw [nextValue_eq_foldl, hr k hl hh, writeField_of_w1c hc hacc, getLsbD_fieldPut _ _ _ hlh h64, if_pos ⟨hl, hh⟩,
      testBit_sub_and, testBit_fieldGet, testBit_fieldGet, Nat.add_sub_cancel' hl, decide_eq_true hk, Bool.true_and,
      Bool.true_and]
  · intro a fs f v hfs hf
    rw [fieldGet_resetFields (tidyFields_of_regFields hfs) hf]
    by_cases hacc : f.acc = .rc
    · simp [hacc, fieldGet, bitsOf]
    · simp [hacc]
  · exact fun s p t i off f hf hl hp => State.fieldClosed_of_locked hf hl hp t i off

end Sys2Proof.Machine

/-! ### Accesses to any register and to page headers -/

namespace Sys2Proof.Machine

/-! #### A register read (R461, R463) -/

/-- No injection is armed at the Ilnyx EP's checking point. -/
theorem State.takeInjection_of_not_armed {s : State} {t i : Nat} (h : s.flag (F.PG_INJ_ARM (pageBase t i)) = false) :
    s.takeInjection t i = ([], s) := by
  simp [State.takeInjection, h]

/-- A granule that no injection strikes is delivered as it is. -/
theorem State.ilxGranule_of_not_armed {s : State} (h : s.flag (F.PG_INJ_ARM (pageBase 17 0)) = false) (addr : Nat) {g : Granule}
    (hg : g.data.length = 32) : s.ilxGranule addr g = (g, s) := by
  rw [State.ilxGranule, State.takeInjection_of_not_armed h]
  simp only [State.checkPoint_of_unstruck, applyResidual_errorWord_nil _ hg]

@[simp] theorem regGranule_poison (a : Nat) (v : Word) : (regGranule a v).poison = false := rfl

theorem regGranule_length {a : Nat} (h : a % 8 = 0) (v : Word) : (regGranule a v).data.length = 32 := by
  simp only [regGranule, List.length_append, List.length_replicate, toBytesLE_length]
  omega

/-- The granule that carries a register's value carries it in the register's place. -/
theorem bytesAt_regGranule (a : Nat) (v : Word) : bytesAt (regGranule a v).data (a % 32) 8 = v.toNat := by
  have hpre := bytesAt_append_right (List.replicate (a % 32) 0) (toBytesLE 8 v.toNat ++ List.replicate (24 - a % 32) 0) 0 8
  have hval := bytesAt_append_left (toBytesLE 8 v.toNat) (List.replicate (24 - a % 32) 0)
  rw [List.length_replicate, Nat.add_zero] at hpre
  rw [toBytesLE_length, ofBytesLE_toBytesLE, Nat.mod_eq_of_lt (show v.toNat < 256 ^ 8 from v.isLt)] at hval
  rw [regGranule, List.append_assoc, hpre, hval]

theorem getLsbD_resetFields_zero {fs : List FieldDesc} (ht : tidyFields fs = true) (p : Access → Bool) {v : Word} {k : Nat}
    (hv : v.getLsbD k = false) : (resetFields fs p 0 v).getLsbD k = false := by
  unfold resetFields
  induction fs generalizing v with
  | nil => exact hv
  | cons f fs ih =>
    obtain ⟨⟨hlh, h64⟩, -, ht'⟩ := tidyFields_cons.1 ht
    refine ih ht' ?_
    dsimp only
    split
    · rw [getLsbD_fieldPut _ _ _ hlh h64]
      split
      · rw [testBit_fieldGet]
        simp
      · exact hv
    · exact hv

theorem State.flag_eq_getLsbD (s : State) (f : RField) (h : f.lo = f.hi) : s.flag f = (s.reg f.addr).getLsbD f.lo := by
  have hb : (fieldGet (s.reg f.addr) f.hi f.lo).testBit 0 = (s.reg f.addr).getLsbD f.lo := by
    rw [testBit_fieldGet, h]
    simp
  have hlt : fieldGet (s.reg f.addr) f.hi f.lo < 2 ^ (f.hi + 1 - f.lo) := bitsOf_lt _ _ _
  rw [h, Nat.add_sub_cancel_left, pow_one] at hlt
  rw [State.flag, State.get, ← hb, Nat.testBit_zero, h]
  generalize fieldGet (s.reg f.addr) f.hi f.hi = x at hlt ⊢
  interval_cases x <;> rfl

theorem State.reg_notePeak_of_ne (s : State) {p a : Nat} (h : a ≠ Reg.SWX_P_SPILL p) : (s.notePeak p).reg a = s.reg a := by
  unfold State.notePeak
  dsimp only
  split
  · rw [State.reg_put_of_ne _ _ _ h, State.reg_put_of_ne _ _ _ h]
  · exact State.reg_put_of_ne _ _ _ h

/-- A read sets no bit of a register other than SWX_P_SPILL. -/
theorem State.getLsbD_reg_regCleared {s : State} {a b k : Nat} (hb : ∀ p, p < 1000 → b ≠ Reg.SWX_P_SPILL p)
    (h : (s.reg b).getLsbD k = false) : ((s.regCleared a).reg b).getLsbD k = false := by
  unfold State.regCleared
  cases hr : s.regAt a with
  | none => exact h
  | some v =>
    obtain ⟨t, i, off, fs⟩ := v
    obtain ⟨hp, hf, -⟩ := State.of_regAt hr
    have hset : ((s.setReg a (resetFields fs (fun c => c == .rc) 0 (s.reg a))).reg b).getLsbD k = false := by
      rw [State.reg_setReg]
      split
      · next he =>
        subst he
        exact getLsbD_resetFields_zero (tidyFields_of_regFields hf) _ h
      · exact h
    dsimp only
    split
    · obtain ⟨hm, -, ho⟩ := page_of_pageOf hp
      have hi := (page_bounds _ hm).2.2
      have hi' : i < 21 := lt_of_lt_of_le hi (by dsimp only; split <;> omega)
      rw [State.reg_notePeak_of_ne _ (hb _ (by omega))]
      exact hset
    · exact hset

theorem Reg.PG_INJ_ne_SWX_P_SPILL (p : Nat) (_ : p < 1000) : Reg.PG_INJ (pageBase 17 0) ≠ Reg.SWX_P_SPILL p := by
  have h : Reg.PG_INJ (pageBase 17 0) = 0x1110040 := rfl
  rw [h]
  unfold Reg.SWX_P_SPILL
  omega

/-- A read arms no injection. -/
theorem State.not_armed_regCleared {s : State} (h : s.flag (F.PG_INJ_ARM (pageBase 17 0)) = false) (a : Nat) :
    (s.regCleared a).flag (F.PG_INJ_ARM (pageBase 17 0)) = false := by
  rw [State.flag_eq_getLsbD _ _ rfl] at h ⊢
  exact State.getLsbD_reg_regCleared Reg.PG_INJ_ne_SWX_P_SPILL h

theorem mod_of_badAccess {p : Path} {a : Nat} (h : badAccess p a = false) : a % 8 = 0 := by
  simp only [badAccess, Bool.or_eq_false_iff] at h
  simpa using h.1

/-- A read that no injection strikes brings the value shown, and clears what it clears. -/
theorem State.busRead_of_not_armed {s : State} {a : Nat} (h : s.flag (F.PG_INJ_ARM (pageBase 17 0)) = false) (ha : a % 8 = 0) :
    s.busRead a = (0x01, s.regRead a, s.regCleared a) := by
  cases hr : s.regAt a with
  | none =>
    have hv : s.regRead a = 0 := by simp only [State.regRead, hr]
    have hc : s.regCleared a = s := by simp only [State.regCleared, hr]
    rw [State.busRead_of_no_register hr, hv, hc]
  | some v =>
    have hg : s.readGranule a = (regGranule a (s.regRead a), s.regCleared a) := by
      rw [State.readGranule, hr]
      exact State.ilxGranule_of_not_armed (State.not_armed_regCleared h a) _ (regGranule_length ha _)
    rw [State.busRead, hg]
    simp only [bytesAt_regGranule, regGranule_poison, BitVec.ofNat_toNat, BitVec.setWidth_eq, Bool.false_eq_true, if_false]

/-! #### Accesses that reach no register (R462) -/

theorem State.doRegisterReadClear_of_undefined {s : State} {p : Path} {acc : RegAccess} (ho : s.pathOpen p = true)
    (h : acc.bytes ≠ 8 ∨ badAccess p acc.addr.toNat = true) : s.doRegisterReadClear p acc = s.misaligned p false := by
  by_cases h8 : acc.bytes ≠ 8
  · rw [State.doRegisterReadClear, if_pos h8, if_pos ho]
  · have hb := h.resolve_left h8
    rw [State.doRegisterReadClear, if_neg h8, State.pathRead, ho, hb]
    rfl

/-- An access register lies in the register space, on its boundary. -/
theorem accessReg_of_badAccess {p : Path} {a : Nat} (h : badAccess p a = true) : accessReg a = false := by
  by_contra hn
  have hin : ∀ b, b % 8 = 0 → inRegSpace b = true → badAccess p b = false := by
    intro b hb hs
    simp [badAccess, hb, hs]
  obtain rfl | rfl | rfl := eq_of_accessReg (by simpa using hn)
  all_goals
    rw [hin _ (by decide) (by decide)] at h
    cases h

theorem State.doRegisterWrite_of_undefined {s : State} {p : Path} {acc : RegAccess} (ho : s.pathOpen p = true)
    (h : acc.bytes ≠ 8 ∨ badAccess p acc.addr.toNat = true) (data : Word) :
    s.doRegisterWrite p acc data = s.misaligned p true := by
  by_cases h8 : acc.bytes ≠ 8
  · rw [State.doRegisterWrite, if_pos h8, if_pos ho]
  · have hb := h.resolve_left h8
    rw [State.doRegisterWrite, if_neg h8, State.accessAux_of_not_access _ (accessReg_of_badAccess hb)]
    simp only [State.pathWrite, ho, hb, Bool.not_true, Bool.false_eq_true, if_false, if_true]

/-! #### Page headers (R464 to R469) -/

theorem pageAt_eq_some {t i pg : Nat} (h : pageAt t i = some pg) : (t, i) ∈ registerPages ∧ pageBase t i = pg := by
  unfold pageAt at h
  split at h
  · next hp => exact ⟨(page_of_pageOf hp).1, Option.some.inj h⟩
  · cases h

/-- A write of a header register of a page is the header's rule for it, answered. -/
theorem State.pageWrite_of_open {s s' : State} {p : Path} {t i pg off : Nat} {data : Word} (hp : pageAt t i = some pg)
    (ho : s.writeOpen p (pg + off) data = true) (hoff : off < 0x100)
    (hk : hookHeader t i off s (s.writeOf p (pg + off) data) = s') : s.pageWrite p t i off data = s'.written p := by
  obtain ⟨hm, rfl⟩ := pageAt_eq_some hp
  rw [State.pageWrite, hp]
  exact State.pathWrite_of_open ho (pageOf_pageBase_add hm (by omega)) ((if_pos hoff).trans hk)

section
variable {s : State} {w : RegWrite} {t i : Nat}

theorem State.get_setReg_header (s : State) {off : Nat} (ho : off < 0x100) (v : Word) {f : RField} (hf : 0x100 ≤ f.addr % 0x1000) :
    (s.setReg (pageBase t i + off) v).get f = s.get f := by
  have hb := pageBase_mod t i
  rw [State.get, State.reg_setReg_of_ne s v (by omega), State.get]

/-- What stands in a page's way of a soft reset is in no page header. -/
theorem State.srstOk_setReg_header (s : State) {off : Nat} (ho : off < 0x100) (v : Word) (p : Path) :
    (s.setReg (pageBase t i + off) v).srstOk p t i = s.srstOk p t i := by
  have hget {f : RField} := s.get_setReg_header (t := t) (i := i) ho v (f := f)
  have hflag {f : RField} (hf : 0x100 ≤ f.addr % 0x1000) : (s.setReg (pageBase t i + off) v).flag f = s.flag f :=
    congrArg (· != 0) (hget hf)
  simp only [State.srstOk, State.admitted, State.pageBusy, hflag (f := F.RTE_CTL_ADMIT) (by decide),
    hflag (f := F.PLT_STAT_BUSY) (by decide), hget (f := F.COL_STAT_ACTIVE) (by decide), hget (f := F.SWX_ML_STAT_ACTIVE) (by decide),
    hflag (f := F.HBM_STAT_SWEEP_ACTIVE) (by decide)]
  rfl

theorem hookPgCtl_of_srst {p : Path} (hp : w.path = p) (ha : w.addr = pageBase t i + 0x10) (h : fieldGet w.act 1 1 = 1) :
    hookPgCtl t i s w = if (s.takeWrite w).srstOk p t i then (s.takeWrite w).softReset t i
      else (s.takeWrite w).rejected t i := by
  subst hp
  rw [State.takeWrite, ha, State.srstOk_setReg_header s (by decide), ← ha]
  exact if_pos h

theorem hookPgCtl_of_no_srst (h : fieldGet w.act 1 1 = 0) : hookPgCtl t i s w = s.takeWrite w :=
  if_neg (by omega)

theorem hookPgInj_of_symbols (hk : w.newF (F.PG_INJ_KIND (pageBase t i)) ≤ 3) (hp : injSymPage t i = true) :
    hookPgInj t i s w = s.takeWrite w := by
  unfold hookPgInj
  dsimp only
  split
  · rfl
  · have hno : ¬ (4 < w.newF (F.PG_INJ_KIND (pageBase t i)) ∨
        (1 ≤ w.newF (F.PG_INJ_KIND (pageBase t i)) ∧ w.newF (F.PG_INJ_KIND (pageBase t i)) ≤ 3 ∧ injSymPage t i = false)) := by
      rw [hp]
      rintro (h | ⟨-, -, h⟩)
      · omega
      · cases h
    rw [if_neg hno, if_neg (by omega)]

theorem hookPgInj_of_code {cls : Nat} (ha : w.newF (F.PG_INJ_ARM (pageBase t i)) = 1)
    (hk : w.newF (F.PG_INJ_KIND (pageBase t i)) = 4) (hc : codeClass (w.newF (F.PG_INJ_CODE (pageBase t i))) = some cls) :
    hookPgInj t i s w = ((s.takeWrite w).putFlag (F.PG_INJ_ARM (pageBase t i)) false).injectEvent t i
      (w.newF (F.PG_INJ_CODE (pageBase t i))) cls := by
  unfold hookPgInj
  dsimp only
  rw [if_neg (by omega), if_neg (by omega), if_pos hk, hc]

end

/-- Settles O58: an access reaches its register, or is handled as its path gives; a header's write is the header's rule. -/
theorem registerCommandsComplete : Obligations.RegisterCommandsComplete := by
  unfold Obligations.RegisterCommandsComplete
  refine ⟨?_, ?_, ?_, ?_, ?_, ?_, ?_, ?_⟩
  · intro s t p addr data gone hs ho hb hw
    exact runCmd_of_eq hs (State.doRegisterWrite_of_open (s := s.fresh) ho hb hw)
  · intro s p addr hs ho hb ha
    exact runCmd_of_eq hs (State.pathRead_of_open (s := s.fresh) ho hb
      (State.busRead_of_not_armed (s := s.fresh) ha (mod_of_badAccess hb)))
  · intro s p acc data hs ho h
    exact ⟨runCmd_of_eq hs (State.doRegisterReadClear_of_undefined (s := s.fresh) ho h),
      runCmd_of_eq hs (State.doRegisterWrite_of_undefined (s := s.fresh) ho h data)⟩
  · rintro s p t i data _ hs hp ho rfl hact
    exact runCmd_of_eq hs (State.pageWrite_of_open (s := s.fresh) hp ho (by decide)
      (hookPgCtl_of_srst (State.writeOf_path _ _ _ _) (State.writeOf_addr _ _ _ _) hact))
  · rintro s p t i data _ hs hp ho rfl hact
    exact runCmd_of_eq hs (State.pageWrite_of_open (s := s.fresh) hp ho (by decide) (hookPgCtl_of_no_srst hact))
  · rintro s p t i data _ hs hp ho rfl hk hsym
    exact runCmd_of_eq hs (State.pageWrite_of_open (s := s.fresh) hp ho (by decide) (hookPgInj_of_symbols hk hsym))
  · rintro s p t i data _ _ cls hs hp rfl ho rfl ha hk hc
    exact runCmd_of_eq hs (State.pageWrite_of_open (s := s.fresh) hp ho (by decide) (hookPgInj_of_code ha hk hc))
  · intro s p t i data hs hp ho
    exact runCmd_of_eq hs (State.pageWrite_of_open (s := s.fresh) hp ho (by decide) rfl)

end Sys2Proof.Machine

/-! ### What follows in a calm device -/

namespace Sys2Proof.Machine

/-! A STATUS byte of a send descriptor may wait for a slot of HBM (R16), and `State.quiet` does not ask that none waits: it is stored
when the next command settles, whatever that command is. -/

/-- A calm device, HBM open, with such a byte waiting for offset 0, and a telemetry ring at offset 4,096. -/
def dueDevice : State :=
  { State.reset.put F.HBM_STAT_INIT_DONE 1 with
    up := { pllLocked := true }
    msg := { State.reset.msg with statusDue := [(0, 1)] }
    ilx := { State.reset.ilx with ring := some (4096, 0) } }

theorem dueDevice_steady : dueDevice.steady := by decide +kernel

/-- A STATUS byte waits in the state that a command answers. -/
def statusWaits : Host.Outcome State Fault Refusal → Bool
  | .next t => !t.msg.statusDue.isEmpty
  | .fault _ => false
  | .refused _ => false

/-- The byte at offset 0 in the state that a command answers. -/
def firstByte : Host.Outcome State Fault Refusal → Byte
  | .next t => t.memByte 0
  | .fault _ => 0
  | .refused _ => 0

theorem statusWaits_of_msg {t : State} (h : t.msg = dueDevice.msg) : statusWaits (.next t) = true := by
  rw [statusWaits, h]
  rfl

theorem statusWaits_settled : statusWaits (.next dueDevice.settled) = false := by decide +kernel

theorem statusWaits_seal : statusWaits (.next dueDevice.seal) = true := by decide +kernel

theorem statusWaits_headHWrite : statusWaits (exec (.headHWrite .chain 0) dueDevice) = false := by decide +kernel

theorem statusWaits_arrayRampEnd : statusWaits (exec .arrayRampEnd dueDevice) = false := by decide +kernel

theorem firstByte_telemetrySample : firstByte (exec (.telemetrySample 0 0) dueDevice) = 1 := by decide +kernel

theorem memByte_dueDevice : dueDevice.memByte 0 = 0 := by decide +kernel

/-- Refutes O16: in a calm device whose HBM has a slot, a STATUS byte that waits is stored as a command settles, beside the status
fields. -/
theorem not_nothingFollowsInACalmDevice : ¬ Obligations.NothingFollowsInACalmDevice := by
  rintro ⟨hcalm, -⟩
  have h := statusWaits_settled
  rw [hcalm dueDevice dueDevice_steady.1, statusWaits_seal] at h
  exact absurd h (by decide)

/-- Refutes O17: the write of HEAD_H stores a STATUS byte that waits, so that it changes more than its register. -/
theorem not_registerWriteFrames : ¬ Obligations.RegisterWriteFrames := by
  intro h
  obtain ⟨t, ht⟩ := everyCommandCompletes (.headHWrite .chain 0) dueDevice
  obtain ⟨-, hframe⟩ := (h dueDevice t .chain 0 dueDevice_steady).1 (by decide +kernel) ht
  have hw := statusWaits_headHWrite
  rw [ht, statusWaits_of_msg (by rw [hframe])] at hw
  exact absurd hw (by decide)

/-- Refutes O18: the end of an array's ramp stores a STATUS byte that waits, so that it changes more than PWR_STAT. -/
theorem not_eventFrames : ¬ Obligations.EventFrames := by
  intro h
  obtain ⟨t, ht⟩ := everyCommandCompletes .arrayRampEnd dueDevice
  obtain ⟨-, -, -, -, hramp, -⟩ := h dueDevice t dueDevice_steady
  obtain ⟨-, hframe⟩ := hramp ht
  have hw := statusWaits_arrayRampEnd
  rw [ht, statusWaits_of_msg (by rw [hframe])] at hw
  exact absurd hw (by decide)

/-- Refutes O19: a telemetry sample stores a STATUS byte that waits, at an offset outside the record. -/
theorem not_telemetryFrame : ¬ Obligations.TelemetryFrame := by
  intro h
  obtain ⟨t, ht⟩ := everyCommandCompletes (.telemetrySample 0 0) dueDevice
  obtain ⟨hbytes, -, -⟩ := h dueDevice t 0 0 4096 0 dueDevice_steady rfl rfl (by decide +kernel) rfl ht
  have hb := firstByte_telemetrySample
  rw [ht, firstByte, hbytes 0 (.inl (by decide)), memByte_dueDevice] at hb
  exact absurd hb (by decide)

end Sys2Proof.Machine

/-! ### Ilnyx cores, mailboxes and control kernels -/

namespace Sys2Proof.Machine

/-! #### The region of an access (Table 15-1) -/

section
variable {s : State} {pa n : Nat}

/-- Above the cores' own memory lie the windows alone. -/
theorem State.corePlace_of_high (h : 2 ^ 55 ≤ pa) :
    s.corePlace pa n =
      if pa + n ≤ 2 ^ 55 + 2 ^ 50 ∧ pa % 2 ^ 44 + n ≤ 2 ^ 44 then some (.window ((pa - 2 ^ 55) / 2 ^ 44)) else none := by
  have hmin : min s.privateSize (2 ^ 36) ≤ 2 ^ 36 := Nat.min_le_right _ _
  rw [State.corePlace, if_neg (by omega), if_neg (by omega), if_neg (by omega)]
  simp only [h, true_and]

/-- An aligned access of up to 8 bytes lies in one window. -/
theorem State.corePlace_of_window {w : Nat} (h : 2 ^ 55 ≤ pa) (hw : (pa - 2 ^ 55) / 2 ^ 44 = w) (hw64 : w < 64)
    (hk : [1, 2, 4, 8].contains n = true) (ha : pa % n = 0) : s.corePlace pa n = some (.window w) := by
  have hn : n = 1 ∨ n = 2 ∨ n = 4 ∨ n = 8 := by simpa using hk
  have hfit : pa + n ≤ 2 ^ 55 + 2 ^ 50 ∧ pa % 2 ^ 44 + n ≤ 2 ^ 44 := by
    obtain rfl | rfl | rfl | rfl := hn
    all_goals omega
  rw [State.corePlace_of_high h, if_pos hfit, hw]

theorem State.corePlace_of_regs (h : 0x1000000 ≤ pa) (hn : pa + n ≤ 0x5000000) (h0 : 0 < n) : s.corePlace pa n = some .regs := by
  rw [State.corePlace, if_neg (by omega), if_pos ⟨h, hn⟩]

theorem State.corePlace_of_private {x : Nat} (hpa : pa = 0x1000000000 + x) (hx : x + n ≤ min s.privateSize (2 ^ 36)) :
    s.corePlace pa n = some (.priv x) := by
  subst hpa
  rw [State.corePlace, if_neg (by omega), if_neg (by omega), if_pos (by omega), Nat.add_sub_cancel_left]

end

/-! #### Whether a part raises an access fault -/

section
variable {s : State} {p : CorePart}

theorem State.partOk_of_window {w : Nat} (hp : s.corePlace p.pa p.bytes = some (.window w)) (hv : s.flag (F.ILX_FWIN_A_VALID w) = true)
    (ha : p.aligned = true) (hk : p.kind = .plain ∨ p.kind = .vector ∨ p.kind = .amo) : s.partOk p = true := by
  rw [State.partOk, hp]
  dsimp only
  rw [hv, ha]
  obtain hk | hk | hk := hk
  all_goals
    rw [hk]
    rfl

/-- What a part in a window cannot do without a fault: go through a window that is not valid, be misaligned, or be of a kind that
windows do not take. -/
theorem State.partOk_of_high (h : 2 ^ 55 ≤ p.pa)
    (hf : s.flag (F.ILX_FWIN_A_VALID ((p.pa - 2 ^ 55) / 2 ^ 44)) = false ∨ p.aligned = false ∨ p.kind = .amoW ∨ p.kind = .lr ∨
      p.kind = .sc) : s.partOk p = false := by
  rw [State.partOk, State.corePlace_of_high h]
  by_cases hin : p.pa + p.bytes ≤ 2 ^ 55 + 2 ^ 50 ∧ p.pa % 2 ^ 44 + p.bytes ≤ 2 ^ 44
  · rw [if_pos hin]
    dsimp only
    obtain hf | hf | hf | hf | hf := hf
    · rw [hf, Bool.false_and, Bool.false_and]
    · rw [hf, Bool.and_false, Bool.false_and]
    all_goals rw [hf, Bool.and_false]
  · rw [if_neg hin]

theorem State.partOk_of_regs (hp : s.corePlace p.pa p.bytes = some .regs) :
    s.partOk p = (p.kind == .plain && p.bytes == 8 && p.pa % 8 == 0) := by
  rw [State.partOk, hp]

theorem State.partOk_of_private_plain {x : Nat} (hp : s.corePlace p.pa p.bytes = some (.priv x)) (hk : p.kind = .plain) :
    s.partOk p = true := by
  rw [State.partOk, hp]
  dsimp only
  rw [hk]

theorem State.partOk_of_private_sc {x : Nat} (hp : s.corePlace p.pa p.bytes = some (.priv x)) (hk : p.kind = .sc)
    (hs : [4, 8].contains p.size = true) (ha : p.pa % p.size = 0) : s.partOk p = true := by
  have hs' : (p.size == 4 || p.size == 8) = true := by simpa using hs
  rw [State.partOk, hp]
  dsimp only
  rw [hk]
  dsimp only
  rw [hs', ha]
  rfl

end

theorem aligned_of_size {k pa : Nat} (hk : [1, 2, 4, 8].contains k = true) (ha : pa % k = 0) (kind : CoreKind) (op n : Nat)
    (d : List Byte) : CorePart.aligned { kind := kind, op := op, pa := pa, bytes := n, size := k, data := d } = true := by
  have hk' : (k == 1 || k == 2 || k == 4 || k == 8) = true := by simpa [or_assoc] using hk
  rw [CorePart.aligned]
  dsimp only
  rw [hk', ha]
  rfl

/-! #### An access of a core (R339 to R343) -/

section
variable {s : State} {n : Fin 32} {pa : BitVec 64} {access : CoreAccess}

/-- An access that the G-stage of a kernel stops. -/
theorem State.doFabricWindowAccess_of_not_mapped {k : Kernel} (hk : s.kernelOn n = some k)
    (hm : (coreParts pa.toNat access).all k.maps = false) :
    s.doFabricWindowAccess n pa access = s.coreException n (if coreWrites access then 23 else 21) := by
  rw [State.doFabricWindowAccess, hk]
  exact if_pos (by simp only [Option.map_some, Option.getD_some, hm, Bool.not_false])

/-- Firmware's access that raises an access fault. -/
theorem State.doFabricWindowAccess_of_fault (hk : s.kernelOn n = none) (hf : (coreParts pa.toNat access).all s.partOk = false) :
    s.doFabricWindowAccess n pa access = s.coreException n (if coreWrites access then 7 else 5) := by
  rw [State.doFabricWindowAccess, hk, hf]
  rfl

/-- Firmware's access that raises none, where HBM has the slot that the cores' own memory needs. -/
theorem State.doFabricWindowAccess_of_ok (hk : s.kernelOn n = none) (hf : (coreParts pa.toNat access).all s.partOk = true)
    (hm : ((coreParts pa.toNat access).any s.inPrivate && !s.memSlot) = false) :
    s.doFabricWindowAccess n pa access = (coreParts pa.toNat access).foldl (fun (s : State) p => s.corePart n p) s := by
  rw [State.doFabricWindowAccess, hk, hf, hm]
  rfl

variable {p : CorePart}

/-- An access of one part that raises a fault. -/
theorem State.doFabricWindowAccess_of_part_fault (hk : s.kernelOn n = none) (hp : coreParts pa.toNat access = [p])
    (hf : s.partOk p = false) : s.doFabricWindowAccess n pa access = s.coreException n (if coreWrites access then 7 else 5) :=
  State.doFabricWindowAccess_of_fault hk (by rw [hp, List.all_cons, hf, Bool.false_and])

/-- An access of one part. -/
theorem State.doFabricWindowAccess_of_part (hk : s.kernelOn n = none) (hp : coreParts pa.toNat access = [p])
    (hf : s.partOk p = true) (hm : s.inPrivate p = false ∨ s.memSlot = true) :
    s.doFabricWindowAccess n pa access = s.corePart n p := by
  have hslot : ([p].any s.inPrivate && !s.memSlot) = false := by
    obtain hm | hm := hm
    · rw [List.any_cons, hm, List.any_nil]
      rfl
    · rw [hm, Bool.not_true, Bool.and_false]
  rw [State.doFabricWindowAccess_of_ok hk (by rw [hp, List.all_cons, hf]; rfl) (by rw [hp, hslot]), hp, List.foldl_cons, List.foldl_nil]

/-- A part in a window is a request on the window's queue. -/
theorem State.corePart_of_window {w : Nat} (hp : s.corePlace p.pa p.bytes = some (.window w)) :
    s.corePart n p = s.issueMemory (s.get (F.ILX_FWIN_A_QUEUE w)) p.op (s.get (F.ILX_FWIN_B_BASE w) * 2 ^ 44 + p.pa % 2 ^ 44)
      p.bytes p.data 0 (.core n) := by
  rw [State.corePart, hp]

/-- An access of one part through a valid window. -/
theorem State.doFabricWindowAccess_of_window {w : Nat} (hk : s.kernelOn n = none) (hp : coreParts pa.toNat access = [p])
    (hpl : s.corePlace p.pa p.bytes = some (.window w)) (hv : s.flag (F.ILX_FWIN_A_VALID w) = true) (ha : p.aligned = true)
    (hkind : p.kind = .plain ∨ p.kind = .vector ∨ p.kind = .amo) :
    s.doFabricWindowAccess n pa access = s.issueMemory (s.get (F.ILX_FWIN_A_QUEUE w)) p.op
      (s.get (F.ILX_FWIN_B_BASE w) * 2 ^ 44 + p.pa % 2 ^ 44) p.bytes p.data 0 (.core n) := by
  have hpriv : s.inPrivate p = false := by rw [State.inPrivate, hpl]
  rw [State.doFabricWindowAccess_of_part hk hp (State.partOk_of_window hpl hv ha hkind) (.inl hpriv), State.corePart_of_window hpl]

/-- An access of one part in the cores' own memory. -/
theorem State.doFabricWindowAccess_of_private {x : Nat} (hk : s.kernelOn n = none) (hp : coreParts pa.toNat access = [p])
    (hpl : s.corePlace p.pa p.bytes = some (.priv x)) (hf : s.partOk p = true) (hm : s.memSlot = true) :
    s.doFabricWindowAccess n pa access = s.privAccess n x p := by
  rw [State.doFabricWindowAccess_of_part hk hp hf (.inr hm), State.corePart, hpl]

end

/-! #### A part in the cores' own memory (R340) -/

section
variable {s : State} {n x : Nat} {p : CorePart}

theorem State.privAccess_of_load (hk : p.kind = .plain) (ho : p.op = opLoad) :
    s.privAccess n x p = (s.hbmFetch (s.get F.ILX_MEM_BASE * 2 ^ 30 + x) p.bytes).2.2.emit
      (.coreData n (s.hbmFetch (s.get F.ILX_MEM_BASE * 2 ^ 30 + x) p.bytes).1
        (s.hbmFetch (s.get F.ILX_MEM_BASE * 2 ^ 30 + x) p.bytes).2.1) := by
  have hsc : ¬ p.kind = .sc := by rw [hk]; decide
  have hlr : ¬ p.kind = .lr := by rw [hk]; decide
  have hst : ¬ p.op = opStore := by rw [ho]; decide
  rw [State.privAccess, if_neg hsc, if_neg hst]
  dsimp only
  rw [if_neg hlr, if_pos (.inl ho)]

theorem State.privAccess_of_store (hk : p.kind = .plain) (ho : p.op = opStore) : s.privAccess n x p = s.privStore x p.data := by
  have hsc : ¬ p.kind = .sc := by rw [hk]; decide
  rw [State.privAccess, if_neg hsc, if_pos ho]

theorem State.privAccess_of_sc_held (hk : p.kind = .sc) (hr : s.ilx.reserved.contains (n, x, p.bytes) = true) :
    s.privAccess n x p = ((s.privStore x p.data).reserve n none).emit (.coreData n (toBytesLE 8 0) false) := by
  rw [State.privAccess, if_pos hk, hr]
  rfl

theorem State.privAccess_of_sc_lost (hk : p.kind = .sc) (hr : s.ilx.reserved.contains (n, x, p.bytes) = false) :
    s.privAccess n x p = (s.reserve n none).emit (.coreData n (toBytesLE 8 1) false) := by
  rw [State.privAccess, if_pos hk, hr]
  rfl

end

/-! #### Fences and the watchdog (R342, R345) -/

theorem pageOf_ILX_C_FENCE (n : Fin 32) : pageOf (Reg.ILX_C_FENCE n) = some (17, 4, 0x108 + 0x10 * n.val) := by
  have ha : Reg.ILX_C_FENCE n = pageBase 17 4 + (0x108 + 0x10 * n.val) := by
    rw [Reg.ILX_C_FENCE, show pageBase 17 4 = 0x1114000 from rfl]
    omega
  rw [ha, pageOf_pageBase_add (by decide) (by omega)]

theorem pageOf_ILX_WDOG : pageOf Reg.ILX_WDOG = some (17, 0, 0x110) :=
  pageOf_firstPage (t := 17) (off := 0x110) (by decide) (by decide)

section
variable {data : Word} {aux : Option Nat} {s : State} {w : RegWrite}

theorem regHook_ilxPage {i off : Nat} (h : 0x100 ≤ off) : regHook data aux 17 i off s w = hookLatePages aux 17 i off s w := by
  simp [regHook, show ¬ off < 0x100 by omega]

theorem regHook_ILX_C_FENCE (n : Nat) : regHook data aux 17 4 (0x108 + 0x10 * n) s w = hookCoreFence n s w := by
  have he : (0x108 + 0x10 * n - 0x100) % 0x10 = 8 := by omega
  have hn : (0x108 + 0x10 * n - 0x100) / 0x10 = n := by omega
  rw [regHook_ilxPage (by omega)]
  simp [hookLatePages, he, hn]

theorem regHook_ILX_WDOG : regHook data aux 17 0 0x110 s w = hookWdog s w := by
  rw [regHook_ilxPage (by decide)]
  simp [hookLatePages]

theorem hookWdog_of_management (h : Path.management w.path = true) {t : State} (ht : s.takeWrite w = t) :
    hookWdog s w = { t with ilx := { t.ilx with wdogAt := s.clk } } := by
  subst ht
  exact if_pos h

theorem hookWdog_of_other (h : Path.management w.path = false) : hookWdog s w = s.takeWrite w :=
  if_neg (by rw [h]; exact Bool.false_ne_true)

theorem State.doWatchdogExpire_of_due {t : State} (hf : s.firmwareRuns = true) (hd : s.ilx.wdogAt + s.get F.ILX_WDOG_PERIOD ≤ s.clk)
    (ht : s.loseMailboxes.resetCores.count F.ILX_WDOG_RESETS 1 = t) :
    s.doWatchdogExpire = t.fault 4 0x0042 17 0 { detail0 := (t.reg Reg.ILX_WDOG).toNat } := by
  subst ht
  have hno : ¬ (s.firmwareRuns = false ∨ s.clk < s.ilx.wdogAt + s.get F.ILX_WDOG_PERIOD) := by
    rw [hf]
    rintro (h | h)
    · cases h
    · omega
  exact if_neg hno

end

/-- Settles O43: an access is its parts, each performed in its region of Table 15-1, or raises the fault that its region gives. -/
theorem coreAccessCommandsComplete : Obligations.CoreAccessCommandsComplete := by
  unfold Obligations.CoreAccessCommandsComplete
  refine ⟨?_, ?_, ?_, ?_, ?_, ?_, ?_, ?_, ?_, ?_, ?_, ?_, ?_, ?_, ?_, ?_, ?_⟩
  · intro s n pa access hs hk hok hm
    exact runCmd_of_eq hs (State.doFabricWindowAccess_of_ok (s := s.fresh) hk hok
      (by rw [show s.fresh.memSlot = true from hm, Bool.not_true, Bool.and_false]))
  · intro s n pa k w hs hk hsize ha h hw hw64 hv
    have hpl : s.fresh.corePlace pa.toNat k = some (.window w) := State.corePlace_of_window h hw hw64 hsize ha
    exact runCmd_of_eq hs (State.doFabricWindowAccess_of_window (s := s.fresh) hk rfl hpl hv
      (aligned_of_size hsize ha _ _ _ _) (.inl rfl))
  · intro s n pa d w hs hk hsize ha h hw hw64 hv
    have hpl : s.fresh.corePlace pa.toNat d.length = some (.window w) := State.corePlace_of_window h hw hw64 hsize ha
    exact runCmd_of_eq hs (State.doFabricWindowAccess_of_window (s := s.fresh) hk rfl hpl hv
      (aligned_of_size hsize ha _ _ _ _) (.inl rfl))
  · intro s n pa f x w hs hk ha h hw hw64 hv
    have hpl : s.fresh.corePlace pa.toNat 8 = some (.window w) := State.corePlace_of_window h hw hw64 (by decide) ha
    exact runCmd_of_eq hs (State.doFabricWindowAccess_of_window (s := s.fresh) hk rfl hpl hv
      (aligned_of_size (by decide) ha _ _ _ _) (.inr (.inr rfl)))
  · rintro s n pa k _ d hs h rfl - hk hv
    exact ⟨runCmd_of_eq hs (State.doFabricWindowAccess_of_part_fault (s := s.fresh) hk rfl (State.partOk_of_high h (.inl hv))),
      runCmd_of_eq hs (State.doFabricWindowAccess_of_part_fault (s := s.fresh) hk rfl (State.partOk_of_high h (.inl hv)))⟩
  · intro s n pa k d f x hs h hk
    exact ⟨runCmd_of_eq hs (State.doFabricWindowAccess_of_part_fault (s := s.fresh) hk rfl
        (State.partOk_of_high h (.inr (.inr (.inr (.inl rfl)))))),
      runCmd_of_eq hs (State.doFabricWindowAccess_of_part_fault (s := s.fresh) hk rfl
        (State.partOk_of_high h (.inr (.inr (.inr (.inr rfl)))))),
      runCmd_of_eq hs (State.doFabricWindowAccess_of_part_fault (s := s.fresh) hk rfl
        (State.partOk_of_high h (.inr (.inr (.inl rfl)))))⟩
  · intro s n pa k hs h hk hmis
    have hal : CorePart.aligned { kind := .plain, op := opLoad, pa := pa.toNat, bytes := k, size := k } = false := by
      simp [CorePart.aligned, hmis]
    exact runCmd_of_eq hs (State.doFabricWindowAccess_of_part_fault (s := s.fresh) hk rfl (State.partOk_of_high h (.inr (.inl hal))))
  · intro s n pa access k hs hk hmap
    exact runCmd_of_eq hs (State.doFabricWindowAccess_of_not_mapped (s := s.fresh) hk hmap)
  · intro s n pa hs hk hlo hhi ha
    have hpl (k : Nat) (h0 : 0 < k) (h8 : k ≤ 8) : s.fresh.corePlace pa.toNat k = some .regs :=
      State.corePlace_of_regs hlo (by omega) h0
    refine ⟨?_, ?_⟩
    · have hok := State.partOk_of_regs (p := { kind := .plain, op := opLoad, pa := pa.toNat, bytes := 8, size := 8 })
        (hpl 8 (by decide) (by decide))
      have hpriv : s.fresh.inPrivate { kind := .plain, op := opLoad, pa := pa.toNat, bytes := 8, size := 8 } = false := by
        rw [State.inPrivate, hpl 8 (by decide) (by decide)]
      refine runCmd_of_eq hs ((State.doFabricWindowAccess_of_part (s := s.fresh) hk rfl (hok.trans ?_) (.inl hpriv)).trans ?_)
      · dsimp only
        rw [ha]
        rfl
      · rw [State.corePart, hpl 8 (by decide) (by decide)]
        exact if_pos rfl
    · exact runCmd_of_eq hs (State.doFabricWindowAccess_of_part_fault (s := s.fresh) hk rfl
        (State.partOk_of_regs (hpl 4 (by decide) (by decide))))
  · intro s n pa k x hs hk hm hpa hx
    have hpl : s.fresh.corePlace pa.toNat k = some (.priv x) := State.corePlace_of_private hpa hx
    exact runCmd_of_eq hs ((State.doFabricWindowAccess_of_private (s := s.fresh) hk rfl hpl
      (State.partOk_of_private_plain hpl rfl) hm).trans (State.privAccess_of_load rfl rfl))
  · intro s n pa d x hs hk hm hpa hx
    have hpl : s.fresh.corePlace pa.toNat d.length = some (.priv x) := State.corePlace_of_private hpa hx
    exact runCmd_of_eq hs ((State.doFabricWindowAccess_of_private (s := s.fresh) hk rfl hpl
      (State.partOk_of_private_plain hpl rfl) hm).trans (State.privAccess_of_store rfl rfl))
  · intro s n pa d x hs hk hm hpa hsize ha hx hr
    have hpl : s.fresh.corePlace pa.toNat d.length = some (.priv x) := State.corePlace_of_private hpa hx
    exact runCmd_of_eq hs ((State.doFabricWindowAccess_of_private (s := s.fresh) hk rfl hpl
      (State.partOk_of_private_sc hpl rfl hsize ha) hm).trans (State.privAccess_of_sc_held (s := s.fresh) rfl hr))
  · intro s n pa d x hs hk hm hpa hsize ha hx hr
    have hpl : s.fresh.corePlace pa.toNat d.length = some (.priv x) := State.corePlace_of_private hpa hx
    exact runCmd_of_eq hs ((State.doFabricWindowAccess_of_private (s := s.fresh) hk rfl hpl
      (State.partOk_of_private_sc hpl rfl hsize ha) hm).trans (State.privAccess_of_sc_lost (s := s.fresh) rfl hr))
  · rintro s p n data _ hs ho rfl
    exact runCmd_pathWrite_of_open hs ho (pageOf_ILX_C_FENCE n) (regHook_ILX_C_FENCE n.val)
  · intro s t hs hf hd ht
    exact runCmd_of_eq hs (State.doWatchdogExpire_of_due (s := s.fresh) hf hd ht)
  · rintro s _ p data hs ho rfl hp
    exact runCmd_pathWrite_of_open hs ho pageOf_ILX_WDOG (regHook_ILX_WDOG.trans (hookWdog_of_other (by rw [State.writeOf_path, hp])))
  · intro s t p data hs ho ht hp
    exact runCmd_pathWrite_of_open hs ho pageOf_ILX_WDOG (regHook_ILX_WDOG.trans
      (hookWdog_of_management (s := s.fresh) (by rw [State.writeOf_path, hp]) ht))

end Sys2Proof.Machine

/-! ### Mailbox requests and calls of control kernels -/

namespace Sys2Proof.Machine

/-! #### Mailbox requests (R346, Table 15-3) -/

section
variable {s : State} {a : Fin 16}

/-- Firmware carries out the request that waits. -/
theorem State.mbRun_of_waits {n cmd : Nat} (hw : s.mbWaits n = true) (hc : s.mbCmd n = cmd) (f : State → State) :
    s.mbRun n cmd f = f s := if_pos ⟨hw, hc⟩

theorem State.doInfo_of_waits (hw : s.mbWaits a = true) (hc : s.mbCmd a = 1) :
    s.doInfo a = ((List.range 6).foldl (fun (t : State) k => t.setReg (Reg.ILX_MB_RSP a (2 + k)) (t.reg (Reg.SEC_FW_HASH k)))
      (s.setRsp a 1 (s.get F.MGT_DEV_ID_STEPPING * 2 ^ 60 + s.up.firmwareVersion % 2 ^ 60))).mbAnswer a 1 := by
  rw [State.doInfo, State.mbRun_of_waits hw hc]

theorem State.doKernelLoad_of_waits (hw : s.mbWaits a = true) (hc : s.mbCmd a = 2) : s.doKernelLoad a = s.loadKernel a :=
  State.mbRun_of_waits hw hc _

/-- With kernels disabled none is loaded. -/
theorem State.loadKernel_of_disabled {n : Nat} (ho : s.hbmOpen = true) (he : s.flag F.ILX_CTL_KERNEL_EN = false) :
    s.loadKernel n = s.mbAnswer n 0x23 := by
  unfold State.loadKernel
  refine (if_neg (by rw [ho]; decide)).trans ?_
  exact if_pos (.inl he)

/-- A request to load that Table 15-3 allows: its number, its sizes and its windows. -/
structure State.LoadValid (s : State) (a : Nat) : Prop where
  enabled : s.flag F.ILX_CTL_KERNEL_EN = true
  number : s.mbReq a 1 ≤ 27
  absent : s.kernel (s.mbReq a 1) = none
  imageSome : 0 < s.mbReq a 3
  imageFits : s.mbReq a 3 ≤ bitsOf (s.mbReq a 4) 47 32 * 2 ^ 20
  imageInHbm : s.mbReq a 2 + s.mbReq a 3 ≤ hbmSize
  coresLo : 1 ≤ s.mbReq a 4 % 32
  coresHi : s.mbReq a 4 % 32 ≤ 8
  sizeLo : 16 * 2 ^ 20 ≤ bitsOf (s.mbReq a 4) 47 32 * 2 ^ 20
  sizeHi : bitsOf (s.mbReq a 4) 47 32 * 2 ^ 20 ≤ 1024 * 2 ^ 20
  listInHbm : s.mbReq a 6 + 2 ≤ hbmSize
  windows : (setBitsList (s.mbReq a 5) 64).all (fun w => s.flag (F.ILX_FWIN_A_VALID w)) = true

/-- A valid request goes on to its grant list. -/
theorem State.LoadValid.not_denied {n : Nat} (h : s.LoadValid n) :
    ¬ (s.flag F.ILX_CTL_KERNEL_EN = false ∨ 27 < s.mbReq n 1 ∨
      ((s.kernel (s.mbReq n 1)).map (fun k => k.state != 3)).getD false = true ∨ s.mbReq n 3 = 0 ∨
      bitsOf (s.mbReq n 4) 47 32 * 2 ^ 20 < s.mbReq n 3 ∨ hbmSize < s.mbReq n 2 + s.mbReq n 3 ∨ s.mbReq n 4 % 32 < 1 ∨
      8 < s.mbReq n 4 % 32 ∨ bitsOf (s.mbReq n 4) 47 32 * 2 ^ 20 < 16 * 2 ^ 20 ∨
      1024 * 2 ^ 20 < bitsOf (s.mbReq n 4) 47 32 * 2 ^ 20 ∨ hbmSize < s.mbReq n 6 + 2 ∨
      (setBitsList (s.mbReq n 5) 64).all (fun w => s.flag (F.ILX_FWIN_A_VALID w)) = false) := by
  obtain ⟨he, hnum, habs, h0, hfit, himg, hc1, hc8, hs1, hs2, hlist, hwin⟩ := h
  rw [he, habs, hwin]
  simp only [Option.map_none, Option.getD_none, Bool.false_eq_true, Bool.true_eq_false, false_or, or_false]
  omega

/-- A valid request with good grants and free cores and memory is a loaded kernel. -/
theorem State.loadKernel_of_valid {n : Nat} (ho : s.hbmOpen = true) (hv : s.LoadValid n) {t u v : State} {c g b : List Byte} {bad : Bool}
    {m : Nat} (hc : s.hbmFetch (s.mbReq n 6) 2 = (c, false, t)) (h64 : bytesAt c 0 2 ≤ 64)
    (hin : s.mbReq n 6 + 2 + 2 * bytesAt c 0 2 ≤ hbmSize)
    (hg : t.hbmFetch (s.mbReq n 6 + 2) (2 * bytesAt c 0 2) = (g, false, u))
    (hq : ((List.range (bytesAt c 0 2)).map (fun i => bytesAt g (2 * i) 2)).all (fun q => decide (q < 512) && u.grantable q) = true)
    (hm : u.freePrivate (bitsOf (s.mbReq n 4) 47 32 * 2 ^ 20) = some m) (hn : s.mbReq n 4 % 32 ≤ u.freeCores.length)
    (hb : u.hbmFetch (s.mbReq n 2) (s.mbReq n 3) = (b, bad, v)) :
    s.loadKernel n = (let x := v.hbmStore (v.get F.ILX_MEM_BASE * 2 ^ 30 + m) b bad
      (x.setKernel
        { num := s.mbReq n 1, cores := x.freeCores.take (s.mbReq n 4 % 32), memAt := m
          memSize := bitsOf (s.mbReq n 4) 47 32 * 2 ^ 20, windows := s.mbReq n 5
          queues := (List.range (bytesAt c 0 2)).map (fun i => bytesAt g (2 * i) 2), slice := x.slice }).mbAnswer n 1) := by
  have hlist : (false || decide (64 < bytesAt c 0 2) || decide (hbmSize < s.mbReq n 6 + 2 + 2 * bytesAt c 0 2)) = false := by
    rw [decide_eq_false (by omega), decide_eq_false (by omega)]
    rfl
  unfold State.loadKernel
  refine (if_neg (by rw [ho]; decide)).trans ((if_neg hv.not_denied).trans ?_)
  rw [hc]
  refine (if_neg (by rw [hlist]; decide)).trans ?_
  rw [hg]
  refine (if_neg (by rw [hq]; decide)).trans ?_
  rw [hm]
  refine (if_neg (by omega)).trans ?_
  rw [hb]

theorem State.doKernelStart_of_loaded {k : Kernel} (hw : s.mbWaits a = true) (hc : s.mbCmd a = 3)
    (hk : s.kernel (s.mbReq a 1) = some k) (h1 : k.state = 1) :
    s.doKernelStart a = (s.setKernel { k with state := 2, arg := s.mbReq a 2 }).mbAnswer a 1 := by
  rw [State.doKernelStart, State.mbRun_of_waits hw hc, hk]
  exact if_pos h1

/-- A kernel that has not stopped stops, after its queues' descriptors are aborted where ABORT is set. -/
theorem State.doKernelStop_of_live {k : Kernel} (hw : s.mbWaits a = true) (hc : s.mbCmd a = 4)
    (hk : s.kernel (s.mbReq a 1) = some k) (h3 : k.state ≠ 3) {t : State}
    (ht : (if bitAt (s.mbReq a 2) 0 then k.queues.foldl State.abortQueue s else s) = t) :
    s.doKernelStop a = (t.freeNext.stopKernel k (k.cores.headD 0) (t.free 64)).mbAnswer a 1 := by
  subst ht
  rw [State.doKernelStop, State.mbRun_of_waits hw hc, hk]
  exact if_pos h3

theorem State.doKernelStatus_of_known {k : Kernel} (hw : s.mbWaits a = true) (hc : s.mbCmd a = 5) (h27 : s.mbReq a 1 ≤ 27)
    (hk : s.kernel (s.mbReq a 1) = some k) :
    s.doKernelStatus a = (((s.setRsp a 1 k.state).setRsp a 2 k.exit).setRsp a 3 k.stat).mbAnswer a 1 := by
  rw [State.doKernelStatus, State.mbRun_of_waits hw hc, hk]
  exact if_neg (by omega)

theorem State.doTelCfg_of_valid (hw : s.mbWaits a = true) (hc : s.mbCmd a = 6) (h6 : 6 ≤ s.mbReq a 2 % 32)
    (h20 : s.mbReq a 2 % 32 ≤ 20) (hin : s.mbReq a 1 + 64 * 2 ^ (s.mbReq a 2 % 32) ≤ hbmSize) :
    s.doTelCfg a = ({ s with ilx := { s.ilx with ring := some (s.mbReq a 1, s.mbReq a 2 % 32), written := 0 } } : State).mbAnswer a 1 := by
  rw [State.doTelCfg, State.mbRun_of_waits hw hc]
  exact if_neg (by omega)

theorem State.doMbReservedCommand_of_high (hw : s.mbWaits a = true) (hc : 6 < s.mbCmd a) :
    s.doMbReservedCommand a = s.mbAnswer a 0x23 := if_pos ⟨hw, .inr hc⟩

theorem State.doMbRsp0Write_of_answer {st : Nat} (h : s.ilx.answers.find? (fun x => x.1 == a.val) = some (a.val, st)) {t : State}
    (ht : (s.setRsp a 0 (bitsOf (s.mbReq a 0) 31 16 * 2 ^ 16 + st * 2 ^ 8)).putFlag (F.ILX_MB_CTL_BUSY a) false = t) :
    s.doMbRsp0Write a = { t with ilx := { t.ilx with answers := t.ilx.answers.filter (fun x => x.1 != a.val) } } := by
  subst ht
  rw [State.doMbRsp0Write, h]

end

/-- Settles O44: firmware carries out the request that waits, as Table 15-3 gives for its command. -/
theorem mailboxCommandsComplete : Obligations.MailboxCommandsComplete := by
  unfold Obligations.MailboxCommandsComplete
  refine ⟨?_, ?_, ?_, ?_, ?_, ?_, ?_, ?_, ?_, ?_⟩
  · intro s a hs hw hc
    exact runCmd_of_eq hs (State.doInfo_of_waits (s := s.fresh) hw hc)
  · rintro s a t u v c g b bad _ _ _ _ _ _ m _ hs hw hc ho rfl rfl rfl rfl rfl he hnum habs h0 hfit himg hc1 hc8 hs1 hs2 hlist hwin
      hcnt rfl h64 hin hg rfl hq hm hn hb
    exact runCmd_of_eq hs ((State.doKernelLoad_of_waits (s := s.fresh) hw hc).trans (State.loadKernel_of_valid (s := s.fresh) ho
      ⟨he, hnum, habs, h0, hfit, himg, hc1, hc8, hs1, hs2, hlist, hwin⟩ hcnt h64 hin hg hq hm hn hb))
  · intro s a hs hw hc ho he
    exact runCmd_of_eq hs ((State.doKernelLoad_of_waits (s := s.fresh) hw hc).trans (State.loadKernel_of_disabled (s := s.fresh) ho he))
  · intro s a k hs hw hc hk h1
    exact runCmd_of_eq hs (State.doKernelStart_of_loaded (s := s.fresh) hw hc hk h1)
  · intro s a k hs hw hc hk h3 hab
    exact runCmd_of_eq hs (State.doKernelStop_of_live (s := s.fresh) hw hc hk h3 (if_neg (by rw [State.fresh_mbReq, hab]; decide)))
  · intro s t a k hs hw hc hk h3 hab ht
    exact runCmd_of_eq hs (State.doKernelStop_of_live (s := s.fresh) hw hc hk h3 ((if_pos hab).trans ht))
  · intro s a k hs hw hc h27 hk
    exact runCmd_of_eq hs (State.doKernelStatus_of_known (s := s.fresh) hw hc h27 hk)
  · intro s a hs hw hc h6 h20 hin
    exact runCmd_of_eq hs (State.doTelCfg_of_valid (s := s.fresh) hw hc h6 h20 hin)
  · intro s a hs hw hc
    exact runCmd_of_eq hs (State.doMbReservedCommand_of_high (s := s.fresh) hw hc)
  · intro s t a st hs hans ht
    exact runCmd_of_eq hs (State.doMbRsp0Write_of_answer (s := s.fresh) hans ht)

/-! #### A call on the collective engine's op queue (R133, R347) -/

/-- A device whose collective engine has op queue 383, as at reset, and whose core 1 runs a kernel to which that queue was granted:
KERNEL_LOAD refuses such a grant, but COLQ may name the queue later. -/
def grantedDevice : State :=
  { State.reset with ilx := { State.reset.ilx with
      kernels := [{ num := 1, state := 2, cores := [1], memAt := 0, memSize := 0, windows := 0, queues := [383] }] } }

/-- TAIL of op queue 383 in the state that a command answers. -/
def tailOf383 : Host.Outcome State Fault Refusal → Nat
  | .next t => t.get (F.PLT_OQ_IDX_TAIL 383)
  | .fault _ => 0
  | .refused _ => 0

/-- The call is discarded and counted. -/
theorem tailOf383_submit : tailOf383 (exec (.submit 1 383 1) grantedDevice) = 0 := by decide +kernel

/-- What the statement gives takes the TAIL. -/
theorem tailOf383_stated :
    tailOf383 (.next ((grantedDevice.fresh.setOqTail 383 1).emit (.coreReturn 1 1)).settled) = 1 := by
  decide +kernel

/-- Refutes O45: the clause of SUBMIT has no hypothesis that excludes the collective engine's op queue. A kernel's TAIL for that
queue, granted to it, is discarded and counted in COLQ_REJ (R133), while the state stated has taken it. -/
theorem not_kernelCommandsComplete : ¬ Obligations.KernelCommandsComplete := by
  rintro ⟨hsubmit, -⟩
  have h := hsubmit grantedDevice 1 383 1 _ (by decide +kernel) rfl (by decide) (by decide +kernel) (by decide +kernel)
    (by decide +kernel)
  have htail := tailOf383_submit
  rw [h] at htail
  exact absurd (htail.symm.trans tailOf383_stated) (by decide)

end Sys2Proof.Machine
